-- ==== Sys2Proof/Word.lean ====
section
/-! DEFINITION. The word types of the Guljor GJ-7720 model and their plainest arithmetic (00 R9, 18 R463). -/

namespace Sys2Proof

/-- One byte. -/
abbrev Byte := BitVec 8

/-- A register: 32 bits (18 R463). -/
abbrev Word := BitVec 32

/-- A 64-bit value: handles, host addresses, sequence numbers. -/
abbrev DWord := BitVec 64

/-- Function number, 0 to 255 (02 R52). -/
abbrev FnNo := BitVec 8

/-- Queue index within a function, 0 to 15 (03 R80). -/
abbrev QNo := BitVec 4

/-- Unit identity of the rack tree (01 R19). -/
abbrev UnitNo := BitVec 16

/-- The porter hardware's job sequence number (06 R181), which names a job inside the device. -/
abbrev JobId := Nat

/-- `ceil (a / b)`. -/
def ceilDiv (a b : Nat) : Nat := (a + b - 1) / b

end Sys2Proof
end

