-- ==== Sys2Proof/Syntax.lean ====
section
/-! DEFINITION. The commands of the GJ-7720, one constructor for every row of spec/opcode_table.json, and their operands.
What the spec leaves to the world outside the device (host memory that a read returns, sensor levels, card and peer bytes,
noise samples, bit errors) is an operand of the command that brings it in (log entry 1). -/

namespace Sys2Proof

/-- Who issues an access (10 R289): the initiator ID, whether a core is in its privileged mode, and, for a function's ID,
whether the access is MMIO through the function's BARs (privileged) or its DMA channel (user). -/
structure Ini where
  id   : BitVec 10
  priv : Bool
deriving DecidableEq, Repr

/-- A data descriptor of a submission entry (03 R87); the reserved bits are kept for malformation 0x08. -/
structure Desc where
  addr : DWord
  blen : Word
  dir  : Bool          -- true: the device writes the buffer
  resv : BitVec 31     -- bits 6:0 of byte 12 and bytes 13-15
deriving DecidableEq, Repr

/-- A submission entry as its header, descriptors and operand area say (03 R85-R87). -/
structure Entry where
  fn       : FnNo
  q        : QNo
  tag      : Word
  fence    : Bool
  nointr   : Bool
  pr       : Bool
  keysel   : BitVec 2
  param    : Word
  keyref   : DWord
  descs    : List Desc
  operands : List Byte
deriving DecidableEq, Repr

/-- What a DMA read of a job serves: read descriptor `i`, or the crate named with keysel 2 (03 R101). -/
inductive DmaSrc where
  | desc (i : Nat)
  | crate
deriving DecidableEq, Repr

/-- An outstanding DMA read (03 R100). -/
inductive ReadTag where
  | index (fn : FnNo) (q : QNo)
  | entry (fn : FnNo) (q : QNo)
  | data  (job : JobId) (src : DmaSrc)
deriving DecidableEq, Repr

/-- The fault checks of the engine chapters (05 R160, 06 R166-R180, 07 R197, 01 R43, 15 R408). -/
inductive CheckKind where
  | abMismatch                             -- the halves, the two nonces, or the units of a pair differ
  | resultCurve                            -- an output point, or k·G, is not on the curve (05 R160)
  | wipeReadback (window : Nat)            -- of a window or partition; of the whole memory on a PK shelf
  | inversion | keyExpansion | ghash | hashAb | selfTest
deriving DecidableEq, Repr

/-- A fault check that fails on a unit in the tick that ends, and the job whose result failed it; none stands for the result of every
job on the unit (01 R41 test 4, 06 R172). -/
structure ShelfFault where
  unit : UnitNo
  kind : CheckKind
  job  : Option JobId
deriving DecidableEq, Repr

/-- A memory error that the scrubber or a read finds (15 R413-R415). -/
inductive MemError where
  | corrected                              -- corrected and written back
  | sram (addr : BitVec 25)                -- uncorrectable word of shared SRAM
  | keySlot (slot : BitVec 18)             -- uncorrectable word of a key-cache slot
  | mramPlace (place : BitVec 15)          -- uncorrectable line of a cellar place
  | mramEvent (seq : DWord)                -- uncorrectable line of the event recorder
  | mramCustody (b : Bool)                 -- uncorrectable line of a copy of the custody record
  | mramOther                              -- nonce journal, store-room state: the other copy stands
deriving DecidableEq, Repr

/-- One reading of the aging monitors and junction sensors (15 R417), in ps and in 0.1 degree Celsius. -/
structure Telemetry where
  monitor : BitVec 6      -- the monitor with the lowest margin
  margin  : Byte
  hottest : BitVec 16     -- highest junction temperature, signed
  lineWear : Word         -- highest write count of an MRAM line outside the cellar places, in units of 2^20
deriving DecidableEq, Repr

/-- Two results of an RNG AES pair that differ (09 R280). -/
structure PairMismatch where
  pair    : BitVec 2
  job     : JobId
  rerunBad : Bool         -- the rerun on another pair differs as well
deriving DecidableEq, Repr

/-- Samples that a noise source delivers, the oldest first (09 R263). -/
structure SourceSamples where
  source : BitVec 3
  bits   : List Bool
deriving DecidableEq, Repr

/-- What a run of the RNG's known-answer tests finds (09 R285): the SHA-384 units and AES pairs that fail it, and those that fail it
again when they are tested once more. -/
structure KatIn where
  sha       : BitVec 2
  shaAgain  : BitVec 2
  pair      : BitVec 4
  pairAgain : BitVec 4
deriving DecidableEq, Repr

/-- A start-up test (09 R266): its 1,024 samples, and what the known-answer tests of R285 find. -/
structure StartupIn where
  bits : List Bool
  kat  : KatIn
deriving DecidableEq, Repr

/-- What the world outside decides in the tick that a boundary ends (log entry 1). -/
structure BoundaryIn where
  rtc       : Nat                  -- RTC cycles that passed in the tick
  faults    : List ShelfFault
  badVerdicts : List UnitNo        -- verifying shelves whose verdict on a good signature is not OK (05 R161)
  badContexts : List JobId         -- streams whose context fails its CRC-32 (06 R182, 07 R211)
  memErrors : List MemError
  telemetry : Telemetry
  kat       : KatIn                -- the RNG's known-answer tests in the background budget (09 R285)
  pairs     : List PairMismatch
  badCores  : BitVec 16            -- cores (keeper 0-5, porter 6-15) that fail the test of a start of their world (15 R412)
deriving DecidableEq, Repr

/-- Kinds of interconnect access (10 R304). -/
inductive TxnKind where
  | read | write | fetch | atomic
deriving DecidableEq, Repr

/-- An interconnect transaction (10 R289-R292): `burst` may be split at page edges, a single access may not;
`buffered` writes get no error response. -/
structure Txn where
  ini      : Ini
  mmio     : Bool          -- a function's MMIO (true) or its DMA channel (false)
  kind     : TxnKind
  burst    : Bool
  buffered : Bool
  addr     : BitVec 40     -- an internal address; for a function's MMIO the offset in its BAR0 (18 R472)
  len      : Nat
  data     : List Byte     -- the bytes of a write or atomic
deriving DecidableEq, Repr

/-- Levels at the sampled tamper inputs (13 R352-R356). -/
structure TamperIn where
  sw      : BitVec 8       -- level of SW0-SW7
  meshBad : BitVec 4       -- pairs whose sense does not return the drive pattern
  tempLo  : Bool
  tempHi  : Bool
  clkRtc  : Bool
  light   : Bool           -- looked at on battery only; continuous on main power
deriving DecidableEq, Repr

/-- What a battery burst measures besides (13 R356). -/
structure BurstIn where
  levels   : TamperIn
  mismatch : Bool                          -- a guarded battery-domain register differs from its shadow in this burst
  vbat     : Option (BitVec 16 × BitVec 16) -- every 256th burst: VBAT_A and VBAT_B in mV
deriving DecidableEq, Repr

/-- A firmware image that a world starts from (14 R398): kind, signer digest and security version number. -/
structure Image where
  signer     : List Byte
  svn        : BitVec 12
  testSigned : Bool
deriving DecidableEq, Repr

/-- A trained link, and what the host has set in Device Control (02 R51): rate 0 to 2 for 16, 32 and 64 GT/s, 2^width lanes,
Max Payload Size and Max Read Request Size as 128 x 2^n bytes. -/
structure LinkCfg where
  rate    : BitVec 2
  width   : BitVec 3
  payload : BitVec 3
  readReq : BitVec 3
deriving DecidableEq, Repr

/-- A port's link comes up. -/
structure LinkUp where
  port : Bool
  link : LinkCfg
deriving DecidableEq, Repr

/-- What the cold start sequence finds (14 R397): the canary of the BAT domain, the counter bits that cannot be programmed,
the images, the entries of the boot configuration, the cores that pass their test, and the copies that are intact. -/
structure BootIn where
  canaryOk    : Bool
  badBits     : List Nat
  loader      : Image
  ilmel       : Image
  porterImage : Image
  extension   : Option Image                       -- a customer extension
  porterSigner : List Byte
  potEntries  : List (Nat × Nat × Word)            -- first page, count, value
  aclEntries  : List (Nat × Word × Word × Word × Word)
  keeperCores : BitVec 6
  porterCores : BitVec 10
  tornPlaces  : List Nat                           -- cellar images whose CRC-32 fails
  tornCustody : BitVec 2                           -- custody copies A and B whose HMAC fails
  storeRoomOk : Bool
deriving DecidableEq, Repr

/-- How a frame of the twin link arrives (16 R425, R426). -/
structure FrameHdr where
  seq   : DWord
  ack   : DWord
  crcOk : Bool
  tagOk : Bool
deriving DecidableEq, Repr

/-- A cellar record's content as it travels and is stored (08 R240), less what each device makes itself (place, seal, commit). -/
structure RecImage where
  key     : Word
  parent  : Word
  tenant  : BitVec 16
  version : BitVec 16
  ktype   : Byte
  level   : Byte
  attr    : BitVec 16
  export_ : Byte
  origin  : BitVec 2
  qinval  : Bool
  record  : Word
  pfx     : BitVec 31
  stamp   : DWord
  value   : List Byte
  point   : List Byte
  state   : Byte
deriving DecidableEq, Repr

/-- A tenant (08 R225, R226): its number, qlevel and cellar quota. -/
structure TenantRec where
  no     : BitVec 16
  qlevel : Byte
  quota  : Word
deriving DecidableEq, Repr

/-- A card entry of the custody record (11 R326). -/
structure CardEntry where
  cardId : List Byte
  index  : Nat
  pub    : List Byte
  check  : List Byte
deriving DecidableEq, Repr

/-- The custody record (11 R326). -/
structure Custody where
  m       : Nat
  n       : Nat
  version : Word
  commit  : Word
  digest  : List Byte
  cards   : List CardEntry
deriving DecidableEq, Repr

/-- The objects that a CHANGE mirrors (16 R432). -/
inductive MirrorObj where
  | record (r : RecImage)
  | tenant (t : TenantRec)
  | tenantDelete (no : BitVec 16)
  | planSeq (seq : DWord)
  | custody (c : Custody)
deriving DecidableEq, Repr

/-- A HELLO's content (16 R429). -/
structure HelloMsg where
  raw        : List Byte     -- the payload as it arrived
  chainOk    : Bool          -- the chain verifies against the Avmievo root key
  attestKey  : List Byte     -- the attestation public point that the chain certifies
  point      : List Byte     -- ephemeral P-384 point
  nonce      : List Byte
  index      : Bool
  isEmpty    : Bool
  diverged   : Bool
  released   : Bool
  endOfLife  : Bool
  grSeq      : DWord
  mSeq       : DWord
  signerKey  : List Byte     -- its plan signer key, empty when none
deriving DecidableEq, Repr

/-- A STATUS frame's content (16 R432). -/
structure StatusMsg where
  level    : BitVec 2
  locked   : Bool
  zeroized : Bool
  lcState  : BitVec 2
deriving DecidableEq, Repr

/-- A nonce journal entry (06 R191): record, twin index and next_free. -/
structure JournalEntry where
  record   : Word
  twin     : Bool
  nextFree : Nat
deriving DecidableEq, Repr

/-- The two worlds (10 R288). -/
inductive World where
  | keeper | porter
deriving DecidableEq, Repr

/-- A command of the GJ-7720: one constructor for every row of spec/opcode_table.json. -/
inductive Instr where
  | tickBoundary (b : BoundaryIn)
  | planCut
  | rotationStart
  | strikeExpire (unit : UnitNo)
  | rackSvcreqDrain (ini : Ini) (unit : UnitNo)
  | rackSvcreqReturn (ini : Ini) (unit : UnitNo)
  | guardedRegisterWrite (ini : Ini) (addr : BitVec 40) (v : Word)
  | guardedShadowWrite (ini : Ini) (addr : BitVec 40) (v : Word)
  | guardMismatch (addr : BitVec 40)
  | registerWrite (ini : Ini) (addr : BitVec 40) (data : List Byte)
  | pgEvtSetWrite (ini : Ini) (page : BitVec 28) (v : Word)
  | pgLockWrite (ini : Ini) (page : BitVec 28) (v : Word)
  | funcCreate (ini : Ini) (fn : FnNo)
  | funcRelease (ini : Ini) (fn : FnNo)
  | funcReset (ini : Ini) (fn : FnNo)
  | pcieFlr (fn : FnNo)
  | portLinkDown (port : Bool)
  | portLinkUp (up : LinkUp)
  | perstAssert (port : Bool)
  | perstDeassert (port : Bool) (sris : Bool)
  | vfEnableChange (port : Bool) (enable : Bool) (numVfs : BitVec 7)
  | busMasterEnable (fn : FnNo) (on : Bool)
  | msixMaskClear (fn : FnNo) (vector : BitVec 5)
  | doeRequest (port : Bool) (obj : List Byte)
  | doeDiscovery (port : Bool) (index : Byte)
  | doeAbort (port : Bool)
  | getVersion (port : Bool)
  | getCapabilities (port : Bool)
  | negotiateAlgorithms (port : Bool) (asymP384 : Bool) (hashSha384 : Bool)
  | getDigests (port : Bool)
  | getCertificate (port : Bool) (slot : BitVec 3) (offset : BitVec 16) (len : BitVec 16)
  | challenge (port : Bool) (slot : BitVec 3) (nonce : List Byte)
  | getMeasurements (port : Bool) (block : Byte) (sign : Bool) (nonce : List Byte)
  | spdmUnsupportedRequest (port : Bool) (code : Byte)
  | hatchRing (fn : FnNo) (q : QNo)
  | indexReadReturn (fn : FnNo) (q : QNo) (res : Option (Word × Word))
  | entryReadReturn (fn : FnNo) (q : QNo) (res : Option (List Byte))
  | fetchResume (fn : FnNo) (q : QNo)
  | dmaReadCompletion (job : JobId) (src : DmaSrc) (res : Option (List Byte))
  | dmaCompletionTimeout (tag : ReadTag)
  | queueEnable (fn : FnNo) (q : QNo)
  | queueDisable (fn : FnNo) (q : QNo)
  | ecdsaSignP384 (e : Entry)
  | ecdsaVerifyP384 (e : Entry)
  | ecdsaVerifyP384Key (e : Entry)
  | ecdhP384 (e : Entry)
  | keygenP384 (e : Entry)
  | ecdsaSignP256 (e : Entry)
  | ecdsaVerifyP256 (e : Entry)
  | ecdsaVerifyP256Key (e : Entry)
  | ecdhP256 (e : Entry)
  | keygenP256 (e : Entry)
  | rsaVerifyPkcs1v15 (e : Entry)
  | rsaVerifyPss (e : Entry)
  | gcmEncrypt (e : Entry)
  | gcmDecrypt (e : Entry)
  | ccmEncrypt (e : Entry)
  | ccmDecrypt (e : Entry)
  | ctrCrypt (e : Entry)
  | cbcEncrypt (e : Entry)
  | cbcDecrypt (e : Entry)
  | cmacGenerate (e : Entry)
  | cmacVerify (e : Entry)
  | meterGcmEncrypt (e : Entry)
  | meterGcmDecrypt (e : Entry)
  | sha256 (e : Entry)
  | sha384 (e : Entry)
  | sha512 (e : Entry)
  | hmacGenerate (e : Entry)
  | hmacVerify (e : Entry)
  | kdfDerive (e : Entry)
  | imageDigest (e : Entry)
  | keyGenerate (e : Entry)
  | crateLoad (e : Entry)
  | crateExport (e : Entry)
  | keyEvict (e : Entry)
  | keyReplaceBegin (e : Entry)
  | keyReplaceCommit (e : Entry)
  | keyInvalidate (e : Entry)
  | keyInfo (e : Entry)
  | keyPublic (e : Entry)
  | tenantPlanLoad (e : Entry)
  | randomBytes (e : Entry)
  | drbgReseed (e : Entry)
  | attestKey (e : Entry)
  | attestDevice (e : Entry)
  | attestChain (e : Entry)
  | nop (e : Entry)
  | shareBundleLoad (e : Entry)
  | abort (e : Entry)
  | quorumOpen (e : Entry)
  | quorumStatus (e : Entry)
  | lifecycleTransition (e : Entry)
  | tamperLockClear (e : Entry)
  | firmwareUpdate (e : Entry)
  | debugAuthorise (e : Entry)
  | kprKeeperDone (job : JobId)
  | cellarLoadDone (key : Word) (version : BitVec 16)
  | nonceReserveCommit (record : Word) (twin : Bool)
  | rawBlockComplete (source : BitVec 3) (raw : List Byte) (shaAgree : Bool)
  | sourceAlarm (alarm : SourceSamples) (others : List SourceSamples)
  | startupTestDone (source : BitVec 3) (found : StartupIn)
  | pkDraw (job : JobId)
  | rngWaitTimeout (job : JobId)
  | rngRawdataRead (ini : Ini) (arrived : List Bool)
  | fabricTransaction (t : Txn)
  | aclCommitk (ini : Ini)
  | aclCommitp (ini : Ini)
  | potKapply (ini : Ini)
  | potPapply (ini : Ini)
  | potCommitk (ini : Ini)
  | potCommitp (ini : Ini)
  | pageWipe (page : BitVec 13) (readbackOk : Bool)
  | fvalidClear (ini : Ini)
  | aclKpet (ini : Ini)
  | aclPpet (ini : Ini)
  | keeperWatchdogExpire
  | porterWatchdogExpire
  | krestart (ini : Ini)
  | prestart (ini : Ini)
  | worldReady (ini : Ini)
  | cardDebounceEnd (slot : BitVec 2)
  | atrTimeout (slot : BitVec 2)
  | cardClassBRetry (slot : BitVec 2)
  | cardRemove (slot : BitVec 2)
  | crdAct (ini : Ini) (slot : BitVec 2) (cls : BitVec 2)
  | crdDeact (ini : Ini) (slot : BitVec 2)
  | wake (slot : BitVec 2)
  | identify (slot : BitVec 2)
  | openChannel (slot : BitVec 2)
  | shareRelease (slot : BitVec 2)
  | shareWrite (slot : BitVec 2)
  | close (slot : BitVec 2)
  | apduResponse (slot : BitVec 2) (data : List Byte) (sw : BitVec 16)
  | cardBusyTimeout (slot : BitVec 2)
  | cardClockStop (slot : BitVec 2)
  | quorumWindowExpire
  | lcsFuseProgram (ini : Ini)
  | lcsGendrs (ini : Ini)
  | debugSessionEnd
  | tamperSample (levels : TamperIn)
  | batteryBurst (b : BurstIn)
  | tamperAlarm (sources : BitVec 23)
  | tmpAlarmClear (ini : Ini) (v : Word)
  | tmpFuseoff (ini : Ini) (v : Word)
  | batterySourceChange (vddAon : Bool) (cellA : BitVec 16) (cellB : BitVec 16)
  | pgVoteWrite (ini : Ini) (domain : BitVec 5) (v : Word)
  | pwrPvoteWrite (ini : Ini) (v : Word)
  | domainReady (domain : BitVec 5)
  | hwVoteExpire (domain : BitVec 5)
  | clkOppreqWrite (ini : Ini) (v : Word)
  | clkOppcapWrite (ini : Ini) (v : Word)
  | pllLock
  | avsVdone
  | avsSettleTimeout
  | clkSrcSwitch (ini : Ini)
  | pwrSyscmdStandby (ini : Ini) (v : Word)
  | rtcAlarm
  | pwrFailNFall
  | pwrFailNRise
  | coldReset (b : BootIn)
  | rstCmdCold (ini : Ini) (v : Word)
  | jtagReset
  | operatingHour (average : BitVec 16) (peak : BitVec 16)
  | voltageCalibration
  | svcReqsetSet (ini : Ini) (v : Word)
  | svcReqsetClear (ini : Ini) (v : Word)
  | linkTrained (locked : BitVec 4)
  | linkRetrain
  | twinLostTimeout
  | hello (f : FrameHdr) (m : HelloMsg)
  | signed (f : FrameHdr) (sig : List Byte)
  | idle (f : FrameHdr)
  | nak (f : FrameHdr) (expected : DWord)
  | status (f : FrameHdr) (m : StatusMsg)
  | change (f : FrameHdr) (id : DWord) (m : DWord) (objs : List MirrorObj)
  | changeAck (f : FrameHdr) (id : DWord) (m : DWord)
  | changeNak (f : FrameHdr) (id : DWord) (st : Byte)
  | final (f : FrameHdr) (id : DWord)
  | undo (f : FrameHdr) (id : DWord)
  | reserve (f : FrameHdr) (j : JournalEntry)
  | reserveAck (f : FrameHdr) (j : JournalEntry)
  | fill (f : FrameHdr) (objs : List MirrorObj) (heads : List JournalEntry)
  | fillEnd (f : FrameHdr)
  | park (f : FrameHdr) (mSeq : DWord)
  | release (f : FrameHdr) (heads : List JournalEntry)
  | releaseAck (f : FrameHdr)
  | frameResendTimeout
  | idleSendTimer
  | statusSendTimer
  | handshakeRetry
  | linkRekey
  | twnCmdGrant (ini : Ini)
  | twnCmdRelease (ini : Ini) (v : Word)
  | twnCmdPark (ini : Ini) (v : Word)
  | twnCmdRetrain (ini : Ini)
  | evrFlush (ini : Ini)
  | evrFlushDone
  | rateWindowEnd (entry : BitVec 7)
  | evrSnapcmdFetch (ini : Ini) (window : BitVec 2)
  | snapFetchDone (window : BitVec 2) (readable : Bool)
  | pmcClr (ini : Ini) (monitor : BitVec 5)
  | pmcBindWrite (ini : Ini) (monitor : BitVec 5) (v : Word)
  | pmcDump
  | mgtMbSend (ini : Ini) (box : Bool)
  | mgtMbAck (ini : Ini) (box : Bool)
  | mgtMbReply (ini : Ini) (box : Bool)
  | entdaa (addr : BitVec 7)
  | setdasa (static : BitVec 7) (addr : BitVec 7)
  | rstdaa
  | enec (events : Byte)
  | disec (events : Byte)
  | getpid
  | getbcr
  | getdcr
  | getstatus
  | i3cPrivateWrite (bytes : List Byte)
  | i3cPrivateRead (count : Nat)
  | cardDetectClose (slot : BitVec 2)
  | atrReceived (slot : BitVec 2) (atr : List Byte)
  | cardIoLow (slot : BitVec 2)
  | cardIoRise (slot : BitVec 2)
  | blockWaitingTimeExpire (slot : BitVec 2)
  | worldStartFail (world : World)
  | eraseEngineDone
  | trainingRestart
deriving DecidableEq, Repr

end Sys2Proof
end

