-- ==== Sys2Proof/Decode.lean ====
section
/-! DEFINITION. The opcode table gives no row any bits: a command of this block comes from outside as an event, not as a word,
so no word spells one (log entry 2). -/

namespace Sys2Proof

/-- The command that a word spells by the table's bits: none, since the table gives no bits. -/
def decodeTableWord (_nbits _w : Nat) : Option Instr := none

end Sys2Proof
end

