-- ==== Sys2Proof/Machine/Tree.lean ====
section
/-! DEFINITION. The rack tree as delivered (01 R17-R20, 14 R375, 15 R405): unit identities in pre-order, the wing, rack and
power domain of each unit, and the roles that the product fuses set. -/

namespace Sys2Proof.Machine

/-- The wings (01 R20); every shelf kind is that of its wing. -/
inductive Wing where
  | pk | sym | hsh
deriving DecidableEq, Repr

/-- Number of units at delivery: identities 0 to 232 (01 R21). -/
def unitCount : Nat := 233

/-- Identity of a wing's rack: PK 1, symmetric 119, hash 205. -/
def wingUnit : Wing → Nat
  | .pk => 1 | .sym => 119 | .hsh => 205

/-- Racks directly below a wing: 13, 17 and 9. -/
def wingRacks : Wing → Nat
  | .pk => 13 | .sym => 17 | .hsh => 9

/-- Shelves in each rack of a wing: 8, 4 and 2. -/
def rackShelves : Wing → Nat
  | .pk => 8 | .sym => 4 | .hsh => 2

/-- The wing a unit lies in; none for the house rack. -/
def unitWing (u : Nat) : Option Wing :=
  if u = 0 then none else if u < 119 then some .pk else if u < 205 then some .sym
  else if u < unitCount then some .hsh else none

/-- Identity of rack `r` of a wing. -/
def rackUnit (w : Wing) (r : Nat) : Nat := wingUnit w + 1 + (rackShelves w + 1) * r

/-- Identity of shelf `j` of rack `r` of a wing. -/
def shelfUnit (w : Wing) (r j : Nat) : Nat := rackUnit w r + 1 + j

/-- The rack index within its wing of a unit below a wing rack. -/
def rackIndex (u : Nat) : Option (Wing × Nat) :=
  match unitWing u with
  | none => none
  | some w => if u = wingUnit w then none else some (w, (u - wingUnit w - 1) / (rackShelves w + 1))

/-- Rack index and shelf index of a shelf. -/
def shelfIndex (u : Nat) : Option (Wing × Nat × Nat) :=
  match rackIndex u with
  | none => none
  | some (w, r) => if u = rackUnit w r then none else some (w, r, u - rackUnit w r - 1)

/-- A unit is a shelf when it lies below a rack. -/
def isShelf (u : Nat) : Bool := (shelfIndex u).isSome

/-- The rack a shelf lies in. -/
def shelfRack (u : Nat) : Nat :=
  match rackIndex u with
  | none => 0
  | some (w, r) => rackUnit w r

/-- The wing domain that holds a unit below a wing rack: PKA 5, PKB 6, SYMW 7, HSHW 8; the house and wing racks lie in
FABRIC, 4 (14 R375). -/
def unitDomain (u : Nat) : Nat :=
  match rackIndex u with
  | none => 4
  | some (.pk, r) => if r < 7 then 5 else 6
  | some (.sym, _) => 7
  | some (.hsh, _) => 8

/-- First role of a shelf by the product fuses: true is ACTIVE, false a spare (00 R2, 15 R405). -/
def firstRole (gj7716 : Bool) (u : Nat) : Bool :=
  match shelfIndex u with
  | none => true
  | some (.pk, r, j) => if gj7716 then decide (r < 6) else !(decide (5 ≤ r) && decide (j = 7))
  | some (.sym, r, j) => if gj7716 then decide (r < 16) && decide (j < 2) else !(decide (13 ≤ r) && decide (j = 3))
  | some (.hsh, r, j) => if gj7716 then decide (r < 8) && decide (j = 0) else !(decide (7 ≤ r) && decide (j = 1))

/-- The shelves of a wing in pre-order. -/
def wingShelves (w : Wing) : List Nat :=
  (List.range (wingRacks w)).flatMap fun r => (List.range (rackShelves w)).map fun j => shelfUnit w r j

/-- The racks of a wing in pre-order. -/
def wingRackUnits (w : Wing) : List Nat := (List.range (wingRacks w)).map (rackUnit w)

/-- PG_CHILD of a unit's page, in pages (01 R18). -/
def unitChild (u : Nat) : Nat := if isShelf u then 0 else if u < unitCount then 1 else 0

/-- PG_SIBLING of a unit's page, in pages (01 R18). -/
def unitSibling (u : Nat) : Nat :=
  match shelfIndex u with
  | some (w, _, j) => if j + 1 < rackShelves w then 1 else 0
  | none =>
    match rackIndex u with
    | some (w, r) => if r + 1 < wingRacks w then rackShelves w + 1 else 0
    | none => if u = 1 then 118 else if u = 119 then 86 else 0

end Sys2Proof.Machine
end

