-- ==== Sys2Proof/Machine/Types.lean ====
section
/-! DEFINITION. The data that the state of the GJ-7720 is made of: every register, queue, table and buffer that the spec
gives the device, grouped by block. Sparse register files and tables are `Tab`s: lists of (key, value) pairs with rising
keys; a key that is not listed holds its reset value. -/

namespace Sys2Proof.Machine

/-- A sparse table: keys rising; a key that is not listed holds its reset value. -/
abbrev Tab (α : Type) := List (Nat × α)

/-! ### Units, wings, plans (01, 05, 06, 07, 15) -/

/-- Why a unit runs its full self-test (15 R408). -/
inductive TestFor where
  | none
  | suspect                      -- R48
  | entry (replaced : UnitNo)    -- a spare that takes the place of a retired shelf, R49
  | back (active : Bool)         -- a returned unit and the role it held, R50
  | rotSpare                     -- S of R410
  | rotDue                       -- D of R410
deriving DecidableEq, Repr

/-- A unit of the rack tree. `state` is PG_STAT.state of a shelf (01 R20); a rack's is derived. -/
structure UnitSt where
  state    : BitVec 3
  tie      : BitVec 8            -- RACK_TIEPTR (R37)
  epoch    : BitVec 48           -- placement epoch (R40)
  request  : BitVec 2            -- RACK_SVCREQ request waiting for the next boundary (R21)
  draining : Bool                -- a drain under way: DRAINED at the next boundary, or when a passing state has ended (R21, R50)
  role     : Bool                -- the role held when drained: true = ACTIVE (R50)
  test     : TestFor
  rest     : Bool                -- takes no work in the next tick and wipes (R43)
  fresh    : Bool                -- became ACTIVE at the last boundary: counted from the next tick on (R47)
  used     : BitVec 16           -- RACK_USED
  winJobs  : BitVec 16           -- AES_WINUSE.jobs, HSH_WINUSE.jobs
  winUsed  : BitVec 16           -- AES_WINUSE.windows, HSH_WINUSE.windows
  owners   : Tab (FnNo × JobId)  -- last owner of each window or partition: function and job (06 R172, 07 R203)
  opmem    : List Host.Cell      -- operand memory: the bytes that are not zero (05 R142, 06 R171, 07 R202)
  strike   : Option (BitVec 48)  -- boundary at which the strike was given (05 R163)
  second   : Bool                -- a second strike within the window: RETIRED at the next boundary
  xtick    : Word                -- PKS_XTICK
  ops      : BitVec 48           -- PKS_OPS, AES_BLKS or HSH_CMPS
  inval    : BitVec 16           -- PKS_INVCNT.inval
  sigbad   : BitVec 16           -- PKS_INVCNT.sigbad
  abmiss   : BitVec 16           -- PKS_ABMISS; HSH_CHK.ab
  xfails   : BitVec 16           -- PKS_XCHK.fails
  keyx     : BitVec 8            -- AES_CHK.keyx
  ghash    : BitVec 8            -- AES_CHK.ghash
  inv      : BitVec 16           -- AES_CHK.inv
  deriv    : Word                -- HSH_DERIV
  crc      : BitVec 16           -- HSH_CHK.crc
  lastTest : BitVec 48           -- last full self-test (15 R409)
deriving DecidableEq, Repr

/-- A share table entry (01 R29). -/
structure ShareEntry where
  func   : FnNo
  valid  : Bool
  floor  : BitVec 16
  cap    : BitVec 16
  weight : BitVec 16
deriving DecidableEq, Repr

/-- A wing rack's tick table and share tables (01 R28). -/
structure WingTabs where
  rows   : List (BitVec 2)          -- L rows
  tables : List (List ShareEntry)   -- four tables
  bundle : Word                     -- bundle_id of the bundle that last changed them
deriving DecidableEq, Repr

/-- A parsed share bundle (01 R29). -/
structure Bundle where
  id       : Word
  commit   : BitVec 48
  sections : List (Wing × List (BitVec 2) × List (List ShareEntry))
deriving DecidableEq, Repr

/-- What a placed part does on its shelf. -/
inductive PartKind where
  | pkOp | sign | verify | empty     -- `empty`: a committed verification slot that runs empty (04 R129, 05 R164)
  | unwrap | symOp | derive | hashOp
  | check                            -- the second shelf of a secret's round trip, beside its `hashOp` (08 R251)
deriving DecidableEq, Repr

/-- A placement in a plan (01 R39, R40). -/
structure Placed where
  job    : JobId
  fn     : FnNo
  wing   : Wing
  kind   : PartKind
  half   : Bool                  -- a P-256 operation (05 R139)
  units  : Nat                   -- windows held (SYM, HSH); 1 for PK
  unit   : UnitNo
  epoch  : BitVec 48
  first  : Nat                   -- first window, or lane
  blocks : Nat                   -- checked blocks or compressions
  pay    : Nat                   -- payload or message bytes carried
  aad    : Nat                   -- associated data bytes carried
  fill   : Bool                  -- builds a pad store entry (07 R206)
  relies : Option (Nat × BitVec 2) -- relies on a fill that runs in the tick before
  grp    : Nat                   -- place in the order of 06 R175
  dummy  : Bool                  -- runs dummy work (06 R177, 07 R206)
  keeps  : Bool                  -- a stream that goes on in the tick after: it needs a stream context (01 R45, R46)
  draw   : List Byte             -- the porter instance's draw for a verification (05 R143)
deriving DecidableEq, Repr

/-- A rotation under way in a wing (15 R410): ticks since tick k. -/
structure Rotation where
  phase : Nat
  due   : UnitNo
  spare : UnitNo
deriving DecidableEq, Repr

/-- A pad store entry (07 R206). -/
structure PadEntry where
  slot    : Nat
  version : BitVec 16
  hash    : BitVec 2
  lastUse : BitVec 48
  states  : List Byte             -- inner and outer starting states, 128 bytes
deriving DecidableEq, Repr

/-- A stream context held in a rack (01 R45): the rack, the job, and the context's bytes (06 R181, 07 R211). -/
structure Ctx where
  rack  : UnitNo
  job   : JobId
  bytes : List Byte
deriving DecidableEq, Repr

structure Wings where
  pk      : WingTabs
  sym     : WingTabs
  hsh     : WingTabs
  pendingBundle : Option (Bundle × BitVec 48)  -- accepted, with the tick whose boundary brings it into effect (R30)
  lastBundle : Word                            -- measurement block 6 (02 R74)
  planCur  : List Placed                       -- the plan of the tick in progress
  planNext : List Placed                       -- the plan cut for the next tick
  grants   : Tab Nat                           -- grants of the plan cut: wing * 256 + function
  demand   : Tab Nat                           -- the demand that cut saw, for the amendment of R47
  ctxs     : List Ctx
  pads     : List PadEntry
  filled  : List (Nat × BitVec 2)             -- pad states whose fill passed at the boundary under way (07 R206)
  padHit   : Word
  padFills : BitVec 16
  padNoStore : BitVec 16
  rotPk    : Option Rotation
  rotSym   : Option Rotation
  rotHsh   : Option Rotation
deriving DecidableEq, Repr

/-! ### Functions, queues, MSI-X, routes (02, 03) -/

/-- A function (02 R59). `state`: ABSENT 0, READY 1, RESETTING 2, HALTED 3, RELEASING 4. -/
structure FnSt where
  state   : BitVec 3
  busy    : Bool
  result  : Byte
  gen     : BitVec 16
  tenant  : BitVec 16             -- binding in force since the last plan commit
  bindShow : BitVec 16            -- FUNC_TENANT, as of the last boundary (08 R230)
  haltCode : Byte
  haltQ   : QNo
  priv    : Bool
  vectors : Nat
  qpairs  : Nat
  kcUnits : Nat
  coal    : Tab Byte              -- FUNC_COALn as written
  coalEff : Tab Byte              -- in effect since the last boundary (R68)
  readyAt : Option (BitVec 48)    -- tick whose boundary ends the reset in progress (R64)
  wiped   : Bool                  -- the reset's wipe of R63 has been done
  bme     : Bool                  -- Bus Master Enable
  fnMask  : Bool                  -- Function Mask of the capability
  dbase   : DWord                 -- PMC_DBASE (17 R461)
  dcfg    : Word                  -- PMC_DCFG
  dlost   : BitVec 16
  dwritten : BitVec 16
  dseq    : DWord
  dumps   : List (DWord × List Byte)  -- dumps of the present tick that are not yet issued (17 R459)
deriving DecidableEq, Repr

/-- A queue pair (03 R92). `disabling`: en was written 0 and entries are still in flight (R93). -/
structure QueueSt where
  sqbase  : DWord
  cqbase  : DWord
  idxbase : DWord
  vector  : BitVec 5
  win     : BitVec 4
  cqsz    : BitVec 4
  sqsz    : BitVec 4
  en      : Bool
  disabling : Bool
  sqCons  : Word
  cqProd  : Word
  sqProd  : Word
  cqCons  : Word
  idxOut  : Bool                  -- an index read is outstanding
  reread  : Bool                  -- the re-read flag (R81)
  entryOut : Bool                 -- an entry read is outstanding
  cqwait  : Bool
  winwait : Bool
  stwait  : Bool                  -- fetching has stopped for want of staging room (R84)
  cqSaw   : Bool                  -- cqwait has been 1 in this tick (17 R457)
  winSaw  : Bool
  dead    : Bool                  -- no further write after malformation 0x0F (R103)
deriving DecidableEq, Repr

/-- An MSI-X vector of a function (02 R66-R68): its table entry, its pending bit and its pending work. -/
structure MsixSt where
  addr  : DWord
  data  : Word
  mask  : Bool
  pend  : Bool                    -- pending bit of the pending-bit array
  work  : Bool                    -- records or events pending
  last  : Option (BitVec 48)      -- tick of the last message
deriving DecidableEq, Repr

/-- MGT_EVROUTE of a line (02 R70). -/
structure Route where
  kind   : BitVec 2
  func   : FnNo
  vector : BitVec 5
deriving DecidableEq, Repr

/-- The DOE mailbox of a PF (02 R72-R75). -/
structure DoeSt where
  request : Option (List Byte)
deriving DecidableEq, Repr

/-- What a host finds in the configuration space of a port's functions (02 R51). -/
structure PortConfig where
  vendor     : BitVec 16
  pfDevice   : BitVec 16
  vfDevice   : BitVec 16
  totalVfs   : BitVec 16
  initialVfs : BitVec 16
  vfOffset   : BitVec 16
  vfStride   : BitVec 16
  vfPages    : Word               -- supported page sizes: bit 0 is 4 KiB
  msixSize   : BitVec 12          -- table entries of every function
  maxPayload : BitVec 3           -- 128 x 2^n bytes
  tag10      : Bool
  ari        : Bool
  sriov      : Bool
  doe        : Bool
  aer        : Bool
  aspmL0s    : Bool
  aspmL1     : Bool
  l1Sub      : Bool
  ats        : Bool
  pri        : Bool
  pasid      : Bool
  ide        : Bool
  tdisp      : Bool
deriving DecidableEq, Repr

/-- A PCIe port (02 R51-R53, 14 R396, 19 R485). -/
structure PortSt where
  link    : Bool
  perst   : Bool                  -- true: PERSTx_N is high
  sris    : Bool
  vfEnable : Bool
  numVfs  : BitVec 7
  resets  : BitVec 16             -- RST_PORT
  cfg     : LinkCfg               -- the link as trained, and Device Control of its functions
  doe     : DoeSt
deriving DecidableEq, Repr

/-! ### Jobs (04) -/

/-- The job codes of 04. -/
inductive JobKind where
  | ecdsaSignP384 | ecdsaVerifyP384 | ecdsaVerifyP384Key | ecdhP384 | keygenP384
  | ecdsaSignP256 | ecdsaVerifyP256 | ecdsaVerifyP256Key | ecdhP256 | keygenP256
  | rsaVerifyPkcs1v15 | rsaVerifyPss
  | gcmEncrypt | gcmDecrypt | ccmEncrypt | ccmDecrypt | ctrCrypt | cbcEncrypt | cbcDecrypt
  | cmacGenerate | cmacVerify | meterGcmEncrypt | meterGcmDecrypt
  | sha256 | sha384 | sha512 | hmacGenerate | hmacVerify | kdfDerive | imageDigest
  | keyGenerate | crateLoad | crateExport | keyEvict | keyReplaceBegin | keyReplaceCommit
  | keyInvalidate | keyInfo | keyPublic | tenantPlanLoad
  | randomBytes | drbgReseed | attestKey | attestDevice | attestChain
  | nop | shareBundleLoad | abort | quorumOpen | quorumStatus | lifecycleTransition
  | tamperLockClear | firmwareUpdate | debugAuthorise
deriving DecidableEq, Repr

/-- The parts of a job, run one after the other (04 R110, R122, R123, 06 R176, 08 R249-R251, R260). -/
inductive JobPart where
  | unwrap      -- the crate of a job with keysel 2 or 3
  | derive      -- the meter key
  | main        -- the job's own operation
  | pair        -- the PK.F slot that makes d and Q of a key pair
  | keeper      -- the keeper world's part
  | sign        -- the PK.S of an attestation statement
  | trip        -- the round trip of a replacement
deriving DecidableEq, Repr

/-- A key as a job holds it: its attributes and bytes, and the key-cache slot it stands in (08 R232-R237, R245). -/
structure KeyVal where
  slot    : Nat                   -- first key-cache slot
  ktype   : Byte
  attr    : BitVec 16
  export_ : Byte
  tenant  : BitVec 16
  key     : Word                  -- key number; 0 for a volatile key
  version : BitVec 16
  source  : Word                  -- key number of the source of a volatile key (R245), or 0
  origin  : BitVec 2
  value   : List Byte
  point   : List Byte
deriving DecidableEq, Repr

/-- An outcome that passes, or will pass, the collector (04 R132, R133). -/
structure OutcomeRec where
  status : Byte
  detail : Byte
  res0   : DWord
  res1   : Word
  out    : List Byte              -- output bytes still to be written before the record
  zero   : Bool                   -- zeros are written over the output already written (04 R119, 05 R157)
deriving DecidableEq, Repr

/-- Where a job stands. -/
inductive Stage where
  | load                          -- waits for the seal unit to load its key (08 R244)
  | wait                          -- staged, not in a cut plan
  | planned                       -- in the plan cut for the next tick
  | running                       -- in the plan of this tick
  | held                          -- a signature held for verification (01 R35)
  | keeper                        -- taken by the keeper world (04 R504)
  | twin                          -- a mirrored change waits for the twin (16 R433)
  | done                          -- its outcome passes at the next boundary
deriving DecidableEq, Repr

/-- A fetched job. -/
structure Job where
  id      : JobId
  kind    : JobKind
  e       : Entry
  sqpos   : Word
  units   : Nat                   -- entry length in 32-byte units
  gen     : BitVec 16
  stage   : Stage
  todo    : List JobPart          -- parts still to run, the present one first
  got     : Tab (List Byte)       -- bytes that each read has returned; key 255 is the crate
  key     : Option KeyVal         -- the key it started with, or the key of its crate
  wkey    : Option KeyVal         -- the wrapping key of the crate that names its key
  ekey    : Option KeyVal         -- the wrapping key of a CRATE_EXPORT
  loads   : List (Word × BitVec 16) -- cellar keys whose load it waits for
  draw    : Option (List Byte)    -- random bytes bound to the job (09 R279)
  rngWait : Nat                   -- consecutive ticks without service (09 R281)
  rngHeld : Bool                  -- a keeper part waits for random numbers (08 R249)
  claim   : Bool                  -- holds a claim on its record's counter (06 R189)
  started : Bool                  -- one of its parts has been in a cut plan (08 R254)
  padFill : Bool                  -- its first part built pad states that become valid with its outcome (07 R206)
  iv      : Option (List Byte)    -- its GCM IV, from the counter value that a cut assigned (06 R188, R189)
  aadDone : Nat
  payDone : Nat
  blocks  : Nat                   -- checked blocks or compressions released so far
  written : Nat                   -- output bytes already in host memory
  sig     : List Byte             -- r and s of a held signature, or d and Q of a new pair
  shelf1  : Option UnitNo         -- S1
  shelf2  : Option UnitNo         -- V1
  shelf3  : Option UnitNo         -- S2
  rerun   : Bool                  -- the rerun of 05 R161
  rerunFrom : BitVec 48           -- first tick for which the rerun may be planned
  vCommit : Option (BitVec 48)    -- tick for which a verification slot is committed (01 R35)
  fails   : Nat                   -- failed fault checks
  moved   : Bool
  aborted : Bool                  -- an ABORT marked it
  halted  : Bool                  -- its function halted while it was placed (02 R65)
  absent  : Bool                  -- the keeper world stopped while it was placed (04 R131)
  checked : Bool                  -- it has passed the checks of 04 R111
  dmaBad  : Option Byte           -- a DMA of it failed while it was placed (03 R101)
  zeroed  : Bool                  -- a ZEROIZE_ALL response met it placed (13 R361)
  res     : OutcomeRec
  change  : DWord                 -- outbox entry of its mirrored change
  meterKey : List Byte            -- derived meter key, in the transient key register
  resv    : List (Nat × Nat)      -- runs of key-cache slots reserved for its keys: first slot and number (05 R153)
  session : DWord                 -- quorum session it consumed, or 0
  tick    : BitVec 48             -- tick in which it was staged
deriving DecidableEq, Repr

/-! ### Keys (08) -/

/-- A cellar record in its place, with what its sealing depends on (08 R221, R222, R240). -/
structure CellarRec where
  img    : RecImage
  place  : Nat
  sealVer : BitVec 12
  signer : List Byte
  bbk    : BitVec 256
  commit : Nat
deriving DecidableEq, Repr

/-- Who owns a key-cache entry and what it is (08 R243, R245). -/
inductive CacheKind where
  | cellar | volatile | crateCopy | unwrapped (job : JobId)
deriving DecidableEq, Repr

/-- A key-cache entry of one or more consecutive slots (08 R232, R243). -/
structure CacheEnt where
  k       : KeyVal
  kind    : CacheKind
  fn      : FnNo                  -- owner, for the entries charged to a function
  slots   : Nat
  use     : BitVec 22             -- use count of its first slot when it was placed
  marked  : Bool                  -- marked by a sweep: ORPHANED, wiped when no job holds it
  dropped : Bool                  -- evicted, wiped or superseded: only the jobs that hold it use it
  lastUse : BitVec 48
deriving DecidableEq, Repr

/-- The nonce unit's account of a cached record (06 R190). -/
structure NonceSt where
  record   : Word
  twin     : Bool
  next     : Nat                  -- next value to assign
  limit    : Nat                  -- end of the committed values: 65,536 x (last committed block + 1)
  nextFree : Nat
  wait     : Option Nat           -- block whose reservation is under way
  ownDone  : Bool                 -- its entries are written on this device
  peerDone : Bool                 -- the twin's acknowledgement has arrived
  cached   : Bool
deriving DecidableEq, Repr

structure Keys where
  cache   : List CacheEnt
  uses    : Tab (BitVec 22)       -- use count of each slot (R237)
  loads   : List (Word × BitVec 16 × FnNo × BitVec 48)  -- loads found: key, version, first function, tick
  loaded  : Nat                   -- loads that the seal unit has made in this tick (R244)
  sweeps  : Word
  sweeping : Bool
  reseal  : Bool
  purge   : List Word             -- keys whose descendants' records remain to be written INVALID
  svn     : BitVec 12             -- running Ilmel version v
  signer  : List Byte             -- running Ilmel signer digest
  idDrs   : BitVec 512            -- the root secret from which the attestation pair was made at the keeper's last start (R259)
  lineage : Option (BitVec 256)   -- the BBK under which the seal unit holds its lineage secret (08 R221, 12 R336)
  nonces  : List NonceSt
  njRes   : Word                  -- AES_NJRES
  njWaits : BitVec 16
  njExhausted : BitVec 16
deriving DecidableEq, Repr

/-! ### Random numbers (09) -/

/-- What the two continuous health tests of a source hold (09 R265): the last sample and how often it has repeated; the present
window's first sample, how many samples of it have passed, and how many had that value. -/
structure Health where
  last  : Bool
  run   : Nat
  first : Bool
  pos   : Nat
  count : Nat
deriving DecidableEq, Repr

structure SourceSt where
  sstate : BitVec 3               -- OFF 0, STARTUP 1, HEALTHY 2, ISOLATED 3, DEAD 4
  alarms : Byte
  lastAlarm : BitVec 16
  lastSample : Option DWord       -- sample count at the last alarm
  samples : DWord                 -- samples the source has delivered
  health : Health
  blocks : DWord                  -- raw blocks since cold reset
  blockDone : Bool                -- a raw block since the domain powered up
deriving DecidableEq, Repr

structure Seed where
  bytes  : List Byte
  source : BitVec 3
  order  : Nat                    -- completion order of its raw block
deriving DecidableEq, Repr

/-- A DRBG instance (09 R273-R276). `istate`: ABSENT 0, UNSEEDED 1, READY 2, DUE 3. -/
structure DrbgSt where
  istate : BitVec 2
  key    : List Byte
  v      : List Byte
  spare  : Option Seed
  src    : BitVec 3
  count  : Nat
deriving DecidableEq, Repr

/-- A request with prediction resistance, in order of staging (09 R277). -/
structure PrReq where
  inst : Nat
  job  : JobId
  from_ : Nat                     -- seeds of later order only
deriving DecidableEq, Repr

structure Rng where
  state   : BitVec 3              -- OFF 0, STARTUP 1, IN_SERVICE 2, RESTART 3, NO_SERVICE 4
  served  : Bool                  -- IN_SERVICE in some cycle of this tick
  katDone : Bool                  -- the known-answer tests of this STARTUP or RESTART have run (09 R285)
  sha     : BitVec 2              -- SHA-384 units in service, as a mask
  pairs   : BitVec 4              -- AES pairs in service, as a mask
  pairMiss : Tab (BitVec 48)      -- last mismatch of each pair
  sources : Tab SourceSt
  seeds   : List Seed             -- oldest first
  order   : Nat
  delivered : BitVec 48
  mismatch : BitVec 16
  unavailable : BitVec 16
  insts   : Tab DrbgSt
  prs     : List PrReq
  instsel : BitVec 9
  rawEn   : Bool
  rawSrc  : BitVec 3
  rawBuf  : List Bool
  blocksTick : Nat                -- AES blocks that the requests of this tick take (09 R280)
  blocksNext : Nat                -- AES blocks of the RANDOM_BYTES jobs planned for the next tick
  drawBytes : Nat                 -- bytes held in the draw buffer
deriving DecidableEq, Repr

/-! ### Worlds, access control (10) -/

/-- An access table entry (10 R298). -/
structure AclEnt where
  w0 : Word
  w1 : Word
  w2 : Word
  w3 : Word
deriving DecidableEq, Repr

/-- A transaction stalled on a domain wake (14 R381, 10 R302). -/
structure Stalled where
  t      : Txn
  domain : Nat
  oldAcl : Bool                   -- checked before the latest access-table commit
  potAt  : Nat                    -- page-owner commits at the time of its check
deriving DecidableEq, Repr

structure Acl where
  cur     : Tab AclEnt
  next    : Tab AclEnt
  drained : Bool
  compat  : Bool                  -- in effect since the last boundary
  kidx    : Word
  pidx    : Word
  vhead   : BitVec 5
  vtail   : BitVec 5
  vfull   : Nat                   -- records in the ring not yet passed by software
  fvalid  : Bool
  lost    : Byte
  missed  : Byte
  vfirst  : BitVec 128
  vlog    : Tab (BitVec 128)
  vmerge  : Tab (BitVec 5)        -- this tick's imprecise notices: (initiator, page, rule) and ring slot
  keeper  : BitVec 3              -- OFF 0, STARTING 1, READY 2, RESTARTING 3, FAILED 4
  porter  : BitVec 3
  krestarts : Byte
  prestarts : Byte
  kReadyDue : Bool                -- ready written: READY at the next boundary
  pReadyDue : Bool
  pReadySeen : Bool               -- the porter world has been READY since cold reset or wake
  kPet    : BitVec 48             -- tick of the last pet
  pPet    : BitVec 48
  pwdog   : BitVec 16
  pinclaim : Bool                 -- ACL_PINCLAIM.i3c as written
  claimed : Bool                  -- in effect since the last boundary
  stalled : List Stalled
deriving DecidableEq, Repr

/-- A page of the staging area: the function that last held it, and whether it holds it still (03 R84, R295). -/
structure StagePage where
  fn   : FnNo
  held : Bool
deriving DecidableEq, Repr

structure Pot where
  cur     : Tab Word
  next    : Tab Word
  kTouch  : List Nat              -- pages applied by the keeper since its last commit
  pTouch  : List Nat
  drained : Bool
  commits : Nat                   -- commits since cold reset
  wipes   : List (Nat × Nat)      -- pages awaiting or undergoing their wipe, each with the commit that asks for it
  stage   : Tab StagePage         -- staging pages that have held staged material
  kfirst  : BitVec 13
  kcount  : BitVec 14
  kval    : Word
  pfirst  : BitVec 13
  pcount  : BitVec 14
  pval    : Word
  rdidx   : Word
  poison  : List Nat              -- poisoned words of shared SRAM (15 R414)
deriving DecidableEq, Repr

/-! ### Cards and quorum (11) -/

/-- A card slot (11 R334). `state` as CRD_STAT.state. -/
structure CardSlot where
  present : Bool
  state   : BitVec 3
  cls     : BitVec 2
  clsSel  : BitVec 2              -- CRD_CTL.class
  busy    : Bool
  clkstop : Bool
  err     : Byte
  fi      : BitVec 11
  di      : BitVec 5
  ifsc    : Byte
  bwi     : BitVec 4
  cwi     : BitVec 4
  stopInd : BitVec 2
  tc1     : Byte
  bufpg   : BitVec 13
  rspDone : Bool
  rspErr  : Bool
  rspLen  : BitVec 12
  atrLen  : BitVec 6
  idleMs  : BitVec 16
  ins     : Byte                  -- Calgenan command in progress, 0 none
  tries   : Nat                   -- transmissions of the present block
  resynced : Bool
  retryB  : Bool                  -- waits its 10 ms before class B
  wakeDue : Bool                  -- CLK restarted, WAKE must come first
  debounced : Bool                -- the insertion has passed its debounce
  cardId  : List Byte
  cardPub : List Byte
  vers0   : Word
  vers1   : Word
  chan    : Bool                  -- a channel is open
  kd      : List Byte
  km      : List Byte
  ctr     : Nat                   -- channel counter
  ephD    : List Byte             -- device ephemeral scalar of OPEN_CHANNEL
  devNonce : List Byte
  wIndex  : Nat                   -- index of the share being written
deriving DecidableEq, Repr

/-- A quorum session (11 R327-R333). `state` as res1[7:0] of QUORUM_STATUS. -/
structure Session where
  number : DWord
  fn     : FnNo
  code   : BitVec 16
  digest : List Byte
  state  : Byte
  windowEnd : Nat                 -- RTC cycle that ends the running window
  counted : List (List Byte × Nat × List Byte) -- card ID, index, y
  qs     : Nat                    -- QS' of a custody change under way
  coeffs : List Nat               -- the new polynomial
  written : List CardEntry        -- cards written so far
deriving DecidableEq, Repr

structure Crd where
  s0 : CardSlot
  s1 : CardSlot
  s2 : CardSlot
  s3 : CardSlot
  session : Option Session
  before  : Option Session
deriving DecidableEq, Repr

/-! ### Life cycle (12) -/

/-- A transition between its commit and its end (12 R343). -/
structure Transition where
  target : BitVec 2
  job    : Option JobId
  pulses : Nat                    -- pulses of the state word made
  actions : Bool                  -- entry actions done
deriving DecidableEq, Repr

structure Lcs where
  trans     : Option Transition
  due       : Bool                -- PRODUCTION entry actions are due at the keeper's start (R345)
  erasing   : Bool                -- the erase engine runs
  completed : Bool
  gdfail    : Bool
  gdDue     : Bool                -- gendrs waits for its draw or for PWR_FAIL_N to rise
  tokenFails : Byte
  debugFails : Byte
  active    : Bool
  scope     : BitVec 2
  dbgEnd    : BitVec 48
  dbgKeeper : Bool                -- debug acts in the keeper world: BLANK and TEST (12 R336)
  nonce     : BitVec 128
  fuseIdx   : BitVec 6
  fuseData  : Word
deriving DecidableEq, Repr

/-! ### Tamper and the battery domain (13) -/

structure AlarmLog where
  source : Nat
  rtc    : BitVec 48
  mask   : BitVec 4
deriving DecidableEq, Repr

/-- State in the BAT domain (13 R355-R374, 08 R257, 14 R401). -/
structure Bat where
  rtc      : BitVec 48
  bbk      : Option (BitVec 256)
  locked   : Bool
  zeroized : Bool
  full     : Bool
  lowa     : Bool
  lowb     : Bool
  batovf   : Byte
  pcount   : Byte
  pidx     : Option Nat
  alarm    : BitVec 23
  log      : List AlarmLog
  cellA    : BitVec 16
  cellB    : BitVec 16
  onCell   : Bool                 -- VDD_AON is absent: the domain runs from a cell
  burstMiss : Bool                -- the last burst found a guarded mismatch
  vbat     : Word                 -- TMP_VBAT
  canary   : Bool
deriving DecidableEq, Repr

structure Tmp where
  cond      : BitVec 23
  logicAddr : Word
  refArmed  : Bool                -- CLK_REF is armed (13 R354)
deriving DecidableEq, Repr

/-- A guarded register (13 R369): committed value, shadow and pending value. -/
structure Guard where
  val    : Word
  shadow : Word
  pend   : Option Word
deriving DecidableEq, Repr

/-! ### Power, clocks, reset (14) -/

/-- A power domain. `state`: OFF 0, WAKING 1, ON 2, DRAINING 3. -/
structure Domain where
  state  : BitVec 3
  hw     : Bool
  boot   : Bool
  host   : Bool
  porter : Bool
  keeper : Bool
  idle   : BitVec 16              -- PWR_IDLE
  ups    : BitVec 16
  last   : BitVec 48              -- tick of the last transaction to the domain
  offAt  : Option (BitVec 48)     -- a wing domain's power-off tick (R379)
deriving DecidableEq, Repr

/-- Phases of a step of the operating point (14 R386). -/
inductive DvfsPhase where
  | idle
  | upWait (pll vdone : Bool)     -- waits for the PLL lock and VDone
  | downLock                      -- waits for the PLL lock
  | switchDue (up : Bool)         -- CCLK switches at the next boundary
  | downVolt                      -- waits for VDone after a down step
  | voltOnly                      -- an AVSBus write of calibration (15 R418)
deriving DecidableEq, Repr

structure Pwr where
  doms     : Tab Domain
  sysstate : BitVec 3
  refuse   : BitVec 4
  pvote    : BitVec 20
  alm      : BitVec 48
  almEn    : Bool
  pfLevel  : Bool                 -- present level of PWR_FAIL_N
  pfState  : BitVec 3             -- NORMAL 0, FLUSHING 1, HELD 2
  pfCount  : BitVec 16
  opHost   : BitVec 3
  opPorter : BitVec 3
  opKeeper : BitVec 3
  busy     : Bool
  vfail    : Bool
  target   : BitVec 2
  point    : BitVec 2
  phase    : DvfsPhase
  fromFio  : Bool                 -- the step replaces FIO
  recal    : Bool                 -- a new voltage of the point in force waits for the running step to end
  src      : BitVec 3             -- source of CCLK: 0 FIO, 1 PLL A, 2 PLL B
  sysPll   : Bool                 -- the system PLL drives domains 9 and 16
  settle   : BitVec 16            -- CLK_VSETTLE
  cause    : BitVec 3             -- RST_CAUSE
  resetPend : Option (BitVec 3)   -- a cold reset that waits for the recorder's flush or the rise of PWR_FAIL_N
deriving DecidableEq, Repr

/-! ### Service life (15) -/

structure Svc where
  rotDone  : BitVec 16
  nospare  : BitVec 16
  corrected : BitVec 16
  uncorr   : BitVec 16
  marginIdx : BitVec 6
  margin   : Byte
  hottest  : BitVec 16
  scrubSram : Nat                 -- next address of each scrub
  scrubKey : Nat
  scrubMram : Nat
  kCores   : BitVec 6             -- active keeper cores, as a mask
  pCores   : BitVec 10
  reqLow   : Bool                 -- REPLACE_REQ_N is driven low
  reqDriven : Bool                -- it is driven at all (after step 6 of R397)
deriving DecidableEq, Repr

/-! ### What the device puts out -/

/-- What the device puts on its ports, in the order in which it does. -/
inductive Egress where
  | indexRead (fn : FnNo) (q : QNo) (addr : DWord)
  | entryRead (fn : FnNo) (q : QNo) (addr : DWord) (len : Nat)
  | dataRead  (fn : FnNo) (job : JobId) (addr : DWord) (len : Nat)
  | write     (fn : FnNo) (addr : DWord) (bytes : List Byte)      -- output data
  | record    (fn : FnNo) (q : QNo) (addr : DWord) (bytes : List Byte)
  | indexWrite (fn : FnNo) (q : QNo) (addr : DWord) (sqCons cqProd : Word)
  | msix      (fn : FnNo) (addr : DWord) (data : Word)
  | dump      (fn : FnNo) (addr : DWord) (bytes : List Byte)
  | fabric    (ini : BitVec 10) (ok : Bool) (bytes : List Byte)   -- the response to a transaction
  | regRead   (ini : BitVec 10) (v : Word)
  | spdm      (port : Bool) (code : Byte) (body : List Byte)
  | doe       (port : Bool) (body : List Byte)
  | frame     (seq : DWord) (ftype : Byte) (id m : DWord) (objs : List MirrorObj) (heads : List JournalEntry)
  | bytesFrame (seq : DWord) (ftype : Byte) (bytes : List Byte)
  | apdu      (slot : BitVec 2) (ins : Byte) (body : List Byte)
  | cardPins  (slot : BitVec 2) (on : Bool)
  | avs       (rail : BitVec 4) (mv : BitVec 10)
  | replaceReq (low : Bool)
  | ibi       (b : Byte)
  | i3c       (bytes : List Byte)
  | i3cNack
  | bootWrite (deviceB : Bool) (bytes : List Byte)
  | aer       (fn : FnNo)
deriving DecidableEq, Repr

/-! ### Twin link (16) -/

/-- A mirrored change. In the outbox `objs` is what the peer gets and `old` what the originator commits; where the change is
held in doubt, `objs` is what was applied and `old` what it replaced. -/
structure TwinChange where
  id   : DWord
  m    : DWord
  objs : List MirrorObj
  old  : List MirrorObj
  sent : Bool                     -- its CHANGE has been sent
  done : Bool                     -- committed by the originator
  undo : Bool                     -- an UNDO that waits for the lock latch to clear
  job  : JobId
deriving DecidableEq, Repr

/-- An accepted grant (16 R427, R428). -/
structure Grant where
  pair   : Bool
  source : Byte
  seq    : DWord
  dev0   : List Byte
  dev1   : List Byte
  provisional : Bool
  raw    : List Byte
deriving DecidableEq, Repr

structure Twn where
  state   : BitVec 3              -- OFF 0 .. UNPAIRED 7
  herr    : Byte
  width   : BitVec 3
  retrains : Byte
  resent  : BitVec 16
  grRes   : Byte
  peerLevel : BitVec 2
  peerLocked : Bool
  peerZero : Bool
  peerLc  : BitVec 2
  peerParked : Bool
  peerReleased : Bool
  syncIvl : BitVec 24
  grantBuf : Tab Word             -- TWN_GRANT0-55
  lostFrom : Option (BitVec 48)   -- tick of the first failure of frame passing (R424)
  wide    : Bool                  -- a retrain requested through TWN_CMD.retrain may widen the link
  cap     : BitVec 3              -- the width to which the link has narrowed
  keys    : Option (List Byte × List Byte)  -- link keys of index 0 and index 1
  txSeq   : DWord
  rxSeq   : DWord                 -- next seq expected
  replay  : List (DWord × Byte × Egress) -- frames sent and not acknowledged: seq, type, frame
  ephD    : List Byte
  nonce   : List Byte
  hello   : List Byte             -- its own HELLO of this handshake
  sentSigned : Bool
  gotSigned : Bool
  peer    : Option HelloMsg
  retryAt : Option (BitVec 48)
  filling : BitVec 2              -- bit 0: its own fill is not acknowledged; bit 1: the peer's FILL_END is awaited
  resync  : Bool                  -- the exchange is a resync
  filled  : List (Word × BitVec 16) -- records received in this fill
  fillWait : List MirrorObj       -- objects received and not applied yet: at most 256 records a tick (R435)
  fillCount : Nat                 -- records of a fill applied in this tick
  fillEnded : Bool                -- FILL_END has come
  statusSent : List Byte          -- the STATUS last sent
  releasing : Bool
  relSent : Bool                  -- RELEASE has been sent
  parkSent : List JournalEntry    -- next_free last sent to the parked peer
  newId   : DWord
deriving DecidableEq, Repr

/-! ### Event recorder and monitors (17) -/

/-- An event record before it has a number (17 R445). -/
structure EvRec where
  code  : BitVec 16
  sev   : BitVec 2
  late  : Bool
  line  : BitVec 16
  func  : BitVec 16
  tick  : BitVec 48
  hours : Word
  frac  : Word
  pcyc  : Word
  data  : List Byte
deriving DecidableEq, Repr

/-- A rate table entry and its window (17 R452). -/
structure RateSt where
  reg    : Word                   -- EVR_RATE as written
  eff    : Word                   -- in effect since the last boundary
  window : Nat                    -- window that the counts belong to
  seen   : Nat
  dropped : Nat
  firstT : BitVec 48
  lastT  : BitVec 48
deriving DecidableEq, Repr

structure SnapWin where
  seq    : DWord
  busy   : Bool
  result : BitVec 3
  data   : List Byte
deriving DecidableEq, Repr

structure Evr where
  started  : Bool
  flushing : Bool
  buf      : List (DWord × EvRec) -- numbered records not yet durable
  early    : List EvRec           -- records that wait for the recorder's start
  drops    : BitVec 16
  suppressed : BitVec 16
  holdFrom : Option DWord         -- numbers from here on wait for the rise of PWR_FAIL_N (R449)
  dropRun  : Nat                  -- drops not yet reported by 0x0F03
  dropTick : BitVec 48
  rateIdx  : BitVec 7
  rates    : Tab RateSt
  w0       : SnapWin
  w1       : SnapWin
  w2       : SnapWin
  w3       : SnapWin
deriving DecidableEq, Repr

/-- A performance monitor (17 R455-R461): registers as written, registers in effect, running and latched counters. -/
structure MonSt where
  en     : Bool
  clr    : Bool
  bind   : Word
  filt   : Word
  pfirst : Word
  plast  : Word
  fsel   : Word
  ev0    : Word
  ev1    : Word
  eEn    : Bool
  eBind  : Word
  eFilt  : Word
  ePfirst : Word
  ePlast : Word
  eFsel  : Word
  eEv0   : Word
  eEv1   : Word
  wrap   : BitVec 9
  ltick  : Word
  cyc    : DWord
  cnt    : Tab (BitVec 48)
  lcyc   : DWord
  lcnt   : Tab (BitVec 48)
deriving DecidableEq, Repr

/-! ### Management (18) -/

structure Mailbox where
  inbusy  : Bool
  outvalid : Bool
  inlen   : BitVec 9
  outlen  : BitVec 9
  sentLen : BitVec 9
  inb     : Tab Word
  outb    : Tab Word
  stale   : Bool                  -- a reset has landed since the message was sent: its reply is discarded
deriving DecidableEq, Repr

structure I3c where
  cfg      : Word
  assigned : Bool
  busy     : Bool
  dyn      : BitVec 7
  index    : Byte
  events   : Byte                 -- enabled events: bit 0 IBIs
  post     : Tab Byte             -- target bytes 0x40-0x7F
  inbox    : Tab Byte             -- target bytes 0xC0-0xFF
  mirror   : Tab Byte             -- target bytes 0x00-0x3F as last refreshed
deriving DecidableEq, Repr

structure Mgt where
  routes   : Tab Route            -- as written
  routesEff : Tab Route           -- in effect since the last boundary (02 R70)
  mb0      : Mailbox
  mb1      : Mailbox
  i3c      : I3c
  images   : List Image           -- boot loader, Ilmel and porter images that run (02 R74)
  extension : Option Image        -- the customer extension that runs beside the porter image (02 R74, 10 R312)
  nextIlmel : Option Image        -- the Ilmel image that the keeper world's next start loads (08 R222, 14 R398)
deriving DecidableEq, Repr

/-- PG_EVT, PG_EVT_EN and PG_LOCK of a page (18 R467-R469). -/
structure PageHdr where
  evt  : Word
  en   : Word
  lock : Bool
deriving DecidableEq, Repr

/-! ### What MRAM keeps (00, 08, 11, 15, 16, 17) -/

/-- A mirrored object as its mirror sequence is kept (16 R431). -/
inductive MirrorKey where
  | record (key : Word) (version : BitVec 16)
  | tenant (no : BitVec 16)
  | planSeq
  | custody
deriving DecidableEq, Repr

structure TwinNv where
  index    : Bool
  fixed    : Bool
  solo     : Bool
  released : Bool
  diverged : Bool
  parked   : Bool                     -- it parked itself and has not joined since (R437)
  grSeq    : DWord
  mSeq     : DWord
  grant    : Option Grant
  outbox   : List TwinChange
  inbox    : List TwinChange          -- received and not yet applied: the keeper world is absent, or a change in doubt goes first
  doubt    : List TwinChange          -- changes of the peer applied here and held in doubt (R433)
  marks    : List (MirrorKey × DWord) -- mirror sequence of each mirrored object
deriving DecidableEq, Repr

structure Nv where
  cellar   : List CellarRec
  old      : List CellarRec           -- superseded images that still stand in their places (08 R239, R242)
  tenants  : List TenantRec
  planSeq  : DWord
  nextRecord : Word
  nextKey  : Word
  commit   : Nat
  custodyA : Option Custody
  custodyB : Option Custody
  sessionNext : DWord
  journal  : List JournalEntry
  lostKeys : List (Word × BitVec 16)  -- records lost to an uncorrectable line (15 R415)
  imgSigner : List Byte               -- Ilmel signer recorded by an authorised FIRMWARE_UPDATE (14 R398)
  pcycles  : Word
  hours    : Word
  frac     : Nat
  tavg     : BitVec 16
  tpeak    : BitVec 16
  bands    : List Nat                 -- hours in the four temperature bands
  mramW    : Word                     -- SVC_MRAMW: highest write count of a line, in units of 2^20 (15 R416, R422)
  wear     : Tab Nat                  -- write counts of the cellar places (15 R407, R416)
  mremap   : BitVec 15
  causes   : BitVec 15
  capCause : Bool                     -- the cap of 15 R418 has been applied
  roles    : Tab (BitVec 2)           -- recorded role of each shelf: 0 spare, 1 ACTIVE, 2 RETIRED
  tested   : Tab (BitVec 48)          -- last rotating test tick of each shelf (15 R407)
  deadCores : BitVec 16               -- keeper cores 0-5, porter cores 6-15 on the dead list
  deadSrc  : BitVec 6
  deadSha  : BitVec 2
  deadPair : BitVec 4
  volts    : List (BitVec 10)         -- calibrated CLK_VOLT0-3, empty when none
  twin     : TwinNv
  evNext   : DWord
  evHigh   : DWord
  evStore  : List (DWord × EvRec)     -- the attic and the circulating area
  evBad    : List DWord               -- records whose line is lost
deriving DecidableEq, Repr

/-! ### The fuse array (12 R337, 13 R364, R368) -/

structure Fuse where
  wTest : Word
  wProd : Word
  wEol  : Word
  dProd : Word
  dEol  : Word
  drs   : BitVec 512
  mDrs  : Word
  tProd : BitVec 384
  tEol  : BitVec 384
  tDbg  : BitVec 384
  product : BitVec 192                -- words 58-63
  counter : BitVec 8192               -- words 64-319
  off     : List Word                 -- words 320-331
deriving DecidableEq, Repr

/-- The tie-break pointers of the blocks that are not racks (01 R37). -/
structure Ties where
  porter : BitVec 8
  comp   : BitVec 8
  rng    : BitVec 8
  fabric : BitVec 8
  keeper : BitVec 8
  evr    : BitVec 8
deriving DecidableEq, Repr

/-- The device less its fuses and its byte memory. -/
structure Dev where
  gj7716  : Bool                      -- ordering code, from the product fuses (00 R2)
  grade   : Bool                      -- suffix -I
  tick    : BitVec 48                 -- TICKNO
  cyc     : BitVec 16                 -- MGT_CYCLE
  cutDone : Bool                      -- the plan cut of this tick has been made
  records : Bool                      -- the records of a boundary are being written: messages follow them (02 R67)
  ties    : Ties
  units   : Tab UnitSt
  wings   : Wings
  fns     : Tab FnSt
  queues  : Tab QueueSt
  msix    : Tab MsixSt
  ports   : Tab PortSt
  jobs    : List Job                  -- in order of fetch
  nextJob : JobId
  keys    : Keys
  rng     : Rng
  acl     : Acl
  pot     : Pot
  crd     : Crd
  lcs     : Lcs
  tmp     : Tmp
  bat     : Bat
  guards  : Tab Guard
  pwr     : Pwr
  svc     : Svc
  twn     : Twn
  evr     : Evr
  mons    : Tab MonSt
  mgt     : Mgt
  pages   : Tab PageHdr
  nv      : Nv
  egress  : List Egress
  free    : Nat                       -- free values drawn so far (log entry 5)
deriving DecidableEq, Repr

end Sys2Proof.Machine
end

