-- ==== Sys2Proof/Machine/Bytes.lean ====
section
/-! DEFINITION. Byte strings, bit fields and sparse tables: the plain helpers of every block (00 R9, 18 R463). -/

namespace Sys2Proof.Machine

/-! ### Tables -/

/-- The value at a key, or what an unlisted key holds. -/
def tabGet {α : Type} (t : Tab α) (k : Nat) (d : α) : α :=
  match t with
  | [] => d
  | (j, v) :: r => if j = k then v else tabGet r k d

/-- The value at a key, if listed. -/
def tabFind {α : Type} (t : Tab α) (k : Nat) : Option α :=
  match t with
  | [] => none
  | (j, v) :: r => if j = k then some v else tabFind r k

/-- Set a key; the keys stay rising. -/
def tabPut {α : Type} (t : Tab α) (k : Nat) (v : α) : Tab α :=
  match t with
  | [] => [(k, v)]
  | (j, w) :: r => if k < j then (k, v) :: (j, w) :: r else if k = j then (k, v) :: r else (j, w) :: tabPut r k v

/-- Remove a key. -/
def tabDel {α : Type} (t : Tab α) (k : Nat) : Tab α := t.filter fun p => p.1 != k

/-- Change every listed value. -/
def tabMap {α : Type} (f : α → α) (t : Tab α) : Tab α := t.map fun p => (p.1, f p.2)

/-! ### Byte strings -/

/-- The low `n` bytes of a number, little-endian. -/
def leBytes (n v : Nat) : List Byte :=
  match n with
  | 0 => []
  | m + 1 => BitVec.ofNat 8 v :: leBytes m (v / 256)

/-- The number that bytes spell, little-endian. -/
def leNat (bs : List Byte) : Nat := bs.foldr (fun b a => b.toNat + 256 * a) 0

/-- The low `n` bytes of a number, big-endian. -/
def beBytes (n v : Nat) : List Byte := (leBytes n v).reverse

/-- The number that bytes spell, big-endian. -/
def beNat (bs : List Byte) : Nat := bs.foldl (fun a b => 256 * a + b.toNat) 0

/-- Bytes `off` to `off + len - 1`; bytes past the end read as zero. -/
def slice (bs : List Byte) (off len : Nat) : List Byte :=
  let r := (bs.drop off).take len
  r ++ List.replicate (len - r.length) 0

/-- Little-endian field of a byte string. -/
def leAt (bs : List Byte) (off len : Nat) : Nat := leNat (slice bs off len)

/-- `n` zero bytes. -/
def zeros (n : Nat) : List Byte := List.replicate n 0

/-- Bytes cut or padded with zeros to a length. -/
def fit (n : Nat) (bs : List Byte) : List Byte := slice bs 0 n

def allZero (bs : List Byte) : Bool := bs.all fun b => b == 0

/-- Bytewise exclusive or, to the shorter length. -/
def xorBytes (a b : List Byte) : List Byte := List.zipWith (fun x y => x ^^^ y) a b

/-- Replace bytes from an offset on; the string keeps its length where the new bytes fit. -/
def patch (bs : List Byte) (off : Nat) (new : List Byte) : List Byte :=
  slice bs 0 off ++ new ++ bs.drop (off + new.length)

/-- The characters of an ASCII text. -/
def ascii (t : List Nat) : List Byte := t.map (BitVec.ofNat 8)

/-- Chunks of `n` bytes (fuel: the length). -/
def chunksAux (fuel n : Nat) (bs : List Byte) : List (List Byte) :=
  match fuel with
  | 0 => []
  | f + 1 => if bs.isEmpty then [] else bs.take n :: chunksAux f n (bs.drop n)

def chunks (n : Nat) (bs : List Byte) : List (List Byte) := chunksAux bs.length n bs

/-! ### Bit fields -/

/-- Bits `lo + w - 1` to `lo` of a register. -/
def bits (v : Word) (lo w : Nat) : Nat := (v.toNat >>> lo) % 2 ^ w

/-- One bit of a register. -/
def bit (v : Word) (i : Nat) : Bool := v.getLsbD i

/-- A field placed at a bit. -/
def put (lo x : Nat) : Word := BitVec.ofNat 32 (x <<< lo)

/-- A flag placed at a bit. -/
def flag (lo : Nat) (b : Bool) : Word := if b then put lo 1 else 0

/-- Low and high words of a 64-bit value. -/
def loWord (v : DWord) : Word := v.setWidth 32
def hiWord (v : DWord) : Word := (v >>> 32).setWidth 32

/-- Write the low or high word of a 64-bit value. -/
def withLo (v : DWord) (w : Word) : DWord := (hiWord v ++ w : BitVec 64)
def withHi (v : DWord) (w : Word) : DWord := (w ++ loWord v : BitVec 64)

/-- Saturating increment of a counter. -/
def satInc {w : Nat} (v : BitVec w) : BitVec w := if v = BitVec.allOnes w then v else v + 1

/-- Saturating addition. -/
def satAdd {w : Nat} (v : BitVec w) (n : Nat) : BitVec w :=
  if v.toNat + n < 2 ^ w then BitVec.ofNat w (v.toNat + n) else BitVec.allOnes w

/-- The number of ones of a bit vector. -/
def popCount {w : Nat} (v : BitVec w) : Nat := ((List.range w).filter fun i => v.getLsbD i).length

/-! ### CRC-32 -/

/-- One step of the reflected CRC-32 register for one bit. -/
def crcBit (r : Word) : Word := if r.getLsbD 0 then (r >>> 1) ^^^ 0xEDB88320 else r >>> 1

/-- CRC-32 of a byte string, polynomial of IEEE 802.3 (the spec names CRC-32 and gives no polynomial: PRESUMED, log
entry 7). -/
def crc32 (bs : List Byte) : Word :=
  let step (r : Word) (b : Byte) : Word :=
    crcBit (crcBit (crcBit (crcBit (crcBit (crcBit (crcBit (crcBit (r ^^^ b.setWidth 32))))))))
  ~~~ (bs.foldl step 0xFFFFFFFF)

/-- The first element that holds, with the list changed at it. -/
def updateFirst {α : Type} (p : α → Bool) (f : α → α) : List α → List α
  | [] => []
  | a :: r => if p a then f a :: r else a :: updateFirst p f r

/-- Cyclic tie-break order (01 R37): identities at or after the pointer come first. -/
def cyclicKey (ptr : BitVec 8) (ident : Nat) : Nat := (ident % 256 + 256 - ptr.toNat) % 256

/-- Stable insertion by a key. -/
def insertBy {α : Type} (key : α → Nat) (a : α) : List α → List α
  | [] => [a]
  | b :: r => if key a < key b then a :: b :: r else b :: insertBy key a r

/-- Stable sort by a key. -/
def sortBy {α : Type} (key : α → Nat) (l : List α) : List α := l.foldl (fun acc a => insertBy key a acc) []

end Sys2Proof.Machine
end

