-- ==== Sys2Proof/Machine/Sha.lean ====
section
/-! DEFINITION. SHA-256, SHA-384 and SHA-512 of FIPS 180-4 and HMAC, which the device meets (00 R16, 07 R199; PRESUMED, log
entry 7). -/

namespace Sys2Proof.Machine

def shaK256Part0 : List (BitVec 32) :=
  [0x428A2F98, 0x71374491, 0xB5C0FBCF, 0xE9B5DBA5, 0x3956C25B, 0x59F111F1, 0x923F82A4, 0xAB1C5ED5,
   0xD807AA98, 0x12835B01, 0x243185BE, 0x550C7DC3, 0x72BE5D74, 0x80DEB1FE, 0x9BDC06A7, 0xC19BF174,
   0xE49B69C1, 0xEFBE4786, 0x0FC19DC6, 0x240CA1CC, 0x2DE92C6F, 0x4A7484AA, 0x5CB0A9DC, 0x76F988DA,
   0x983E5152, 0xA831C66D, 0xB00327C8, 0xBF597FC7, 0xC6E00BF3, 0xD5A79147, 0x06CA6351, 0x14292967]

def shaK256Part1 : List (BitVec 32) :=
  [0x27B70A85, 0x2E1B2138, 0x4D2C6DFC, 0x53380D13, 0x650A7354, 0x766A0ABB, 0x81C2C92E, 0x92722C85,
   0xA2BFE8A1, 0xA81A664B, 0xC24B8B70, 0xC76C51A3, 0xD192E819, 0xD6990624, 0xF40E3585, 0x106AA070,
   0x19A4C116, 0x1E376C08, 0x2748774C, 0x34B0BCB5, 0x391C0CB3, 0x4ED8AA4A, 0x5B9CCA4F, 0x682E6FF3,
   0x748F82EE, 0x78A5636F, 0x84C87814, 0x8CC70208, 0x90BEFFFA, 0xA4506CEB, 0xBEF9A3F7, 0xC67178F2]

/-- Round constants of SHA-256. -/
def shaK256 : List (BitVec 32) := shaK256Part0 ++ shaK256Part1

def shaK512Part0 : List (BitVec 64) :=
  [0x428A2F98D728AE22, 0x7137449123EF65CD, 0xB5C0FBCFEC4D3B2F, 0xE9B5DBA58189DBBC,
   0x3956C25BF348B538, 0x59F111F1B605D019, 0x923F82A4AF194F9B, 0xAB1C5ED5DA6D8118,
   0xD807AA98A3030242, 0x12835B0145706FBE, 0x243185BE4EE4B28C, 0x550C7DC3D5FFB4E2,
   0x72BE5D74F27B896F, 0x80DEB1FE3B1696B1, 0x9BDC06A725C71235, 0xC19BF174CF692694,
   0xE49B69C19EF14AD2, 0xEFBE4786384F25E3, 0x0FC19DC68B8CD5B5, 0x240CA1CC77AC9C65,
   0x2DE92C6F592B0275, 0x4A7484AA6EA6E483, 0x5CB0A9DCBD41FBD4, 0x76F988DA831153B5,
   0x983E5152EE66DFAB, 0xA831C66D2DB43210, 0xB00327C898FB213F, 0xBF597FC7BEEF0EE4,
   0xC6E00BF33DA88FC2, 0xD5A79147930AA725, 0x06CA6351E003826F, 0x142929670A0E6E70]

def shaK512Part1 : List (BitVec 64) :=
  [0x27B70A8546D22FFC, 0x2E1B21385C26C926, 0x4D2C6DFC5AC42AED, 0x53380D139D95B3DF,
   0x650A73548BAF63DE, 0x766A0ABB3C77B2A8, 0x81C2C92E47EDAEE6, 0x92722C851482353B,
   0xA2BFE8A14CF10364, 0xA81A664BBC423001, 0xC24B8B70D0F89791, 0xC76C51A30654BE30,
   0xD192E819D6EF5218, 0xD69906245565A910, 0xF40E35855771202A, 0x106AA07032BBD1B8,
   0x19A4C116B8D2D0C8, 0x1E376C085141AB53, 0x2748774CDF8EEB99, 0x34B0BCB5E19B48A8,
   0x391C0CB3C5C95A63, 0x4ED8AA4AE3418ACB, 0x5B9CCA4F7763E373, 0x682E6FF3D6B2B8A3,
   0x748F82EE5DEFB2FC, 0x78A5636F43172F60, 0x84C87814A1F0AB72, 0x8CC702081A6439EC,
   0x90BEFFFA23631E28, 0xA4506CEBDE82BDE9, 0xBEF9A3F7B2C67915, 0xC67178F2E372532B]

def shaK512Part2 : List (BitVec 64) :=
  [0xCA273ECEEA26619C, 0xD186B8C721C0C207, 0xEADA7DD6CDE0EB1E, 0xF57D4F7FEE6ED178,
   0x06F067AA72176FBA, 0x0A637DC5A2C898A6, 0x113F9804BEF90DAE, 0x1B710B35131C471B,
   0x28DB77F523047D84, 0x32CAAB7B40C72493, 0x3C9EBE0A15C9BEBC, 0x431D67C49C100D4C,
   0x4CC5D4BECB3E42B6, 0x597F299CFC657E2A, 0x5FCB6FAB3AD6FAEC, 0x6C44198C4A475817]

/-- Round constants of SHA-384 and SHA-512. -/
def shaK512 : List (BitVec 64) := shaK512Part0 ++ shaK512Part1 ++ shaK512Part2

/-- A chaining value: eight words. -/
structure Chain (w : Nat) where
  a : BitVec w
  b : BitVec w
  c : BitVec w
  d : BitVec w
  e : BitVec w
  f : BitVec w
  g : BitVec w
  h : BitVec w
deriving DecidableEq, Repr

/-- Rotations and shifts that tell the two families apart. -/
structure ShaRot where
  s0 : Nat × Nat × Nat
  s1 : Nat × Nat × Nat
  m0 : Nat × Nat × Nat
  m1 : Nat × Nat × Nat
deriving DecidableEq, Repr

def shaRot256 : ShaRot := ⟨(2, 13, 22), (6, 11, 25), (7, 18, 3), (17, 19, 10)⟩
def shaRot512 : ShaRot := ⟨(28, 34, 39), (14, 18, 41), (1, 8, 7), (19, 61, 6)⟩

/-- Exclusive or of three rotations. -/
def rot3 {w : Nat} (x : BitVec w) (t : Nat × Nat × Nat) : BitVec w :=
  x.rotateRight t.1 ^^^ x.rotateRight t.2.1 ^^^ x.rotateRight t.2.2

/-- Exclusive or of two rotations and a shift. -/
def rotShift {w : Nat} (x : BitVec w) (t : Nat × Nat × Nat) : BitVec w :=
  x.rotateRight t.1 ^^^ x.rotateRight t.2.1 ^^^ (x >>> t.2.2)

/-- The next word of the message schedule, from the last sixteen words, oldest first. -/
def shaNext {w : Nat} (t : ShaRot) (win : List (BitVec w)) : BitVec w :=
  rotShift (win.getD 14 0) t.m1 + win.getD 9 0 + rotShift (win.getD 1 0) t.m0 + win.getD 0 0

/-- One round. -/
def shaRound {w : Nat} (t : ShaRot) (s : Chain w) (k m : BitVec w) : Chain w :=
  let t1 := s.h + rot3 s.e t.s1 + ((s.e &&& s.f) ^^^ (~~~ s.e &&& s.g)) + k + m
  let t2 := rot3 s.a t.s0 + ((s.a &&& s.b) ^^^ (s.a &&& s.c) ^^^ (s.b &&& s.c))
  ⟨t1 + t2, s.a, s.b, s.c, s.d + t1, s.e, s.f, s.g⟩

/-- The rounds over the round constants, with the window of the last sixteen schedule words. -/
def shaRounds {w : Nat} (t : ShaRot) (ks : List (BitVec w)) (win : List (BitVec w)) (s : Chain w) : Chain w :=
  match ks with
  | [] => s
  | k :: r => shaRounds t r (win.drop 1 ++ [shaNext t win]) (shaRound t s k (win.getD 0 0))

/-- Add two chaining values wordwise. -/
def chainAdd {w : Nat} (x y : Chain w) : Chain w :=
  ⟨x.a + y.a, x.b + y.b, x.c + y.c, x.d + y.d, x.e + y.e, x.f + y.f, x.g + y.g, x.h + y.h⟩

/-- The compression of one block. -/
def shaCompress {w : Nat} (t : ShaRot) (ks : List (BitVec w)) (s : Chain w) (block : List Byte) : Chain w :=
  let ws := (chunks (w / 8) block).map fun c => BitVec.ofNat w (beNat c)
  chainAdd s (shaRounds t ks ws s)

/-- A message padded to whole blocks of `bl` bytes, with a length field of `ll` bytes. -/
def shaPad (bl ll : Nat) (msg : List Byte) : List Byte :=
  let n := msg.length
  msg ++ [0x80] ++ zeros ((2 * bl - 1 - ll - n % bl) % bl) ++ beBytes ll (8 * n)

/-- The bytes of a chaining value. -/
def chainBytes {w : Nat} (s : Chain w) : List Byte :=
  [s.a, s.b, s.c, s.d, s.e, s.f, s.g, s.h].flatMap fun x => beBytes (w / 8) x.toNat

def sha256Init : Chain 32 := ⟨0x6A09E667, 0xBB67AE85, 0x3C6EF372, 0xA54FF53A,
   0x510E527F, 0x9B05688C, 0x1F83D9AB, 0x5BE0CD19⟩
def sha384Init : Chain 64 := ⟨0xCBBB9D5DC1059ED8, 0x629A292A367CD507, 0x9159015A3070DD17, 0x152FECD8F70E5939,
   0x67332667FFC00B31, 0x8EB44A8768581511, 0xDB0C2E0D64F98FA7, 0x47B5481DBEFA4FA4⟩
def sha512Init : Chain 64 := ⟨0x6A09E667F3BCC908, 0xBB67AE8584CAA73B, 0x3C6EF372FE94F82B, 0xA54FF53A5F1D36F1,
   0x510E527FADE682D1, 0x9B05688C2B3E6C1F, 0x1F83D9ABFB41BD6B, 0x5BE0CD19137E2179⟩

def sha256 (msg : List Byte) : List Byte :=
  chainBytes ((chunks 64 (shaPad 64 8 msg)).foldl (shaCompress shaRot256 shaK256) sha256Init)

def sha512 (msg : List Byte) : List Byte :=
  chainBytes ((chunks 128 (shaPad 128 16 msg)).foldl (shaCompress shaRot512 shaK512) sha512Init)

def sha384 (msg : List Byte) : List Byte :=
  (chainBytes ((chunks 128 (shaPad 128 16 msg)).foldl (shaCompress shaRot512 shaK512) sha384Init)).take 48

/-- The hash functions of the hash shelves (07 R199, R209): 0 SHA-256, 1 SHA-384, 2 SHA-512. -/
def hashOf (h : Nat) (msg : List Byte) : List Byte :=
  if h = 0 then sha256 msg else if h = 1 then sha384 msg else sha512 msg

/-- Block length in bytes of a hash. -/
def hashBlock (h : Nat) : Nat := if h = 0 then 64 else 128

/-- Digest length in bytes of a hash. -/
def hashLen (h : Nat) : Nat := if h = 0 then 32 else if h = 1 then 48 else 64

/-- The chaining value after whole blocks, in 64 bytes (07 R211). -/
def hashState (h : Nat) (blocks : List Byte) : List Byte :=
  if h = 0 then fit 64 (chainBytes ((chunks 64 blocks).foldl (shaCompress shaRot256 shaK256) sha256Init))
  else chainBytes ((chunks 128 blocks).foldl (shaCompress shaRot512 shaK512) (if h = 1 then sha384Init else sha512Init))

/-- A message padded for a hash. -/
def hashPadded (h : Nat) (msg : List Byte) : List Byte := shaPad (hashBlock h) (if h = 0 then 8 else 16) msg

/-- A key filled to a block and masked, as the pads of HMAC take it. -/
def hmacKey (h : Nat) (key : List Byte) (mask : Byte) : List Byte :=
  (fit (hashBlock h) (if key.length > hashBlock h then hashOf h key else key)).map fun b => b ^^^ mask

/-- Inner and outer starting states of a key (07 R206), 64 bytes each. -/
def padStates (h : Nat) (key : List Byte) : List Byte := hashState h (hmacKey h key 0x36) ++ hashState h (hmacKey h key 0x5C)

/-- HMAC with a hash. -/
def hmac (h : Nat) (key msg : List Byte) : List Byte :=
  hashOf h (hmacKey h key 0x5C ++ hashOf h (hmacKey h key 0x36 ++ msg))

end Sys2Proof.Machine
end

