-- ==== Sys2Proof/Machine/Ecc.lean ====
section
/-! DEFINITION. The operations of the public-key shelves: curve arithmetic over P-256 and P-384 (SP 800-186, FIPS 186-5),
hedged nonces (05 R149), signatures, ECDH, key generation, and RSA verification (05 R159). The randomised representations of
05 R146-R148 do not change a result, so only the values that the draw determines are computed. -/

namespace Sys2Proof.Machine

/-- Modular power by squaring, over the low `fuel` bits of the exponent. -/
def powModAux (fuel b e n acc : Nat) : Nat :=
  match fuel with
  | 0 => acc
  | f + 1 => if e = 0 then acc else powModAux f (b * b % n) (e / 2) n (if e % 2 = 1 then acc * b % n else acc)

def powMod (b e n : Nat) : Nat := powModAux (e.log2 + 1) (b % n) e n (1 % n)

/-- Inverse modulo a prime. -/
def invMod (a p : Nat) : Nat := powMod a (p - 2) p

/-- A curve y^2 = x^3 - 3x + b over a prime field, with its base point and prime order. -/
structure Curve where
  p   : Nat
  b   : Nat
  n   : Nat
  gx  : Nat
  gy  : Nat
  len : Nat
deriving DecidableEq, Repr

def p256 : Curve :=
  { p := 0xFFFFFFFF00000001000000000000000000000000FFFFFFFFFFFFFFFFFFFFFFFF
    b := 0x5AC635D8AA3A93E7B3EBBD55769886BC651D06B0CC53B0F63BCE3C3E27D2604B
    n := 0xFFFFFFFF00000000FFFFFFFFFFFFFFFFBCE6FAADA7179E84F3B9CAC2FC632551
    gx := 0x6B17D1F2E12C4247F8BCE6E563A440F277037D812DEB33A0F4A13945D898C296
    gy := 0x4FE342E2FE1A7F9B8EE7EB4A7C0F9E162BCE33576B315ECECBB6406837BF51F5
    len := 32 }

def p384 : Curve :=
  { p := 0xFFFFFFFFFFFFFFFFFFFFFFFFFFFFFFFFFFFFFFFFFFFFFFFFFFFFFFFFFFFFFFFEFFFFFFFF0000000000000000FFFFFFFF
    b := 0xB3312FA7E23EE7E4988E056BE3F82D19181D9C6EFE8141120314088F5013875AC656398D8A2ED19D2A85C8EDD3EC2AEF
    n := 0xFFFFFFFFFFFFFFFFFFFFFFFFFFFFFFFFFFFFFFFFFFFFFFFFC7634D81F4372DDF581A0DB248B0A77AECEC196ACCC52973
    gx := 0xAA87CA22BE8B05378EB1C71EF320AD746E1D3B628BA79B9859F741E082542A385502F25DBF55296C3A545E3872760AB7
    gy := 0x3617DE4A96262C6F5D9E98BF9292DC29F8F41DBD289A147CE9DA3113B5F0B8C00A60B1CE1D7E819D7A431D7C90EA0E5F
    len := 48 }

/-- A point; none is the point at infinity. -/
abbrev Pt := Option (Nat × Nat)

/-- The chord or tangent rule for a slope. -/
def ecLine (c : Curve) (x1 y1 x2 l : Nat) : Pt :=
  let x3 := (l * l + 2 * c.p - x1 - x2) % c.p
  some (x3, (l * ((x1 + c.p - x3) % c.p) + c.p - y1) % c.p)

def ecAdd (c : Curve) (a b : Pt) : Pt :=
  match a, b with
  | none, q => q
  | q, none => q
  | some (x1, y1), some (x2, y2) =>
    if x1 = x2 then
      if (y1 + y2) % c.p = 0 then none
      else ecLine c x1 y1 x2 ((3 * x1 * x1 + c.p - 3) * invMod (2 * y1) c.p % c.p)
    else ecLine c x1 y1 x2 ((y2 + c.p - y1) * invMod ((x2 + c.p - x1) % c.p) c.p % c.p)

/-- Scalar multiplication from the most significant bit down. -/
def ecMul (c : Curve) (k : Nat) (q : Pt) : Pt :=
  ((List.range (k.log2 + 1)).reverse).foldl (fun acc i =>
    let d := ecAdd c acc acc
    if k.testBit i then ecAdd c d q else d) none

def ecBase (c : Curve) : Pt := some (c.gx, c.gy)

def onCurve (c : Curve) (x y : Nat) : Bool := y * y % c.p == (x * x * x + (c.p - 3) * x + c.b) % c.p

/-- Qx then Qy, big-endian; zeros for the point at infinity. -/
def pointBytes (c : Curve) (q : Pt) : List Byte :=
  match q with
  | none => zeros (2 * c.len)
  | some (x, y) => beBytes c.len x ++ beBytes c.len y

/-- The coordinates that bytes spell. -/
def pointOf (c : Curve) (bs : List Byte) : Nat × Nat := (beNat (slice bs 0 c.len), beNat (slice bs c.len c.len))

/-- A private scalar from drawn bytes (05 R151): (c mod (n - 1)) + 1. -/
def scalarOf (c : Curve) (bs : List Byte) : Nat := beNat bs % (c.n - 1) + 1

/-- Drawn bytes that make a private scalar: 56 for P-384, 40 for P-256 (05 R143). -/
def scalarDraw (c : Curve) : Nat := c.len + 8

/-- The hedged nonce (05 R149). -/
def hedgedNonce (c : Curve) (d e rho : List Byte) : Nat :=
  let t := hmac 1 d (rho ++ e ++ [1])
  let t := if c.len = 48 then t ++ hmac 1 d (rho ++ e ++ [2]) else t
  scalarOf c (t.take (scalarDraw c))

/-- What a shelf's checks give besides a result: status 0x01 or 0x10 with a detail (05 R154). -/
inductive PkOut where
  | ok (bytes : List Byte)
  | bad (status detail : Byte)
deriving DecidableEq, Repr

/-- The random values of one half (05 R143, R146-R148). λ scales projective coordinates and drops out of every affine result. -/
structure HalfDraw where
  r     : Nat
  lam   : Nat
  beta  : Nat
  gamma : Nat
deriving DecidableEq, Repr

/-- A draw in the order of the table of 05 R143: ρ of a signature or c of a key generation, then the two halves. -/
structure PkDraw where
  head  : List Byte
  halfA : HalfDraw
  halfB : HalfDraw
deriving DecidableEq, Repr

/-- One half's values from its part of a draw: r 8 bytes, λ, β, γ 8 bytes; a draw that stops earlier leaves the rest 0. -/
def halfDraw (c : Curve) (bs : List Byte) : HalfDraw :=
  let w := scalarDraw c
  { r := beNat (slice bs 0 8), lam := beNat (slice bs 8 w) % (c.p - 1) + 1, beta := beNat (slice bs (8 + w) w) % (c.n - 1) + 1,
    gamma := beNat (slice bs (8 + 2 * w) 8) }

/-- A signature's draw: ρ 48, then r, λ, β, γ for each half. -/
def signDraw (c : Curve) (bs : List Byte) : PkDraw :=
  let w := 16 + 2 * scalarDraw c
  { head := fit 48 bs, halfA := halfDraw c (slice bs 48 w), halfB := halfDraw c (slice bs (48 + w) w) }

/-- The draw of an ECDH (`n` = 0) or of a key generation (`n` bytes of c): then r and λ for each half. -/
def mulDraw (c : Curve) (n : Nat) (bs : List Byte) : PkDraw :=
  let w := 8 + scalarDraw c
  { head := fit n bs, halfA := halfDraw c (slice bs n w), halfB := halfDraw c (slice bs (n + w) w) }

/-- A blinded scalar multiplication (05 R146): k′ = k + r·n. -/
def blindMul (c : Curve) (k : Nat) (h : HalfDraw) (q : Pt) : Pt := ecMul c (k + h.r * c.n) q

/-- What one half of a signing shelf computes with its own blinding (05 R148): the inversion sees only k·β, and d enters as d + γ·n. -/
def signHalf (c : Curve) (k dn : Nat) (e : List Byte) (h : HalfDraw) : PkOut :=
  match blindMul c k h (ecBase c) with
  | none => .bad 0x01 0x04
  | some (x, _) =>
    let r := x % c.n
    let t := (dn + h.gamma * c.n) % c.n
    let u := (beNat e + r * t) % c.n
    let s := invMod (k * h.beta % c.n) c.n * (h.beta * u % c.n) % c.n
    if r = 0 || s = 0 then .bad 0x01 0x04 else .ok (beBytes c.len r ++ beBytes c.len s)

/-- A signing slot with its draw (05 R143, R148, R149): the value is half A's; half B's is the same unless a fault check fails. -/
def ecdsaSignDraw (c : Curve) (d e draw : List Byte) : PkOut :=
  let x := signDraw c draw
  let dn := beNat d
  if dn = 0 || decide (c.n ≤ dn) then .bad 0x01 0x03 else signHalf c (hedgedNonce c d e x.head) dn e x.halfA

/-- The signing core (05 R148-R150, R154): r then s. -/
def ecdsaSign (c : Curve) (d e rho : List Byte) : PkOut :=
  let dn := beNat d
  if dn = 0 || decide (c.n ≤ dn) then .bad 0x01 0x03
  else
    let k := hedgedNonce c d e rho
    match ecMul c k (ecBase c) with
    | none => .bad 0x01 0x04
    | some (x, _) =>
      let r := x % c.n
      let s := invMod k c.n * (beNat e % c.n + r * dn) % c.n
      if r = 0 || s = 0 then .bad 0x01 0x04 else .ok (beBytes c.len r ++ beBytes c.len s)

/-- Verification (05 R154, R156): INPUT_INVALID before SIG_INVALID, the lowest detail first. -/
def ecdsaVerify (c : Curve) (e r s q : List Byte) : PkOut :=
  let (x, y) := pointOf c q
  let rn := beNat r
  let sn := beNat s
  if decide (c.p ≤ x) || decide (c.p ≤ y) then .bad 0x01 0x01
  else if !onCurve c x y then .bad 0x01 0x02
  else if rn = 0 || decide (c.n ≤ rn) || sn = 0 || decide (c.n ≤ sn) then .bad 0x10 0x01
  else
    let w := invMod sn c.n
    let u1 := beNat e % c.n * w % c.n
    let u2 := rn * w % c.n
    match ecAdd c (ecMul c u1 (ecBase c)) (ecMul c u2 (some (x, y))) with
    | none => .bad 0x10 0x02
    | some (v, _) => if v % c.n = rn then .ok [] else .bad 0x10 0x00

/-- ECDH (05 R152, R154): the x-coordinate of d·P. -/
def ecdhDraw (c : Curve) (d peer : List Byte) (h : HalfDraw) : PkOut :=
  let (x, y) := pointOf c peer
  let dn := beNat d
  if decide (c.p ≤ x) || decide (c.p ≤ y) then .bad 0x01 0x01
  else if !onCurve c x y then .bad 0x01 0x02
  else if dn = 0 || decide (c.n ≤ dn) then .bad 0x01 0x03
  else
    match blindMul c dn h (some (x, y)) with
    | none => .ok (zeros c.len)
    | some (z, _) => .ok (beBytes c.len z)

/-- ECDH by a world's own program, without blinding. -/
def ecdh (c : Curve) (d peer : List Byte) : PkOut := ecdhDraw c d peer { r := 0, lam := 1, beta := 1, gamma := 0 }

/-- A key pair from a draw (05 R151): d then Qx, Qy. -/
def ecKeygen (c : Curve) (draw : List Byte) : List Byte × List Byte :=
  let x := mulDraw c (scalarDraw c) draw
  let d := scalarOf c x.head
  (beBytes c.len d, pointBytes c (blindMul c d x.halfA (ecBase c)))

/-! ### RSA verification -/

/-- DER DigestInfo prefixes with NULL parameters: SHA-256, SHA-384, SHA-512 (param hash 1, 2, 3). -/
def digestInfo (h : Nat) : List Byte :=
  let oid : Byte := if h = 0 then 1 else if h = 1 then 2 else 3
  let n : Byte := BitVec.ofNat 8 (hashLen h)
  [0x30, 0x11 + n, 0x30, 0x0D, 0x06, 0x09, 0x60, 0x86, 0x48, 0x01, 0x65, 0x03, 0x04, 0x02, oid, 0x05, 0x00, 0x04, n]

/-- MGF1 over a hash. -/
def mgf1 (h : Nat) (seed : List Byte) (len : Nat) : List Byte :=
  (((List.range (len / hashLen h + 1)).flatMap fun i => hashOf h (seed ++ beBytes 4 i))).take len

/-- EMSA-PSS verification of an encoded message with emBits bits. -/
def pssOk (h saltLen emBits : Nat) (digest em : List Byte) : Bool :=
  let hl := hashLen h
  let el := (emBits + 7) / 8
  let lead := em.take (em.length - el)
  let em := em.drop (em.length - el)
  if el < hl + saltLen + 2 || !allZero lead then false
  else if em.getLast? != some 0xBC then false
  else
    let masked := em.take (el - hl - 1)
    let hh := (em.drop (el - hl - 1)).take hl
    let top := 8 * el - emBits
    if beNat (masked.take 1) / 2 ^ (8 - top) != 0 then false
    else
      let db0 := xorBytes masked (mgf1 h hh masked.length)
      let db := BitVec.ofNat 8 (beNat (db0.take 1) % 2 ^ (8 - top)) :: db0.drop 1
      let ps := el - hl - saltLen - 2
      allZero (db.take ps) && db.getD ps 0 == 1 && hashOf h (zeros 8 ++ digest.take hl ++ db.drop (ps + 1)) == hh

/-- The RSA verification of a shelf (05 R154, R155, R159): `h` is 0 to 2. -/
def rsaVerify (pss : Bool) (h salt k e : Nat) (n s digest : List Byte) : PkOut :=
  let nn := beNat n
  let sn := beNat s
  if e % 2 = 0 || e < 3 then .bad 0x01 0x05
  else if nn % 2 = 0 || n.headD 0 == 0 then .bad 0x01 0x06
  else if sn = 0 || decide (nn ≤ sn) then .bad 0x01 0x07
  else
    let em := beBytes k (powMod sn e nn)
    let t := digestInfo h ++ digest.take (hashLen h)
    let good :=
      if pss then pssOk h salt nn.log2 digest em
      else em == [0x00, 0x01] ++ List.replicate (k - 3 - t.length) 0xFF ++ [0x00] ++ t && decide (t.length + 11 ≤ k)
    if good then .ok [] else .bad 0x10 0x03

/-! ### Derivation (07 R212, R214, R217) -/

/-- Input of iteration `i` of a derivation of `len` bytes, counted from 0. -/
def kdfInput (label ctx : List Byte) (len i : Nat) : List Byte := beBytes 4 (i + 1) ++ label ++ [0] ++ ctx ++ beBytes 4 (8 * len)

/-- SP 800-108 in counter mode with HMAC-SHA-384: the first `len` bytes. -/
def kdf (key label ctx : List Byte) (len : Nat) : List Byte :=
  (((List.range (ceilDiv len 48)).flatMap fun i => hmac 1 key (kdfInput label ctx len i))).take len

/-- The digest of a firmware image under its 8 operand bytes (07 R217). -/
def imageDigest (ops image : List Byte) : List Byte :=
  sha384 ([0x47, 0x55, 0x4C, 0x4A, 0x4F, 0x52, 0x49, 0x4D] ++ ops.take 8 ++ image)

end Sys2Proof.Machine
end

