-- ==== Sys2Proof/Machine/Aes.lean ====
section
/-! DEFINITION. AES of FIPS 197 and its modes of SP 800-38A to 38F, which the device meets (00 R16, 06; PRESUMED, log entry 7). -/

namespace Sys2Proof.Machine

def aesSboxPart0 : List Byte :=
  [0x63, 0x7C, 0x77, 0x7B, 0xF2, 0x6B, 0x6F, 0xC5, 0x30, 0x01, 0x67, 0x2B, 0xFE, 0xD7, 0xAB, 0x76,
   0xCA, 0x82, 0xC9, 0x7D, 0xFA, 0x59, 0x47, 0xF0, 0xAD, 0xD4, 0xA2, 0xAF, 0x9C, 0xA4, 0x72, 0xC0,
   0xB7, 0xFD, 0x93, 0x26, 0x36, 0x3F, 0xF7, 0xCC, 0x34, 0xA5, 0xE5, 0xF1, 0x71, 0xD8, 0x31, 0x15,
   0x04, 0xC7, 0x23, 0xC3, 0x18, 0x96, 0x05, 0x9A, 0x07, 0x12, 0x80, 0xE2, 0xEB, 0x27, 0xB2, 0x75]

def aesSboxPart1 : List Byte :=
  [0x09, 0x83, 0x2C, 0x1A, 0x1B, 0x6E, 0x5A, 0xA0, 0x52, 0x3B, 0xD6, 0xB3, 0x29, 0xE3, 0x2F, 0x84,
   0x53, 0xD1, 0x00, 0xED, 0x20, 0xFC, 0xB1, 0x5B, 0x6A, 0xCB, 0xBE, 0x39, 0x4A, 0x4C, 0x58, 0xCF,
   0xD0, 0xEF, 0xAA, 0xFB, 0x43, 0x4D, 0x33, 0x85, 0x45, 0xF9, 0x02, 0x7F, 0x50, 0x3C, 0x9F, 0xA8,
   0x51, 0xA3, 0x40, 0x8F, 0x92, 0x9D, 0x38, 0xF5, 0xBC, 0xB6, 0xDA, 0x21, 0x10, 0xFF, 0xF3, 0xD2]

def aesSboxPart2 : List Byte :=
  [0xCD, 0x0C, 0x13, 0xEC, 0x5F, 0x97, 0x44, 0x17, 0xC4, 0xA7, 0x7E, 0x3D, 0x64, 0x5D, 0x19, 0x73,
   0x60, 0x81, 0x4F, 0xDC, 0x22, 0x2A, 0x90, 0x88, 0x46, 0xEE, 0xB8, 0x14, 0xDE, 0x5E, 0x0B, 0xDB,
   0xE0, 0x32, 0x3A, 0x0A, 0x49, 0x06, 0x24, 0x5C, 0xC2, 0xD3, 0xAC, 0x62, 0x91, 0x95, 0xE4, 0x79,
   0xE7, 0xC8, 0x37, 0x6D, 0x8D, 0xD5, 0x4E, 0xA9, 0x6C, 0x56, 0xF4, 0xEA, 0x65, 0x7A, 0xAE, 0x08]

def aesSboxPart3 : List Byte :=
  [0xBA, 0x78, 0x25, 0x2E, 0x1C, 0xA6, 0xB4, 0xC6, 0xE8, 0xDD, 0x74, 0x1F, 0x4B, 0xBD, 0x8B, 0x8A,
   0x70, 0x3E, 0xB5, 0x66, 0x48, 0x03, 0xF6, 0x0E, 0x61, 0x35, 0x57, 0xB9, 0x86, 0xC1, 0x1D, 0x9E,
   0xE1, 0xF8, 0x98, 0x11, 0x69, 0xD9, 0x8E, 0x94, 0x9B, 0x1E, 0x87, 0xE9, 0xCE, 0x55, 0x28, 0xDF,
   0x8C, 0xA1, 0x89, 0x0D, 0xBF, 0xE6, 0x42, 0x68, 0x41, 0x99, 0x2D, 0x0F, 0xB0, 0x54, 0xBB, 0x16]

/-- The S-box. -/
def aesSbox : List Byte := aesSboxPart0 ++ aesSboxPart1 ++ aesSboxPart2 ++ aesSboxPart3

def aesInvSboxPart0 : List Byte :=
  [0x52, 0x09, 0x6A, 0xD5, 0x30, 0x36, 0xA5, 0x38, 0xBF, 0x40, 0xA3, 0x9E, 0x81, 0xF3, 0xD7, 0xFB,
   0x7C, 0xE3, 0x39, 0x82, 0x9B, 0x2F, 0xFF, 0x87, 0x34, 0x8E, 0x43, 0x44, 0xC4, 0xDE, 0xE9, 0xCB,
   0x54, 0x7B, 0x94, 0x32, 0xA6, 0xC2, 0x23, 0x3D, 0xEE, 0x4C, 0x95, 0x0B, 0x42, 0xFA, 0xC3, 0x4E,
   0x08, 0x2E, 0xA1, 0x66, 0x28, 0xD9, 0x24, 0xB2, 0x76, 0x5B, 0xA2, 0x49, 0x6D, 0x8B, 0xD1, 0x25]

def aesInvSboxPart1 : List Byte :=
  [0x72, 0xF8, 0xF6, 0x64, 0x86, 0x68, 0x98, 0x16, 0xD4, 0xA4, 0x5C, 0xCC, 0x5D, 0x65, 0xB6, 0x92,
   0x6C, 0x70, 0x48, 0x50, 0xFD, 0xED, 0xB9, 0xDA, 0x5E, 0x15, 0x46, 0x57, 0xA7, 0x8D, 0x9D, 0x84,
   0x90, 0xD8, 0xAB, 0x00, 0x8C, 0xBC, 0xD3, 0x0A, 0xF7, 0xE4, 0x58, 0x05, 0xB8, 0xB3, 0x45, 0x06,
   0xD0, 0x2C, 0x1E, 0x8F, 0xCA, 0x3F, 0x0F, 0x02, 0xC1, 0xAF, 0xBD, 0x03, 0x01, 0x13, 0x8A, 0x6B]

def aesInvSboxPart2 : List Byte :=
  [0x3A, 0x91, 0x11, 0x41, 0x4F, 0x67, 0xDC, 0xEA, 0x97, 0xF2, 0xCF, 0xCE, 0xF0, 0xB4, 0xE6, 0x73,
   0x96, 0xAC, 0x74, 0x22, 0xE7, 0xAD, 0x35, 0x85, 0xE2, 0xF9, 0x37, 0xE8, 0x1C, 0x75, 0xDF, 0x6E,
   0x47, 0xF1, 0x1A, 0x71, 0x1D, 0x29, 0xC5, 0x89, 0x6F, 0xB7, 0x62, 0x0E, 0xAA, 0x18, 0xBE, 0x1B,
   0xFC, 0x56, 0x3E, 0x4B, 0xC6, 0xD2, 0x79, 0x20, 0x9A, 0xDB, 0xC0, 0xFE, 0x78, 0xCD, 0x5A, 0xF4]

def aesInvSboxPart3 : List Byte :=
  [0x1F, 0xDD, 0xA8, 0x33, 0x88, 0x07, 0xC7, 0x31, 0xB1, 0x12, 0x10, 0x59, 0x27, 0x80, 0xEC, 0x5F,
   0x60, 0x51, 0x7F, 0xA9, 0x19, 0xB5, 0x4A, 0x0D, 0x2D, 0xE5, 0x7A, 0x9F, 0x93, 0xC9, 0x9C, 0xEF,
   0xA0, 0xE0, 0x3B, 0x4D, 0xAE, 0x2A, 0xF5, 0xB0, 0xC8, 0xEB, 0xBB, 0x3C, 0x83, 0x53, 0x99, 0x61,
   0x17, 0x2B, 0x04, 0x7E, 0xBA, 0x77, 0xD6, 0x26, 0xE1, 0x69, 0x14, 0x63, 0x55, 0x21, 0x0C, 0x7D]

/-- The inverse S-box. -/
def aesInvSbox : List Byte := aesInvSboxPart0 ++ aesInvSboxPart1 ++ aesInvSboxPart2 ++ aesInvSboxPart3

def subByte (b : Byte) : Byte := aesSbox.getD b.toNat 0
def invSubByte (b : Byte) : Byte := aesInvSbox.getD b.toNat 0

/-- Multiply by x in the field of AES. -/
def xtime (b : Byte) : Byte := if b.getLsbD 7 then (b <<< 1) ^^^ 0x1B else b <<< 1

/-- Multiply by a small constant given by its bits. -/
def gmul (b : Byte) (k : Nat) : Byte :=
  let b2 := xtime b
  let b4 := xtime b2
  let b8 := xtime b4
  (if k.testBit 0 then b else 0) ^^^ (if k.testBit 1 then b2 else 0) ^^^ (if k.testBit 2 then b4 else 0)
    ^^^ (if k.testBit 3 then b8 else 0)

/-- A column times a circulant row of constants. -/
def mixCol (k : List Nat) (c : List Byte) : List Byte :=
  (List.range 4).map fun i => (List.range 4).foldl (fun acc j => acc ^^^ gmul (c.getD j 0) (k.getD ((j + 4 - i) % 4) 0)) 0

def mixColumns (k : List Nat) (s : List Byte) : List Byte := (chunks 4 s).flatMap (mixCol k)

/-- ShiftRows: byte r + 4c takes r + 4(c + r). -/
def shiftRows (s : List Byte) : List Byte := (List.range 16).map fun i => s.getD ((i + 4 * (i % 4)) % 16) 0
def invShiftRows (s : List Byte) : List Byte := (List.range 16).map fun i => s.getD ((i + 16 * 4 - 4 * (i % 4)) % 16) 0

/-- The key schedule, newest word first; `i` counts words, `nk` is the key's length in words. -/
def expandAux (fuel i nk : Nat) (rcon : Byte) (ws : List (List Byte)) : List (List Byte) :=
  match fuel with
  | 0 => ws
  | f + 1 =>
    let prev := ws.getD 0 []
    let t :=
      if i % nk = 0 then
        let r := (prev.drop 1 ++ prev.take 1).map subByte
        xorBytes r [rcon, 0, 0, 0]
      else if nk = 8 && i % nk = 4 then prev.map subByte else prev
    expandAux f (i + 1) nk (if i % nk = 0 then xtime rcon else rcon) (xorBytes (ws.getD (nk - 1) []) t :: ws)

/-- The round keys of a 16-byte or 32-byte key, in order. -/
def aesRoundKeys (key : List Byte) : List (List Byte) :=
  let nk := key.length / 4
  let ws := (expandAux (4 * (nk + 7) - nk) nk nk 1 (chunks 4 key).reverse).reverse
  (chunks 16 ws.flatten)

/-- One block with expanded round keys. -/
def aesEncRk (rks : List (List Byte)) (blk : List Byte) : List Byte :=
  let s0 := xorBytes blk (rks.getD 0 [])
  let s1 := ((rks.drop 1).dropLast).foldl (fun s k => xorBytes (mixColumns [2, 3, 1, 1] (shiftRows (s.map subByte))) k) s0
  xorBytes (shiftRows (s1.map subByte)) (rks.getLastD [])

def aesDecRk (rks : List (List Byte)) (blk : List Byte) : List Byte :=
  let s0 := (invShiftRows (xorBytes blk (rks.getLastD []))).map invSubByte
  let s1 := ((rks.drop 1).dropLast.reverse).foldl
    (fun s k => (invShiftRows (mixColumns [14, 11, 13, 9] (xorBytes s k))).map invSubByte) s0
  xorBytes s1 (rks.getD 0 [])

def aesEnc (key blk : List Byte) : List Byte := aesEncRk (aesRoundKeys key) blk
def aesDec (key blk : List Byte) : List Byte := aesDecRk (aesRoundKeys key) blk

/-! ### Modes -/

/-- Add to a 16-byte big-endian counter; only the low `n` bytes count. -/
def incCounter (n : Nat) (c : List Byte) (k : Nat) : List Byte :=
  c.take (16 - n) ++ beBytes n (beNat (c.drop (16 - n)) + k)

/-- Counter mode from an initial counter block; the low `n` bytes count. -/
def ctrMode (key : List Byte) (n : Nat) (c0 data : List Byte) : List Byte :=
  let rks := aesRoundKeys key
  ((chunks 16 data).zipIdx.map fun p => xorBytes p.1 (aesEncRk rks (incCounter n c0 p.2))).flatten

def cbcEnc (key iv data : List Byte) : List Byte :=
  let rks := aesRoundKeys key
  ((chunks 16 data).foldl (fun (acc : List Byte × List (List Byte)) b =>
    let c := aesEncRk rks (xorBytes b acc.1)
    (c, c :: acc.2)) (iv, [])).2.reverse.flatten

def cbcDec (key iv data : List Byte) : List Byte :=
  let rks := aesRoundKeys key
  ((chunks 16 data).foldl (fun (acc : List Byte × List (List Byte)) b =>
    (b, xorBytes (aesDecRk rks b) acc.1 :: acc.2)) (iv, [])).2.reverse.flatten

/-- Doubling in the field of CMAC. -/
def cmacDouble (b : List Byte) : List Byte :=
  let v := 2 * beNat b
  beBytes 16 (if v < 2 ^ 128 then v else (v % 2 ^ 128) ^^^ 0x87)

/-- AES-CMAC, 16 bytes. -/
def cmac (key msg : List Byte) : List Byte :=
  let rks := aesRoundKeys key
  let k1 := cmacDouble (aesEncRk rks (zeros 16))
  let k2 := cmacDouble k1
  let n := if msg.length = 0 then 1 else (msg.length + 15) / 16
  let last := msg.drop (16 * (n - 1))
  let lastBlk := if last.length = 16 then xorBytes last k1 else xorBytes (last ++ [0x80] ++ zeros (15 - last.length)) k2
  ((chunks 16 (msg.take (16 * (n - 1))) ++ [lastBlk]).foldl (fun c b => aesEncRk rks (xorBytes c b)) (zeros 16))

/-- One bit of the GHASH product: shift `v` right in the reflected field. -/
def ghashShift (v : Nat) : Nat := if v % 2 = 1 then (v / 2) ^^^ (0xE1 <<< 120) else v / 2

/-- Product in the field of GHASH; bit 127 is the first. -/
def ghashMul (x h : Nat) : Nat :=
  ((List.range 128).foldl (fun (acc : Nat × Nat) i =>
    (if x.testBit (127 - i) then acc.1 ^^^ acc.2 else acc.1, ghashShift acc.2)) (0, h)).1

/-- GHASH over zero-padded blocks. -/
def ghash (h : Nat) (data : List Byte) : Nat :=
  (chunks 16 data).foldl (fun y b => ghashMul (y ^^^ beNat (fit 16 b)) h) 0

/-- Pad with zeros to whole blocks. -/
def padBlocks (bs : List Byte) : List Byte := bs ++ zeros ((16 - bs.length % 16) % 16)

/-- The GCM tag of a ciphertext for a 96-bit IV. -/
def gcmTag (key iv aad ct : List Byte) : List Byte :=
  let h := beNat (aesEnc key (zeros 16))
  let s := ghash h (padBlocks aad ++ padBlocks ct ++ beBytes 8 (8 * aad.length) ++ beBytes 8 (8 * ct.length))
  xorBytes (beBytes 16 s) (aesEnc key (iv ++ [0, 0, 0, 1]))

/-- GCM encryption or decryption of the data, which are the same. -/
def gcmCrypt (key iv data : List Byte) : List Byte := ctrMode key 4 (iv ++ [0, 0, 0, 2]) data

/-- B0 and the formatted associated data of a CCM message, before its zero padding. -/
def ccmHead (nonce aad : List Byte) (plen tlen : Nat) : List Byte :=
  let q := 15 - nonce.length
  let b0 : List Byte := BitVec.ofNat 8 ((if aad.isEmpty then 0 else 64) + 8 * ((tlen - 2) / 2) + (q - 1)) :: (nonce ++ beBytes q plen)
  b0 ++ (if aad.isEmpty then [] else if aad.length < 65280 then beBytes 2 aad.length else [0xFF, 0xFE] ++ beBytes 4 aad.length) ++ aad

/-- The CBC-MAC state after whole blocks. -/
def cbcMac (key data : List Byte) : List Byte :=
  let rks := aesRoundKeys key
  (chunks 16 data).foldl (fun c b => aesEncRk rks (xorBytes c b)) (zeros 16)

/-- Counter block A_i of a CCM nonce. -/
def ccmCounter (nonce : List Byte) (i : Nat) : List Byte :=
  let q := 15 - nonce.length
  BitVec.ofNat 8 (q - 1) :: (nonce ++ beBytes q i)

/-- The CCM tag for a nonce and a tag length. -/
def ccmTag (key nonce aad pt : List Byte) (tlen : Nat) : List Byte :=
  let x := cbcMac key (padBlocks (ccmHead nonce aad pt.length tlen) ++ padBlocks pt)
  (xorBytes x (aesEnc key (ccmCounter nonce 0))).take tlen

/-- CCM encryption or decryption of the payload. -/
def ccmCrypt (key nonce data : List Byte) : List Byte :=
  ctrMode key (15 - nonce.length) (ccmCounter nonce 1) data

/-- One wrapping step of key wrap: block `r` with step number `t`. -/
def kwStep (rks : List (List Byte)) (a r : List Byte) (t : Nat) : List Byte × List Byte :=
  let b := aesEncRk rks (a ++ r)
  (xorBytes (b.take 8) (beBytes 8 t), b.drop 8)

/-- One unwrapping step of key wrap. -/
def kwUnstep (rks : List (List Byte)) (a r : List Byte) (t : Nat) : List Byte × List Byte :=
  let b := aesDecRk rks (xorBytes a (beBytes 8 t) ++ r)
  (b.take 8, b.drop 8)

/-- The wrapping function W of SP 800-38F over an integrity block and semiblocks. -/
def kwW (key a0 : List Byte) (rs : List (List Byte)) : List Byte :=
  let rks := aesRoundKeys key
  let n := rs.length
  let r := (List.range 6).foldl (fun (s : List Byte × List (List Byte)) j =>
    let pass := s.2.zipIdx.foldl (fun (q : List Byte × List (List Byte)) p =>
      let o := kwStep rks q.1 p.1 (n * j + p.2 + 1)
      (o.1, o.2 :: q.2)) (s.1, [])
    (pass.1, pass.2.reverse)) (a0, rs)
  r.1 ++ r.2.flatten

/-- The inverse of W: the integrity block and the semiblocks. -/
def kwUnW (key a0 : List Byte) (rs : List (List Byte)) : List Byte × List (List Byte) :=
  let rks := aesRoundKeys key
  let n := rs.length
  (List.range 6).foldl (fun (s : List Byte × List (List Byte)) j =>
    s.2.zipIdx.reverse.foldl (fun (q : List Byte × List (List Byte)) p =>
      let o := kwUnstep rks q.1 p.1 (n * (5 - j) + p.2 + 1)
      (o.1, o.2 :: q.2)) (s.1, [])) (a0, rs)

/-- AES-KWP wrapping (SP 800-38F). -/
def kwpWrap (key pt : List Byte) : List Byte :=
  let iv : List Byte := [0xA6, 0x59, 0x59, 0xA6] ++ beBytes 4 pt.length
  let p := pt ++ zeros ((8 - pt.length % 8) % 8)
  if p.length = 8 then aesEnc key (iv ++ p) else kwW key iv (chunks 8 p)

/-- AES-KWP unwrapping: none when the integrity check fails. -/
def kwpUnwrap (key ct : List Byte) : Option (List Byte) :=
  if ct.length < 16 || ct.length % 8 != 0 then none
  else
    let r := if ct.length = 16 then let b := aesDec key ct; (b.take 8, [b.drop 8])
             else kwUnW key (ct.take 8) (chunks 8 (ct.drop 8))
    let p := r.2.flatten
    let n := beNat (r.1.drop 4)
    if r.1.take 4 = [0xA6, 0x59, 0x59, 0xA6] && decide (p.length < n + 8) && decide (n ≤ p.length) && allZero (p.drop n)
    then some (p.take n) else none

/-- AES-KW wrapping of whole semiblocks (SP 800-38F). -/
def kwWrap (key pt : List Byte) : List Byte := kwW key (List.replicate 8 0xA6) (chunks 8 pt)

/-- AES-KW unwrapping: none when the integrity check fails. -/
def kwUnwrap (key ct : List Byte) : Option (List Byte) :=
  if ct.length < 24 || ct.length % 8 != 0 then none
  else
    let r := kwUnW key (ct.take 8) (chunks 8 (ct.drop 8))
    if r.1 = List.replicate 8 0xA6 then some r.2.flatten else none

end Sys2Proof.Machine
end

