-- ==== Sys2Proof/Machine/Operands.lean ====
section
/-! DEFINITION. The operand forms of jobs: the job catalogue (04 R106-R126), submission entries and descriptors with their
malformations (03 R85-R87, R102), key handles (08 R236), key types and attribute words (08 R232-R234), and crates (08 R246). -/

namespace Sys2Proof.Machine

/-- How a job names its key (04 R106). -/
inductive KeyNeed where
  | none | handle | crate | any
deriving DecidableEq, Repr

/-- What the catalogue fixes for a job: code, key column, descriptor counts, operand layout length, PF only. -/
structure JobInfo where
  kind  : JobKind
  code  : Nat
  key   : KeyNeed
  rmin  : Nat
  rmax  : Nat
  wmin  : Nat
  wmax  : Nat
  lay   : Nat
  pf    : Bool
deriving DecidableEq, Repr

/-- Public-key, symmetric and hash jobs (04 R112, R116, R120). -/
def jobsEngine : List JobInfo :=
  [⟨.ecdsaSignP384, 0x0101, .any, 0, 0, 1, 4, 48, false⟩,
   ⟨.ecdsaVerifyP384, 0x0102, .none, 0, 0, 0, 0, 240, false⟩,
   ⟨.ecdsaVerifyP384Key, 0x0103, .any, 0, 0, 0, 0, 144, false⟩,
   ⟨.ecdhP384, 0x0104, .any, 0, 0, 0, 0, 96, false⟩,
   ⟨.keygenP384, 0x0105, .none, 0, 0, 1, 4, 2, false⟩,
   ⟨.ecdsaSignP256, 0x0111, .any, 0, 0, 1, 4, 32, false⟩,
   ⟨.ecdsaVerifyP256, 0x0112, .none, 0, 0, 0, 0, 160, false⟩,
   ⟨.ecdsaVerifyP256Key, 0x0113, .any, 0, 0, 0, 0, 96, false⟩,
   ⟨.ecdhP256, 0x0114, .any, 0, 0, 0, 0, 64, false⟩,
   ⟨.keygenP256, 0x0115, .none, 0, 0, 1, 4, 2, false⟩,
   ⟨.rsaVerifyPkcs1v15, 0x0121, .none, 1, 254, 0, 0, 68, false⟩,
   ⟨.rsaVerifyPss, 0x0122, .none, 1, 254, 0, 0, 68, false⟩,
   ⟨.gcmEncrypt, 0x0201, .any, 1, 254, 1, 254, 0, false⟩,
   ⟨.gcmDecrypt, 0x0202, .any, 1, 254, 1, 254, 0, false⟩,
   ⟨.ccmEncrypt, 0x0203, .any, 1, 254, 1, 254, 15, false⟩,
   ⟨.ccmDecrypt, 0x0204, .any, 1, 254, 1, 254, 15, false⟩,
   ⟨.ctrCrypt, 0x0205, .any, 1, 254, 1, 254, 16, false⟩,
   ⟨.cbcEncrypt, 0x0206, .any, 1, 254, 1, 254, 16, false⟩,
   ⟨.cbcDecrypt, 0x0207, .any, 1, 254, 1, 254, 16, false⟩,
   ⟨.cmacGenerate, 0x0208, .any, 1, 254, 1, 4, 0, false⟩,
   ⟨.cmacVerify, 0x0209, .any, 1, 254, 0, 0, 16, false⟩,
   ⟨.meterGcmEncrypt, 0x0220, .any, 1, 254, 1, 254, 18, false⟩,
   ⟨.meterGcmDecrypt, 0x0221, .any, 1, 254, 1, 254, 18, false⟩,
   ⟨.sha256, 0x0301, .none, 1, 254, 1, 4, 0, false⟩,
   ⟨.sha384, 0x0302, .none, 1, 254, 1, 4, 0, false⟩,
   ⟨.sha512, 0x0303, .none, 1, 254, 1, 4, 0, false⟩,
   ⟨.hmacGenerate, 0x0304, .any, 1, 254, 1, 4, 0, false⟩,
   ⟨.hmacVerify, 0x0305, .any, 1, 254, 0, 0, 64, false⟩,
   ⟨.kdfDerive, 0x0310, .any, 0, 0, 0, 0, 8, false⟩,
   ⟨.imageDigest, 0x0320, .none, 1, 254, 1, 4, 8, false⟩]

/-- Key management, random, attestation, administration and quorum jobs (04 R122, R124-R126). -/
def jobsAdmin : List JobInfo :=
  [⟨.keyGenerate, 0x0401, .handle, 0, 0, 0, 0, 8, false⟩,
   ⟨.crateLoad, 0x0402, .crate, 0, 0, 0, 0, 0, false⟩,
   ⟨.crateExport, 0x0403, .any, 0, 0, 1, 4, 8, false⟩,
   ⟨.keyEvict, 0x0404, .handle, 0, 0, 0, 0, 0, false⟩,
   ⟨.keyReplaceBegin, 0x0405, .handle, 0, 0, 0, 0, 8, false⟩,
   ⟨.keyReplaceCommit, 0x0406, .handle, 0, 0, 0, 0, 0, false⟩,
   ⟨.keyInvalidate, 0x0407, .handle, 0, 0, 0, 0, 0, false⟩,
   ⟨.keyInfo, 0x0408, .handle, 0, 0, 1, 4, 0, false⟩,
   ⟨.keyPublic, 0x0409, .handle, 0, 0, 1, 4, 0, false⟩,
   ⟨.tenantPlanLoad, 0x040A, .none, 1, 254, 0, 0, 0, true⟩,
   ⟨.randomBytes, 0x0501, .none, 0, 0, 1, 4, 0, false⟩,
   ⟨.drbgReseed, 0x0502, .none, 0, 0, 0, 0, 0, false⟩,
   ⟨.attestKey, 0x0601, .handle, 0, 0, 1, 4, 32, false⟩,
   ⟨.attestDevice, 0x0602, .none, 0, 0, 1, 4, 32, false⟩,
   ⟨.attestChain, 0x0603, .none, 0, 0, 1, 4, 0, false⟩,
   ⟨.nop, 0x0701, .none, 0, 0, 0, 0, 0, false⟩,
   ⟨.shareBundleLoad, 0x0702, .none, 1, 254, 0, 0, 0, true⟩,
   ⟨.abort, 0x0703, .none, 0, 0, 0, 0, 6, false⟩,
   ⟨.quorumOpen, 0x0704, .none, 0, 0, 0, 0, 50, false⟩,
   ⟨.quorumStatus, 0x0705, .none, 0, 0, 0, 0, 8, false⟩,
   ⟨.lifecycleTransition, 0x0706, .none, 0, 0, 0, 0, 64, true⟩,
   ⟨.tamperLockClear, 0x0707, .none, 0, 0, 0, 0, 0, true⟩,
   ⟨.firmwareUpdate, 0x0708, .none, 1, 254, 0, 0, 1, true⟩,
   ⟨.debugAuthorise, 0x0709, .none, 0, 0, 0, 0, 128, true⟩]

/-- The catalogue's row for a kind. -/
def jobInfo (k : JobKind) : JobInfo :=
  ((jobsEngine ++ jobsAdmin).find? fun i => decide (i.kind = k)).getD ⟨.nop, 0x0701, .none, 0, 0, 0, 0, 0, false⟩

/-- The kind that a job code names. -/
def kindOfCode (c : Nat) : Option JobKind := ((jobsEngine ++ jobsAdmin).find? fun i => i.code == c).map (·.kind)

/-- Jobs of class KPR (04 R108, R122-R126), the keeper part of the mixed ones among them. -/
def isKpr : JobKind → Bool
  | .keyGenerate | .keyReplaceBegin | .keyReplaceCommit | .keyInvalidate | .tenantPlanLoad | .attestKey | .attestDevice
  | .attestChain | .shareBundleLoad | .quorumOpen | .quorumStatus | .lifecycleTransition | .tamperLockClear
  | .firmwareUpdate | .debugAuthorise => true
  | _ => false

/-- Jobs of class NIL (04 R122, R126). -/
def isNil : JobKind → Bool
  | .keyEvict | .keyInfo | .keyPublic | .nop | .abort => true
  | _ => false

/-- Decryption jobs whose failure leaves no usable plaintext (04 R119). -/
def isDecrypt : JobKind → Bool
  | .gcmDecrypt | .ccmDecrypt | .meterGcmDecrypt | .cbcDecrypt => true
  | _ => false

/-! ### Entries -/

/-- Offset of the job's own operands: after the crate with keysel 3 (03 R86, 04 R106). -/
def operandOff (e : Entry) : Nat := if e.keysel = 3 then 32 * ceilDiv (e.keyref.toNat % 65536) 32 else 0

/-- Operand bytes of a job, counted from its own first operand byte. -/
def opAt (e : Entry) (off len : Nat) : List Byte := slice e.operands (operandOff e + off) len

def opLe (e : Entry) (off len : Nat) : Nat := leNat (opAt e off len)

/-- The operand layout length (04 R106); KDF_DERIVE's depends on its label and context (04 R121). -/
def layoutLen (i : JobInfo) (e : Entry) : Nat :=
  if i.kind = .kdfDerive then 8 + opLe e 4 2 + opLe e 6 2 else i.lay

/-- Total bytes of the read or write buffer. -/
def readLen (e : Entry) : Nat := ((e.descs.filter fun x => !x.dir).map fun x => x.blen.toNat).sum
def writeLen (e : Entry) : Nat := ((e.descs.filter fun x => x.dir).map fun x => x.blen.toNat).sum

/-- An entry as it stands in the ring: its header fields and its bytes (03 R85, R86). -/
def parseEntry (fn : FnNo) (q : QNo) (bs : List Byte) : Entry :=
  let nd := leAt bs 9 1
  let b8 := BitVec.ofNat 8 (leAt bs 8 1)
  { fn := fn, q := q, tag := BitVec.ofNat 32 (leAt bs 4 4), fence := b8.getLsbD 7, nointr := b8.getLsbD 6, pr := b8.getLsbD 5,
    keysel := b8.extractLsb' 3 2, param := BitVec.ofNat 32 (leAt bs 12 4), keyref := BitVec.ofNat 64 (leAt bs 16 8),
    descs := (List.range nd).map fun i =>
      let o := 32 + 16 * i
      { addr := BitVec.ofNat 64 (leAt bs o 8), blen := BitVec.ofNat 32 (leAt bs (o + 8) 4), dir := leAt bs (o + 12) 1 ≥ 128,
        resv := BitVec.ofNat 31 (leAt bs (o + 12) 1 % 128 + 128 * leAt bs (o + 13) 3) },
    operands := bs.drop (32 + 16 * nd) }

/-- Descriptor malformations in turn: 0x08, then 0x0C (03 R102). -/
def descMalformed (i : JobInfo) (e : Entry) : Option Byte :=
  let bad (x : Desc) : Bool := x.blen == 0 || x.resv != 0 || decide (2 ^ 64 < x.addr.toNat + x.blen.toNat)
  let r := (e.descs.filter fun x => !x.dir).length
  let w := (e.descs.filter fun x => x.dir).length
  let ordered := (e.descs.dropWhile fun x => !x.dir).all fun x => x.dir
  if e.descs.any bad then some 0x08
  else if !ordered || decide (r < i.rmin) || decide (i.rmax < r) || decide (w < i.wmin) || decide (i.wmax < w) then some 0x0C
  else none

/-- Whether keysel fits the job's key column: 0x0A (03 R102). -/
def keyselFits (i : JobInfo) (e : Entry) : Bool := (i.key == .none) == (e.keysel == 0)

/-- Malformation 0x0B of an inline crate. -/
def inlineBad (e : Entry) : Bool :=
  e.keysel == 3 && (e.keyref.toNat % 65536 == 0 || e.keyref.toNat % 8 != 0 || decide (65536 ≤ e.keyref.toNat)
    || decide (e.operands.length < e.keyref.toNat % 65536))

/-- Malformation 0x0D: the operand area is shorter than the layout needs (04 R106). -/
def layoutBad (i : JobInfo) (e : Entry) : Bool :=
  let l := layoutLen i e
  l != 0 && decide (e.operands.length < operandOff e + l)

/-- The malformation of a structured entry, in the order of 03 R102; its header fields exist by construction. -/
def entryMalformed (i : JobInfo) (e : Entry) : Option Byte :=
  if decide (4096 < 32 + 16 * e.descs.length + e.operands.length) then some 0x01
  else if !keyselFits i e then some 0x0A
  else if inlineBad e then some 0x0B
  else if layoutBad i e then some 0x0D
  else descMalformed i e

/-- The malformation of entry bytes at the header, `avail` units lying before sq_prod (03 R102), or the entry's job and
length in units. -/
def bytesMalformed (fn : FnNo) (q : QNo) (avail : Nat) (bs : List Byte) : Byte ⊕ (JobInfo × Entry × Nat) :=
  let len := leAt bs 0 1
  let e := parseEntry fn q (bs.take (32 * len))
  if len = 0 || 128 < len then .inl 0x01
  else if leAt bs 1 1 / 16 != 1 then .inl 0x02
  else if leAt bs 1 1 % 16 != 0 || leAt bs 8 1 % 8 != 0 || leAt bs 10 2 != 0 || leAt bs 24 8 != 0 then .inl 0x03
  else if avail < len then .inl 0x04
  else if 32 * len < 32 + 16 * leAt bs 9 1 then .inl 0x07
  else
    match kindOfCode (leAt bs 2 2) with
    | none => .inl 0x09
    | some k =>
      let i := jobInfo k
      if !keyselFits i e then .inl 0x0A
      else if inlineBad e then .inl 0x0B
      else if layoutBad i e then .inl 0x0D
      else
        match descMalformed i e with
        | some c => .inl c
        | none => .inr (i, e, len)

/-- Length of a structured entry in 32-byte units. -/
def entryUnits (e : Entry) : Nat := ceilDiv (32 + 16 * e.descs.length + e.operands.length) 32

/-! ### Handles (08 R236) -/

inductive Handle where
  | cellar (sel : Nat) (tenant : BitVec 16) (key : Word)
  | volatile (use : BitVec 22) (fn : FnNo) (slot : Nat)
  | bad
deriving DecidableEq, Repr

def parseHandle (h : DWord) : Handle :=
  let n := h.toNat
  if n / 2 ^ 62 = 1 then
    if n / 2 ^ 48 % 2 ^ 12 != 0 || n / 2 ^ 60 % 4 = 3 then .bad
    else .cellar (n / 2 ^ 60 % 4) (BitVec.ofNat 16 (n / 2 ^ 32)) (BitVec.ofNat 32 n)
  else if n / 2 ^ 62 = 2 then
    if n / 2 ^ 18 % 2 ^ 14 != 0 then .bad
    else .volatile (BitVec.ofNat 22 (n / 2 ^ 40)) (BitVec.ofNat 8 (n / 2 ^ 32)) (n % 2 ^ 18)
  else .bad

def cellarHandle (sel : Nat) (tenant : BitVec 16) (key : Word) : DWord :=
  BitVec.ofNat 64 (2 ^ 62 + sel * 2 ^ 60 + tenant.toNat * 2 ^ 32 + key.toNat)

def volatileHandle (use : BitVec 22) (fn : FnNo) (slot : Nat) : DWord :=
  BitVec.ofNat 64 (2 ^ 63 + use.toNat * 2 ^ 40 + fn.toNat * 2 ^ 32 + slot)

/-! ### Key types and attribute words (08 R232-R234) -/

/-- Value bytes of a key type. -/
def typeValue (t : Byte) : Nat :=
  match t.toNat with
  | 0x01 => 16 | 0x02 => 32 | 0x10 => 32 | 0x11 => 48 | 0x20 => 32 | 0x21 => 48 | 0x22 => 64 | _ => 0

/-- Public point bytes of a key type. -/
def typePoint (t : Byte) : Nat :=
  match t.toNat with
  | 0x10 => 64 | 0x11 => 96 | 0x12 => 64 | 0x13 => 96 | _ => 0

/-- Key-cache slots of a key type (08 R232, 05 R153). -/
def typeSlots (t : Byte) : Nat :=
  match t.toNat with
  | 0x10 => 2 | 0x11 => 3 | 0x13 => 2 | _ => 1

def isAesType (t : Byte) : Bool := t == 0x01 || t == 0x02
def isPairType (t : Byte) : Bool := t == 0x10 || t == 0x11
def isPubType (t : Byte) : Bool := t == 0x12 || t == 0x13
def isSecretType (t : Byte) : Bool := t == 0x20 || t == 0x21 || t == 0x22
def isKeyType (t : Byte) : Bool := isAesType t || isPairType t || isPubType t || isSecretType t

/-- Attribute bits. -/
def atSign : Nat := 0
def atVerify : Nat := 1
def atAgree : Nat := 2
def atEncrypt : Nat := 3
def atDecrypt : Nat := 4
def atMac : Nat := 5
def atDerive : Nat := 6
def atWrapu : Nat := 7
def atUnwrap : Nat := 8
def atWrap : Nat := 12
def atHash : Nat := 13
def atAes : Nat := 14
def atPk : Nat := 15

/-- The combinations that 08 R234 allows: engine bits, usage bits, and at least one usage bit. -/
def attrOk (t : Byte) (a : BitVec 16) : Bool :=
  let has (i : Nat) : Bool := a.getLsbD i
  let usage := a &&& 0x01FF
  let only (m : BitVec 16) : Bool := a &&& ~~~ m == 0
  usage != 0 &&
    (if isAesType t then
      only 0x51F8 && (has atAes || !(has atEncrypt || has atDecrypt || has atMac))
        && (has atWrap || !(has atWrapu || has atUnwrap || has atDerive))
    else if isPairType t then only 0x8007 && has atPk && (!(has atSign) || has atVerify)
    else if isPubType t then only 0x8002 && has atPk
    else if isSecretType t then only 0x2060 && has atHash
    else false)

/-! ### Crates (08 R246-R248) -/

structure CrateHdr where
  mode   : Byte
  length : Nat
  ktype  : Byte
  export_ : Byte
  attr   : BitVec 16
  tenant : BitVec 16
  wver   : BitVec 16
  wkey   : Word
  skey   : Word
  sver   : BitVec 16
deriving DecidableEq, Repr

/-- Plaintext bytes of a crate of a type: header, value and point. -/
def cratePlain (t : Byte) : Nat := 32 + typeValue t + typePoint t

/-- The clear header; none for a wrong magic, format, mode, length, type or reserved byte (08 R248). -/
def parseHeader (c : List Byte) : Option CrateHdr :=
  let t := BitVec.ofNat 8 (leAt c 8 1)
  let m := leAt c 5 1
  let len := leAt c 6 2
  if c.take 4 = [0x47, 0x4A, 0x43, 0x52] && leAt c 4 1 = 1 && (m = 1 || m = 2) && isKeyType t && !isPubType t
      && len = 32 + cratePlain t + 8 && leAt c 26 6 = 0 then
    some { mode := BitVec.ofNat 8 m, length := len, ktype := t, export_ := BitVec.ofNat 8 (leAt c 9 1),
           attr := BitVec.ofNat 16 (leAt c 10 2), tenant := BitVec.ofNat 16 (leAt c 12 2), wver := BitVec.ofNat 16 (leAt c 14 2),
           wkey := BitVec.ofNat 32 (leAt c 16 4), skey := BitVec.ofNat 32 (leAt c 20 4), sver := BitVec.ofNat 16 (leAt c 24 2) }
  else none

/-- A whole crate: its header, and as many bytes as it gives. -/
def parseCrate (c : List Byte) : Option CrateHdr :=
  match parseHeader c with
  | some h => if c.length = h.length then some h else none
  | none => none

/-- The header bytes of a crate. -/
def crateBytes (h : CrateHdr) : List Byte :=
  [0x47, 0x4A, 0x43, 0x52, 0x01, h.mode] ++ leBytes 2 h.length ++ [h.ktype, h.export_] ++ leBytes 2 h.attr.toNat
    ++ leBytes 2 h.tenant.toNat ++ leBytes 2 h.wver.toNat ++ leBytes 4 h.wkey.toNat ++ leBytes 4 h.skey.toNat
    ++ leBytes 2 h.sver.toNat ++ zeros 6

end Sys2Proof.Machine
end

