-- ==== Sys2Proof/Machine/Flags.lean ====
section
/-! DEFINITION. Status codes and outcomes of jobs (04 R132, R133), and what each kind of job asks of its key: engine mask,
usage flag, key type and selector (04 R106, R112-R122, 08 R238). -/

namespace Sys2Proof.Machine

/-! ### Statuses (04 R132) -/

def stOk : Byte := 0x00
def stInput : Byte := 0x01
def stNotFound : Byte := 0x02
def stAttr : Byte := 0x03
def stLength : Byte := 0x04
def stAuth : Byte := 0x05
def stFault : Byte := 0x06
def stRng : Byte := 0x07
def stKeeper : Byte := 0x08
def stExhausted : Byte := 0x09
def stQuota : Byte := 0x0A
def stAborted : Byte := 0x0B
def stOrphaned : Byte := 0x0C
def stQuorum : Byte := 0x0D
def stLife : Byte := 0x0E
def stZeroized : Byte := 0x0F
def stSig : Byte := 0x10
def stHalted : Byte := 0x11
def stDma : Byte := 0x12

/-- An outcome with a status and a detail and nothing else. -/
def outcome (st detail : Byte) : OutcomeRec :=
  { status := st, detail := detail, res0 := 0, res1 := 0, out := [], zero := false }

/-- An OK outcome with output bytes still to be written. -/
def outcomeOut (out : List Byte) : OutcomeRec := { outcome stOk 0 with out := out }

/-- An OK outcome with a result word. -/
def outcomeRes (r : DWord) : OutcomeRec := { outcome stOk 0 with res0 := r }

/-- The outcome of a shelf's public-key program. -/
def outcomePk : PkOut → OutcomeRec
  | .ok out => outcomeOut out
  | .bad st det => outcome st det

/-! ### What a job asks of its key (04 R112-R122, 07 R213, R215, 08 R238, R249) -/

/-- The key types, the engine bit and the usage bits of which one is needed; `none` for a column that asks nothing. -/
structure KeyReq where
  types  : Option (List Byte)
  engine : Option Nat
  usage  : List Nat
deriving DecidableEq, Repr

def aesTypes : List Byte := [0x01, 0x02]
def secretTypes : List Byte := [0x20, 0x21, 0x22]

def keyReq : JobKind → KeyReq
  | .ecdsaSignP384 => ⟨some [0x11], some atPk, [atSign]⟩
  | .ecdsaVerifyP384Key => ⟨some [0x11, 0x13], some atPk, [atVerify]⟩
  | .ecdhP384 => ⟨some [0x11], some atPk, [atAgree]⟩
  | .ecdsaSignP256 => ⟨some [0x10], some atPk, [atSign]⟩
  | .ecdsaVerifyP256Key => ⟨some [0x10, 0x12], some atPk, [atVerify]⟩
  | .ecdhP256 => ⟨some [0x10], some atPk, [atAgree]⟩
  | .gcmEncrypt | .ccmEncrypt | .cbcEncrypt => ⟨some aesTypes, some atAes, [atEncrypt]⟩
  | .gcmDecrypt | .ccmDecrypt | .cbcDecrypt => ⟨some aesTypes, some atAes, [atDecrypt]⟩
  | .ctrCrypt => ⟨some aesTypes, some atAes, [atEncrypt, atDecrypt]⟩
  | .cmacGenerate | .cmacVerify => ⟨some aesTypes, some atAes, [atMac]⟩
  | .meterGcmEncrypt | .meterGcmDecrypt | .kdfDerive => ⟨some secretTypes, some atHash, [atDerive]⟩
  | .hmacGenerate | .hmacVerify => ⟨some secretTypes, some atHash, [atMac]⟩
  | .keyGenerate => ⟨none, none, [atDerive, atWrapu]⟩
  | .keyPublic => ⟨some [0x10, 0x11, 0x12, 0x13], none, []⟩
  | _ => ⟨none, none, []⟩

/-- CTR_CRYPT on the previous version is a decryption (04 R116). -/
def keyReqSel (k : JobKind) (sel : Nat) : KeyReq :=
  if k = .ctrCrypt && sel == 2 then { keyReq k with usage := [atDecrypt] } else keyReq k

/-- The first failed need of types, engine and usage, in the order of 04 R133. -/
def needFails (r : KeyReq) (t : Byte) (a : BitVec 16) : Option Byte :=
  if (match r.types with | some ts => !ts.contains t | none => false) then some 0x05
  else if (match r.engine with | some e => !a.getLsbD e | none => false) then some 0x02
  else if !r.usage.isEmpty && !(r.usage.any fun u => a.getLsbD u) then some 0x03
  else none

/-- The selectors that a job accepts (08 R238). -/
def selOk (k : JobKind) (sel : Nat) : Bool :=
  match sel with
  | 0 => k != .keyReplaceCommit
  | 1 => [JobKind.keyReplaceCommit, .keyInvalidate, .keyInfo, .keyPublic, .attestKey].contains k
  | 2 => [JobKind.ecdsaVerifyP384Key, .ecdsaVerifyP256Key, .gcmDecrypt, .ccmDecrypt, .cbcDecrypt, .ctrCrypt, .cmacVerify,
          .hmacVerify, .meterGcmDecrypt, .keyInvalidate, .keyInfo, .keyPublic].contains k
  | _ => false

/-- Jobs that need a cellar record behind their key: KEY_ATTR_DENIED with detail 0x01 (04 R118, 08 R249, R250, R253). -/
def needsCellar : JobKind → Bool
  | .gcmEncrypt | .meterGcmEncrypt | .keyGenerate | .keyReplaceBegin | .keyReplaceCommit | .keyInvalidate => true
  | _ => false

/-- The KEY_ATTR_DENIED detail of a job on a key, first failed condition first (04 R133): `cellar` says that the key has a
record. The conditions on CRATE_EXPORT's two keys are `exportFails`. -/
def attrFails (k : JobKind) (sel : Nat) (v : KeyVal) (cellar : Bool) : Option Byte :=
  if !selOk k sel then some 0x08
  else
    match needFails (keyReqSel k sel) v.ktype v.attr with
    | some x => some x
    | none =>
      if needsCellar k && !cellar then some 0x01
      else if (k = .keyReplaceBegin || k = .keyReplaceCommit) && v.origin != 0 then some 0x07
      else none

/-- CRATE_EXPORT: no public key is crated, the wrapping key is AES with wrap and wrapu, both go by sel 0, and the exported key
carries the crate bit (08 R246, R247). -/
def exportFails (sel wsel : Nat) (v w : KeyVal) : Option Byte :=
  if sel != 0 || wsel != 0 then some 0x08
  else if isPubType v.ktype then some 0x05
  else
    match needFails ⟨some aesTypes, some atWrap, [atWrapu]⟩ w.ktype w.attr with
    | some x => some x
    | none => if v.export_.getLsbD 0 then none else some 0x04

/-! ### Params (04 R113-R127; checked before placement) -/

def paramBits (e : Entry) (lo w : Nat) : Nat := bits e.param lo w

/-- The outcome of a param or operand field out of its range; `level` is that of a KEY_GENERATE's parent. -/
def paramFails (k : JobKind) (e : Entry) (level : Nat) : Option (Byte × Byte) :=
  let bad (det : Byte) (b : Bool) : Option (Byte × Byte) := if b then some (stInput, det) else none
  let at_ : BitVec 16 := BitVec.ofNat 16 (opLe e 0 2)
  match k with
  | .keygenP384 => bad 0x02 (!attrOk 0x11 (at_ ||| 0x8000))
  | .keygenP256 => bad 0x02 (!attrOk 0x10 (at_ ||| 0x8000))
  | .rsaVerifyPkcs1v15 | .rsaVerifyPss =>
    let n := paramBits e 0 16
    bad 0 (n < 256 || 512 < n || n % 8 != 0 || paramBits e 16 2 == 0 ||
      (k = .rsaVerifyPss && decide (64 < paramBits e 24 8)))
  | .ccmEncrypt | .ccmDecrypt =>
    let n := opLe e 0 1
    let t := opLe e 1 1
    bad 0 (n < 7 || 13 < n || t < 4 || 16 < t || t % 2 != 0)
  | .cmacGenerate | .cmacVerify => bad 0 (paramBits e 0 5 < 4 || 16 < paramBits e 0 5)
  | .meterGcmEncrypt | .meterGcmDecrypt => bad 0x03 (opLe e 16 1 != 1 && opLe e 16 1 != 2)
  | .hmacGenerate => bad 0 (paramBits e 0 2 == 0)
  | .hmacVerify =>
    let h := paramBits e 0 2
    bad 0 (h == 0 || paramBits e 8 8 < 16 || hashLen (h - 1) < paramBits e 8 8)
  | .kdfDerive =>
    let t := BitVec.ofNat 8 (opLe e 0 1)
    bad 0x02 (!(isAesType t || isSecretType t) || !attrOk t (BitVec.ofNat 16 (opLe e 2 2)))
  | .imageDigest =>
    bad 0x04 (opLe e 0 1 == 0 || decide (4 < opLe e 0 1) || opLe e 1 1 != 1 || opLe e 2 2 != 0)
  | .keyGenerate =>
    let t := BitVec.ofNat 8 (opLe e 0 1)
    let a := BitVec.ofNat 16 (opLe e 2 2)
    let deep := decide (18 < level + 1) || (level + 1 == 18 && (a.getLsbD atDerive || a.getLsbD atWrapu))
    if !isKeyType t || isPubType t || opLe e 1 1 / 4 != 0 || !attrOk t a then some (stInput, 0x02)
    else bad 0x08 deep
  | .randomBytes => bad 0 (paramBits e 0 17 == 0 || decide (65536 < paramBits e 0 17))
  | .abort => bad 0 (opLe e 5 1 / 2 != 0)
  | .firmwareUpdate => bad 0 (decide (1 < opLe e 0 1))
  | _ => none

/-! ### Lengths (04 R106, R113, R117, R121, 06 R184, 07 R209, R217) -/

/-- Bytes of the data part of a symmetric job's read buffer: P, or L of CMAC; none for a short input. -/
def payload (k : JobKind) (e : Entry) : Option Nat :=
  let l := readLen e
  let a := paramBits e 0 24
  let less (n : Nat) : Option Nat := if l < n then none else some (l - n)
  match k with
  | .gcmEncrypt | .meterGcmEncrypt | .ccmEncrypt => less a
  | .gcmDecrypt | .meterGcmDecrypt => less (28 + a)
  | .ccmDecrypt => less (a + opLe e 1 1)
  | _ => some l

/-- Whether a CBC job pads: bit 0 of param, for privileged functions (06 R184). -/
def cbcPads (priv : Bool) (e : Entry) : Bool := priv && e.param.getLsbD 0

/-- Whether a job breaks its input length rule. -/
def lengthBad (k : JobKind) (e : Entry) (priv : Bool) : Bool :=
  let lim := if priv then 2 ^ 32 else 2 ^ 24
  let l := readLen e
  match k with
  | .rsaVerifyPkcs1v15 | .rsaVerifyPss => l != 2 * paramBits e 0 16
  | .gcmEncrypt | .gcmDecrypt | .meterGcmEncrypt | .meterGcmDecrypt =>
    match payload k e with | none => true | some p => decide (lim < p)
  | .ccmEncrypt | .ccmDecrypt =>
    match payload k e with | none => true | some p => decide (lim < p) || decide (2 ^ (8 * (15 - opLe e 0 1)) - 1 < p)
  | .ctrCrypt => decide (lim < l)
  | .cbcEncrypt => if cbcPads priv e then decide (lim - 1 < l) else l % 16 != 0 || decide (lim < l)
  | .cbcDecrypt => l % 16 != 0 || decide (lim < l)
  | .cmacGenerate | .cmacVerify | .sha256 | .sha384 | .sha512 | .hmacGenerate | .hmacVerify => decide (lim < l)
  | .kdfDerive => decide (960 < opLe e 4 2 + opLe e 6 2)
  | .imageDigest => decide (2 ^ 26 < l)
  | .tenantPlanLoad => decide (2 ^ 20 < l)
  | _ => false

/-- Bytes that a job writes, given the type of its key or of the key it makes; none for a job that writes none. -/
def outLen (k : JobKind) (e : Entry) (priv : Bool) (t : Byte) : Option Nat :=
  let p := (payload k e).getD 0
  match k with
  | .ecdsaSignP384 => some 96
  | .ecdsaSignP256 => some 64
  | .keygenP384 => some 104
  | .keygenP256 => some 72
  | .gcmEncrypt | .meterGcmEncrypt => some (28 + p)
  | .gcmDecrypt | .meterGcmDecrypt | .ccmDecrypt | .ctrCrypt => some p
  | .ccmEncrypt => some (p + opLe e 1 1)
  | .cbcEncrypt => some (if cbcPads priv e then p + (16 - p % 16) else p)
  | .cbcDecrypt => some p
  | .cmacGenerate => some (paramBits e 0 5)
  | .sha256 => some 32
  | .sha384 | .imageDigest => some 48
  | .sha512 => some 64
  | .hmacGenerate => some (hashLen (paramBits e 0 2 - 1))
  | .crateExport => some (40 + cratePlain t)
  | .keyInfo => some 64
  | .keyPublic => some (typePoint t)
  | .randomBytes => some (paramBits e 0 17)
  | .attestKey => some 352
  | .attestDevice => some 528
  | _ => none

/-- Key-cache slots of the function's quota that a job's own new key takes (05 R153, 04 R115, R122). -/
def newSlots (k : JobKind) (e : Entry) : Nat :=
  match k with
  | .ecdhP384 | .ecdhP256 => 1
  | .keygenP384 => 3
  | .keygenP256 => 2
  | .kdfDerive => typeSlots (BitVec.ofNat 8 (opLe e 0 1))
  | _ => 0

/-! ### Costs (04 R109, 06 R184, 07 R204) -/

/-- Checked blocks of a symmetric job's whole data. -/
def blocksOf (k : JobKind) (e : Entry) (priv : Bool) : Nat :=
  let p := (payload k e).getD 0
  let a := paramBits e 0 24
  match k with
  | .gcmEncrypt | .gcmDecrypt | .meterGcmEncrypt | .meterGcmDecrypt => ceilDiv p 16 + 2
  | .ccmEncrypt | .ccmDecrypt =>
    let ad := if a = 0 then 0 else ceilDiv (a + (if a < 0xFF00 then 2 else 6)) 16
    ceilDiv p 16 + 1 + (1 + ad + ceilDiv p 16)
  | .cmacGenerate | .cmacVerify => max 1 (ceilDiv p 16) + 1
  | .cbcEncrypt => if cbcPads priv e then p / 16 + 1 else ceilDiv p 16
  | _ => ceilDiv p 16

/-- Compressions of a hash job over `l` message bytes; an HMAC adds one. -/
def compsOf (k : JobKind) (e : Entry) (t : Byte) : Nat :=
  let l := readLen e
  let sha (h n : Nat) : Nat := if h = 0 then ceilDiv (n + 9) 64 else ceilDiv (n + 17) 128
  match k with
  | .sha256 => sha 0 l
  | .sha384 => sha 1 l
  | .sha512 => sha 2 l
  | .imageDigest => sha 1 (l + 16)
  | .hmacGenerate | .hmacVerify => sha (paramBits e 0 2 - 1) l + 1
  | .kdfDerive => ceilDiv (typeValue t) 48 * (ceilDiv (9 + opLe e 4 2 + opLe e 6 2 + 17) 128 + 1)
  | .meterGcmEncrypt | .meterGcmDecrypt => 2
  | _ => 0

/-- Bytes of a PK job's draw from its function's instance (05 R143). -/
def drawLen : JobKind → Nat
  | .ecdsaSignP384 => 304
  | .ecdhP384 => 128
  | .keygenP384 => 184
  | .ecdsaSignP256 => 240
  | .ecdhP256 => 96
  | .keygenP256 => 136
  | _ => 0

end Sys2Proof.Machine
end

