-- ==== Sys2Proof/Config.lean ====
section
/-! DEFINITION. What the spec fixes per device or leaves to each implementation, and the free values. Each is opaque: nothing
can evaluate it, so a statement about it holds whatever it is. -/

namespace Sys2Proof.Config

/-- The device root secret DRS, 512 bits, drawn at the factory (08 R220, 12 R337; log entry 4). -/
opaque drs : BitVec 512

/-- Token digest T_PROD in fuse words 22-33 (12 R337). -/
opaque tProd : BitVec 384

/-- Token digest T_EOL in fuse words 34-45 (12 R337). -/
opaque tEol : BitVec 384

/-- T_DBG, the SHA-384 digest of the debug authority public key, fuse words 46-57 (12 R337). -/
opaque tDbg : BitVec 384

/-- The debug authority public key that the boot configuration carries, Qx then Qy (12 R347). -/
opaque debugKey : List Byte

/-- The token digest for BLANK to TEST, in mask ROM (12 R340). -/
opaque tTest : List Byte

/-- The Avmievo signer digest in mask ROM for production images (14 R398). -/
opaque avmievoSigner : List Byte

/-- Mask ROM contents (10 R290), by byte offset. -/
opaque maskRom : Nat → Byte

/-- Avmievo's PCI-SIG vendor ID, read from configuration space (02 R51). -/
opaque vendorId : BitVec 16

/-- The Avmievo device identity chain, certificate slot 0 (02 R73). -/
opaque chain0 : List Byte

/-- The owner chain, certificate slot 1, where it is provisioned (02 R73). -/
opaque chain1 : Option (List Byte)

/-- Avmievo's MIPI manufacturer ID (18 R478). -/
opaque mipiId : BitVec 15

/-- Source code and frequency that CLK_STAT shows for the clock domains whose source or frequency the spec does not put in those
terms: the PCIe PIPE clocks, RTC, the BAT sampling oscillator, RNG noise and TCK (14 R383, R402; log entry 27). -/
opaque clkOpen : Nat → Word

/-- The certificate chain of a slot in the SPDM 1.2 format: slot 0 always holds one, slot 1 where it is provisioned, the others none
(02 R73, 08 R261). -/
def chain (slot : BitVec 3) : Option (List Byte) := if slot = 0 then some chain0 else if slot = 1 then chain1 else none

/-- A free value: the n-th value that the spec leaves open (log entry 5). -/
opaque freeWord : Nat → Word

end Sys2Proof.Config
end

