-- ==== Sys2Proof/Machine/Resets.lean ====
section
/-! DEFINITION. What every block holds after a cold reset (14 R396, R397 and the register tables of each chapter). Values that
the spec does not give are named in log entries 3 and 4. -/

namespace Sys2Proof.Machine

/-! ### Units, wings -/

/-- A unit after its domain powers on or a cold reset: counters and epoch 0 (01 R21, R40). -/
def unitZero : UnitSt :=
  { state := 0, tie := 0, epoch := 0, request := 0, draining := false, role := true, test := .none, rest := false, fresh := false,
    used := 0, winJobs := 0, winUsed := 0, owners := [], opmem := [], strike := none, second := false, xtick := 0, ops := 0, inval := 0,
    sigbad := 0, abmiss := 0, xfails := 0, keyx := 0, ghash := 0, inv := 0, deriv := 0, crc := 0, lastTest := 0 }

/-- A shelf by its recorded role (0 spare, 1 ACTIVE, 2 RETIRED) and whether its domain is powered: an unpowered unit reads
DRAINED and keeps the role to which it returns (14 R379). -/
def unitByRole (role : BitVec 2) (powered : Bool) : UnitSt :=
  if role = 2 then { unitZero with state := 6, role := false }
  else if powered then { unitZero with state := if role = 1 then 0 else 1, role := role == 1 }
  else { unitZero with state := 5, role := role == 1 }

/-- The state of a unit before the store room has recorded anything else of it: the first roles of 15 R405, with only PKA
among the wing domains powered (14 R377, R397). -/
def unitReset (gj7716 : Bool) (u : Nat) : UnitSt :=
  if isShelf u then unitByRole (if firstRole gj7716 u then 1 else 0) (unitDomain u == 5) else unitZero

/-- A wing rack's tables at cold reset: one row that names table 0, and no valid entry (01 R28). -/
def wingTabsReset : WingTabs := { rows := [0], tables := [[], [], [], []], bundle := 0 }

def wingsReset : Wings :=
  { pk := wingTabsReset, sym := wingTabsReset, hsh := wingTabsReset, pendingBundle := none, lastBundle := 0, planCur := [],
    planNext := [], grants := [], demand := [], ctxs := [], pads := [], filled := [], padHit := 0, padFills := 0, padNoStore := 0, rotPk := none,
    rotSym := none, rotHsh := none }

/-! ### Functions, queues, vectors, ports -/

/-- An ABSENT function (02 R59). -/
def fnReset : FnSt :=
  { state := 0, busy := false, result := 0, gen := 0, tenant := 0xFFFF, bindShow := 0xFFFF, haltCode := 0, haltQ := 0, priv := false, vectors := 0,
    qpairs := 0, kcUnits := 0, coal := [], coalEff := [], readyAt := none, wiped := false, bme := false,
    fnMask := false, dbase := 0, dcfg := 0, dlost := 0, dwritten := 0, dseq := 0, dumps := [] }

/-- A queue pair with every register at zero (03 R92). -/
def queueReset : QueueSt :=
  { sqbase := 0, cqbase := 0, idxbase := 0, vector := 0, win := 0, cqsz := 0, sqsz := 0, en := false, disabling := false,
    sqCons := 0, cqProd := 0, sqProd := 0, cqCons := 0, idxOut := false, reread := false, entryOut := false, cqwait := false,
    winwait := false, stwait := false, cqSaw := false, winSaw := false, dead := false }

/-- An MSI-X table entry: mask 1, the rest 0 (02 R66). -/
def msixReset : MsixSt := { addr := 0, data := 0, mask := true, pend := false, work := false, last := none }

/-- Device Control at its reset: Max Payload Size 128 bytes, Max Read Request Size 512 bytes (log entry 67). -/
def linkReset : LinkCfg := { rate := 0, width := 0, payload := 0, readReq := 2 }

/-- A port with its link down and PERSTx_N low (02 R51, 19 R485). -/
def portReset : PortSt :=
  { link := false, perst := false, sris := false, vfEnable := false, numVfs := 0, resets := 0, doe := { request := none }, cfg := linkReset }

/-! ### Keys, random numbers -/

def keysReset : Keys :=
  { cache := [], uses := [], loads := [], sweeps := 0, sweeping := false, reseal := false, purge := [],
    svn := 0, signer := [], idDrs := 0, loaded := 0, lineage := none, nonces := [], njRes := 0, njWaits := 0, njExhausted := 0 }

/-- Health tests without a history (09 R265). -/
def healthReset : Health := { last := false, run := 0, first := false, pos := 0, count := 0 }

/-- A source in its start-up test (09 R271). -/
def sourceReset : SourceSt :=
  { sstate := 0, alarms := 0, lastAlarm := 0, lastSample := none, samples := 0, health := healthReset, blocks := 0, blockDone := false }

def drbgReset : DrbgSt := { istate := 0, key := [], v := [], spare := none, src := 0, count := 0 }

/-- The RNG block with its domain off: every register 0 (09 R287); both SHA-384 units and all four AES pairs fit. -/
def rngReset : Rng :=
  { state := 0, served := false, katDone := false, sha := 3, pairs := 15, pairMiss := [], sources := [], seeds := [], order := 0, delivered := 0,
    mismatch := 0, unavailable := 0, insts := [], prs := [], instsel := 0, rawEn := false, rawSrc := 0, rawBuf := [],
    blocksTick := 0, blocksNext := 0, drawBytes := 0 }

/-- Instances 256 and 257, the porter world's and the keeper world's, exist from power-up, without a seed (09 R272, R273). -/
def rngStart (dead : BitVec 6) (deadSha : BitVec 2) (deadPair : BitVec 4) : Rng :=
  { rngReset with
    state := 1, sha := ~~~ deadSha, pairs := ~~~ deadPair,
    sources := (List.range 6).map fun i => (i, { sourceReset with sstate := if dead.getLsbD i then 4 else 1 }),
    insts := [(256, { drbgReset with istate := 1 }), (257, { drbgReset with istate := 1 })] }

/-! ### Worlds, tables -/

/-- The access and page-owner controllers (10 R301, R314): entry 0 of the access table is given, the windows are 64 ticks. -/
def aclReset : Acl :=
  { cur := [(0, ⟨0xA003FC00, 0, 0x1FFF, 6⟩)], next := [(0, ⟨0xA003FC00, 0, 0x1FFF, 6⟩)], drained := true, compat := false,
    kidx := 0x300, pidx := 0, vhead := 0, vtail := 0, vfull := 0, fvalid := false, lost := 0, missed := 0, vfirst := 0, vlog := [],
    vmerge := [], keeper := 1, porter := 0, krestarts := 0, prestarts := 0, kReadyDue := false, pReadyDue := false,
    pReadySeen := false, kPet := 0, pPet := 0, pwdog := 64, pinclaim := false, claimed := false, stalled := [] }

/-- The page-owner table (10 R294, R315): every entry 0x8000_0000. -/
def potReset : Pot :=
  { cur := [], next := [], kTouch := [], pTouch := [], drained := true, commits := 0, wipes := [], stage := [], kfirst := 0, kcount := 0, kval := 0x80000000,
    pfirst := 0, pcount := 0, pval := 0, rdidx := 0, poison := [] }

/-- The staging pages as the boot loader assigns them at every cold start (10 R296). -/
def stagingPages : Tab Word := (List.range 0x400).map fun k => (k, 0x20000000)

/-! ### Cards, life cycle -/

/-- A card slot (11 R334): CRD_IDLE 10 ms, the rest 0. -/
def slotReset : CardSlot :=
  { present := false, state := 0, cls := 0, clsSel := 0, busy := false, clkstop := false, err := 0, fi := 0, di := 0, ifsc := 0,
    bwi := 0, cwi := 0, stopInd := 0, tc1 := 0, bufpg := 0, rspDone := false, rspErr := false, rspLen := 0, atrLen := 0,
    idleMs := 10, ins := 0, tries := 0, resynced := false, retryB := false, wakeDue := false, debounced := false, cardId := [], cardPub := [],
    vers0 := 0, vers1 := 0, chan := false, kd := [], km := [], ctr := 0, ephD := [], devNonce := [], wIndex := 0 }

def crdReset : Crd :=
  { s0 := slotReset, s1 := slotReset, s2 := slotReset, s3 := slotReset, session := none, before := none }

def lcsReset : Lcs :=
  { trans := none, due := false, erasing := false, completed := false, gdfail := false, gdDue := false, tokenFails := 0, debugFails := 0,
    active := false, scope := 0, dbgEnd := 0, dbgKeeper := false, nonce := 0, fuseIdx := 0, fuseData := 0 }

/-! ### Tamper, battery domain -/

/-- The BAT domain of a part that has never alarmed, on VDD_AON, before the entry actions of PRODUCTION draw its battery-backed
key (log entry 3). -/
def batReset : Bat :=
  { rtc := 0, bbk := none, locked := false, zeroized := false, full := false, lowa := false, lowb := false, batovf := 0,
    pcount := 0, pidx := none, alarm := 0, log := [], cellA := 3000, cellB := 3000, onCell := false, burstMiss := false, vbat := 0,
    canary := true }

def tmpReset : Tmp := { cond := 0, logicAddr := 0, refArmed := false }

/-! ### Power, clocks -/

/-- The boot vote's domains (14 R377). -/
def bootDomains : List Nat := [2, 3, 4, 5, 9, 10, 11, 12, 13, 16, 17, 19]

/-- Held domains: powered throughout RUN (14 R375). -/
def heldDomains : List Nat := [2, 3, 4, 9, 10, 11]

/-- A power domain after step 2 of the cold start (14 R377, R397): AON and BAT always on, the boot domains powered. -/
def domainReset (d : Nat) : Domain :=
  let on := d < 2 || bootDomains.contains d
  { state := if on then 2 else 0, hw := false, boot := bootDomains.contains d, host := false, porter := false, keeper := false,
    idle := 1024, ups := if bootDomains.contains d then 1 else 0, last := 0, offAt := none }

def pwrReset : Pwr :=
  { doms := [], sysstate := 0, refuse := 0, pvote := 0, alm := 0, almEn := false, pfLevel := true, pfState := 0, pfCount := 0,
    opHost := 4, opPorter := 4, opKeeper := 4, busy := false, vfail := false, target := 0, point := 0, phase := .idle,
    fromFio := false, recal := false, src := 0, sysPll := false, settle := 200, cause := 0, resetPend := none }

def svcReset : Svc :=
  { rotDone := 0, nospare := 0, corrected := 0, uncorr := 0, marginIdx := 0, margin := 0, hottest := 0, scrubSram := 0,
    scrubKey := 0, scrubMram := 0, kCores := 0, pCores := 0, reqLow := false, reqDriven := false }

/-! ### Twin link, recorder, monitors, management -/

def twnReset : Twn :=
  { state := 7, herr := 0, width := 0, retrains := 0, resent := 0, grRes := 0, peerLevel := 0, peerLocked := false,
    peerZero := false, peerLc := 0, peerParked := false, peerReleased := false, syncIvl := 3600, grantBuf := [], lostFrom := none,
    wide := false, cap := 4, keys := none, txSeq := 0, rxSeq := 0, replay := [], ephD := [], nonce := [], hello := [], sentSigned := false,
    gotSigned := false, peer := none, retryAt := none, filling := 0, resync := false, filled := [],
    fillWait := [], fillCount := 0, fillEnded := false, statusSent := [], releasing := false, relSent := false, parkSent := [], newId := 1 }

def snapReset : SnapWin := { seq := 0, busy := false, result := 0, data := [] }

def evrReset : Evr :=
  { started := false, flushing := false, buf := [], early := [], drops := 0, suppressed := 0, holdFrom := none, dropRun := 0, dropTick := 0,
    rateIdx := 0, rates := [], w0 := snapReset, w1 := snapReset, w2 := snapReset, w3 := snapReset }

/-- A monitor (17 R456): last unit of the filter 0x0FFF_FFFF, function select 0x8000_0000. -/
def monReset : MonSt :=
  { en := false, clr := false, bind := 0, filt := 0, pfirst := 0, plast := 0x0FFFFFFF, fsel := 0x80000000, ev0 := 0, ev1 := 0,
    eEn := false, eBind := 0, eFilt := 0, ePfirst := 0, ePlast := 0x0FFFFFFF, eFsel := 0x80000000, eEv0 := 0, eEv1 := 0,
    wrap := 0, ltick := 0, cyc := 0, cnt := [], lcyc := 0, lcnt := [] }

def mailboxReset : Mailbox :=
  { inbusy := false, outvalid := false, inlen := 0, outlen := 0, sentLen := 0, inb := [], outb := [], stale := false }

def i3cReset : I3c :=
  { cfg := 0x80000000, assigned := false, busy := false, dyn := 0, index := 0, events := 0, post := [], inbox := [], mirror := [] }

def mgtReset : Mgt :=
  { routes := [], routesEff := [], mb0 := mailboxReset, mb1 := mailboxReset, i3c := i3cReset, images := [], extension := none, nextIlmel := none }

/-! ### MRAM and fuses -/

def twinNvReset : TwinNv :=
  { index := false, fixed := false, solo := false, released := false, diverged := false, parked := false, grSeq := 0, mSeq := 0, grant := none,
    outbox := [], inbox := [], doubt := [], marks := [] }

/-- MRAM of a delivered part that has stored nothing yet (08 R227, 11 R326; log entry 3). -/
def nvReset : Nv :=
  { cellar := [], old := [], tenants := [], planSeq := 0, nextRecord := 1, nextKey := 0x01000000, commit := 0, custodyA := none,
    custodyB := none, sessionNext := 1, journal := [], lostKeys := [], imgSigner := [], pcycles := 0, hours := 0, frac := 0,
    tavg := 0, tpeak := 0, bands := [0, 0, 0, 0], mramW := 0, wear := [], mremap := 0, causes := 0, capCause := false, roles := [], tested := [], deadCores := 0, deadSrc := 0,
    deadSha := 0, deadPair := 0, volts := [], twin := twinNvReset, evNext := 0, evHigh := 0, evStore := [], evBad := [] }

/-- The fuses of a delivered part whose transition to PRODUCTION has committed and whose entry actions are due at the keeper's
start (12 R337, R338, R345; log entry 4): W_TEST, W_PROD and M_DRS programmed, D_PROD clear, the secrets opaque, the product configuration that of the GJ-7720, the tamper counter and the disable words 0. -/
def fuseReset : Fuse :=
  { wTest := 0xFFFFFFFF, wProd := 0xFFFFFFFF, wEol := 0, dProd := 0, dEol := 0, drs := Config.drs, mDrs := 0xFFFFFFFF,
    tProd := Config.tProd, tEol := Config.tEol, tDbg := Config.tDbg, product := 0, counter := 0, off := List.replicate 12 0 }

/-! ### The device -/

def tiesReset : Ties := { porter := 0, comp := 0, rng := 0, fabric := 0, keeper := 0, evr := 0 }

/-- The device as a cold reset leaves it, given what MRAM, the BAT domain and its guarded registers keep (14 R396). -/
def devCold (gj7716 grade : Bool) (nv : Nv) (bat : Bat) (guards : Tab Guard) : Dev :=
  { gj7716 := gj7716, grade := grade, tick := 0, cyc := 0, cutDone := false, records := false, ties := tiesReset,
    units := nv.tested.foldl (fun (t : Tab UnitSt) (p : Nat × BitVec 48) => tabPut t p.1 { tabGet t p.1 (unitReset gj7716 p.1) with lastTest := p.2 })
      (nv.roles.map fun p => (p.1, unitByRole p.2 (unitDomain p.1 == 5))),
    wings := wingsReset, fns := [], queues := [], msix := [], ports := [], jobs := [], nextJob := 0, keys := keysReset,
    rng := rngStart nv.deadSrc nv.deadSha nv.deadPair, acl := aclReset, pot := potReset, crd := crdReset, lcs := lcsReset,
    tmp := tmpReset, bat := bat, guards := guards, pwr := pwrReset, svc := svcReset, twn := twnReset, evr := evrReset, mons := [],
    mgt := mgtReset, pages := [], nv := nv, egress := [], free := 0 }

/-- The device right after the first cold reset, its boot loader done: the staging pages are assigned (10 R296), the loader, Ilmel and
porter images have passed (14 R397; log entry 3) and the PRODUCTION entry actions are due (12 R345; log entry 4). -/
def devReset : Dev :=
  { devCold false false nvReset batReset [] with
    lcs := { lcsReset with due := true }, pot := { potReset with cur := stagingPages, next := stagingPages }
    mgt := { mgtReset with images := List.replicate 3 { signer := [], svn := 0, testSigned := false } } }

end Sys2Proof.Machine
end

