-- ==== Sys2Proof/Machine/State.lean ====
section
/-! DEFINITION. The state of the GJ-7720 as plain data, the ways in which a command can stop, and the state after reset. -/

namespace Sys2Proof.Machine

/-- Raised where a command names a thing that the spec says does not exist. Both are safe: the model stops where the
device has nothing to act on. -/
inductive Fault where
  /-- A command names a unit identity above 232 (01 R19). Raised by the commands that take a unit. Safe. -/
  | noSuchUnit
  /-- A command names a power domain above 19 (14 R375). Raised by the vote and domain commands. Safe. -/
  | noSuchDomain
  /-- A command names a noise source above 5 (09 R263). Raised by the source commands. Safe. -/
  | noSuchSource
deriving DecidableEq, Repr

/-- Why the model has no meaning for a command. -/
inductive Refusal where
  /-- The command has no meaning yet. No arm raises it. Safe. -/
  | notModelled (mnemonic : String)
deriving DecidableEq, Repr

/-- The machine: the commands that wait, the bytes of shared SRAM and the MRAM window, the fuses, and the device. -/
structure State where
  pending : List Instr
  mem     : List Host.Cell
  fuse    : Fuse
  dev     : Dev
deriving DecidableEq, Repr

/-- Right after a cold reset of a delivered part: nothing waits, memory lists nothing, every register of the device holds its
reset value, and the boot domains are powered (14 R396, R397). Where the spec gives no value the log names it (log entries
3 and 4). -/
def State.reset : State :=
  { pending := [], mem := [], fuse := fuseReset, dev := devReset }

end Sys2Proof.Machine
end

