-- ==== Sys2Proof/Machine/Ops.lean ====
section
/-! DEFINITION. The operations that every block shares: memory, initiators, the life-cycle state, the event recorder, event
bits with their lines and routes, performance counting, and violation records. -/

namespace Sys2Proof.Machine

/-! ### Memory (10 R290) -/

/-- Bytes of shared SRAM and of the MRAM window are held by address; an address that is not listed reads 0 (log entry 6). -/
def memGet (m : List Host.Cell) (a : Nat) : Byte :=
  match m with
  | [] => 0
  | (j, v) :: r => if j = a then v else memGet r a

/-- Write one byte; writing 0 removes the entry, and the addresses stay rising. -/
def memPut (m : List Host.Cell) (a : Nat) (v : Byte) : List Host.Cell :=
  match m with
  | [] => if v = 0 then [] else [(a, v)]
  | (j, w) :: r =>
    if a < j then (if v = 0 then (j, w) :: r else (a, v) :: (j, w) :: r)
    else if a = j then (if v = 0 then r else (a, v) :: r)
    else (j, w) :: memPut r a v

/-- Write bytes from an address up. -/
def memPutBytes (m : List Host.Cell) (a : Nat) (bs : List Byte) : List Host.Cell :=
  match bs with
  | [] => m
  | b :: r => memPutBytes (memPut m a b) (a + 1) r

/-- Read bytes from an address up. -/
def memBytes (m : List Host.Cell) (a n : Nat) : List Byte := (List.range n).map fun i => memGet m (a + i)

/-- Zero every byte from `a` to `a + n - 1`. -/
def memWipe (m : List Host.Cell) (a n : Nat) : List Host.Cell := m.filter fun c => decide (c.1 < a) || decide (a + n ≤ c.1)

/-- The canonical form: addresses strictly rising, and no listed byte 0. -/
def Memory.wf : List Host.Cell → Bool
  | [] => true
  | [c] => c.2 != 0
  | c :: d :: r => c.2 != 0 && decide (c.1 < d.1) && Memory.wf (d :: r)

/-! ### Fuses and the life-cycle state (12 R338) -/

/-- A word counts as set when at least 8 of its bits are 1. -/
def wordSet (w : Word) : Bool := decide (8 ≤ popCount w)

/-- BLANK 0, TEST 1, PRODUCTION 2, END_OF_LIFE 3: the highest set word decides. -/
def lcState (f : Fuse) : BitVec 2 :=
  if wordSet f.wEol then 3 else if wordSet f.wProd then 2 else if wordSet f.wTest then 1 else 0

/-- The tamper counter value: the number of its bits that are 1 (13 R364). -/
def tamperCount (f : Fuse) : Nat := popCount f.counter

/-! ### Initiators (10 R289) -/

def isFnId (i : BitVec 10) : Bool := decide (i.toNat < 256)
def isPf (i : BitVec 10) : Bool := i == 0 || i == 128
def isPorterCore (i : BitVec 10) : Bool := decide (256 ≤ i.toNat) && decide (i.toNat ≤ 265)
def isKeeperCore (i : BitVec 10) : Bool := decide (266 ≤ i.toNat) && decide (i.toNat ≤ 271)
def isBoot (i : BitVec 10) : Bool := i == 272
def isTwinDma (i : BitVec 10) : Bool := i == 273
def isDebug (i : BitVec 10) : Bool := i == 274

/-- The world bit of a transaction: true is the keeper world. -/
def iniKeeper (d : Dev) (i : BitVec 10) : Bool :=
  isKeeperCore i || isBoot i || isTwinDma i || (isDebug i && d.lcs.dbgKeeper)

/-- Core-only in the sense of 10 R314: keeper cores, privileged porter cores and the boot loader. -/
def coreOnly (i : Ini) : Bool := isKeeperCore i.id || (isPorterCore i.id && i.priv) || isBoot i.id

/-- Keeper-only: keeper cores and the boot loader. -/
def keeperOnly (i : Ini) : Bool := isKeeperCore i.id || isBoot i.id

/-! ### Sub-states -/

def getUnit (d : Dev) (u : Nat) : UnitSt := tabGet d.units u (unitReset d.gj7716 u)
def setUnit (d : Dev) (u : Nat) (x : UnitSt) : Dev := { d with units := tabPut d.units u x }
def modUnit (d : Dev) (u : Nat) (f : UnitSt → UnitSt) : Dev := setUnit d u (f (getUnit d u))
def getFn (d : Dev) (f : Nat) : FnSt := tabGet d.fns f fnReset
def setFn (d : Dev) (f : Nat) (x : FnSt) : Dev := { d with fns := tabPut d.fns f x }
def modFn (d : Dev) (f : Nat) (g : FnSt → FnSt) : Dev := setFn d f (g (getFn d f))
/-- Key of queue `q` of function `f`. -/
def qKey (f q : Nat) : Nat := f * 16 + q
def getQ (d : Dev) (f q : Nat) : QueueSt := tabGet d.queues (qKey f q) queueReset
def setQ (d : Dev) (f q : Nat) (x : QueueSt) : Dev := { d with queues := tabPut d.queues (qKey f q) x }
def modQ (d : Dev) (f q : Nat) (g : QueueSt → QueueSt) : Dev := setQ d f q (g (getQ d f q))
/-- Key of vector `v` of function `f`. -/
def vKey (f v : Nat) : Nat := f * 32 + v
def getVec (d : Dev) (f v : Nat) : MsixSt := tabGet d.msix (vKey f v) msixReset
def setVec (d : Dev) (f v : Nat) (x : MsixSt) : Dev := { d with msix := tabPut d.msix (vKey f v) x }
def portNo (p : Bool) : Nat := if p then 1 else 0
def getPort (d : Dev) (p : Bool) : PortSt := tabGet d.ports (portNo p) portReset
def setPort (d : Dev) (p : Bool) (x : PortSt) : Dev := { d with ports := tabPut d.ports (portNo p) x }
def modPort (d : Dev) (p : Bool) (g : PortSt → PortSt) : Dev := setPort d p (g (getPort d p))
def getDom (d : Dev) (n : Nat) : Domain := tabGet d.pwr.doms n (domainReset n)
def setDom (d : Dev) (n : Nat) (x : Domain) : Dev := { d with pwr := { d.pwr with doms := tabPut d.pwr.doms n x } }
def modDom (d : Dev) (n : Nat) (g : Domain → Domain) : Dev := setDom d n (g (getDom d n))
def getMon (d : Dev) (m : Nat) : MonSt := tabGet d.mons m monReset
def setMon (d : Dev) (m : Nat) (x : MonSt) : Dev := { d with mons := tabPut d.mons m x }
def getSource (d : Dev) (i : Nat) : SourceSt := tabGet d.rng.sources i sourceReset
def setSource (d : Dev) (i : Nat) (x : SourceSt) : Dev := { d with rng := { d.rng with sources := tabPut d.rng.sources i x } }
def getInst (d : Dev) (i : Nat) : DrbgSt := tabGet d.rng.insts i drbgReset
def setInst (d : Dev) (i : Nat) (x : DrbgSt) : Dev := { d with rng := { d.rng with insts := tabPut d.rng.insts i x } }
def getSlot (d : Dev) (i : BitVec 2) : CardSlot :=
  match i.toNat with
  | 0 => d.crd.s0 | 1 => d.crd.s1 | 2 => d.crd.s2 | _ => d.crd.s3
def setSlot (d : Dev) (i : BitVec 2) (x : CardSlot) : Dev :=
  match i.toNat with
  | 0 => { d with crd := { d.crd with s0 := x } }
  | 1 => { d with crd := { d.crd with s1 := x } }
  | 2 => { d with crd := { d.crd with s2 := x } }
  | _ => { d with crd := { d.crd with s3 := x } }
/-- The shares and the secrets that a session holds are wiped once it needs them no more: nothing else on the device holds the quorum
secret (11 R325, R329). -/
def sessionWiped (s : Session) : Session := { s with counted := s.counted.map fun k => (k.1, k.2.1, []), qs := 0, coeffs := [] }
def modSlot (d : Dev) (i : BitVec 2) (g : CardSlot → CardSlot) : Dev := setSlot d i (g (getSlot d i))
def getWing (d : Dev) : Wing → WingTabs
  | .pk => d.wings.pk | .sym => d.wings.sym | .hsh => d.wings.hsh
def setWing (d : Dev) (w : Wing) (x : WingTabs) : Dev :=
  match w with
  | .pk => { d with wings := { d.wings with pk := x } }
  | .sym => { d with wings := { d.wings with sym := x } }
  | .hsh => { d with wings := { d.wings with hsh := x } }

/-- Put something on the device's ports. -/
def emit (d : Dev) (e : Egress) : Dev := { d with egress := d.egress ++ [e] }

/-- A DMA transfer in pieces of at most `most` bytes, none of which crosses a 4 KiB boundary (03 R99): address and length of each. -/
def splitDma (most : Nat) : Nat → Nat → Nat → List (Nat × Nat)
  | 0, _, _ => []
  | n + 1, a, len =>
    if len = 0 then []
    else
      let k := min len (min most (4096 - a % 4096))
      (a, k) :: splitDma most n (a + k) (len - k)

/-- The reads or writes that a function's transfer becomes under its port's Max Read Request Size or Max Payload Size, at most 4,096 and 512
bytes (02 R51). -/
def dmaPieces (d : Dev) (fn : FnNo) (write : Bool) (addr : DWord) (len : Nat) : List (DWord × Nat) :=
  let c := (getPort d (fn.getLsbD 7)).cfg
  (splitDma (128 * 2 ^ (if write then min 2 c.payload.toNat else min 5 c.readReq.toNat)) len addr.toNat len).map fun x => (BitVec.ofNat 64 x.1, x.2)

/-- A function's reads of host memory. -/
def emitReads (d : Dev) (fn : FnNo) (read : DWord → Nat → Egress) (addr : DWord) (len : Nat) : Dev :=
  (dmaPieces d fn false addr len).foldl (fun d x => emit d (read x.1 x.2)) d

/-- A function's output writes to host memory. -/
def emitWrites (d : Dev) (fn : FnNo) (addr : DWord) (bytes : List Byte) : Dev :=
  (dmaPieces d fn true addr bytes.length).foldl (fun d x =>
    emit d (.write fn x.1 (slice bytes (x.1.toNat - addr.toNat) x.2))) d

/-- A domain that is ON. -/
def domOn (d : Dev) (n : Nat) : Bool := (getDom d n).state == 2

/-- A function that can hold work: its state is READY. -/
def fnReady (d : Dev) (f : Nat) : Bool := (getFn d f).state == 1

/-! ### Pages (18 R471-R475), by internal page number -/

def funcPage (f : Nat) : Nat := 0x10000 + f
def quePage (f : Nat) : Nat := 0x10100 + f
def hatchPage (f : Nat) : Nat := 0x10200 + f
def msixPage (f : Nat) : Nat := 0x10300 + f
def pbaPage (f : Nat) : Nat := 0x10400 + f
def dumpPage (f : Nat) : Nat := 0x10500 + f
def unitPage (u : Nat) : Nat := 0x11000 + u
def infoPage : Nat := 0x12000
def routePage (i : Nat) : Nat := 0x12001 + i
def mboxPage : Nat := 0x12005
def i3cPage : Nat := 0x12006
def aclPage : Nat := 0x12008
def potPage : Nat := 0x12009
def rngPage : Nat := 0x1200A
def lcsPage : Nat := 0x1200B
def evrPage : Nat := 0x1200C
def svcPage : Nat := 0x1200D
def twnPage : Nat := 0x1200E
def pmcPage (m : Nat) : Nat := if m < 28 then 0x12010 + m else 0x18010 + m
def pwrPage (i : Nat) : Nat := 0x12040 + i
def clkPage (i : Nat) : Nat := 0x12058 + i
def rstPage : Nat := 0x1206A
def keyPage : Nat := 0x18000
def crdPage (i : Nat) : Nat := 0x18001 + i
def tmpPage : Nat := 0x18008

/-! ### Host address maps (18 R472, R473, 02 R52, 03 R90, R91) -/

/-- Bytes of BAR0: 64 MiB of a PF, 64 KiB of a VF. -/
def barSize (f : Nat) : Nat := if f % 128 = 0 then 0x4000000 else 0x10000

/-- The internal page at page `k` of a function's own view: FUNC, QUE, hatch, MSI-X table, pending-bit array, dump control. -/
def ownPage (f k : Nat) : Option Nat := if k < 6 then some (0x10000 + 0x100 * k + f) else none

/-- The internal page that page `k` of a function's BAR0 names; none where it has no page. A PF sees the FUNC pages of its own port,
its own view a second time, the rack tree and the system pages; a VF sees its own view. -/
def barPage (f k : Nat) : Option Nat :=
  if f % 128 != 0 then ownPage f k
  else if k < 0x80 then some (funcPage (f + k))
  else if k < 0x86 then ownPage f (k - 0x80)
  else if 0x100 ≤ k && k < 0x100 + unitCount then some (unitPage (k - 0x100))
  else if 0x200 ≤ k && k < 0x26B then some (infoPage + (k - 0x200))
  else none

/-- Whether a function's BAR0 shows an internal page. -/
def barShows (f p : Nat) : Bool :=
  (decide (0x10000 ≤ p) && decide (p < 0x10600) && p % 256 == f) ||
  (f % 128 == 0 && ((decide (funcPage f ≤ p) && decide (p < funcPage f + 128)) || (decide (0x11000 ≤ p) && decide (p < 0x11000 + unitCount))
    || (decide (0x12000 ≤ p) && decide (p < 0x1206B))))

/-- Whether an initiator's accesses can name a page at all: host MMIO is confined to its function's view. -/
def hostSees (i : Ini) (p : Nat) : Bool := !(isFnId i.id && i.priv) || barShows i.id.toNat p

/-- What an internal page is. -/
inductive PageKind where
  | func (f : Nat) | que (f : Nat) | hatch (f : Nat) | msixTab (f : Nat) | pba (f : Nat) | dump (f : Nat)
  | unit (u : Nat) | info | route (i : Nat) | mbox | i3c | acl | pot | rng | lcs | evr | svc | twn
  | pmc (m : Nat) | pwr (i : Nat) | clk (i : Nat) | rst | key | crd (i : Nat) | tmp | none
deriving DecidableEq, Repr

/-- The page kind at an internal page number (18 R474, R475). -/
def pageKind (p : Nat) : PageKind :=
  if 0x10000 ≤ p && p < 0x10100 then .func (p - 0x10000)
  else if 0x10100 ≤ p && p < 0x10200 then .que (p - 0x10100)
  else if 0x10200 ≤ p && p < 0x10300 then .hatch (p - 0x10200)
  else if 0x10300 ≤ p && p < 0x10400 then .msixTab (p - 0x10300)
  else if 0x10400 ≤ p && p < 0x10500 then .pba (p - 0x10400)
  else if 0x10500 ≤ p && p < 0x10600 then .dump (p - 0x10500)
  else if 0x11000 ≤ p && p < 0x11000 + unitCount then .unit (p - 0x11000)
  else if p = 0x12000 then .info
  else if 0x12001 ≤ p && p < 0x12005 then .route (p - 0x12001)
  else if p = 0x12005 then .mbox
  else if p = 0x12006 then .i3c
  else if p = 0x12008 then .acl
  else if p = 0x12009 then .pot
  else if p = 0x1200A then .rng
  else if p = 0x1200B then .lcs
  else if p = 0x1200C then .evr
  else if p = 0x1200D then .svc
  else if p = 0x1200E then .twn
  else if 0x12010 ≤ p && p < 0x1202C then .pmc (p - 0x12010)
  else if 0x12040 ≤ p && p < 0x12055 then .pwr (p - 0x12040)
  else if 0x12058 ≤ p && p < 0x1206A then .clk (p - 0x12058)
  else if p = 0x1206A then .rst
  else if p = 0x18000 then .key
  else if 0x18001 ≤ p && p < 0x18005 then .crd (p - 0x18001)
  else if p = 0x18008 then .tmp
  else if 0x1802C ≤ p && p < 0x18030 then .pmc (p - 0x18010)
  else .none

/-- The defined bits of PG_EVT of a page (18 R469 and each block's chapter). -/
def evtMask (p : Nat) : Word :=
  match pageKind p with
  | .func _ => 0xF | .unit _ => 0xF | .info => 0x3 | .mbox => 0xF | .i3c => 0x7 | .rng => 0xF | .lcs => 0xF | .evr => 0xF
  | .svc => 0x3F | .twn => 0x3F | .pmc _ => 0x1 | .pwr i => if i = 20 then 0xF else 0 | .clk i => if i = 0 then 0x3 else 0
  | .rst => 0x3 | .key => 0x7 | .crd _ => 0x1F | .tmp => 0x3F
  | _ => 0

/-- PG_EVT_EN resets with every defined bit set, on FUNC pages with 0x3 (18 R469, 02 R59). -/
def pageReset (p : Nat) : PageHdr :=
  { evt := 0, en := match pageKind p with | .func _ => 0x3 | _ => evtMask p, lock := false }

def getPage (d : Dev) (p : Nat) : PageHdr := tabGet d.pages p (pageReset p)

/-- The event source line of an event bit of a page (18 R479); the KEY page drives none. -/
def lineOf (p b : Nat) : Option Nat :=
  match pageKind p with
  | .pwr i => if i = 20 then some b else none
  | .clk i => if i = 0 then some (8 + b) else none
  | .rst => some (16 + b)
  | .tmp => some (32 + b)
  | .lcs => some 48
  | .evr => some (56 + b)
  | .unit u => some (128 + u)
  | .func f => some (512 + f)
  | .svc => some (768 + b)
  | .rng => some 828
  | .twn => some (832 + b)
  | .crd i => some (864 + i)
  | .mbox => some (896 + b)
  | .i3c => some (900 + b)
  | .info => some (904 + b)
  | .pmc m => some (960 + m)
  | _ => none

/-- The lines that a page holds high: those of its bits that are set and enabled (02 R69, 18 R469). -/
def linesHigh (p : Nat) (h : PageHdr) : List Nat :=
  (List.range 6).filterMap fun b => if (h.evt &&& h.en).getLsbD b then lineOf p b else none

/-- The default route of a line (02 R69). -/
def routeReset (line : Nat) : Route :=
  if line < 32 then ⟨2, 0, 0⟩ else if line < 56 then ⟨1, 0, 0⟩ else if line < 72 then ⟨2, 0, 0⟩
  else if line < 128 then ⟨0, 0, 0⟩ else if line < 512 then ⟨2, 0, 0⟩
  else if line < 768 then ⟨3, BitVec.ofNat 8 (line - 512), 0⟩
  else if line < 832 then ⟨2, 0, 0⟩ else if line < 896 then ⟨1, 0, 0⟩ else ⟨2, 0, 0⟩

/-- Lines that can be routed only to the keeper world (02 R69). -/
def keeperReserved (line : Nat) : Bool :=
  (decide (32 ≤ line) && decide (line < 56)) || (decide (832 ≤ line) && decide (line < 896))

/-! ### Performance monitors (17 R455-R458) -/

/-- The function a monitor counts for: its binding or its function select. -/
def monFn (m : MonSt) (f : Nat) : Bool :=
  if bit m.eBind 31 then bits m.eBind 0 8 == f else bit m.eFsel 31 || bits m.eFsel 0 8 == f

/-- Add to counter `c` of a monitor; a wrap sets its sticky bit (17 R456). -/
def monAdd (m : MonSt) (c n : Nat) : MonSt :=
  let v := (tabGet m.cnt c 0).toNat + n
  { m with cnt := tabPut m.cnt c (BitVec.ofNat 48 v),
           wrap := if v < 2 ^ 48 then m.wrap else m.wrap ||| BitVec.ofNat 9 (1 <<< c) }

/-- The event class that counter `c` of a monitor selects. -/
def monClass (m : MonSt) (c : Nat) : Nat := if c < 4 then bits m.eEv0 (8 * c) 8 else bits m.eEv1 (8 * (c - 4)) 8

/-- Add `n` to every counter of the enabled monitors that selects a class and passes a filter; `up` latches the event of a counter
that wraps. -/
def pmcWith (up : Dev → Nat → Nat → Dev) (d : Dev) (cls n : Nat) (pass : Nat → MonSt → Bool) : Dev :=
  d.mons.foldl (fun acc e =>
    let m := getMon acc e.1
    if m.eEn && pass e.1 m then
      let m' := (List.range 8).foldl (fun x c => if monClass x c = cls then monAdd x c n else x) m
      let acc' := setMon acc e.1 m'
      if m'.wrap = m.wrap then acc' else up acc' (pmcPage e.1) 0
    else acc) d

/-! ### Lines and vectors (02 R66-R71) -/

/-- The rising edge of a line is pending work for the vector it is routed to (02 R71): that vector. -/
def lineVector (d : Dev) (line : Nat) : Option (Nat × Nat) :=
  let r := tabGet d.mgt.routesEff line (routeReset line)
  let f := r.func.toNat
  let v := r.vector.toNat
  if r.kind = 3 && (getFn d f).state != 0 && decide (v < (getFn d f).vectors) then some (f, v) else none

def lineWork (d : Dev) (line : Nat) : Dev :=
  match lineVector d line with
  | some (f, v) => setVec d f v { getVec d f v with work := true }
  | none => d

/-- Write a page's event header; `rises` is what a line does that rises with it. -/
def setPageWith (rises : Dev → Nat → Dev) (d : Dev) (p : Nat) (h : PageHdr) : Dev :=
  let before := linesHigh p (getPage d p)
  let d' := { d with pages := tabPut d.pages p h }
  ((linesHigh p h).filter fun l => !(before.contains l)).eraseDups.foldl rises d'

/-- Latch an event bit whose message waits for the next boundary. -/
def raiseLater (d : Dev) (p b : Nat) : Dev :=
  let h := getPage d p
  setPageWith lineWork d p { h with evt := h.evt ||| put b 1 }

/-- A vector's message (02 R67, R68): at most one in every ivl + 1 ticks; a masked vector sets its pending bit. -/
def sendVector (d : Dev) (f v : Nat) : Dev :=
  let x := getFn d f
  let m := getVec d f v
  if !m.work then d
  else if !decide (v < x.vectors) || x.state == 0 then setVec d f v { m with work := false }
  else
    let ivl := (tabGet x.coalEff v 0).toNat
    let due := match m.last with | some t => decide (t.toNat + ivl < d.tick.toNat) | none => true
    if !x.bme || x.fnMask || m.mask then setVec d f v { m with pend := true }
    else if due then
      pmcWith raiseLater (emit (setVec d f v { m with work := false, pend := false, last := some d.tick })
        (.msix (BitVec.ofNat 8 f) m.addr m.data)) 0x23 1 fun _ x => monFn x f
    else d

/-- A line that rises: the message of its vector is due at once, and at a boundary after the records (02 R67). -/
def lineRises (d : Dev) (line : Nat) : Dev :=
  match lineVector d line with
  | some (f, v) =>
    let d := lineWork d line
    if d.records || d.pwr.sysstate == 3 then d else sendVector d f v
  | none => d

/-- Write a page's event header; every line that rises with it is routed. -/
def setPage (d : Dev) (p : Nat) (h : PageHdr) : Dev := setPageWith lineRises d p h

/-- Latch an event bit of a page. -/
def raise (d : Dev) (p b : Nat) : Dev :=
  let h := getPage d p
  setPage d p { h with evt := h.evt ||| put b 1 }

/-- A reset of a block: the headers of its pages, PG_LOCK included, and its guarded registers (14 R396). -/
def blockReset (d : Dev) (ps : List Nat) : Dev :=
  { d with pages := d.pages.filter fun (v : Nat × PageHdr) => !ps.contains v.1,
           guards := d.guards.filter fun (v : Nat × Guard) => !ps.contains (v.1 / 0x1000) }

/-- Count a class on every monitor that passes a filter. -/
def pmcIf (d : Dev) (cls n : Nat) (pass : Nat → MonSt → Bool) : Dev := pmcWith raise d cls n pass

/-- Classes with the function filter. -/
def pmcFn (d : Dev) (cls f n : Nat) : Dev := pmcIf d cls n fun _ m => monFn m f

/-- Classes without a filter. -/
def pmcAny (d : Dev) (cls n : Nat) : Dev := pmcIf d cls n fun _ _ => true

/-- Whether a 2-bit world or privilege filter of 10 R298 admits a transaction; `hi` is encoding 2's side. -/
def admits (f : Nat) (isTwo : Bool) : Bool := f == 0 || (f == 1 && !isTwo) || (f == 2 && isTwo)

/-- Fabric classes: world, privilege, initiator and page filters (17 R455, R457, R458). -/
def pmcFabric (d : Dev) (cls n : Nat) (i : Ini) (page : Nat) : Dev :=
  let keeper := iniKeeper d i.id
  pmcIf d cls n fun k m =>
    let bound := bit m.eBind 31
    let world := if k < 28 || bound then !keeper else admits (bits m.eFilt 30 2) keeper
    let ident := if bound then i.id.toNat == bits m.eBind 0 8
      else (i.id ^^^ BitVec.ofNat 10 (bits m.eFilt 0 10)) &&& ~~~ (BitVec.ofNat 10 (bits m.eFilt 10 10)) == 0
    world && admits (bits m.eFilt 28 2) (!i.priv) && ident &&
      decide (bits m.ePfirst 0 28 ≤ page) && decide (page ≤ bits m.ePlast 0 28)

/-! ### The event recorder (17 R445-R452) -/

/-- Severity of an event code (17 R448): INFO 0, NOTICE 1, FAULT 2, ALARM 3. -/
def evSeverity (code : Nat) : BitVec 2 :=
  if [0x0201, 0x0202].contains code then 3
  else if [0x0103, 0x0403, 0x0501, 0x0502, 0x0503, 0x0601, 0x0802, 0x0902, 0x0A02, 0x0F03].contains code then 2
  else if [0x0101, 0x0104, 0x0504, 0x0F01, 0x0F02].contains code then 0
  else 1

/-- The rate table at cold reset (17 R452). -/
def rateReset (i : Nat) : RateSt :=
  let reg : Word := if i = 0 then 0x8A100401 else if i = 1 then 0x8A100402 else if i = 2 then 0x8F080702 else 0
  { reg := reg, eff := reg, window := 0, seen := 0, dropped := 0, firstT := 0, lastT := 0 }

def getRate (d : Dev) (i : Nat) : RateSt := tabGet d.evr.rates i (rateReset i)
def setRate (d : Dev) (i : Nat) (r : RateSt) : Dev := { d with evr := { d.evr with rates := tabPut d.evr.rates i r } }

/-- The entry that limits a code: the first valid entry that names it; ALARM codes and group 0x0F have none. -/
def rateEntry (d : Dev) (code : Nat) : Option Nat :=
  if evSeverity code = 3 || code / 256 = 0x0F then none
  else (List.range 128).find? fun i => let r := (getRate d i).eff; bit r 31 && bits r 0 16 == code

/-- Window length of a rate entry: 2^w ticks, w from 0 to 20. -/
def rateWindow (r : RateSt) : Nat := 2 ^ min (bits r.eff 24 5) 20

/-- Free storage of the buffer: numbered records wait in `buf` until they are durable. -/
def evrFull (d : Dev) : Bool := decide (512 ≤ d.evr.buf.length)

/-- Raise the recorder's high-water mark when the next number reaches h - 2,048, on main power (17 R446, 14 R392). -/
def evrRaiseHigh (d : Dev) : Dev :=
  if d.pwr.pfLevel && decide (d.nv.evHigh.toNat ≤ d.nv.evNext.toNat + 2048) then
    { d with nv := { d.nv with evHigh := d.nv.evHigh + 4096 } }
  else d

/-- Give a record its number and put it in the buffer (17 R446, R449). -/
def evrNumber (d : Dev) (r : EvRec) : Dev :=
  let d := evrRaiseHigh d
  { d with
    evr := { d.evr with buf := d.evr.buf ++ [(d.nv.evNext, r)],
                        flushing := d.evr.flushing || decide (2 ≤ r.sev.toNat) || decide (256 ≤ d.evr.buf.length + 1) },
    nv := { d.nv with evNext := d.nv.evNext + 1 } }

/-- The newest buffered record of a severity below ALARM, removed (17 R450). -/
def dropNewest (buf : List (DWord × EvRec)) : Option (List (DWord × EvRec)) :=
  let rec go : List (DWord × EvRec) → Option (List (DWord × EvRec))
    | [] => none
    | e :: r => if e.2.sev = 3 then (go r).map (e :: ·) else some r
  (go buf.reverse).map List.reverse

/-- Count a dropped record (17 R450). -/
def evrDrop (d : Dev) : Dev :=
  let d := { d with evr := { d.evr with drops := satInc d.evr.drops,
                                        dropTick := if d.evr.dropRun = 0 then d.tick else d.evr.dropTick,
                                        dropRun := d.evr.dropRun + 1 } }
  raise d evrPage 3

/-- A record as stamped now; group 0x0F and summary records take the same stamps. -/
def evStamp (d : Dev) (code line func : Nat) (late : Bool) (data : List Byte) : EvRec :=
  { code := BitVec.ofNat 16 code, sev := evSeverity code, late := late, line := BitVec.ofNat 16 line,
    func := BitVec.ofNat 16 func, tick := d.tick, hours := d.nv.hours, frac := BitVec.ofNat 32 d.nv.frac,
    pcyc := d.nv.pcycles, data := data }

/-- Set the recorder's event bits for a created record (17 R454). -/
def evrBits (d : Dev) (r : EvRec) : Dev :=
  let d := pmcAny d 0x80 1
  if r.sev = 3 then raise d evrPage 1 else if r.sev = 2 then raise d evrPage 0 else d

/-- A numbered record for the buffer: a full one drops it, and an ALARM takes the place of the newest of lower severity (17 R450). -/
def evrPut (d : Dev) (r : EvRec) : Dev :=
  if !evrFull d then evrBits (evrNumber d r) r
  else if r.sev = 3 then
    match dropNewest d.evr.buf with
    | some b => evrBits (evrNumber (evrDrop { d with evr := { d.evr with buf := b } }) r) r
    | none => evrBits (evrNumber d r) r
  else evrDrop d

/-- Once room has returned after drops: one record of their count, before any other (17 R450). -/
def evrOverflow (d : Dev) : Dev :=
  if d.evr.dropRun = 0 || evrFull d then d
  else
    evrPut { d with evr := { d.evr with dropRun := 0 } }
      (evStamp d 0x0F03 0xFFFF 0xFFFF false (leBytes 4 d.evr.dropRun ++ leBytes 6 d.evr.dropTick.toNat))

/-- A record before the recorder's start waits without a number (17 R450, R451). -/
def evrEarly (d : Dev) (r : EvRec) : Dev :=
  let put (d : Dev) (l : List EvRec) : Dev := { d with evr := { d.evr with early := l } }
  if d.evr.early.length < 512 then put d (d.evr.early ++ [r])
  else if r.sev = 3 then
    match dropNewest (d.evr.early.map fun e => (0, e)) with
    | some b => evrDrop (put d (b.map (·.2) ++ [r]))
    | none => put d (d.evr.early ++ [r])
  else evrDrop d

/-- Put a record that is not rate limited into the buffer, or among those that wait for the recorder's start. -/
def evrCreate (d : Dev) (r : EvRec) : Dev := if !d.evr.started then evrEarly d r else evrPut (evrOverflow d) r

/-- Close a rate entry's window that is over: one summary record when events were suppressed in it (17 R452). -/
def rateClose (d : Dev) (i : Nat) : Dev :=
  let r := getRate d i
  if d.tick.toNat / rateWindow r = r.window then d
  else
    let d' := setRate d i { r with window := d.tick.toNat / rateWindow r, seen := 0, dropped := 0 }
    if r.dropped = 0 then d'
    else evrCreate d' (evStamp d' 0x0F01 0xFFFF 0xFFFF false
      (leBytes 2 (bits r.eff 0 16) ++ zeros 2 ++ leBytes 4 r.dropped ++ leBytes 6 r.firstT.toNat ++ leBytes 6 r.lastT.toNat))

/-- An event occurs: it becomes a record, or is suppressed by its rate entry (17 R445, R452). -/
def evLog (d : Dev) (code line func : Nat) (data : List Byte) : Dev :=
  match rateEntry d code with
  | none => evrCreate d (evStamp d code line func false data)
  | some i =>
    let d := rateClose d i
    let r := getRate d i
    if r.seen < bits r.eff 16 8 then
      evrCreate (setRate d i { r with seen := r.seen + 1 }) (evStamp d code line func false data)
    else
      let d := setRate d i { r with dropped := r.dropped + 1, firstT := if r.dropped = 0 then d.tick else r.firstT,
                                    lastT := d.tick }
      pmcAny { d with evr := { d.evr with suppressed := satInc d.evr.suppressed } } 0x81 1

/-- No line, no function. -/
def noLine : Nat := 0xFFFF
def noFn : Nat := 0xFFFF

/-! ### Violations (10 R303-R306) -/

/-- A violation record (10 R304). -/
def violRecord (d : Dev) (i : Ini) (addr len : Nat) (ty : TxnKind) (precise : Bool) (rule merged : Nat) : BitVec 128 :=
  let a := if precise || rule = 0x404 then addr else addr / 0x1000 * 0x1000
  let w0 : Word := BitVec.ofNat 32 a
  let w1 : Word := put 20 ((len - 1) % 4096) ||| put 8 i.id.toNat ||| BitVec.ofNat 32 (a / 2 ^ 32 % 256)
  let t := match ty with | .read => 0 | .write => 1 | .fetch => 2 | .atomic => 3
  let w2 : Word := flag 31 precise ||| put 29 t ||| flag 28 i.priv ||| flag 27 (iniKeeper d i.id) ||| put 16 (rule % 2048)
    ||| BitVec.ofNat 32 (merged % 65536)
  let w3 : Word := BitVec.ofNat 32 d.tick.toNat
  w3 ++ w2 ++ w1 ++ w0

/-- Put a record in the next slot of the ring; a record overwritten before software has passed it is lost (10 R305). -/
def ringPush (a : Acl) (r : BitVec 128) : Acl :=
  let slot := a.vhead.toNat
  { a with vlog := tabPut a.vlog slot r, vhead := a.vhead + 1,
           vmerge := a.vmerge.filter fun e => e.2 != a.vhead,
           lost := if a.vfull = 32 then satInc a.lost else a.lost,
           vfull := if a.vfull = 32 then 32 else a.vfull + 1 }

/-- One more notice merged into a ring record: word 2 bits 15 to 0 count it. -/
def ringMerge (a : Acl) (slot : Nat) : Acl :=
  let r := tabGet a.vlog slot 0
  let n := (r.extractLsb' 64 16)
  if n = 0xFFFF then a else { a with vlog := tabPut a.vlog slot (r + (1 <<< 64)) }

/-- Record a violation: the ring or the GJ-5100 latch, and the event recorder (10 R303, R305, R306). -/
def violate (d : Dev) (i : Ini) (addr len : Nat) (ty : TxnKind) (precise : Bool) (rule : Nat) : Dev :=
  let rec0 := violRecord d i addr len ty precise rule 0
  let a := d.acl
  let mk := (i.id.toNat * 2 ^ 28 + addr / 0x1000) * 2048 + rule
  let a' :=
    if a.compat then
      if a.fvalid then { a with missed := satInc a.missed } else { a with vfirst := rec0, fvalid := true }
    else if precise then ringPush a rec0
    else
      match tabFind a.vmerge mk with
      | some slot => ringMerge a slot.toNat
      | none => let b := ringPush a rec0; { b with vmerge := tabPut b.vmerge mk a.vhead }
  evLog { d with acl := a' } 0x0401 noLine (if isFnId i.id then i.id.toNat else noFn) (leBytes 16 rec0.toNat)

/-- Internal address of a register. -/
def regAddr (page off : Nat) : Nat := page * 0x1000 + off

/-- A write to an RWL field of a locked page changes nothing and is a lock violation (00 R11, event 0x0402). -/
def lockHit (d : Dev) (i : Ini) (page off : Nat) : Dev :=
  evLog d 0x0402 noLine (if isFnId i.id then i.id.toNat else noFn) (leBytes 5 (regAddr page off) ++ leBytes 2 i.id.toNat)

/-- A write of an RW register, which PG_LOCK holds fixed (18 R468). -/
def unlessLocked (d : Dev) (i : Ini) (page off : Nat) (k : Dev → Dev) : Dev :=
  if (getPage d page).lock then lockHit d i page off else k d

/-- A register write that a block ignores under its own rules: rule code 0x404, exact address, imprecise (10 R305). -/
def ignored (d : Dev) (i : Ini) (addr : Nat) : Dev := violate d i addr 4 .write false 0x404

/-! ### Commands -/

/-- A command that acts on the device alone: memory, fuses and the queue of commands stay. -/
def act (s : State) (f : Dev → Dev) : Host.Outcome State Fault Refusal := .next { s with dev := f s.dev }

/-- The pointers of the blocks that are not racks advance in the same way. -/
def blockTie (d : Dev) (t : BitVec 8) : BitVec 8 := t + d.tick.setWidth 8

end Sys2Proof.Machine
end

