-- ==== Sys2Proof/Machine/Guards.lean ====
section
/-! DEFINITION. Guarded registers with their inverted shadows (13 R369, 18 R470), and the replacement causes of the store room
(15 R420, R421). -/

namespace Sys2Proof.Machine

/-- Default response of tamper source n: [3] ZEROIZE_ALL, [2] LOCK, [1] CLEAR_CACHE, [0] LOG (13 R352). -/
def respDefault (n : Nat) : Word :=
  if [13, 18].contains n then 0x5 else if [14, 16, 17, 21].contains n then 0x7 else 0xD

/-- Reset value of the guarded register at an internal address; none where the address holds no guarded register (18 R470). -/
def guardDefault (a : Nat) : Option Word :=
  let off := a % 0x1000
  match pageKind (a / 0x1000) with
  | .unit _ => if off = 0x064 then some 0 else none
  | .func _ => if off = 0x040 || off = 0x044 then some 0 else none
  | .acl => if off = 0x040 then some 0 else if off = 0x09C then some 64 else none
  | .clk i =>
    if i != 0 then none
    else if off = 0x044 || off = 0x04C then some 0
    else if off = 0x054 then some 780 else if off = 0x058 then some 720 else if off = 0x05C then some 640
    else if off = 0x060 then some 600 else if off = 0x068 then some 0 else none
  | .tmp => if 0x060 ≤ off && off ≤ 0x0B8 && off % 4 = 0 then some (respDefault ((off - 0x060) / 4))
    else if off = 0x0C0 then some 0 else none
  | .svc => if off = 0x068 then some 0x00010400 else if off = 0x06C then some 0x00010102 else none
  | .twn => if off = 0x068 then some 32 else if off = 0x06C then some 256 else none
  | _ => none

def isGuarded (a : Nat) : Bool := (guardDefault a).isSome

/-- The pair at an address: the reset value with its inverse as shadow until a write commits it (13 R369). -/
def getGuard (d : Dev) (a : Nat) : Guard :=
  let v := (guardDefault a).getD 0
  tabGet d.guards a { val := v, shadow := ~~~ v, pend := none }

def setGuard (d : Dev) (a : Nat) (g : Guard) : Dev := { d with guards := tabPut d.guards a g }

/-- The committed value: what the device uses and what a read returns. -/
def guardVal (d : Dev) (a : Nat) : Word := (getGuard d a).val

/-- The pair mismatches (13 R370). -/
def guardBad (d : Dev) (a : Nat) : Bool := (getGuard d a).shadow != ~~~ (getGuard d a).val

/-- A write to X is held as a pending value, and replaces one already held (13 R369). -/
def guardWrite (d : Dev) (a : Nat) (v : Word) : Dev := setGuard d a { getGuard d a with pend := some v }

/-- A write to the shadow commits the pair (13 R369). -/
def guardCommit (d : Dev) (a : Nat) (v : Word) : Dev :=
  let g := getGuard d a
  setGuard d a { val := g.pend.getD g.val, shadow := v, pend := none }

/-- Response of a tamper source, with its minimum (13 R352): LOG always, FAULT keeps LOCK, BATLOSS is fixed. -/
def tamperResp (d : Dev) (n : Nat) : BitVec 4 :=
  let r := (guardVal d (regAddr tmpPage (0x060 + 4 * n))).setWidth 4 ||| 1
  if n = 22 then 0xD else if n = 20 then r ||| 4 else r

/-- SVC_CTL and SVC_THR. -/
def svcCtl (d : Dev) : Word := guardVal d (regAddr svcPage 0x068)
def svcThr (d : Dev) : Word := guardVal d (regAddr svcPage 0x06C)

/-- The line of an event bit, as an event record names it. -/
def lineAt (p b : Nat) : Nat := (lineOf p b).getD noLine

/-! ### Replacement causes -/

def causeLevel (d : Dev) (c : Nat) : Nat := if c = 13 || (c = 7 && d.nv.capCause) then 2 else 1

/-- SVC_REQ.level. -/
def svcLevel (d : Dev) : Nat :=
  ((List.range 15).map fun c => if d.nv.causes.getLsbD c then causeLevel d c else 0).foldl max 0

/-- Drive REPLACE_REQ_N as SVC_CTL.pinlvl says, once it is driven at all (15 R421). -/
def svcPin (d : Dev) : Dev :=
  let lvl := bits (svcCtl d) 16 2
  let low := decide ((if lvl = 2 then 2 else 1) ≤ svcLevel d)
  if d.svc.reqDriven && low != d.svc.reqLow then
    emit { d with svc := { d.svc with reqLow := low } } (.replaceReq low)
  else d

/-- Set a replacement cause when its condition first holds. -/
def setCause (d : Dev) (c : Nat) : Dev :=
  if d.nv.causes.getLsbD c then d
  else
    let before := svcLevel d
    let d := { d with nv := { d.nv with causes := d.nv.causes ||| BitVec.ofNat 15 (1 <<< c) } }
    let d := evLog d 0x0901 (lineAt svcPage 2) noFn (leBytes 1 c ++ leBytes 1 (svcLevel d))
    let d := if before < svcLevel d then raise d svcPage 2 else d
    svcPin d

/-- Cause 7 rises to level 2 once the cap of R418 is applied. -/
def setCapCause (d : Dev) : Dev :=
  let before := svcLevel d
  let d := { d with nv := { d.nv with capCause := true } }
  if d.nv.causes.getLsbD 7 then svcPin (if before < svcLevel d then raise d svcPage 2 else d)
  else setCause d 7

end Sys2Proof.Machine
end

