-- ==== Sys2Proof/Machine/JobOps.lean ====
section
/-! DEFINITION. Jobs in the device: finding and changing them, their outcomes, and how they leave (04 R132, R133, 02 R62). -/

namespace Sys2Proof.Machine

/-- The job with a sequence number. -/
def findJob (d : Dev) (id : JobId) : Option Job := d.jobs.find? fun j => j.id == id

/-- Change the job with a sequence number. -/
def modJob (d : Dev) (id : JobId) (f : Job → Job) : Dev :=
  { d with jobs := updateFirst (fun j => j.id == id) f d.jobs }

/-- A job that has its outcome. -/
def jobEnded (j : Job) : Bool := j.stage == .done

/-- A job in a cut plan, running, or held for verification (04 R128). -/
def jobPlaced (j : Job) : Bool := j.stage == .planned || j.stage == .running || j.stage == .held

/-- Whether a job belongs to its function's present generation. -/
def jobCurrent (d : Dev) (j : Job) : Bool := (getFn d j.e.fn.toNat).gen == j.gen

/-- Give a job its outcome: it passes the collector at the next boundary. A job that has one keeps it. -/
def finishJob (d : Dev) (id : JobId) (o : OutcomeRec) : Dev :=
  modJob d id fun j => if jobEnded j then j else { j with stage := .done, res := o, claim := false, rngHeld := false }

/-- Remove a job without a record. -/
def dropJob (d : Dev) (id : JobId) : Dev :=
  { d with jobs := d.jobs.filter fun j => j.id != id,
           rng := { d.rng with prs := d.rng.prs.filter fun r => r.job != id } }

/-- Bytes of a job's read buffer in descriptor order, as far as they have been staged without a gap. -/
def stagedPrefix (j : Job) : List Byte :=
  let rs := j.e.descs.zipIdx.filter fun x => !x.1.dir
  let rec go : List (Desc × Nat) → List Byte
    | [] => []
    | (x, i) :: r =>
      match tabFind j.got i with
      | some bs => fit x.blen.toNat bs ++ go r
      | none => []
  go rs

/-- The part of a job that is next or under way. -/
def jobPart (j : Job) : JobPart := j.todo.headD .main

/-- The type of the key that a job makes or, for the replacement jobs, replaces. -/
def jobKeyType (j : Job) : Byte :=
  match j.kind with
  | .keyGenerate | .kdfDerive => BitVec.ofNat 8 (opLe j.e 0 1)
  | .ecdhP384 => 0x21
  | .ecdhP256 => 0x20
  | .keygenP384 => 0x11
  | .keygenP256 => 0x10
  | _ => (j.key.map (·.ktype)).getD 0

/-- Bytes that a job's present part draws, and from which instance (05 R143). DESIGN CHOICE: the round trip of a pair with agree only
(08 R251) draws nothing; the draw table of R143 has no line for it (log entry 70). -/
def jobDraw (j : Job) : Nat :=
  match jobPart j with
  | .main => drawLen j.kind
  | .unwrap => if j.todo.contains .main then drawLen j.kind else 0
  | .pair => if jobKeyType j = 0x11 then 184 else 136
  | .sign => 304
  | .trip =>
    match j.key with
    | some k => if isPairType k.ktype && k.attr.getLsbD atSign then (if k.ktype = 0x11 then 304 else 240) else 0
    | none => 0
  | _ => 0

def jobInst (j : Job) : Nat := if j.kind = .attestKey || j.kind = .attestDevice then 257 else j.e.fn.toNat

/-- Whether every read of a job has returned. -/
def readsDone (j : Job) : Bool :=
  j.e.descs.zipIdx.all fun x => x.1.dir || (tabFind j.got x.2).isSome

/-- The crate of a job: its operand area with keysel 3, the bytes of its crate read with keysel 2. -/
def crateOf (j : Job) : List Byte :=
  if j.e.keysel = 3 then fit (j.e.keyref.toNat % 65536) j.e.operands else tabGet j.got 255 []

/-- What the draw buffer holds: the draws of jobs that have not entered a shelf; those of jobs that ended, left or were aborted are
wiped (09 R279). -/
def settleDraws (d : Dev) : Dev :=
  let inBuffer := d.jobs.filter fun j => (j.stage == .load || j.stage == .wait || j.stage == .planned) && !j.aborted && !j.halted
  { d with rng := { d.rng with drawBytes := (inBuffer.map fun j => (j.draw.getD []).length).sum } }

/-! ### Fences (03 R96) -/

def sameQueue (a b : Job) : Bool := a.e.fn == b.e.fn && a.e.q == b.e.q

/-- A fence at or before a job in its queue still waits for a record of an earlier entry. -/
def fenceBlocked (d : Dev) (j : Job) : Bool :=
  d.jobs.any fun f => f.e.fence && sameQueue f j && decide (f.id ≤ j.id) &&
    d.jobs.any fun k => sameQueue k f && decide (k.id < f.id)

/-! ### Frames of the twin link (16 R425, R426) -/

/-- Send a frame: it takes the next sequence number and stays in the replay buffer until it is acknowledged. -/
def twnSend (d : Dev) (ftype : Byte) (id m : DWord) (objs : List MirrorObj) (heads : List JournalEntry) : Dev :=
  let q := d.twn.txSeq
  let e : Egress := .frame q ftype id m objs heads
  emit { d with twn := { d.twn with txSeq := q + 1, replay := d.twn.replay ++ [(q, ftype, e)] } } e

/-- A frame whose payload is a string of bytes. -/
def twnSendBytes (d : Dev) (ftype : Byte) (bs : List Byte) : Dev :=
  let q := d.twn.txSeq
  let e : Egress := .bytesFrame q ftype bs
  emit { d with twn := { d.twn with txSeq := q + 1, replay := d.twn.replay ++ [(q, ftype, e)] } } e

/-- Move the link's state; every change is logged (event 0x0A01). -/
def twnState (d : Dev) (st : BitVec 3) : Dev :=
  if d.twn.state == st then d
  else
    let old := d.twn.state
    let d := { d with twn := { d.twn with state := st } }
    let d := if st = 4 then raise d twnPage 0 else if st = 5 then raise d twnPage 1 else d
    evLog d 0x0A01 (if st = 4 then lineAt twnPage 0 else if st = 5 then lineAt twnPage 1 else noLine) noFn
      (leBytes 1 old.toNat ++ leBytes 1 st.toNat ++ [d.twn.herr])

/-- The state of a link that does not run: without a grant UNPAIRED, else OFF or TRAINING by its domain. -/
def twnIdle (d : Dev) (on : Bool) : BitVec 3 := if d.nv.twin.grant.isNone then 7 else if on then 1 else 0

/-- A PAIR grant is in force and no SOLO grant. -/
def twinBound (d : Dev) : Bool := (match d.nv.twin.grant with | some g => g.pair | none => false) && !d.nv.twin.solo

/-- Changes and reservations commit without acknowledgement: unpaired, solo, or the peer is parked or locked (16 R439-R441). -/
def twinAlone (d : Dev) : Bool := !twinBound d || d.twn.peerParked || d.twn.peerLocked

end Sys2Proof.Machine
end

