-- ==== Sys2Proof/Machine/Rng.lean ====
section
/-! DEFINITION. The RNG block (09): CTR_DRBG instances, seeds and their takers, draws, and service states. -/

namespace Sys2Proof.Machine

/-! ### CTR_DRBG with AES-256, no derivation function (09 R274) -/

/-- A DRBG's working state: key and V. -/
abbrev DrbgKV := List Byte × List Byte

/-- V + 1 modulo 2^128. -/
def drbgIncV (v : List Byte) : List Byte := beBytes 16 (beNat v + 1)

/-- The update function: 48 bytes of key stream combined with 48 provided bytes. -/
def drbgUpdate (s : DrbgKV) (provided : List Byte) : DrbgKV :=
  let rks := aesRoundKeys s.1
  let v1 := drbgIncV s.2
  let v2 := drbgIncV v1
  let t := xorBytes (aesEncRk rks v1 ++ aesEncRk rks v2 ++ aesEncRk rks (drbgIncV v2)) (fit 48 provided)
  (t.take 32, t.drop 32)

def drbgInstantiate (seed pers : List Byte) : DrbgKV := drbgUpdate (zeros 32, zeros 16) (xorBytes (fit 48 seed) (fit 48 pers))

def drbgReseed (s : DrbgKV) (seed : List Byte) : DrbgKV := drbgUpdate s seed

/-- Output blocks of a generate request. -/
def drbgBlocks (rks : List (List Byte)) (v : List Byte) : Nat → List Byte × List Byte
  | 0 => ([], v)
  | n + 1 =>
    let v := drbgIncV v
    let r := drbgBlocks rks v n
    (aesEncRk rks v ++ r.1, r.2)

/-- Generate `n` bytes, then update with zeros. -/
def drbgGenerate (s : DrbgKV) (n : Nat) : List Byte × DrbgKV :=
  let r := drbgBlocks (aesRoundKeys s.1) s.2 (ceilDiv n 16)
  (r.1.take n, drbgUpdate (s.1, r.2) (zeros 48))

/-- The seed of a raw block (09 R268). -/
def seedOf (source block : Nat) (raw : List Byte) : List Byte :=
  sha384 ([0x47, 0x4A, 0x2D, 0x53, 0x45, 0x45, 0x44, 0x00] ++ beBytes 1 source ++ beBytes 8 block ++ raw)

/-- The personalisation string (09 R274). -/
def persString (inst gen tick : Nat) : List Byte :=
  [0x47, 0x4A, 0x2D, 0x44, 0x52, 0x42, 0x47, 0x00] ++ beBytes 2 inst ++ beBytes 2 gen ++ beBytes 6 tick ++ zeros 30

/-- Generation in an instance's string: its function's, or 0 for instances 256 and 257. -/
def instGen (d : Dev) (i : Nat) : Nat := if i < 256 then (getFn d i).gen.toNat else 0

/-! ### Sources (09 R263) -/

def sourceKind (i : Nat) : Nat := i / 2

/-- Whether the sources that pass a test are at least three, of at least two kinds. -/
def enoughSources (p : Nat → Bool) : Bool :=
  let l := (List.range 6).filter p
  decide (3 ≤ l.length) && decide (2 ≤ ((l.map sourceKind).eraseDups).length)

/-! ### Health tests (09 R265) -/

/-- Cutoffs of a source: of the repetition count test and of the adaptive proportion test. -/
def healthCut (i : Nat) : Nat × Nat :=
  if sourceKind i = 0 then (81, 827) else if sourceKind i = 1 then (51, 700) else (65, 772)

/-- One sample through both tests. -/
def healthStep (h : Health) (b : Bool) : Health :=
  let first := if h.pos = 0 then b else h.first
  { last := b, run := if h.last == b then h.run + 1 else 1, first := first, pos := (h.pos + 1) % 1024,
    count := if h.pos = 0 then 1 else if b == first then h.count + 1 else h.count }

/-- The test that fires at a sample: `some false` repetition, `some true` proportion. Where both fire at one sample, the repetition
count test is the one reported (DESIGN CHOICE, log entry 59). -/
def healthFires (i : Nat) (h : Health) : Option Bool :=
  if (healthCut i).1 ≤ h.run then some false else if (healthCut i).2 ≤ h.count then some true else none

/-- Samples through both tests, up to the first that fires: what the tests hold then, how many samples they took, and which fired. -/
def healthRun (i : Nat) : Health → Nat → List Bool → Health × Nat × Option Bool
  | h, n, [] => (h, n, none)
  | h, n, b :: bs =>
    let h := healthStep h b
    match healthFires i h with
    | some p => (h, n + 1, some p)
    | none => healthRun i h (n + 1) bs

/-- The samples of raw bytes: the first is bit 7 of byte 0 (09 R268). -/
def rawBits (raw : List Byte) : List Bool := raw.flatMap fun (b : Byte) => (List.range 8).map fun k => b.getLsbD (7 - k)

/-! ### Instances -/

/-- An instance that can deliver: the conditioner is IN_SERVICE and the instance is READY, or holds its spare seed when its
reseed interval is reached (09 R276). -/
def canDeliver (d : Dev) (i : Nat) : Bool :=
  let x := getInst d i
  d.rng.state == 2 && d.rng.pairs != 0 && x.istate == 2 && (decide (x.count < 4096) || x.spare.isSome)

/-- Reseed an instance with a seed; its count starts at 0 (09 R276). -/
def instReseed (x : DrbgSt) (s : Seed) : DrbgSt :=
  let kv := drbgReseed (x.key, x.v) s.bytes
  { x with istate := 2, key := kv.1, v := kv.2, src := s.source, count := 0 }

/-- One generate request to an instance that can deliver; at 4,096 requests it takes its spare seed first. An instance that
reaches the interval without a spare reads DUE. -/
def instGenerate (d : Dev) (i n : Nat) : Option (List Byte × Dev) :=
  if canDeliver d i then
    let x := getInst d i
    let x := if x.count < 4096 then x else
      match x.spare with
      | some s => { instReseed x s with spare := none }
      | none => x
    let r := drbgGenerate (x.key, x.v) n
    let x := { x with key := r.2.1, v := r.2.2, count := x.count + 1 }
    some (r.1, setInst d i { x with istate := if decide (4096 ≤ x.count) && x.spare.isNone then 3 else 2 })
  else none

/-- AES blocks of a generate request of `n` bytes, with the update after it (09 R280). -/
def reqBlocks (n : Nat) : Nat := ceilDiv n 16 + 3

/-- AES blocks that the pairs in service compute in a tick (09 R280). -/
def blocksCap (d : Dev) : Nat := 2857 * popCount d.rng.pairs

/-- What the pairs can still compute in this tick serves a request; a demand above it waits for the next tick (09 R280). -/
def hasBlocks (d : Dev) (n : Nat) : Bool := decide (d.rng.blocksTick + reqBlocks n ≤ blocksCap d)

/-- A generate request in this tick, within the capacity of the pairs. -/
def takeDraw (d : Dev) (i n : Nat) : Option (List Byte × Dev) :=
  if hasBlocks d n then
    match instGenerate d i n with
    | some (bs, d) => some (bs, { d with rng := { d.rng with blocksTick := d.rng.blocksTick + reqBlocks n } })
    | none => none
  else none

/-- Whether a job still waits for random numbers (09 R279, R281). -/
def waitsRng (j : Job) : Bool :=
  j.rngHeld ||
    ((j.stage == .load || j.stage == .wait) &&
      ((decide (0 < jobDraw j) && j.draw.isNone) || j.kind == .randomBytes || j.kind == .drbgReseed))

/-- An outstanding request with prediction resistance. -/
def prWaits (d : Dev) (id : JobId) : Bool := d.rng.prs.any fun r => r.job == id

/-- A job ends with RNG_UNAVAILABLE (09 R281, R282). -/
def rngUnavailable (d : Dev) (j : Job) : Dev :=
  let d := finishJob d j.id (outcome stRng 0)
  { d with rng := { d.rng with prs := d.rng.prs.filter fun r => r.job != j.id } }

/-! ### Seeds and their takers (09 R278) -/

/-- A taker of a seed: an instance, with the prediction-resistance request it serves, if any. -/
structure SeedTaker where
  inst : Nat
  pr   : Option PrReq
deriving DecidableEq, Repr

def needsSeed (x : DrbgSt) : Bool := x.istate == 1 || x.istate == 3

/-- Every taker in its order of priority. -/
def seedTakers (d : Dev) : List SeedTaker :=
  let own (i : Nat) : List SeedTaker :=
    (if needsSeed (getInst d i) then [⟨i, none⟩] else [])
      ++ ((d.rng.prs.filter fun r => r.inst == i).map fun r => ⟨i, some r⟩)
      ++ (if (getInst d i).istate == 2 && (getInst d i).spare.isNone then [⟨i, none⟩] else [])
  let prs := (d.rng.prs.filter fun r => decide (r.inst < 256)).map fun r => (⟨r.inst, some r⟩ : SeedTaker)
  let waits (i : Nat) : Bool := d.jobs.any fun j => waitsRng j && jobInst j == i
  let present := (d.rng.insts.map (·.1)).filter fun i => decide (i < 256)
  let order := sortBy (cyclicKey (d.ties.rng + d.tick.setWidth 8)) present
  let hungry := order.filter fun i => needsSeed (getInst d i)
  own 257 ++ own 256 ++ prs
    ++ (hungry.filter waits).map (⟨·, none⟩) ++ (hungry.filter fun i => !waits i).map (⟨·, none⟩)
    ++ (order.filter fun i => (getInst d i).istate == 2 && (getInst d i).spare.isNone).map (⟨·, none⟩)

/-- The seed a taker receives: the oldest, and for a prediction-resistance request the oldest whose block completed after the
request was staged (09 R277, R278). -/
def seedFor (seeds : List Seed) (t : SeedTaker) : Option Seed :=
  match t.pr with
  | none => seeds.head?
  | some r => seeds.find? fun s => decide (r.from_ ≤ s.order)

/-- An instance with a new seed: one that is UNSEEDED instantiates (09 R274), one that is READY or DUE reseeds. -/
def instSeeded (d : Dev) (i : Nat) (x : DrbgSt) (s : Seed) : DrbgSt :=
  if x.istate == 1 then
    let kv := drbgInstantiate s.bytes (persString i (instGen d i) d.tick.toNat)
    { x with istate := 2, key := kv.1, v := kv.2, src := s.source, count := 0 }
  else instReseed x s

/-- Give a seed to a taker; a prediction-resistance request of an UNSEEDED instance instantiates it with its seed (log entry 59). -/
def giveSeed (d : Dev) (t : SeedTaker) (s : Seed) : Dev :=
  let x := getInst d t.inst
  let d := { d with rng := { d.rng with seeds := d.rng.seeds.filter fun y => y.order != s.order,
                                        delivered := satInc d.rng.delivered } }
  match t.pr with
  | some r =>
    let d := setInst d t.inst (instSeeded d t.inst x s)
    let d := { d with rng := { d.rng with prs := d.rng.prs.filter fun y => y.job != r.job } }
    match findJob d r.job with
    | some j => if j.kind = .drbgReseed then finishJob d j.id (outcome stOk 0) else d
    | none => d
  | none =>
    if needsSeed x then setInst d t.inst (instSeeded d t.inst x s)
    else setInst d t.inst { x with spare := some s }

/-- Hand out held seeds while a taker can use one. -/
def seedLoop : Nat → Dev → Dev
  | 0, d => d
  | n + 1, d =>
    match (seedTakers d).findSome? fun t => (seedFor d.rng.seeds t).map fun s => (t, s) with
    | some (t, s) => seedLoop n (giveSeed d t s)
    | none => d

/-- Deliver held seeds: only while IN_SERVICE, and never while every unit that makes or uses them is out. -/
def rngFeed (d : Dev) : Dev :=
  if d.rng.state == 2 then seedLoop d.rng.seeds.length d else d

/-! ### Service states (09 R270, R271, R282, R283) -/

def enterNoService (d : Dev) (source : Nat) (log : Bool) : Dev :=
  if d.rng.state == 4 then d
  else
    let d := { d with rng := { d.rng with state := 4 } }
    let d := raise d rngPage 2
    let d := setCause d 13
    if log then evLog d 0x0802 (lineAt rngPage 0) noFn (leBytes 1 source ++ [4]) else d

/-- Enter IN_SERVICE when the known-answer tests have run and enough sources qualify: in STARTUP each of them has completed a raw block, in RESTART passing the
start-up test is enough. -/
def rngCheckService (d : Dev) : Dev :=
  let ok (i : Nat) : Bool :=
    let s := getSource d i
    s.sstate == 2 && (d.rng.state == 3 || s.blockDone)
  if (d.rng.state == 1 || d.rng.state == 3) && d.rng.katDone && enoughSources ok && d.rng.sha != 0 && d.rng.pairs != 0 then
    rngFeed (raise { d with rng := { d.rng with state := 2, served := true } } rngPage 1)
  else d

/-- What an instance becomes when sources fail (09 R282): it loses a spare of a failed source; one whose own seed came from a failed
source reseeds from a spare that is left, or is DUE. A READY instance at its reseed interval that loses its spare is DUE (09 R276). -/
def failInstance (failed : List Nat) (x : DrbgSt) : DrbgSt :=
  let keep := match x.spare with
    | some s => if failed.contains s.source.toNat then none else some s
    | none => none
  let x := { x with spare := keep }
  if (x.istate == 2 || x.istate == 3) && failed.contains x.src.toNat then
    match keep with
    | some s => { instReseed x s with spare := none }
    | none => { x with istate := 3 }
  else if x.istate == 2 && keep.isNone && decide (4096 ≤ x.count) then { x with istate := 3 }
  else x

/-- A healthy source discards its history and runs its start-up test again (09 R283). -/
def retestSource (s : SourceSt) : SourceSt :=
  if s.sstate == 2 || s.sstate == 3 then { s with sstate := 1, blockDone := false, health := healthReset } else s

/-- The draws that a health test failure wipes (09 R282): those of placed jobs that are not in a shelf yet. A job in a cut plan ends
with RNG_UNAVAILABLE at its boundary (05 R145), and so does one whose crate is unwrapped now, or a running RANDOM_BYTES. A RANDOM_BYTES job
in the cut plan ends so at its own boundary. Before the cut, a draw of this tick's plan may still be outside its shelf, in cycles [0, 256): whether it is, is free (log entry 5). -/
def wipeDraws (d : Dev) : Dev :=
  let early := !d.cutDone && (Config.freeWord d.free).getLsbD 0
  let next (id : JobId) : Bool := d.wings.planNext.any fun p => p.job == id
  let jobs := d.jobs.map fun (j : Job) =>
    if jobEnded j then j
    else if j.kind == .randomBytes && j.stage == .planned then { j with res := outcome stRng 0 }
    else if j.stage == .planned || (j.stage == .running && (early || (next j.id && jobPart j == .unwrap)) && j.kind != .randomBytes) then { j with draw := none }
    else if j.stage == .running && (j.kind == .randomBytes || (jobPart j == .unwrap && decide (0 < jobDraw j))) then
      { j with draw := none, res := outcome stRng 0 }
    else j
  { d with jobs := jobs, free := if d.cutDone then d.free else d.free + 1 }

/-- Health test failures of sources in one cycle: one RESTART and an entry of the dead list each (09 R282-R284). -/
def healthFailures (d : Dev) (failed : List Nat) : Dev :=
  if failed.isEmpty then d
  else
    let dead : BitVec 6 := failed.foldl (fun m i => m ||| BitVec.ofNat 6 (1 <<< i)) 0
    let d := failed.foldl (fun d i => setSource d i { getSource d i with sstate := 4 }) d
    let d := { d with nv := { d.nv with deadSrc := d.nv.deadSrc ||| dead } }
    let d := { d with rng := { d.rng with
      state := if d.rng.state == 4 then 4 else 3, katDone := false, seeds := [],
      rawBuf := if failed.contains d.rng.rawSrc.toNat then [] else d.rng.rawBuf,
      insts := tabMap (failInstance failed) d.rng.insts, sources := tabMap retestSource d.rng.sources } }
    let waiting := d.jobs.filter fun (j : Job) => !jobEnded j && (waitsRng j || ((j.stage == .load || j.stage == .wait) && j.draw.isSome))
    let d := settleDraws (wipeDraws (waiting.foldl rngUnavailable d))
    let d := raise (raise d rngPage 0) svcPage 0
    let left := enoughSources fun k => (getSource d k).sstate != 4 && (getSource d k).sstate != 0
    let d := if left then d else enterNoService d (failed.headD 0xFF) false
    let d := failed.foldl (fun d i =>
      evLog d 0x0802 (lineAt rngPage 0) noFn (leBytes 1 i ++ leBytes 1 d.rng.state.toNat)) d
    let dead := ((List.range 6).filter fun k => d.nv.deadSrc.getLsbD k).length
    if 2 ≤ dead then setCause d 5 else d

/-- Units in service that failed a known-answer test twice go to the dead list; a first failure alone shows in PG_EVT (09 R285). -/
def rngKat (d : Dev) (k : KatIn) : Dev :=
  let sha := d.rng.sha &&& k.sha
  let pair := d.rng.pairs &&& k.pair
  if d.rng.state == 0 || (sha == 0 && pair == 0) then d
  else
    let d := raise d rngPage 3
    let sha := sha &&& k.shaAgain
    let pair := pair &&& k.pairAgain
    if sha == 0 && pair == 0 then d
    else
      let d := { d with rng := { d.rng with sha := d.rng.sha &&& ~~~ sha, pairs := d.rng.pairs &&& ~~~ pair },
                        nv := { d.nv with deadSha := d.nv.deadSha ||| sha, deadPair := d.nv.deadPair ||| pair } }
      let d := raise d svcPage 0
      let d := if popCount d.rng.sha < 2 || popCount d.rng.pairs < 3 then setCause d 6 else d
      if d.rng.sha == 0 || d.rng.pairs == 0 then enterNoService d 0xFF true else d

/-- What is left after earlier failures does not suffice (09 R270): at a power-up the block enters NO_SERVICE at once. -/
def rngLeft (d : Dev) : Dev :=
  let left := enoughSources fun k => (getSource d k).sstate != 4
  if d.rng.state == 1 && (!left || d.rng.sha == 0 || d.rng.pairs == 0) then enterNoService d 0xFF true else d

/-- A mismatch of an AES pair: the rerun decides the job, and a second mismatch within 2^20 ticks ends the pair (09 R280). -/
def pairMismatch (d : Dev) (m : PairMismatch) : Dev :=
  let p := m.pair.toNat
  let second := match tabFind d.rng.pairMiss p with
    | some t => decide (d.tick.toNat < t.toNat + 2 ^ 20)
    | none => false
  let d := { d with rng := { d.rng with pairMiss := tabPut d.rng.pairMiss p d.tick } }
  let d := if m.rerunBad then finishJob d m.job (outcome stFault 0) else d
  if second then
    let one : BitVec 4 := BitVec.ofNat 4 (1 <<< p)
    let d := { d with rng := { d.rng with pairs := d.rng.pairs &&& ~~~ one }, nv := { d.nv with deadPair := d.nv.deadPair ||| one } }
    let d := raise d svcPage 0
    let d := if popCount d.rng.pairs < 3 then setCause d 6 else d
    if d.rng.pairs == 0 then enterNoService d 0xFF true else d
  else d

/-! ### Instances of functions (09 R272, R275) -/

/-- An instance without a seed. -/
def instUnseeded (d : Dev) (i : Nat) : Dev := rngFeed (setInst d i { drbgReset with istate := 1 })

/-- A released function's instance is ABSENT. -/
def instAbsent (d : Dev) (i : Nat) : Dev := { d with rng := { d.rng with insts := tabDel d.rng.insts i } }

/-! ### Draws (09 R277, R279) -/

/-- Make the draw of a job when its instance can deliver, the pairs and the buffer have room and no prediction-resistance request of it is
outstanding. -/
def makeDraw (d : Dev) (id : JobId) : Dev :=
  match findJob d id with
  | none => d
  | some j =>
    let n := jobDraw j
    if (j.stage == .load || j.stage == .wait) && decide (0 < n) && j.draw.isNone && !prWaits d id
        && decide (d.rng.drawBytes + n ≤ 131072)
        && hasBlocks d n then
      match instGenerate d (jobInst j) n with
      | some (bs, d) =>
        let d := pmcFn { d with rng := { d.rng with drawBytes := d.rng.drawBytes + n, blocksTick := d.rng.blocksTick + reqBlocks n } } 0x70 j.e.fn.toNat 1
        rngFeed (modJob d id fun j => { j with draw := some bs })
      | none => d
    else d

/-- A request with prediction resistance is staged with each draw of a job that asks for it (09 R277); of DRBG_RESEED once no fence
holds it (03 R96). KEY_GENERATE and KEY_REPLACE_BEGIN draw a value that no wing slot makes in the keeper world. -/
def stagePr (d : Dev) (j : Job) : Dev :=
  let keeperDraw := (j.kind = .keyGenerate || j.kind = .keyReplaceBegin) && jobPart j = .keeper
  let wants := if j.kind = .drbgReseed then !fenceBlocked d j
    else j.e.pr && (decide (0 < jobDraw j) || j.kind = .randomBytes || keeperDraw)
  if wants && j.draw.isNone && !prWaits d j.id then
    rngFeed { d with rng := { d.rng with prs := d.rng.prs ++ [⟨jobInst j, j.id, d.rng.order⟩] } }
  else d

/-- A job's next draw is staged. -/
def stageDraw (d : Dev) (id : JobId) : Dev :=
  match findJob d id with
  | some j => stagePr d j
  | none => d

/-! ### The commands -/

/-- A source's alarm at its `n`-th sample from here (09 R267): the device isolates it, and a second one within 2^24 samples of the
last fails it. -/
def alarmAt (d : Dev) (i n : Nat) (proportion : Bool) : Dev × Bool :=
  let s := getSource d i
  let at_ := s.samples + BitVec.ofNat 64 n
  let again := match s.lastSample with
    | some m => decide (at_.toNat < m.toNat + 2 ^ 24)
    | none => false
  let d := evLog d 0x0801 (lineAt rngPage 0) noFn (leBytes 1 i ++ [if proportion then 1 else 0])
  (setSource d i { s with alarms := satInc s.alarms, lastAlarm := d.tick.setWidth 16, lastSample := some at_, samples := at_,
                          sstate := 3, health := healthReset }, again)

/-- Samples of a HEALTHY source go through both tests: the device, whether one fired, and whether that fails the source. -/
def sourceSamples (d : Dev) (i : Nat) (bits : List Bool) : Dev × Bool × Bool :=
  let s := getSource d i
  let r := healthRun i s.health 0 bits
  match r.2.2 with
  | some p => let a := alarmAt d i r.2.1 p; (a.1, true, a.2)
  | none => (setSource d i { s with samples := s.samples + BitVec.ofNat 64 r.2.1, health := r.1 }, false, false)

/-- Samples that RNG_RAWCTL routes to the buffer of 1,024; with the buffer full they are lost (DESIGN CHOICE, log entry 59). -/
def routeSamples (d : Dev) (bits : List Bool) : Dev :=
  { d with rng := { d.rng with rawBuf := (d.rng.rawBuf ++ bits).take 1024 } }

/-- A source whose samples go to the buffer of RNG_RAWDATA. -/
def routed (d : Dev) (i : Nat) : Bool := d.rng.rawEn && d.rng.rawSrc.toNat == i

/-- The conditioner takes a raw block (09 R268, R269): with 16 seeds held the block is discarded, or the oldest makes room for it
while a request with prediction resistance waits; units that differ give no seed. -/
def conditionBlock (d : Dev) (i block : Nat) (raw : List Byte) (agree : Bool) : Dev :=
  let full := decide (16 ≤ d.rng.seeds.length)
  if full && d.rng.prs.isEmpty then rngCheckService d
  else
    let held := if full then d.rng.seeds.drop 1 else d.rng.seeds
    if !agree then rngCheckService { d with rng := { d.rng with seeds := held, mismatch := satInc d.rng.mismatch } }
    else
      let seed : Seed := { bytes := seedOf i block raw, source := BitVec.ofNat 3 i, order := d.rng.order }
      rngFeed (rngCheckService { d with rng := { d.rng with seeds := held ++ [seed], order := d.rng.order + 1 } })

/-- A source completes a raw block: every sample of it passes both tests, or the first that fires is an alarm (09 R267, R268). -/
def rawBlock (d : Dev) (i : Nat) (raw : List Byte) (agree : Bool) : Dev :=
  let s := getSource d i
  if s.sstate != 2 || d.rng.state == 0 then d
  else
    let raw := fit 256 raw
    let r := sourceSamples d i (rawBits raw)
    if r.2.1 then (if r.2.2 then healthFailures r.1 [i] else r.1)
    else if routed d i then routeSamples r.1 (rawBits raw)
    else
      let d := setSource r.1 i { getSource r.1 i with blocks := s.blocks + 1, blockDone := true }
      if d.rng.state == 4 || d.rng.sha == 0 then d else conditionBlock d i s.blocks.toNat raw agree

/-- Whether samples of a start-up test fail it (09 R266). -/
def startupFails (i : Nat) (bits : List Bool) : Bool := (healthRun i healthReset 0 (bits.take 1024)).2.2.isSome

/-- Health tests fire on sources in one cycle (09 R266, R267, R284): each is judged as it stands before that cycle, and those that fail
fail together. -/
def alarmSources (d : Dev) (l : List SourceSamples) : Dev :=
  let r := l.foldl (fun (acc : Dev × List Nat) x =>
    let i := x.source.toNat
    let s := getSource d i
    if acc.2.contains i then acc
    else if s.sstate == 2 then
      let r := sourceSamples acc.1 i x.bits
      if r.2.1 then (r.1, if r.2.2 then acc.2 ++ [i] else acc.2) else acc
    else if (s.sstate == 1 || s.sstate == 3) && startupFails i x.bits then (acc.1, acc.2 ++ [i])
    else acc) (d, [])
  healthFailures r.1 r.2

/-- The known-answer tests of a STARTUP or a RESTART run before its first start-up test ends (09 R271, R285). -/
def rngKatOnce (d : Dev) (k : KatIn) : Dev :=
  if (d.rng.state == 1 || d.rng.state == 3) && !d.rng.katDone then
    let d := rngKat d k
    { d with rng := { d.rng with katDone := true } }
  else d

/-- A source's start-up test over 1,024 samples ends (09 R266, R267, R271, R283); over fewer it goes on. -/
def startupTest (d : Dev) (i : Nat) (bits : List Bool) (k : KatIn) : Dev :=
  let s := getSource d i
  if d.rng.state == 0 || (s.sstate != 1 && s.sstate != 3) then d
  else if startupFails i bits then healthFailures (rngKatOnce d k) [i]
  else if bits.length < 1024 then d
  else
    rngCheckService (setSource (rngKatOnce d k) i { s with sstate := 2, samples := s.samples + 1024, health := healthReset })

/-- The outcome of a job whose wait has met 64 consecutive ticks without service (09 R281). -/
def waitTimeout (d : Dev) (id : JobId) : Dev :=
  match findJob d id with
  | some j => if waitsRng j && decide (63 ≤ j.rngWait) && !d.rng.served then rngUnavailable d j else d
  | none => d

/-- A read of RNG_RAWDATA after new samples have arrived (09 R286): 32 samples, the oldest in bit 0. The samples go through the
source's tests as all its samples do. With fewer than 32 buffered the value is free (log entry 5). -/
def rawRead (d : Dev) (f : Fuse) (arrived : List Bool) : Word × Dev :=
  if lcState f != 1 || !d.rng.rawEn then (0, d)
  else
    let i := d.rng.rawSrc.toNat
    let buf := (d.rng.rawBuf ++ arrived).take 1024
    let tested (d : Dev) : Dev :=
      if (getSource d i).sstate != 2 then d
      else
        let r := sourceSamples d i arrived
        if r.2.2 then healthFailures r.1 [i] else r.1
    if 32 ≤ buf.length then
      (BitVec.ofNat 32 ((buf.take 32).foldr (fun b n => (if b then 1 else 0) + 2 * n) 0),
        tested { d with rng := { d.rng with rawBuf := buf.drop 32 } })
    else (Config.freeWord d.free, tested { d with rng := { d.rng with rawBuf := buf }, free := d.free + 1 })

end Sys2Proof.Machine
end

