-- ==== Sys2Proof/Machine/Keys.lean ====
section
/-! DEFINITION. The key hierarchy (08): seal-unit derivations, cellar records and their places, the key cache, loads, the nonce
unit's reservations (06 R188-R194), crates, and invalidation with its sweep. -/

namespace Sys2Proof.Machine

/-! ### The seal unit (08 R220-R222, R240) -/

def drsBytes (f : Fuse) : List Byte := beBytes 64 f.drs.toNat

/-- root = HMAC-SHA-384(BBK, "GJ-ROOT" || 0 || DRS). -/
def sealRoot (f : Fuse) (bbk : BitVec 256) : List Byte :=
  hmac 1 (beBytes 32 bbk.toNat) ([0x47, 0x4A, 0x2D, 0x52, 0x4F, 0x4F, 0x54, 0x00] ++ drsBytes f)

/-- S[4095], the top of a signer's lineage; the image kind of Ilmel is 2. -/
def lineageTop (root signer : List Byte) : List Byte :=
  hmac 1 root ([0x47, 0x4A, 0x2D, 0x4C, 0x49, 0x4E, 0x45, 0x41, 0x47, 0x45, 0x00] ++ fit 48 signer ++ [0x02])

/-- `n` applications of SHA-384. -/
def shaDown : Nat → List Byte → List Byte
  | 0, s => s
  | n + 1, s => shaDown n (sha384 s)

/-- S[v]: 4,095 - v applications below the top. -/
def lineageSecret (root signer : List Byte) (v : Nat) : List Byte := shaDown (4095 - v) (lineageTop root signer)

/-- KEK[v], an AES-256 key. -/
def cellarKek (s : List Byte) (v : Nat) : List Byte :=
  (hmac 1 s ([0x47, 0x4A, 0x2D, 0x43, 0x45, 0x4C, 0x4C, 0x41, 0x52, 0x00] ++ beBytes 2 v)).take 32

/-- Bytes 0 to 47 of a cellar record. -/
def recordHead (r : CellarRec) : List Byte :=
  let i := r.img
  leBytes 4 i.record.toNat ++ leBytes 4 i.key.toNat ++ leBytes 4 i.parent.toNat ++ leBytes 2 i.tenant.toNat
    ++ leBytes 2 i.version.toNat ++ [i.ktype, i.level] ++ leBytes 2 i.attr.toNat
    ++ [i.export_, BitVec.ofNat 8 (2 * i.origin.toNat + (if i.qinval then 1 else 0))] ++ leBytes 2 r.sealVer.toNat
    ++ leBytes 4 i.pfx.toNat ++ leBytes 8 i.stamp.toNat ++ zeros 12

/-- The record key: bound to bytes 0-47 and 120-215. -/
def recordKey (kek : List Byte) (r : CellarRec) : List Byte :=
  (hmac 1 kek ([0x47, 0x4A, 0x2D, 0x52, 0x45, 0x43, 0x4F, 0x52, 0x44, 0x00] ++ recordHead r ++ fit 96 r.img.point)).take 32

/-- The 256 bytes of a record as its place holds them. -/
def recordBytes (kek : List Byte) (r : CellarRec) : List Byte :=
  let value := if r.img.state = 4 then zeros 72 else kwWrap (recordKey kek r) (fit 64 r.img.value)
  let body := recordHead r ++ fit 72 value ++ fit 96 r.img.point ++ [r.img.state] ++ zeros 3 ++ leBytes 4 r.commit ++ zeros 28
  body ++ leBytes 4 (crc32 body).toNat

/-- The device attestation key from DRS alone, as the keeper world found DRS at its last start (08 R259). -/
def attestSecret (d : Dev) : Nat :=
  let h (b : Byte) : List Byte := hmac 1 (beBytes 64 d.keys.idDrs.toNat) [0x47, 0x4A, 0x2D, 0x49, 0x44, b]
  scalarOf p384 ((h 1 ++ h 2).take 56)

def attestPair (d : Dev) : List Byte × List Byte :=
  let s := attestSecret d
  (beBytes 48 s, pointBytes p384 (ecMul p384 s (ecBase p384)))

/-! ### Records -/

/-- The record of a key in a state: ACTIVE by sel 0, PENDING by sel 1, PREVIOUS by sel 2 (08 R236). -/
def recBySel (nv : Nv) (key : Word) (sel : Nat) : Option CellarRec :=
  let st : Byte := if sel = 0 then 2 else if sel = 1 then 1 else 3
  nv.cellar.find? fun r => r.img.key == key && r.img.state == st

def recByVersion (nv : Nv) (key : Word) (v : BitVec 16) : Option CellarRec :=
  nv.cellar.find? fun r => r.img.key == key && r.img.version == v

/-- The seal unit can unseal a record: its own secrets, the same signer, and a seal version at or below the running one
(08 R221, R222). -/
def readable (d : Dev) (r : CellarRec) : Bool :=
  d.keys.lineage == some r.bbk && d.keys.signer == r.signer && decide (r.sealVer.toNat ≤ d.keys.svn.toNat)

/-- A key number that has an ACTIVE or PREVIOUS record. -/
def keyLive (nv : Nv) (key : Word) : Bool :=
  nv.cellar.any fun r => r.img.key == key && (r.img.state == 2 || r.img.state == 3)

/-- The parent of a key number, by any of its records. -/
def parentOf (nv : Nv) (key : Word) : Word :=
  match nv.cellar.find? fun r => r.img.key == key with
  | some r => r.img.parent
  | none => 0

/-- The ancestors of a key, nearest first; levels end at 18 (08 R219). -/
def ancestors (nv : Nv) : Nat → Word → List Word
  | 0, _ => []
  | n + 1, key =>
    let p := parentOf nv key
    if p = 0 then [] else p :: ancestors nv n p

def ancestorsOf (nv : Nv) (key : Word) : List Word := ancestors nv 18 key

/-- Every ancestor of a key is ACTIVE or PREVIOUS (08 R244). -/
def lineLive (nv : Nv) (key : Word) : Bool := (ancestorsOf nv key).all (keyLive nv)

/-- A volatile key's source, and every ancestor of it, is still there (08 R245, R254). -/
def sourceLive (nv : Nv) (k : KeyVal) : Bool := k.source == 0 || (keyLive nv k.source && lineLive nv k.source)

/-! ### The key cache (08 R243, R245) -/

/-- A record as a key at a slot. -/
def keyOfRec (r : CellarRec) (slot : Nat) : KeyVal :=
  { slot := slot, ktype := r.img.ktype, attr := r.img.attr, export_ := r.img.export_, tenant := r.img.tenant, key := r.img.key,
    version := r.img.version, source := 0, origin := r.img.origin, value := r.img.value, point := r.img.point }

/-- The cached copy of a cellar key's version. -/
def cacheHit (d : Dev) (key : Word) (v : BitVec 16) : Option CacheEnt :=
  d.keys.cache.find? fun e => e.kind == .cellar && !e.dropped && e.k.key == key && e.k.version == v

def useOf (d : Dev) (slot : Nat) : BitVec 22 := tabGet d.keys.uses slot 0

/-- A job in a cut plan holds a slot (08 R243, R256). -/
def slotHeld (d : Dev) (slot : Nat) : Bool :=
  let here (k : Option KeyVal) : Bool := match k with | some k => k.slot == slot | none => false
  d.jobs.any fun j => (jobPlaced j || j.started) && (here j.key || here j.wkey || here j.ekey)

/-- Runs of slots that entries hold or that are reserved for jobs. -/
def takenRuns (d : Dev) : List (Nat × Nat) := (d.keys.cache.map fun e => (e.k.slot, e.slots)) ++ d.jobs.flatMap (·.resv)

/-- The lowest run of `n` slots of the region from `lo` to `hi` beside the runs taken (DESIGN CHOICE: log entry 8). -/
def runBeside (taken : List (Nat × Nat)) (lo hi n : Nat) : Option Nat :=
  let clash (c : Nat) (r : Nat × Nat) : Bool := decide (c < r.1 + r.2) && decide (r.1 < c + n)
  let cands := sortBy id (lo :: (taken.map fun r => r.1 + r.2).filter fun c => decide (lo ≤ c))
  cands.find? fun c => decide (c + n ≤ hi) && !(taken.any (clash c))

/-- The lowest run of `n` free slots of a region. -/
def freeRun (d : Dev) (lo hi n : Nat) : Option Nat := runBeside (takenRuns d) lo hi n

/-- Runs for the keys of a job, one for each size that is not 0, in the functions' part of the cache (05 R153). -/
def reserveRuns (d : Dev) (sizes : List Nat) : Option (List (Nat × Nat)) :=
  (sizes.filter fun n => n != 0).foldl (fun acc n =>
    match acc with
    | none => none
    | some rs => (runBeside (takenRuns d ++ rs) 16384 262144 n).map fun s => rs ++ [(s, n)]) (some [])

/-- Wipe an entry: its slots' use counts rise, pad store entries and the nonce account of the key go with it (06 R193, 07 R208,
08 R237). -/
def wipeEntry (d : Dev) (e : CacheEnt) : Dev :=
  let slots := (List.range e.slots).map fun i => e.k.slot + i
  let uses := slots.foldl (fun t s => tabPut t s (tabGet t s 0 + 1)) d.keys.uses
  { d with
    keys := { d.keys with cache := d.keys.cache.filter fun x => !(x.k.slot == e.k.slot && x.use == e.use), uses := uses },
    wings := { d.wings with pads := d.wings.pads.filter fun p => !slots.contains p.slot } }

/-- The reserved nonce values of a key that the cache holds no longer are abandoned (06 R193), once no started job of the evicted
copy waits for one (08 R256). -/
def nonceForget (d : Dev) (key : Word) (v : BitVec 16) : Dev :=
  let waits (j : Job) : Bool := j.claim && j.started && (match j.key with | some k => k.key == key && k.version == v | none => false)
  if (cacheHit d key v).isSome || d.jobs.any waits then d
  else
    match recByVersion d.nv key v with
    | some r => { d with keys := { d.keys with nonces := d.keys.nonces.filter fun n => n.record != r.img.record } }
    | none => d

/-- Wipe an entry, and abandon its key's reserved nonce values. -/
def wipeKey (d : Dev) (e : CacheEnt) : Dev :=
  let d := wipeEntry d e
  if e.kind == .cellar then nonceForget d e.k.key e.k.version else d

/-- Drop a cached entry: at once when no job holds it, else at the boundary at which the last holder passes (08 R256). -/
def dropEntry (d : Dev) (e : CacheEnt) : Dev :=
  if slotHeld d e.k.slot then
    let c := updateFirst (fun x => x.k.slot == e.k.slot && x.use == e.use) (fun x => { x with dropped := true }) d.keys.cache
    let d := { d with keys := { d.keys with cache := c } }
    if e.kind == .cellar then nonceForget d e.k.key e.k.version else d
  else wipeKey d e

/-- Slots charged to a function: its entries and its jobs' reservations (05 R153, 08 R243, R255). -/
def slotsUsed (d : Dev) (f : Nat) : Nat :=
  ((d.keys.cache.filter fun e => e.kind != .cellar && e.fn.toNat == f).map (·.slots)).sum
    + ((d.jobs.filter fun j => j.e.fn.toNat == f).map fun j => (j.resv.map (·.2)).sum).sum

/-- Slots of a function's quota that are free. -/
def quotaFree (d : Dev) (f : Nat) : Nat := (getFn d f).kcUnits * 256 - slotsUsed d f

/-- Anchors that a key needs: every ancestor of a cellar key; its source, with the source's ancestors, of a volatile key. -/
def anchorsOf (nv : Nv) (e : CacheEnt) : List Word :=
  if e.kind == .cellar then ancestorsOf nv e.k.key
  else if e.k.source = 0 then [] else e.k.source :: ancestorsOf nv e.k.source

/-- The anchor table: an anchor with no cached dependant is dropped (08 R245). -/
def anchorTable (d : Dev) : List Word := (d.keys.cache.flatMap (anchorsOf d.nv)).eraseDups

/-- Put a volatile key, a crate copy or an unwrapped crate key into a run of slots of its function's quota; its handle. -/
def placeVolatile (d : Dev) (f : FnNo) (kind : CacheKind) (k : KeyVal) (slot : Nat) : Dev × DWord × KeyVal :=
  let k := { k with slot := slot }
  let use := useOf d slot
  let e : CacheEnt := { k := k, kind := kind, fn := f, slots := typeSlots k.ktype, use := use, marked := false, dropped := false, lastUse := d.tick }
  ({ d with keys := { d.keys with cache := d.keys.cache ++ [e] } }, volatileHandle use f slot, k)

/-- A job's key goes into the first run that is reserved for the job (05 R153). -/
def placeReserved (d : Dev) (j : Job) (kind : CacheKind) (k : KeyVal) : Option (Dev × DWord × KeyVal) :=
  match j.resv with
  | [] => none
  | r :: rest => some (placeVolatile (modJob d j.id fun j => { j with resv := rest }) j.e.fn kind k r.1)

/-- Make room among the keeper's slots: the cellar key used longest ago that no cut plan holds goes (08 R243). -/
def keeperRoom : Nat → Dev → Nat → Option (Dev × Nat)
  | 0, _, _ => none
  | fuel + 1, d, n =>
    match freeRun d 0 16384 n with
    | some s => some (d, s)
    | none =>
      let c := sortBy (fun (e : CacheEnt) => e.lastUse.toNat)
        (d.keys.cache.filter fun e => e.kind == .cellar && !slotHeld d e.k.slot)
      match c with
      | [] => none
      | e :: _ => keeperRoom fuel (wipeKey d e) n

/-- Put a cellar key into the keeper's slots. -/
def placeCellar (d : Dev) (r : CellarRec) : Option (Dev × KeyVal) :=
  let n := typeSlots r.img.ktype
  match keeperRoom 16385 d n with
  | none => none
  | some (d, slot) =>
    let k := keyOfRec r slot
    let e : CacheEnt := { k := k, kind := .cellar, fn := 0, slots := n, use := useOf d slot, marked := false, dropped := false,
                          lastUse := d.tick }
    some ({ d with keys := { d.keys with cache := d.keys.cache ++ [e] } }, k)

/-- A key's use is noted for the order of eviction. -/
def touchKey (d : Dev) (slot : Nat) : Dev :=
  let c := updateFirst (fun x => x.k.slot == slot && !x.dropped) (fun x => { x with lastUse := d.tick }) d.keys.cache
  { d with keys := { d.keys with cache := c } }

/-! ### Resolving keys (04 R130, 08 R228, R236, R237, R244) -/

/-- The keeper world is present. -/
def keeperPresent (d : Dev) : Bool := d.acl.keeper == 2

/-- What a reference to a key finds. -/
inductive Found where
  | bad (st det : Byte)
  | cached (k : KeyVal) (r : Option CellarRec)
  | load (r : CellarRec)
deriving DecidableEq, Repr

/-- A key's records, INVALID ones too. -/
def recordsOf (nv : Nv) (key : Word) : List CellarRec := nv.cellar.filter fun r => r.img.key == key

/-- Look a record up for use (08 R222, R244, 15 R415): readable, its line live, cached or to be loaded. A descendant that the purge
has made INVALID stays ORPHANED (08 R254). -/
def findRecord (d : Dev) (r : Option CellarRec) (key : Word) : Found :=
  match r with
  | none =>
    if (recordsOf d.nv key).any (fun r => r.img.state == 4) && !keyLive d.nv key && !lineLive d.nv key then .bad stOrphaned 0
    else .bad stNotFound (if d.nv.lostKeys.any fun l => l.1 == key then 0x02 else 0x00)
  | some r =>
    match cacheHit d key r.img.version with
    | some e => if lineLive d.nv key then .cached e.k (some r) else .bad stOrphaned 0
    | none =>
      if !keeperPresent d then .bad stKeeper 0
      else if !readable d r then .bad stNotFound 0x01
      else if !lineLive d.nv key then .bad stOrphaned 0
      else .load r

/-- Resolve a handle for a function's job. -/
def resolveHandle (d : Dev) (f : FnNo) (kind : JobKind) (h : DWord) : Found :=
  match parseHandle h with
  | .bad => .bad stNotFound 0
  | .cellar sel tenant key =>
    let bound := (getFn d f.toNat).tenant
    let open_ := tenant == 0 && key == 1 && (kind = .keyPublic || kind = .attestKey)
    if !open_ && (tenant == 0 || bound == 0xFFFF || tenant != bound) then .bad stNotFound 0
    else
      let r := (recBySel d.nv key sel).filter fun r => r.img.tenant == tenant
      match r with
      | none =>
        if !keeperPresent d then .bad stKeeper 0
        else if (recordsOf d.nv key).any fun r => r.img.tenant != tenant then .bad stNotFound 0
        else findRecord d none key
      | some _ => findRecord d r key
  | .volatile use fn slot =>
    if fn != f then .bad stNotFound 0
    else
      match d.keys.cache.find? fun e => e.k.slot == slot && e.use == use && e.fn == fn && !e.dropped
          && (e.kind == .volatile || e.kind == .crateCopy) with
      | none => .bad stNotFound 0
      | some e => if e.marked || !sourceLive d.nv e.k then .bad stOrphaned 0 else .cached e.k none

/-- The selector of a handle, 0 for a volatile one. -/
def selOf (h : DWord) : Nat :=
  match parseHandle h with
  | .cellar sel _ _ => sel
  | _ => 0

/-- The wrapping key of a crate by its header: current or previous version (08 R248). -/
def crateKey (d : Dev) (f : FnNo) (h : CrateHdr) : Found :=
  let bound := (getFn d f.toNat).tenant
  if h.tenant != bound || bound == 0xFFFF || h.tenant == 0 then .bad stNotFound 0
  else
    let r := (recByVersion d.nv h.wkey h.wver).filter fun r => r.img.tenant == h.tenant && (r.img.state == 2 || r.img.state == 3)
    match r with
    | none => if keeperPresent d then findRecord d none h.wkey else .bad stKeeper 0
    | some _ => findRecord d r h.wkey

/-- The level of a cellar key by its current record. -/
def levelOf (d : Dev) (key : Word) : Nat :=
  match recBySel d.nv key 0 with
  | some r => r.img.level.toNat
  | none => 0

/-! ### Loads (08 R244) -/

/-- A load is found at a check: it waits for the seal unit. -/
def wantLoad (d : Dev) (f : FnNo) (r : CellarRec) : Dev :=
  if d.keys.loads.any fun l => l.1 == r.img.key && l.2.1 == r.img.version then d
  else { d with keys := { d.keys with loads := d.keys.loads ++ [(r.img.key, r.img.version, f, d.tick)] } }

/-! ### Nonce reservations (06 R189-R194) -/

/-- next_free of a record and twin index by the journal. -/
def nextFree (nv : Nv) (record : Word) (twin : Bool) : Nat :=
  ((nv.journal.filter fun j => j.record == record && j.twin == twin).map (·.nextFree)).foldl max 0

/-- The 16 bytes of a journal entry (06 R191). -/
def journalBytes (j : JournalEntry) : List Byte :=
  let body := leBytes 4 j.record.toNat ++ leBytes 4 j.nextFree ++ [if j.twin then 0x80 else 0, BitVec.ofNat 8 (j.nextFree / 2 ^ 32 % 2), 0, 0]
  body ++ leBytes 4 (crc32 body).toNat

/-- The entry that 16 bytes hold; none where the CRC-32, a reserved bit or next_free is wrong. -/
def journalEntry (b : List Byte) : Option JournalEntry :=
  let j : JournalEntry := { record := BitVec.ofNat 32 (leAt b 0 4), twin := decide (128 ≤ leAt b 8 1), nextFree := leAt b 4 4 + 2 ^ 32 * (leAt b 9 1 % 2) }
  if journalBytes j == b && decide (1 ≤ j.nextFree) && decide (j.nextFree ≤ 2 ^ 32) then some j else none

/-- Write a journal entry, next_free from 1 to 2^32: the entry with the highest next_free of a pair counts (06 R192). -/
def journalPut (nv : Nv) (j : JournalEntry) : Nv :=
  if nextFree nv j.record j.twin < j.nextFree && decide (j.nextFree ≤ 2 ^ 32) then
    { nv with journal := (nv.journal.filter fun x => !(x.record == j.record && x.twin == j.twin)) ++ [j] }
  else nv

/-- The account of a record under a twin index. -/
def nonceOf (d : Dev) (record : Word) (twin : Bool) : Option NonceSt :=
  d.keys.nonces.find? fun n => n.record == record && n.twin == twin

def setNonce (d : Dev) (n : NonceSt) : Dev :=
  { d with keys := { d.keys with nonces := (d.keys.nonces.filter fun x => !(x.record == n.record && x.twin == n.twin)) ++ [n] } }

/-- A key that is loaded again issues none of the values that its evicted copy had left (06 R193). -/
def nonceAbandon (d : Dev) (record : Word) : Dev :=
  { d with keys := { d.keys with nonces := d.keys.nonces.map fun n => if n.record == record then { n with next := n.limit } else n } }

/-- Start a reservation of the next block; with a twin its entry is sent as well (06 R194, 16 R434). -/
def reserveStart (d : Dev) (record : Word) (twin : Bool) : Dev :=
  let fresh : NonceSt := { record := record, twin := twin, next := 0, limit := 0, nextFree := nextFree d.nv record twin,
                           wait := none, ownDone := false, peerDone := false, cached := true }
  let n := (nonceOf d record twin).getD fresh
  let parked := d.twn.peerParked && twinBound d
  let sent := ((d.twn.parkSent.filter fun j => j.record == record && j.twin == twin).map (·.nextFree)).foldl max 0
  if n.wait.isSome || decide (2 ^ 32 ≤ n.nextFree) then setNonce d n
  else if parked && decide (sent + bits (guardVal d (regAddr twnPage 0x06C)) 0 16 ≤ n.nextFree) then setNonce d n
  else
    let d := setNonce d { n with wait := some n.nextFree, ownDone := false, peerDone := twinAlone d }
    if !twinAlone d && (d.twn.state == 4 || d.twn.state == 3) then twnSend d 0x30 0 0 [] [⟨record, twin, n.nextFree + 1⟩] else d

/-- A reservation commits when the own entries are written and the twin's acknowledgement has arrived. -/
def reserveSettle (d : Dev) (n : NonceSt) : Dev :=
  match n.wait with
  | none => setNonce d n
  | some j =>
    if n.ownDone && n.peerDone then
      let fresh := decide (n.limit ≤ n.next)
      let d := setNonce d { n with wait := none, nextFree := j + 1, limit := 65536 * (j + 1),
                                   next := if fresh then 65536 * j else n.next }
      { d with keys := { d.keys with njRes := satInc d.keys.njRes } }
    else setNonce d n

/-- The own journal entries of a reservation are written. -/
def reserveOwn (d : Dev) (record : Word) (twin : Bool) : Dev :=
  match nonceOf d record twin with
  | none => d
  | some n =>
    match n.wait with
    | none => d
    | some j => reserveSettle { d with nv := journalPut d.nv ⟨record, twin, j + 1⟩ } { n with ownDone := true }

/-- The twin acknowledges its copy of an entry. -/
def reservePeer (d : Dev) (j : JournalEntry) : Dev :=
  match nonceOf d j.record j.twin with
  | some n => if n.wait = some (j.nextFree - 1) then reserveSettle d { n with peerDone := true } else d
  | none => d

/-- The next counter value of a record: its account's, else the start of its next block. -/
def nonceNext (d : Dev) (record : Word) (twin : Bool) : Nat :=
  match nonceOf d record twin with
  | some n => if n.limit ≤ n.next then 65536 * n.nextFree else n.next
  | none => 65536 * nextFree d.nv record twin

/-- Record number behind a job's key. -/
def jobRecord (d : Dev) (j : Job) : Option Word :=
  match j.key with
  | some k => (recByVersion d.nv k.key k.version).map fun r => r.img.record
  | none => none

/-- A new claim on a record would reach 2^48 (06 R189). -/
def claimFails (d : Dev) (record : Word) : Bool :=
  let claims := (d.jobs.filter fun j => j.claim && jobRecord d j == some record).length
  decide (2 ^ 48 ≤ nonceNext d record d.nv.twin.index + claims)

/-- The values that cuts can still assign: inside the committed blocks. -/
def nonceLeft (d : Dev) (record : Word) : Nat :=
  match nonceOf d record d.nv.twin.index with
  | some n => n.limit - n.next
  | none => 0

/-- Assign the next value; at the midpoint of a block the next one is reserved (06 R190). -/
def nonceAssign (d : Dev) (record : Word) : Nat × Dev :=
  match nonceOf d record d.nv.twin.index with
  | none => (0, d)
  | some n =>
    let d := setNonce d { n with next := n.next + 1 }
    let d := { d with nv := { d.nv with twin := { d.nv.twin with fixed := true } } }
    (n.next, if (n.next + 1) % 65536 = 32768 then reserveStart d record n.twin else d)

/-- Load a record into the key cache: QUOTA with detail 0x03 for want of anchors (08 R245), 0x04 for want of a slot; its nonce account
starts with a new reservation (06 R190). -/
def loadRecord (d : Dev) (r : CellarRec) : Byte ⊕ (Dev × KeyVal) :=
  if 4096 < (anchorTable d ++ ancestorsOf d.nv r.img.key).eraseDups.length then .inl 0x03
  else
    match placeCellar (nonceAbandon d r.img.record) r with
    | none => .inl 0x04
    | some (d, k) => .inr (reserveStart d r.img.record d.nv.twin.index, k)

/-- The IV of a counter value (06 R188). -/
def gcmIv (twin : Bool) (pfx : BitVec 31) (v : Nat) : List Byte :=
  beBytes 4 ((if twin then 2 ^ 31 else 0) + pfx.toNat) ++ beBytes 8 v

/-! ### Writing the cellar (08 R239) -/

/-- Free places: a superseded image holds its place until it is freed. -/
def placesFree (nv : Nv) : Nat := 32768 - (nv.cellar.length + nv.old.length)

/-- The places of superseded images are freed (08 R239). -/
def freeOld (d : Dev) : Dev := { d with nv := { d.nv with old := [] } }

/-- Free places among the first that must hold one never written, or among all; of the places beyond, none is written. -/
def freeNear (nv : Nv) : List Nat :=
  let used := (nv.cellar ++ nv.old).map (·.place)
  (List.range (min 32768 (used.length + nv.wear.length + 1))).filter fun p => !used.contains p

/-- The free place with the lowest write count; of equal ones the lowest (15 R416). -/
def freePlace (nv : Nv) : Nat :=
  match freeNear nv with
  | [] => 0
  | p :: ps => ps.foldl (fun b p => if tabGet nv.wear p 0 < tabGet nv.wear b 0 then p else b) p

/-- A cellar place is written once more. -/
def wearPlace (nv : Nv) (p : Nat) : Nv := { nv with wear := tabPut nv.wear p (tabGet nv.wear p 0 + 1) }

/-- The wear manager's move of a tick: when the highest count of a place exceeds the lowest by 2^20, the record of the least-written
occupied place goes to the most-worn free place (15 R416, R419). -/
def wearMove (nv : Nv) : Nv :=
  let top := nv.wear.foldl (fun m e => max m e.2) 0
  let low := if nv.wear.length < 32768 then 0 else nv.wear.foldl (fun m e => min m e.2) top
  if top ≤ low + 2 ^ 20 then nv
  else
    let used := nv.cellar.map (·.place)
    match used, (nv.wear.map (·.1)).filter (fun p => !((nv.cellar ++ nv.old).any fun r => r.place == p)) with
    | u :: us, q :: qs =>
      let a := us.foldl (fun b p => if tabGet nv.wear p 0 < tabGet nv.wear b 0 then p else b) u
      let b := qs.foldl (fun b p => if tabGet nv.wear b 0 < tabGet nv.wear p 0 then p else b) q
      wearPlace { nv with cellar := nv.cellar.map fun r => if r.place == a then { r with place := b } else r } b
    | _, _ => nv

/-- A new record beyond 32,256, or beyond its tenant's quota: the detail of QUOTA. -/
def cellarFull (nv : Nv) (tenant : BitVec 16) (extra : Nat) : Option Byte :=
  if 32256 < nv.cellar.length + 1 + extra then some 0x01
  else
    match nv.tenants.find? fun t => t.no == tenant with
    | some t =>
      if t.quota.toNat < (nv.cellar.filter fun r => r.img.tenant == tenant).length + 1 + extra then some 0x02 else none
    | none => none

/-- Write an image under the running KEK: the new image stands whole in a free place before the old one's place is freed, which the
boundary of the tick does (log entry 74). -/
def putRecord (d : Dev) (i : RecImage) : Dev :=
  let nv := if (freeNear d.nv).isEmpty then { d.nv with old := [] } else d.nv
  let r : CellarRec := { img := i, place := freePlace nv, sealVer := d.keys.svn, signer := d.keys.signer,
                         bbk := d.keys.lineage.getD 0, commit := nv.commit + 1 }
  let same (x : CellarRec) : Bool := x.img.key == i.key && x.img.version == i.version
  let worn := wearPlace nv r.place
  let nv := { worn with cellar := (nv.cellar.filter fun x => !same x) ++ [r], old := nv.old ++ nv.cellar.filter same, commit := nv.commit + 1,
                        lostKeys := nv.lostKeys.filter fun l => !(l.1 == i.key && l.2 == i.version) }
  let d' := { d with nv := nv }
  if placesFree nv < 1024 && decide (1024 ≤ placesFree d.nv) then raise d' keyPage 2 else d'

/-- Move a record to another state; an INVALID record holds no value (08 R240). -/
def moveRecord (d : Dev) (r : CellarRec) (st : Byte) : Dev :=
  putRecord d { r.img with state := st, value := if st = 4 then [] else r.img.value }

/-- Every record of a key in one of some states moves. -/
def moveRecords (d : Dev) (key : Word) (from_ : List Byte) (st : Byte) : Dev :=
  (d.nv.cellar.filter fun r => r.img.key == key && from_.contains r.img.state).foldl (fun d r => moveRecord d r st) d

/-- Keys below a key. -/
def descendants (nv : Nv) (key : Word) : List Word :=
  ((nv.cellar.map (·.img.key)).filter fun k => (ancestorsOf nv k).contains key).eraseDups

/-- The effect of an invalidation with sel 0 at its boundary (08 R253, R254). -/
def invalidateKey (d : Dev) (key : Word) : Dev :=
  let desc := descendants d.nv key
  let d := moveRecords d key [1, 2, 3] 4
  let d := desc.foldl (fun d k => moveRecords d k [1] 4) d
  { d with keys := { d.keys with purge := (d.keys.purge ++ desc).eraseDups, sweeping := true } }

/-- The sweep of the tick that begins at an invalidation: entries of the key and of everything below it are marked (08 R255). -/
def sweepMark (d : Dev) : Dev :=
  let hit (e : CacheEnt) : Bool :=
    if e.kind == .cellar then !(keyLive d.nv e.k.key && lineLive d.nv e.k.key) else !sourceLive d.nv e.k
  { d with keys := { d.keys with cache := d.keys.cache.map fun e => if hit e then { e with marked := true } else e } }

/-- Entries that are dropped or marked are wiped once no job holds them (08 R255, R256). -/
def wipeDue (d : Dev) : Dev :=
  (d.keys.cache.filter fun e => (e.dropped || (e.marked && !d.keys.sweeping)) && !slotHeld d e.k.slot).foldl wipeKey d

/-- Ilmel writes descendants' records INVALID in the background, at most 64 a tick (08 R253). -/
def purgeStep (d : Dev) : Dev :=
  if keeperPresent d && d.pwr.pfLevel then
    let now := (d.nv.cellar.filter fun r => d.keys.purge.contains r.img.key && r.img.state != 4).take 64
    let d := now.foldl (fun d r => moveRecord d r 4) d
    { d with keys := { d.keys with purge := d.keys.purge.filter fun k => d.nv.cellar.any fun r => r.img.key == k && r.img.state != 4 } }
  else d

/-- Ilmel reseals records of older versions, at most 16 a tick (08 R223). -/
def resealStep (d : Dev) : Dev :=
  if d.keys.reseal && keeperPresent d && d.pwr.pfLevel then
    let old := d.nv.cellar.filter fun r => decide (r.sealVer.toNat < d.keys.svn.toNat) && readable d r
    let d := (old.take 16).foldl (fun d r => putRecord d r.img) d
    if old.length ≤ 16 then raise { d with keys := { d.keys with reseal := false } } keyPage 1 else d
  else d

/-! ### Crates (08 R246-R248, 06 R187) -/

/-- Wrap a key under another. -/
def makeCrate (kwp : Bool) (k w : KeyVal) : List Byte :=
  let h := crateBytes { mode := if kwp then 2 else 1, length := 40 + cratePlain k.ktype, ktype := k.ktype, export_ := k.export_,
                        attr := k.attr, tenant := k.tenant, wver := w.version, wkey := w.key, skey := k.key,
                        sver := if k.key = 0 then 0 else k.version }
  let pt := h ++ fit (typeValue k.ktype) k.value ++ (if isPairType k.ktype then fit (typePoint k.ktype) k.point else [])
  h ++ (if kwp then kwpWrap w.value pt else kwWrap w.value pt)

/-- The key that a crate holds; none when its ICV or its header fails (08 R248). -/
def openCrate (c : List Byte) (w : KeyVal) : Option KeyVal :=
  match parseCrate c with
  | none => none
  | some h =>
    match (if h.mode = 2 then kwpUnwrap w.value (c.drop 32) else kwUnwrap w.value (c.drop 32)) with
    | none => none
    | some pt =>
      if pt.take 32 = c.take 32 then
        some { slot := 0, ktype := h.ktype, attr := h.attr, export_ := h.export_, tenant := h.tenant, key := 0, version := 0,
               source := w.key, origin := 2, value := slice pt 32 (typeValue h.ktype),
               point := if isPairType h.ktype then slice pt (32 + typeValue h.ktype) (typePoint h.ktype) else [] }
      else none

/-- Semiblocks of a crate's plaintext: six checked blocks each (04 R109). -/
def crateCost (t : Byte) : Nat := 6 * ceilDiv (cratePlain t) 8

end Sys2Proof.Machine
end

