-- ==== Sys2Proof/Machine/Engines.lean ====
section
/-! DEFINITION. What the engines compute for a job: the public-key programs (05), the symmetric modes (06), the hash and
derivation jobs (07), and the blocks that KEY_INFO and the attestation jobs write (08 R258-R261). -/

namespace Sys2Proof.Machine

def keyBytes (j : Job) : List Byte := (j.key.map (·.value)).getD []
def keyPoint (j : Job) : List Byte := (j.key.map (·.point)).getD []
def drawBytesOf (j : Job) : List Byte := j.draw.getD []

/-! ### Public-key jobs (05) -/

def jobCurve (j : Job) : Curve :=
  match j.kind with
  | .ecdsaSignP256 | .ecdsaVerifyP256 | .ecdsaVerifyP256Key | .ecdhP256 | .keygenP256 => p256
  | .keyGenerate | .keyReplaceBegin | .keyReplaceCommit => if jobKeyType j = 0x10 then p256 else p384
  | _ => p384

/-- The signature of a signing part (05 R143, R148, R149). -/
def signJob (j : Job) (digest : List Byte) : PkOut :=
  ecdsaSignDraw (jobCurve j) (keyBytes j) (fit (jobCurve j).len digest) (drawBytesOf j)

/-- What a PK.F or PK.H part computes: a verification's verdict, an ECDH value, or d and Q of a new pair. -/
def pkJob (j : Job) : PkOut :=
  let c := jobCurve j
  let n := c.len
  let op (i : Nat) : List Byte := opAt j.e (i * n) n
  match j.kind with
  | .ecdsaVerifyP384 | .ecdsaVerifyP256 => ecdsaVerify c (op 0) (op 1) (op 2) (op 3 ++ op 4)
  | .ecdsaVerifyP384Key | .ecdsaVerifyP256Key => ecdsaVerify c (op 0) (op 1) (op 2) (keyPoint j)
  | .ecdhP384 | .ecdhP256 => ecdhDraw c (keyBytes j) (op 0 ++ op 1) (mulDraw c 0 (drawBytesOf j)).halfA
  | .rsaVerifyPkcs1v15 | .rsaVerifyPss =>
    let k := paramBits j.e 0 16
    let input := stagedPrefix j
    rsaVerify (j.kind = .rsaVerifyPss) (paramBits j.e 16 2 - 1) (paramBits j.e 24 8) k (beNat (opAt j.e 0 4))
      (slice input 0 k) (slice input k k) (opAt j.e 4 64)
  | .debugAuthorise =>
    if ecdsaVerify p384 j.sig (opAt j.e 32 48) (opAt j.e 80 48) Config.debugKey == .ok [] then .ok [] else .bad stAuth 0x05
  | _ => let r := ecKeygen c (drawBytesOf j); .ok (r.1 ++ r.2)

/-! ### Symmetric jobs (06) -/

def isMeter (k : JobKind) : Bool := k = .meterGcmEncrypt || k = .meterGcmDecrypt

/-- The AES key of a job's AES part. -/
def aesKey (j : Job) : List Byte := if isMeter j.kind then j.meterKey else keyBytes j

/-- Where the payload starts in the read buffer, and the bytes of the output that stand before it. -/
def payOff (j : Job) : Nat :=
  let a := paramBits j.e 0 24
  match j.kind with
  | .gcmEncrypt | .meterGcmEncrypt | .ccmEncrypt | .ccmDecrypt => a
  | .gcmDecrypt | .meterGcmDecrypt => 12 + a
  | _ => 0

def outOff (j : Job) : Nat :=
  match j.kind with
  | .gcmEncrypt | .meterGcmEncrypt => 12
  | _ => 0

/-- The IV of a GCM job: the device's own on encryption, the input's first 12 bytes on decryption. -/
def gcmJobIv (j : Job) : List Byte :=
  match j.kind with
  | .gcmEncrypt | .meterGcmEncrypt => fit 12 (j.iv.getD [])
  | _ => slice (stagedPrefix j) 0 12

def gcmAad (j : Job) : List Byte :=
  slice (stagedPrefix j) (payOff j - paramBits j.e 0 24) (paramBits j.e 0 24)

def ccmNonce (j : Job) : List Byte := opAt j.e 2 (opLe j.e 0 1)

/-- The transform of the first bytes of a payload. -/
def symBody (j : Job) (priv : Bool) (p : List Byte) : List Byte :=
  let k := aesKey j
  match j.kind with
  | .gcmEncrypt | .gcmDecrypt | .meterGcmEncrypt | .meterGcmDecrypt => gcmCrypt k (gcmJobIv j) p
  | .ccmEncrypt | .ccmDecrypt => ccmCrypt k (ccmNonce j) p
  | .ctrCrypt => ctrMode k 16 (opAt j.e 0 16) p
  | .cbcEncrypt =>
    let n := 16 - p.length % 16
    cbcEnc k (opAt j.e 0 16) (if cbcPads priv j.e && p.length = (payload j.kind j.e).getD 0 then
      p ++ List.replicate n (BitVec.ofNat 8 n) else p)
  | .cbcDecrypt => cbcDec k (opAt j.e 0 16) p
  | _ => []

/-- Output bytes in place once the first `n` payload bytes have been released. -/
def symSoFar (j : Job) (priv : Bool) (n : Nat) : List Byte :=
  let head := if outOff j = 12 then gcmJobIv j else []
  head ++ symBody j priv (slice (stagedPrefix j) (payOff j) n)

/-- The outcome at the end of a symmetric job: status and its whole output. -/
def symFinal (j : Job) (priv : Bool) : OutcomeRec :=
  let p := (payload j.kind j.e).getD 0
  let inp := stagedPrefix j
  let pay := slice inp (payOff j) p
  let out := symSoFar j priv p
  let k := aesKey j
  let auth (ok : Bool) (o : List Byte) : OutcomeRec :=
    if ok then outcomeOut o else { outcome stAuth 0 with zero := true }
  match j.kind with
  | .gcmEncrypt | .meterGcmEncrypt => outcomeOut (out ++ gcmTag k (gcmJobIv j) (gcmAad j) (out.drop 12))
  | .gcmDecrypt | .meterGcmDecrypt => auth (gcmTag k (gcmJobIv j) (gcmAad j) pay == slice inp (payOff j + p) 16) out
  | .ccmEncrypt =>
    let t := opLe j.e 1 1
    outcomeOut (out ++ ccmTag k (ccmNonce j) (gcmAad j) pay t)
  | .ccmDecrypt =>
    let t := opLe j.e 1 1
    auth (ccmTag k (ccmNonce j) (gcmAad j) out t == slice inp (payOff j + p) t) out
  | .cbcDecrypt =>
    if cbcPads priv j.e then
      let n := (out.getLastD 0).toNat
      let ok := decide (1 ≤ n) && decide (n ≤ 16) && (out.drop (out.length - n)).all fun b => b.toNat == n
      auth ok (out.take (out.length - n))
    else outcomeOut out
  | .cmacGenerate => outcomeOut ((cmac k pay).take (paramBits j.e 0 5))
  | .cmacVerify =>
    let n := paramBits j.e 0 5
    if (cmac k pay).take n == opAt j.e 0 n then outcome stOk 0 else outcome stAuth 0
  | _ => outcomeOut out

/-! ### Hash and derivation jobs (07) -/

def hashFinal (j : Job) : OutcomeRec :=
  let m := stagedPrefix j
  let h := paramBits j.e 0 2 - 1
  match j.kind with
  | .sha256 => outcomeOut (sha256 m)
  | .sha384 => outcomeOut (sha384 m)
  | .sha512 => outcomeOut (sha512 m)
  | .imageDigest => outcomeOut (imageDigest (opAt j.e 0 8) m)
  | .hmacGenerate => outcomeOut (hmac h (keyBytes j) m)
  | _ =>
    let n := paramBits j.e 8 8
    if (hmac h (keyBytes j) m).take n == opAt j.e 0 n then outcome stOk 0 else outcome stAuth 0

/-- Label, context and length of a job's derivation: KDF_DERIVE's own, or those of a meter key (07 R214), whose code 1 gives 16 bytes
and code 2 gives 32. -/
def deriveSpec (j : Job) : List Byte × List Byte × Nat :=
  if j.kind = .kdfDerive then
    let l := opLe j.e 4 2
    (opAt j.e 8 l, opAt j.e (8 + l) (opLe j.e 6 2), typeValue (BitVec.ofNat 8 (opLe j.e 0 1)))
  else ([0x4D, 0x45, 0x54, 0x45, 0x52, 0x4B], opAt j.e 0 18, if opLe j.e 16 1 = 1 then 16 else 32)

/-- The value that a derivation makes. -/
def deriveValue (j : Job) : List Byte :=
  let x := deriveSpec j
  kdf (keyBytes j) x.1 x.2.1 x.2.2

/-! ### Volatile keys (04 R115, 08 R245, R258) -/

/-- The key number that a volatile key made from a job's key records as its source. -/
def sourceOf (j : Job) : Word := (j.key.map (·.key)).getD 0

/-- A volatile key of a job's function. -/
def volatileKey (d : Dev) (j : Job) (t : Byte) (attr : BitVec 16) (origin : BitVec 2) (source : Word) (value point : List Byte) :
    KeyVal :=
  { slot := 0, ktype := t, attr := attr, export_ := 0, tenant := (getFn d j.e.fn.toNat).tenant, key := 0, version := 0,
    source := source, origin := origin, value := value, point := point }

/-! ### The attribute block and attestation statements (08 R258-R261) -/

/-- KEY_INFO's 64 bytes: of a record, or of a volatile key. -/
def infoBlock (d : Dev) (h : DWord) (k : KeyVal) (r : Option CellarRec) : List Byte :=
  match r with
  | some r =>
    let i := r.img
    let cachedBit := if (cacheHit d i.key i.version).isSome then 1 else 0
    let pendBit := if (recBySel d.nv i.key 1).isSome then 2 else 0
    let prevBit := if (recBySel d.nv i.key 2).isSome then 4 else 0
    let counted := isAesType i.ktype || (isSecretType i.ktype && i.attr.getLsbD atDerive)
    leBytes 8 h.toNat ++ leBytes 4 i.key.toNat ++ leBytes 2 i.version.toNat ++ [i.ktype, i.export_] ++ leBytes 2 i.attr.toNat
      ++ [i.level, i.state] ++ leBytes 2 i.tenant.toNat
      ++ leBytes 1 (2 * i.origin.toNat + (if i.qinval then 1 else 0)) ++ leBytes 1 (cachedBit + pendBit + prevBit)
      ++ leBytes 4 i.parent.toNat ++ leBytes 4 i.pfx.toNat
      ++ leBytes 8 (if counted then nonceNext d i.record d.nv.twin.index else 0) ++ leBytes 8 i.stamp.toNat
      ++ leBytes 2 r.sealVer.toNat ++ zeros 14
  | none =>
    leBytes 8 h.toNat ++ zeros 6 ++ [k.ktype, k.export_] ++ leBytes 2 k.attr.toNat ++ [0, 0x05] ++ leBytes 2 k.tenant.toNat
      ++ leBytes 1 (2 * k.origin.toNat) ++ [1] ++ leBytes 4 k.source.toNat ++ zeros 36

/-- ATTEST_KEY's 256-byte statement. -/
def attestKeyBlock (d : Dev) (k : KeyVal) (r : Option CellarRec) (nonce : List Byte) : List Byte :=
  let isEc := isPairType k.ktype || isPubType k.ktype
  let body := if isEc then fit 96 k.point
    else fit 96 ((hmac 1 k.value ([0x47, 0x4A, 0x2D, 0x4B, 0x43, 0x56] ++ nonce)).take 16)
  let head : List Byte := [0x47, 0x4A, 0x4B, 0x41, 0x01, k.ktype, k.export_]
  let fields : List Byte :=
    match r with
    | some r =>
      let i := r.img
      leBytes 1 (2 * i.origin.toNat + (if i.qinval then 1 else 0)) ++ leBytes 2 i.attr.toNat ++ [i.level, i.state]
        ++ leBytes 2 i.tenant.toNat ++ leBytes 2 i.version.toNat ++ leBytes 4 i.key.toNat ++ leBytes 4 i.parent.toNat
        ++ leBytes 8 i.stamp.toNat ++ leBytes 2 r.sealVer.toNat
    | none =>
      leBytes 1 (2 * k.origin.toNat) ++ leBytes 2 k.attr.toNat ++ [0, 0x05] ++ leBytes 2 k.tenant.toNat ++ zeros 6
        ++ leBytes 4 k.source.toNat ++ zeros 10
  head ++ fields ++ zeros 6 ++ sha384 (attestPair d).2 ++ fit 32 nonce ++ body ++ leBytes 8 d.nv.evNext.toNat ++ zeros 32

/-- ATTEST_DEVICE's 432-byte statement over six measurement digests. -/
def attestDeviceBlock (d : Dev) (blocks : List (List Byte)) (nonce : List Byte) : List Byte :=
  [0x47, 0x4A, 0x44, 0x41, 0x01, 0x06, 0, 0] ++ sha384 (attestPair d).2 ++ fit 32 nonce ++ leBytes 8 d.nv.evNext.toNat
    ++ (blocks.zipIdx.flatMap fun b => BitVec.ofNat 8 (b.2 + 1) :: zeros 7 ++ fit 48 b.1)

end Sys2Proof.Machine
end

