-- ==== Sys2Proof/Machine/Mirror.lean ====
section
/-! DEFINITION. Mirrored changes (16 R431-R433): the objects that both devices of a pair hold, how a change of the hierarchy is
applied, and how its originator sends or commits it. -/

namespace Sys2Proof.Machine

/-! ### The custody record (11 R326) -/

/-- The key of the custody record's HMAC, from DRS alone. -/
def custodyKey (f : Fuse) : List Byte := hmac 1 (drsBytes f) [0x47, 0x4A, 0x2D, 0x43, 0x55, 0x53, 0x54, 0x4F, 0x44, 0x59]

/-- The 128 bytes of a card entry; zeros where the group has no such index. -/
def cardEntryBytes (c : Custody) (i : Nat) : List Byte :=
  match c.cards.find? fun e => e.index = i with
  | some e => fit 16 e.cardId ++ leBytes 1 i ++ zeros 15 ++ fit 64 e.pub ++ fit 16 e.check ++ zeros 16
  | none => zeros 128

/-- The 4 KiB of a custody record as a copy in MRAM holds them; State holds the record's fields. -/
def custodyBytes (f : Fuse) (c : Custody) : List Byte :=
  let body := [0x47, 0x4A, 0x51, 0x47, 0x01, BitVec.ofNat 8 c.m, BitVec.ofNat 8 c.n, 0] ++ leBytes 4 c.version.toNat ++ leBytes 4 c.commit.toNat
    ++ fit 48 c.digest ++ ((List.range 16).flatMap fun i => cardEntryBytes c (i + 1)) ++ zeros 1936
  body ++ hmac 1 (custodyKey f) body

/-- The newer copy that MRAM holds. -/
def custodyOf (nv : Nv) : Option Custody :=
  match nv.custodyA, nv.custodyB with
  | some a, some b => some (if b.commit.toNat < a.commit.toNat then a else b)
  | some a, none => some a
  | none, b => b

/-- Write a custody record over the older copy. -/
def putCustody (nv : Nv) (c : Custody) : Nv :=
  let newest := match custodyOf nv with | some x => x.commit.toNat | none => 0
  let c := { c with commit := BitVec.ofNat 32 (newest + 1) }
  match nv.custodyA with
  | some a => if a.commit.toNat = newest then { nv with custodyB := some c } else { nv with custodyA := some c }
  | none => { nv with custodyA := some c }

/-! ### Mirrored objects (16 R432) -/

/-- A record that is mirrored: export bit twin, or the plan signer key. -/
def twinRecord (r : RecImage) : Bool := r.export_.getLsbD 1 || r.key == 3

def twinObj : MirrorObj → Bool
  | .record r => twinRecord r
  | _ => true

def mirrorKey : MirrorObj → MirrorKey
  | .record r => .record r.key r.version
  | .tenant t => .tenant t.no
  | .tenantDelete n => .tenant n
  | .planSeq _ => .planSeq
  | .custody _ => .custody

/-- Note the mirror sequence of applied objects. -/
def markObjs (d : Dev) (objs : List MirrorObj) (m : DWord) : Dev :=
  let tw := d.nv.twin
  let keys := (objs.filter twinObj).map mirrorKey
  let marks := (tw.marks.filter fun x => !keys.contains x.1) ++ keys.map fun k => (k, m)
  { d with nv := { d.nv with twin := { tw with marks := marks } } }

/-- TWN_MSEQ is the last mirror sequence applied. -/
def raiseMseq (d : Dev) (m : DWord) : Dev :=
  let tw := d.nv.twin
  { d with nv := { d.nv with twin := { tw with mSeq := if tw.mSeq.toNat < m.toNat then m else tw.mSeq } } }

def noteMirror (d : Dev) (objs : List MirrorObj) (m : DWord) : Dev := raiseMseq (markObjs d objs m) m

/-- The next mirror sequence number that this device can assign. -/
def nextMirror (d : Dev) : DWord :=
  let tw := d.nv.twin
  BitVec.ofNat 64 (((tw.outbox ++ tw.doubt).map (·.m.toNat)).foldl max tw.mSeq.toNat + 1)

/-- Unbind every function of a tenant (08 R230). -/
def unbindTenant (d : Dev) (no : BitVec 16) : Dev :=
  { d with fns := d.fns.map fun (p : Nat × FnSt) => if p.2.tenant == no then (p.1, { p.2 with tenant := 0xFFFF }) else p }

/-- Apply one object; record and key numbers that it uses are never used again (08 R227, R240). -/
def applyObj (d : Dev) (o : MirrorObj) : Dev :=
  match o with
  | .record r =>
    let d := putRecord d r
    let nv := d.nv
    { d with nv := { nv with
      nextRecord := if nv.nextRecord.toNat ≤ r.record.toNat then r.record + 1 else nv.nextRecord,
      nextKey := if nv.nextKey.toNat ≤ r.key.toNat then r.key + 1 else nv.nextKey } }
  | .tenant t => { d with nv := { d.nv with tenants := (d.nv.tenants.filter fun x => x.no != t.no) ++ [t] } }
  | .tenantDelete n => unbindTenant { d with nv := { d.nv with tenants := d.nv.tenants.filter fun x => x.no != n } } n
  | .planSeq q => { d with nv := { d.nv with planSeq := q } }
  | .custody c => { d with nv := putCustody d.nv c }

/-- After records changed: copies of INVALID versions go, the pads of versions that are not ACTIVE go (07 R208), and what lies below a key without a live record is orphaned; its records
follow in the background (08 R251, R253, R255). -/
def settleKey (d : Dev) (key : Word) : Dev :=
  let bad (e : CacheEnt) : Bool := e.kind == .cellar && e.k.key == key &&
    (match recByVersion d.nv key e.k.version with | some r => r.img.state == 4 | none => false)
  if keyLive d.nv key then
    let stale (e : CacheEnt) : Bool := match recByVersion d.nv key e.k.version with | some r => r.img.state != 2 | none => true
    let slots := (d.keys.cache.filter fun e => e.kind == .cellar && e.k.key == key && stale e).map (·.k.slot)
    let d := { d with wings := { d.wings with pads := d.wings.pads.filter fun p => !slots.contains p.slot } }
    (d.keys.cache.filter bad).foldl dropEntry d
  else sweepMark { d with keys := { d.keys with purge := (d.keys.purge ++ descendants d.nv key).eraseDups, sweeping := true } }

/-- Apply a list of objects as one commit. -/
def applyObjs (d : Dev) (objs : List MirrorObj) : Dev :=
  let d := objs.foldl applyObj d
  let changed := (objs.filterMap fun o => match o with
    | .record r => if r.state == 3 || r.state == 4 then some r.key else none
    | _ => none).eraseDups
  changed.foldl settleKey d

/-! ### The originator (16 R433) -/

/-- The objects in which a new state of the hierarchy differs from the present one; `dels` are the tenants that were deleted on the
way, before any that carry their numbers now. -/
def changedObjs (old new : Dev) (dels : List (BitVec 16)) : List MirrorObj :=
  let recs := (new.nv.cellar.filter fun r => !old.nv.cellar.contains r).map fun r => MirrorObj.record r.img
  let tens := (new.nv.tenants.filter fun t => !old.nv.tenants.contains t || dels.contains t.no).map MirrorObj.tenant
  let seq := if new.nv.planSeq == old.nv.planSeq then [] else [MirrorObj.planSeq new.nv.planSeq]
  recs ++ dels.map MirrorObj.tenantDelete ++ tens ++ seq

/-- Put a change into the outbox: what the peer gets and what this device commits when the peer has acknowledged. -/
def putChange (d : Dev) (objs own : List MirrorObj) (job : JobId) : Dev × DWord :=
  let id := d.twn.newId
  let c : TwinChange := { id := id, m := 0, objs := objs, old := own, sent := false, done := false, undo := false, job := job }
  ({ d with
    twn := { d.twn with newId := id + 1 }
    nv := { d.nv with twin := { d.nv.twin with outbox := d.nv.twin.outbox ++ [c] } } }, id)

/-- The entries of a plan, as many as it counts (08 R226). -/
def planEntries : Nat → List Byte → List (List Byte)
  | 0, _ => []
  | n + 1, b => let k := leAt b 2 2; b.take k :: planEntries n (b.drop k)

def hasTenant (d : Dev) (no : Nat) : Bool := d.nv.tenants.any fun t => t.no.toNat == no

/-- Why a BIND is refused: no such tenant, or the function works for another (08 R229). -/
def bindBad (d : Dev) (e : List Byte) : Option Nat :=
  let no := leAt e 6 2
  let x := getFn d (leAt e 4 1)
  if no != 0xFFFF && !hasTenant d no then some 0x04
  else if x.state != 0 && x.tenant != 0xFFFF && x.tenant.toNat != no then some 0x09
  else none

/-- A BIND takes effect (08 R230). -/
def bindEntry (d : Dev) (e : List Byte) : Dev := modFn d (leAt e 4 1) fun x => { x with tenant := BitVec.ofNat 16 (leAt e 6 2) }

/-- The BIND entries of a plan that no later TENANT_DELETE of it undoes (08 R230). -/
def standingBinds : List (List Byte) → List (List Byte)
  | [] => []
  | e :: r =>
    if leAt e 0 1 = 3 && !(r.any fun x => leAt x 0 1 = 2 && leAt x 4 2 = leAt e 6 2) then e :: standingBinds r else standingBinds r

/-- The bindings of a job that loads a plan, at its commit. -/
def jobBinds (d : Dev) (id : JobId) : Dev :=
  match findJob d id with
  | none => d
  | some j =>
    if j.kind != .tenantPlanLoad then d
    else
      let b := stagedPrefix j
      let es := planEntries (leAt b 6 2) (slice b 64 (b.length - 160))
      (standingBinds es).foldl (fun d e => if (bindBad d e).isNone then bindEntry d e else d) d

/-- Commit a job's change, or hand it to the twin first. `objs` is the whole change, `own` what is committed now or at the
acknowledgement (a change that takes effect at the boundary commits nothing here). -/
def mirrorJob (d : Dev) (id : JobId) (objs own : List MirrorObj) (o : OutcomeRec) : Dev :=
  let shared := objs.filter twinObj
  if shared.isEmpty then finishJob (jobBinds (applyObjs d own) id) id o
  else if twinAlone d then
    let d := jobBinds (applyObjs d own) id
    finishJob (if d.nv.twin.grant.isSome then noteMirror d shared (nextMirror d) else d) id o
  else
    let r := putChange d shared own id
    modJob r.1 id fun j => { j with stage := .twin, res := o, change := r.2 }

end Sys2Proof.Machine
end

