-- ==== Sys2Proof/Machine/Jobs.lean ====
section
/-! DEFINITION. Staging a job: malformations and the halt (02 R65, 03 R102, R103), the checks before placement in their order
(04 R111, R133), keys and crates (04 R123, R130, R131), quorum (11 R331, R332), and the jobs that need no wing (04 R108). -/

namespace Sys2Proof.Machine

/-! ### Quorum sessions at a check (11 R327-R332) -/

/-- A SATISFIED session of a function covers an operation inside its use window. -/
def quorumCovers (d : Dev) (fn : FnNo) (code : Nat) (digest : List Byte) : Bool :=
  match d.crd.session with
  | some s => s.state == 1 && s.fn == fn && s.code == BitVec.ofNat 16 code && s.digest == digest
      && decide (d.bat.rtc.toNat < s.windowEnd)
  | none => false

/-- Consume the session, whatever the job's later outcome. -/
def quorumTake (d : Dev) : Dev :=
  match d.crd.session with
  | some s => { d with crd := { d.crd with session := some { s with state := 2 } } }
  | none => d

/-- The operation code and digest that a job's check asks for; none for a job that needs no quorum there. -/
def quorumNeed (d : Dev) (fuse : Fuse) (j : Job) (qinval : Bool) : Option (Nat × List Byte) :=
  match j.kind with
  | .keyInvalidate =>
    if selOf j.e.keyref = 0 && qinval then some (2, sha384 (leBytes 8 j.e.keyref.toNat)) else none
  | .lifecycleTransition =>
    if (custodyOf d.nv).isNone || lcState fuse == 0 then none else some (3, sha384 (opAt j.e 0 64))
  | .tamperLockClear => some (4, sha384 [])
  | _ => none

/-! ### Halts (02 R65, 03 R103) -/

/-- A job has windows, slots or a delivery in the plan of this tick or the next: its result passes the collector with the last. -/
def inPlans (d : Dev) (j : Job) : Bool :=
  ((d.wings.planCur ++ d.wings.planNext).any fun p => p.job == j.id && p.kind != .empty)
    || (j.kind = .randomBytes && (j.stage == .planned || j.stage == .running))

/-- A job's committed verification goes: before the cut it is withdrawn, after it the slot runs empty (04 R129). -/
def emptyVerify (d : Dev) (id : JobId) : Dev :=
  modJob { d with wings := { d.wings with planNext := d.wings.planNext.map fun (p : Placed) =>
      if p.job == id && p.kind == .verify then { p with kind := .empty } else p } } id fun j => { j with vCommit := none }

/-- A life-cycle transition past its commit belongs to the job (12 R343). -/
def movesLife (d : Dev) (id : JobId) : Bool := match d.lcs.trans with | some t => t.job == some id | none => false

/-- A KPR job has committed its effect: a transition from its first pulse on, and a job with its OK, but for those whose effect comes
with the boundary at which it passes. -/
def committed (d : Dev) (j : Job) : Bool :=
  movesLife d j.id || (j.stage == .done && isKpr j.kind && j.res.status == stOk && j.kind != .keyReplaceCommit
    && j.kind != .shareBundleLoad && j.kind != .debugAuthorise && j.kind != .tamperLockClear)

/-- A job meets the halt of its function: what runs is discarded at its boundary, what a KPR job has committed stays (02 R65). -/
def haltJob (d : Dev) (j : Job) : Dev :=
  if committed d j then d
  else
    let d := emptyVerify d j.id
    if !jobEnded j && inPlans d j then modJob d j.id fun j => { j with halted := true }
    else modJob d j.id fun j => { j with stage := .done, res := outcome stHalted 0, claim := false, rngHeld := false }

/-- A queue meets a malformation: the function halts. A write that fails in a halted function stops the writes of its queue (03 R103). -/
def haltFunction (d : Dev) (fn : FnNo) (q : QNo) (code : Byte) (sqpos : Word) : Dev :=
  let f := fn.toNat
  if !fnReady d f then
    if code = 0x0F then modQ d f q.toNat fun x => { x with dead := true } else d
  else
    let d := modFn d f fun x => { x with state := 3, haltCode := code, haltQ := q }
    let d := settleDraws ((d.jobs.filter fun j => j.e.fn == fn && jobCurrent d j).foldl haltJob d)
    let d := if code = 0x0F then modQ d f q.toNat fun x => { x with dead := true } else d
    let d := raise d (funcPage f) 0
    evLog d 0x0601 (lineAt (funcPage f) 0) f (leBytes 1 q.toNat ++ [code] ++ zeros 2 ++ leBytes 4 sqpos.toNat)

/-! ### Leaving staging -/

/-- A job ends before placement. -/
def failJob (d : Dev) (id : JobId) (r : Byte × Byte) : Dev :=
  let d := modJob d id fun j => if jobEnded j then j else { j with loads := [] }
  finishJob d id (outcome r.1 r.2)

/-- A DMA of a job failed (03 R101): the outcome passes at the next boundary, after that of a placed part. -/
def dmaFault (d : Dev) (j : Job) (detail : Byte) : Dev :=
  if jobEnded j then d
  else
    let d := emit d (.aer j.e.fn)
    if jobPlaced j then modJob d j.id fun j => { j with dmaBad := some detail }
    else finishJob d j.id { outcome stDma detail with res0 := BitVec.ofNat 64 j.written }

/-- Bytes that a crate in host memory still lacks; its header gives its length (03 R84, 08 R246). -/
def crateRest (j : Job) : Nat := if j.e.keysel = 2 then leAt (crateOf j) 6 2 - (crateOf j).length else 0

/-- Issue a job's data reads; a function without Bus Master Enable issues none, and they fail (03 R99). -/
def issueReads (d : Dev) (j : Job) : Dev :=
  let n := crateRest j
  let bme := (getFn d j.e.fn.toNat).bme
  let rest := 0 < n && (jobInfo j.kind).key != .handle
  let read := Egress.dataRead j.e.fn j.id
  let d := if rest && bme then emitReads d j.e.fn read (j.e.keyref + BitVec.ofNat 64 (crateOf j).length) n
    else if rest then dmaFault d j 0xFE else d
  let rs := j.e.descs.zipIdx.filter fun x => !x.1.dir
  match rs with
  | [] => d
  | (_, i) :: _ =>
    if (getFn d j.e.fn.toNat).bme then rs.foldl (fun d x => emitReads d j.e.fn read x.1.addr x.1.blen.toNat) d
    else dmaFault d j (BitVec.ofNat 8 i)

/-! ### The checks before placement (04 R111, R133) -/

/-- Jobs that run while the lock latch is set (13 R362). -/
def lockAllows (k : JobKind) (e : Entry) : Bool :=
  match k with
  | .nop | .quorumOpen | .quorumStatus | .tamperLockClear | .attestDevice | .attestChain => true
  | .lifecycleTransition => opLe e 0 1 == 3
  | _ => false

/-- A source whose alarm is latched still shows its condition (13 R372). -/
def latchedCondition (d : Dev) : Bool := d.bat.alarm &&& d.tmp.cond != 0

/-- Jobs that a device released to its successor refuses (16 R442): GCM encryption and every hierarchy change. -/
def releaseDenies (k : JobKind) : Bool :=
  k = .gcmEncrypt || k = .meterGcmEncrypt || k = .keyGenerate || k = .keyReplaceBegin || k = .keyReplaceCommit || k = .keyInvalidate
    || k = .tenantPlanLoad

/-- LIFECYCLE_DENIED, the lowest detail first (04 R107, R132, 12 R336, R341, R342, 13 R362, R372, 16 R442). -/
def lifeDenied (d : Dev) (fuse : Fuse) (j : Job) : Option Byte :=
  let lc := lcState fuse
  let pf := j.e.fn == 0 || j.e.fn == 128
  let custodyOpen := j.kind = .quorumOpen && decide (0x1000 ≤ opLe j.e 0 2) && (custodyOf d.nv).isNone
  if lc == 3 || (lc == 0 && !(j.kind = .nop || j.kind = .lifecycleTransition)) then some 0x00
  else if !pf && ((jobInfo j.kind).pf || custodyOpen) then some 0x01
  else if j.kind = .lifecycleTransition && opLe j.e 0 1 == 2 && lc == 1
      && (d.fns.any fun p => p.1 != j.e.fn.toNat && p.2.state != 0) then some 0x02
  else if j.kind = .lifecycleTransition && decide (16 ≤ d.lcs.tokenFails.toNat) then some 0x03
  else if d.bat.locked && !lockAllows j.kind j.e then some 0x04
  else if j.kind = .tamperLockClear && d.bat.full then some 0x06
  else if j.kind = .tamperLockClear && latchedCondition d then some 0x05
  else if (d.twn.releasing || d.nv.twin.released) && releaseDenies j.kind then some 0x07
  else none

/-- The second handle of a CRATE_EXPORT: its wrapping key's. -/
def exportHandle (e : Entry) : DWord := BitVec.ofNat 64 (opLe e 0 8)

/-- A handle names a key of before a ZEROIZE_ALL response: every cellar key, and a volatile one that no longer resolves. A handle of a
wrong form names none. -/
def namesErased (d : Dev) (j : Job) (h : DWord) : Bool :=
  match parseHandle h with
  | .bad => false
  | .cellar _ _ _ => true
  | .volatile _ _ _ => match resolveHandle d j.e.fn j.kind h with | .cached _ _ => false | _ => true

/-- After a ZEROIZE_ALL response every job that names a key of before it completes with ZEROIZED (08 R257); a crate's wrapping key is a
cellar key. -/
def zeroizedFails (d : Dev) (j : Job) : Bool :=
  d.bat.zeroized && j.e.keysel != 0 &&
    (j.e.keysel != 1 || namesErased d j j.e.keyref || (j.kind = .crateExport && namesErased d j (exportHandle j.e)))

/-- What the checks find out about a job's keys. -/
structure KeyFind where
  fail   : Option (Byte × Byte)
  view   : KeyVal                 -- the key as its handle or its crate's header shows it
  key    : Option KeyVal          -- a key that is cached
  wkey   : Option KeyVal          -- the wrapping key of the crate
  ekey   : Option KeyVal          -- the wrapping key of a CRATE_EXPORT
  recd   : Option CellarRec
  loads  : List CellarRec
deriving DecidableEq, Repr

def noKey : KeyVal :=
  { slot := 0, ktype := 0, attr := 0, export_ := 0, tenant := 0, key := 0, version := 0, source := 0, origin := 0, value := [],
    point := [] }

def findNothing : KeyFind := { fail := none, view := noKey, key := none, wkey := none, ekey := none, recd := none, loads := [] }

/-- Of two failed lookups the one that 04 R133 puts first; a crate whose header is wrong comes before either. -/
def keepFirst (a : Option (Byte × Byte)) (b : Byte × Byte) : Option (Byte × Byte) :=
  let rank (r : Byte × Byte) : Nat := if r.1 = stAuth then 0 else if r.1 = stKeeper then 1 else if r.1 = stNotFound then 2 else 3
  match a with
  | none => some b
  | some a => if rank a ≤ rank b then some a else some b

/-- Add what a wrapping key has been found to be; `exp` for that of an export, else that of the crate which names the job's key. -/
def withWrap (k : KeyFind) (exp : Bool) (w : Found) : KeyFind :=
  let put (v : KeyVal) (k : KeyFind) : KeyFind := if exp then { k with ekey := some v } else { k with wkey := some v }
  match w with
  | .bad st det => { k with fail := keepFirst k.fail (st, det) }
  | .cached v _ => put v k
  | .load r => put (keyOfRec r 0) { k with loads := if k.loads.contains r then k.loads else k.loads ++ [r] }

/-- Resolve the key that a job names: its handle, or its crate's wrapping key. -/
def findKey (d : Dev) (j : Job) : KeyFind :=
  let e := j.e
  if e.keysel = 0 then findNothing
  else if e.keysel = 1 then
    match resolveHandle d e.fn j.kind e.keyref with
    | .bad st det => { findNothing with fail := some (st, det) }
    | .cached v r => { findNothing with view := v, key := some v, recd := r }
    | .load r => { findNothing with view := keyOfRec r 0, recd := some r, loads := [r] }
  else if (jobInfo j.kind).key = .handle then findNothing
  else
    match (if e.keysel = 3 then parseCrate (crateOf j) else parseHeader (crateOf j)) with
    | none => { findNothing with fail := some (stAuth, 0x01) }
    | some h =>
      withWrap { findNothing with view := { noKey with ktype := h.ktype, attr := h.attr, export_ := h.export_, tenant := h.tenant } }
        false (crateKey d e.fn h)

/-- Resolve a job's keys; a CRATE_EXPORT names two, and each may fail. -/
def findKeys (d : Dev) (j : Job) : KeyFind :=
  let main := findKey d j
  if j.kind = .crateExport then withWrap main true (resolveHandle d j.e.fn .crateExport (exportHandle j.e)) else main

/-- KEY_ATTR_DENIED: the form of the reference, then the key's own conditions (04 R106, R133, 08 R247-R250). -/
def attrDenied (j : Job) (k : KeyFind) : Option Byte :=
  let need := (jobInfo j.kind).key
  let sel := if j.e.keysel = 1 then selOf j.e.keyref else 0
  if j.e.keysel = 0 then none
  else if need = .handle && j.e.keysel != 1 then some 0x06
  else if need = .crate && j.e.keysel = 1 then some 0x09
  else
    let crateBad := j.e.keysel != 1 && (match k.wkey with | some w => !w.attr.getLsbD atUnwrap | none => false)
    let own := if j.kind = .crateLoad then none
      else if j.kind = .crateExport then exportFails sel (selOf (exportHandle j.e)) k.view (k.ekey.getD noKey)
      else attrFails j.kind sel k.view k.recd.isSome
    if crateBad then (match own with | some det => if det = 0x08 || det = 0x05 || det = 0x02 then own else some 0x03 | none => some 0x03)
    else own

/-- QUORUM_OPEN's own checks (11 R325, R327, R332). -/
def quorumOpenFails (d : Dev) (e : Entry) : Option (Byte × Byte) :=
  let c := opLe e 0 2
  let m := (c - 0x1000) / 0x100 + 1
  let n := (c - 0x1000) % 0x100 + 1
  let custody := decide (0x1000 ≤ c) && decide (2 ≤ m) && decide (m ≤ n) && decide (n ≤ 16)
  let known := decide (1 ≤ c) && decide (c ≤ 5)
  let busy := match d.crd.session with
    | some s => s.state == 0 || s.state == 1 || s.state == 5
    | none => false
  if !(custody || (known && (custodyOf d.nv).isSome)) then some (stInput, 0x0A)
  else if busy then some (stInput, 0x0B)
  else none

/-- LIFECYCLE_TRANSITION's own check: a transition that exists, and reserved operand bytes 1-31 zero (12 R340). -/
def transitionOk (lc : BitVec 2) (e : Entry) : Bool :=
  let t := opLe e 0 1
  allZero (opAt e 1 31) && ((lc == 0 && t == 1) || (lc == 1 && (t == 2 || t == 3)) || (lc == 2 && t == 3))

/-- The checks in order; none when the job passes them all. -/
def firstFail (d : Dev) (fuse : Fuse) (j : Job) (k : KeyFind) : Option (Byte × Byte) :=
  let priv := let x := getFn d j.e.fn.toNat; x.priv || j.e.fn == 0 || j.e.fn == 128
  let level := levelOf d k.view.key
  let qneed := quorumNeed d fuse j (match k.recd with | some r => r.img.qinval | none => false)
  let t := if j.kind = .crateExport || j.kind = .keyPublic then k.view.ktype else jobKeyType j
  let unwrapSlots := if j.e.keysel = 2 || j.e.keysel = 3 then typeSlots k.view.ktype else 0
  let needSlots := newSlots j.kind j.e + unwrapSlots
  let chainLen := (Config.chain (BitVec.ofNat 3 (paramBits j.e 0 1))).map fun c => 4 + c.length
  let short (n : Option Nat) : Bool := match n with | some n => decide (writeLen j.e < n) | none => false
  match lifeDenied d fuse j with
  | some det => some (stLife, det)
  | none =>
    if zeroizedFails d j then some (stZeroized, 0)
    else if isKpr j.kind && !keeperPresent d then some (stKeeper, 0)
    else if k.fail.isSome then k.fail
    else if j.kind = .attestChain && chainLen.isNone then some (stNotFound, 0)
    else
      match attrDenied j k with
      | some det => some (stAttr, det)
      | none =>
        if (match qneed with | some (c, dg) => !quorumCovers d j.e.fn c dg | none => false) then some (stQuorum, 0)
        else
          match (if j.kind = .quorumOpen then quorumOpenFails d j.e
              else if j.kind = .lifecycleTransition && !(transitionOk (lcState fuse) j.e) then some (stInput, 0x0C)
              else paramFails j.kind j.e level) with
          | some r => some r
          | none =>
            if lengthBad j.kind j.e priv || short (outLen j.kind j.e priv t) || (j.kind = .attestChain && short chainLen) then
              some (stLength, 0)
            else if decide (quotaFree d j.e.fn.toNat < needSlots) || (reserveRuns d [unwrapSlots, newSlots j.kind j.e]).isNone then some (stQuota, 0)
            else
              match (if j.kind = .keyGenerate || j.kind = .keyReplaceBegin then cellarFull d.nv k.view.tenant 0 else none) with
              | some det => some (stQuota, det)
              | none =>
                if (j.kind = .gcmEncrypt || j.kind = .meterGcmEncrypt) &&
                    (match k.recd with | some r => claimFails d r.img.record | none => false) then some (stExhausted, 0)
                else none

/-- The parts that a job runs, one after the other. -/
def jobParts (j : Job) (view : KeyVal) (needKeeper : Bool) : List JobPart :=
  let pre : List JobPart := if j.e.keysel = 2 || j.e.keysel = 3 then [.unwrap] else []
  match j.kind with
  | .crateLoad => [.unwrap]
  | .meterGcmEncrypt | .meterGcmDecrypt => pre ++ [.derive, .main]
  | .keyGenerate => if isPairType (jobKeyType j) then [.pair, .keeper] else [.keeper]
  | .keyReplaceBegin => if isPairType view.ktype then [.pair, .keeper] else [.keeper]
  | .keyReplaceCommit => [.keeper, .trip]
  | .attestKey | .attestDevice => [.keeper, .sign]
  | .debugAuthorise => [.keeper, .main]
  | .keyInfo | .keyPublic => if needKeeper then [.keeper] else [.main]
  | k => if isKpr k then [.keeper] else pre ++ [.main]

/-! ### Jobs of class NIL (04 R108, R122, R126-R129) -/

/-- Jobs that an ABORT targets: those of its function's queue at a position, or all fetched before it (04 R127). -/
def abortTargets (d : Dev) (a : Job) : List Job :=
  let q := opLe a.e 4 1
  d.jobs.filter fun j => j.e.fn == a.e.fn && j.e.q.toNat == q && j.id != a.id &&
    (if opLe a.e 5 1 % 2 = 1 then decide (j.id < a.id) else j.sqpos.toNat == opLe a.e 0 4)

/-- Whether a KPR job has been taken by the keeper world (04 R504). -/
def keeperTaken (j : Job) : Bool := isKpr j.kind && j.checked

/-- An abort lands on one job (04 R128, R129): whether it is marked. A verification committed by a rerun that signs now stays, to run
empty (05 R164). An outcome that waits for its boundary yields to the abort only
when it stands after ABORTED in the order of 04 R133. -/
def abortOne (d : Dev) (j : Job) : Dev × Bool :=
  let waits := j.res.status == stOk || j.res.status == stDma
  if keeperTaken j || j.aborted || (jobEnded j && !waits) then (d, false)
  else
    let signs := j.rerun && d.wings.planCur.any fun p => p.job == j.id && p.kind == .sign
    let d := if signs && !d.wings.planNext.any (fun p => p.job == j.id) then d else emptyVerify d j.id
    if !jobEnded j && inPlans d j then (modJob d j.id fun j => { j with aborted := true }, true)
    else
      let none_ := isDecrypt j.kind || (j.started && drawLen j.kind != 0)
      let o := { outcome stAborted 0 with zero := none_, res0 := if none_ then 0 else BitVec.ofNat 64 j.written }
      (modJob d j.id fun j => { j with stage := .done, res := o, aborted := true, loads := [], claim := false, rngHeld := false }, true)

def runAbort (d : Dev) (a : Job) : Dev :=
  let r := (abortTargets d a).foldl (fun (acc : Dev × Nat) j =>
    let x := abortOne acc.1 j
    (x.1, acc.2 + (if x.2 then 1 else 0))) (d, 0)
  settleDraws (finishJob r.1 a.id (outcomeRes (BitVec.ofNat 64 r.2)))

/-- A NIL job runs: its outcome passes at the boundary that ends this tick. -/
def runNil (d : Dev) (j : Job) : Dev :=
  match j.kind with
  | .keyEvict =>
    let d := match j.key with
      | some k =>
        match d.keys.cache.find? fun e => e.k == k && !e.dropped with
        | some e => dropEntry d e
        | none => d
      | none => d
    finishJob d j.id (outcome stOk 0)
  | .keyInfo =>
    let k := j.key.getD noKey
    finishJob d j.id (outcomeOut (infoBlock d j.e.keyref k (if k.key = 0 then none else recByVersion d.nv k.key k.version)))
  | .keyPublic => finishJob d j.id (outcomeOut (keyPoint j))
  | _ => finishJob d j.id (outcome stOk 0)

/-- Start a job that has passed its checks and that no fence holds (03 R96, 04 R504). -/
def startJob (d : Dev) (id : JobId) : Dev :=
  match findJob d id with
  | none => d
  | some j =>
    if j.stage != .wait || !j.checked || fenceBlocked d j then d
    else if j.kind = .drbgReseed then stagePr d j
    else if isNil j.kind && jobPart j = .main then runNil d j
    else if jobPart j = .keeper then issueReads (modJob d id fun j => { j with stage := .keeper }) j
    else d

/-- The seal unit's or the porter's result of a job's checks is applied. -/
def acceptJob (d : Dev) (fuse : Fuse) (j : Job) (k : KeyFind) : Dev :=
  let needKeeper := !k.loads.isEmpty
  let parts := jobParts j k.view needKeeper
  let direct := parts.headD .main = .keeper || j.kind = .keyEvict
  let loads := if direct then [] else k.loads.map fun r => (r.img.key, r.img.version)
  let need := (quorumNeed d fuse j (match k.recd with | some r => r.img.qinval | none => false)).isSome
  let d := if need then quorumTake d else d
  let d := if direct then d else k.loads.foldl (fun d r => wantLoad d j.e.fn r) d
  let sizes := (if parts.contains .unwrap then [typeSlots k.view.ktype] else []) ++ [newSlots j.kind j.e]
  let key := if j.e.keysel = 1 then (if direct || parts.contains .pair then some k.view else k.key) else none
  let d := modJob d j.id fun j => { j with
    stage := if loads.isEmpty then .wait else .load, todo := parts, checked := true, loads := loads, key := key, wkey := k.wkey, ekey := k.ekey,
    resv := (reserveRuns d sizes).getD [], claim := j.kind = .gcmEncrypt || j.kind = .meterGcmEncrypt,
    session := if need then (match d.crd.session with | some s => s.number | none => 0) else 0
    meterKey := if j.kind = .tamperLockClear then leBytes 3 d.bat.alarm.toNat else [] }
  match findJob d j.id with
  | none => d
  | some j =>
    let d := stagePr d j
    if j.kind = .abort then runAbort d j
    else if parts.headD .main = .keeper || isNil j.kind then startJob d j.id
    else issueReads d j

/-- Run the checks of a staged job. -/
def checkJob (d : Dev) (fuse : Fuse) (id : JobId) : Dev :=
  match findJob d id with
  | none => d
  | some j =>
    let k := findKeys d j
    match firstFail d fuse j k with
    | some r =>
      let d := if r.1 = stExhausted then { d with keys := { d.keys with njExhausted := satInc d.keys.njExhausted } } else d
      failJob d id r
    | none => acceptJob (if k.key.isSome then pmcFn d 0x60 j.e.fn.toNat 1 else d) fuse j k

/-! ### The check at the end of a read (04 R504, 11 R331) -/

/-- An image of a boot device: its place, length and security version number by the directory. -/
structure DirEntry where
  kind   : Nat
  svn    : Nat
  offset : Nat
  len    : Nat
deriving DecidableEq, Repr

/-- The directory: count in byte 5, entries from byte 8 on (log entry 12). -/
def parseDir (b : List Byte) : Option (List DirEntry) :=
  if slice b 0 4 != [0x47, 0x4A, 0x42, 0x44] || leAt b 4 1 != 1 || 255 < leAt b 5 1 then none
  else some ((List.range (leAt b 5 1)).map fun i =>
    let e := slice b (8 + 16 * i) 16
    { kind := leAt e 0 1, svn := leAt e 4 4, offset := leAt e 8 4, len := leAt e 12 4 })

/-- The digest that R217 gives for an image. -/
def dirDigest (b : List Byte) (x : DirEntry) : List Byte :=
  imageDigest ([BitVec.ofNat 8 x.kind, 0x01, 0, 0] ++ leBytes 4 x.svn) (slice b x.offset x.len)

def dirKey (b : List Byte) (x : DirEntry) : List Byte := slice b (x.offset + x.len) 96

/-- The Ilmel image of a directory, where its version keeps to the lineage rules (08 R222, R224). -/
def dirIlmel (d : Dev) (es : List DirEntry) : Option DirEntry :=
  (es.find? fun x => x.kind = 2).filter fun x => decide (d.keys.svn.toNat ≤ x.svn) && decide (x.svn ≤ 4095)

/-- A directory whose images, with their keys and signatures, lie in the buffer. -/
def dirWhole (b : List Byte) (es : List DirEntry) : Bool := !es.isEmpty && es.all fun x => decide (x.offset + x.len + 192 ≤ b.length)

/-- The new signer that an update brings: the digest to authorise, and the signer's. -/
def newSigner (d : Dev) (b : List Byte) : Option (List Byte × List Byte) :=
  match parseDir b with
  | none => none
  | some es =>
    if dirWhole b es then
      (dirIlmel d es).bind fun x => if sha384 (dirKey b x) != d.keys.signer then some (dirDigest b x, sha384 (dirKey b x)) else none
    else none

/-- What the quorum check at the end of a job's read asks for. -/
def readQuorum (d : Dev) (j : Job) : Option (Nat × List Byte) :=
  match j.kind with
  | .tenantPlanLoad => some (1, sha384 (stagedPrefix j))
  | .firmwareUpdate => (newSigner d (stagedPrefix j)).map fun x => (5, x.1)
  | _ => none

/-- The last read of a job in the keeper world's hands has returned: a session that covers the job is consumed, inside its use window at
this moment. -/
def readEnd (d : Dev) (id : JobId) : Dev :=
  match findJob d id with
  | none => d
  | some j =>
    if j.stage != .keeper || j.session != 0 || !readsDone j then d
    else
      match readQuorum d j with
      | none => d
      | some (c, dg) =>
        if quorumCovers d j.e.fn c dg then
          let n := match d.crd.session with | some s => s.number.toNat | none => 0
          modJob (quorumTake d) id fun j => { j with session := BitVec.ofNat 64 (max 1 n) }
        else d

/-! ### Submission (03 R82-R84, 04 R111) -/

def blankJob (d : Dev) (k : JobKind) (e : Entry) (units : Nat) (sqpos : Word) : Job :=
  { id := d.nextJob, kind := k, e := e, sqpos := sqpos, units := units, gen := (getFn d e.fn.toNat).gen, stage := .wait,
    todo := [.main], got := [], key := none, wkey := none, ekey := none, loads := [], draw := none, rngWait := 0, rngHeld := false, claim := false, started := false, padFill := false,
    iv := none, aadDone := 0, payDone := 0, blocks := 0, written := 0, sig := [], shelf1 := none, shelf2 := none, shelf3 := none,
    rerun := false, rerunFrom := 0, vCommit := none, fails := 0, moved := false, aborted := false, halted := false, absent := false,
    checked := false, dmaBad := none, zeroed := false, res := outcome 0 0, change := 0, meterKey := [], resv := [], session := 0,
    tick := d.tick }

/-- Stage an entry: what the life cycle denies ends at once (04 R132), and a crate named with keysel 2 is read before the checks that
need its header (08 R248). -/
def stageEntry (d : Dev) (fuse : Fuse) (k : JobKind) (e : Entry) (units : Nat) (sqpos : Word) : Dev :=
  let j := blankJob d k e units sqpos
  match lifeDenied d fuse j with
  | some det => { d with jobs := d.jobs ++ [{ j with stage := .done, res := outcome stLife det }], nextJob := d.nextJob + 1 }
  | none =>
    let d := { d with jobs := d.jobs ++ [j], nextJob := d.nextJob + 1 }
    if e.keysel = 2 && (jobInfo k).key != .handle then
      if zeroizedFails d j then failJob d j.id (stZeroized, 0)
      else if (getFn d e.fn.toNat).bme then emitReads d e.fn (.dataRead e.fn j.id) e.keyref 32
      else dmaFault d j 0xFE
    else checkJob d fuse j.id

/-- A queue from which entries are taken: its function READY, the queue enabled and drawn. -/
def queueOpen (d : Dev) (fn : FnNo) (q : QNo) : Bool :=
  let x := getQ d fn.toNat q.toNat
  fnReady d fn.toNat && x.en && !x.disabling && decide (q.toNat < (getFn d fn.toNat).qpairs)

/-- A fetched entry of a job: malformed, it halts its function; else it is staged and sq_cons passes it. -/
def submit (d : Dev) (fuse : Fuse) (k : JobKind) (e : Entry) : Dev :=
  if !queueOpen d e.fn e.q then d
  else
    let x := getQ d e.fn.toNat e.q.toNat
    match entryMalformed (jobInfo k) e with
    | some c => haltFunction d e.fn e.q c x.sqCons
    | none =>
      let n := entryUnits e
      let next := x.sqCons + BitVec.ofNat 32 n
      let d := setQ d e.fn.toNat e.q.toNat { x with sqCons := next, sqProd := if x.sqProd = x.sqCons then next else x.sqProd }
      stageEntry d fuse k e n x.sqCons

end Sys2Proof.Machine
end

