-- ==== Sys2Proof/Machine/Plan.lean ====
section
/-! DEFINITION. The plan cut: grants of a wing's capacity (01 R32, R33), ready work in its order (03 R95, 06 R174-R176, 07 R204),
placement on shelves (01 R35-R40, 06 R174, R175, 07 R205), and the amendment of a plan after a loss (01 R47). -/

namespace Sys2Proof.Machine

/-! ### Capacity -/

/-- RACK_TIEPTR (01 R37): it starts at 0 when the rack's block is reset and advances at every boundary, so it is the tick count
plus the offset that the unit keeps. -/
def tieOf (d : Dev) (u : Nat) : BitVec 8 := (getUnit d u).tie + d.tick.setWidth 8

/-- Slot units of a shelf per tick (01 R26). -/
def shelfUnits : Wing → Nat
  | .pk => 1 | .sym => 64 | .hsh => 50

def wingNo : Wing → Nat
  | .pk => 0 | .sym => 1 | .hsh => 2

def rotationOf (d : Dev) : Wing → Option Rotation
  | .pk => d.wings.rotPk | .sym => d.wings.rotSym | .hsh => d.wings.rotHsh

/-- A shelf that a plan cut now counts for the next tick: ACTIVE, or wiping after aborted streams in the tick that ends; not about to
wipe, with no drain under way (01 R43, R47, R50, 14 R379, 15 R410). -/
def shelfCounts (d : Dev) (w : Wing) (u : Nat) : Bool :=
  let x := getUnit d u
  let leaving := match rotationOf d w with
    | some r => r.phase == 2 && r.due.toNat == u
    | none => false
  (x.state == 0 || (x.state == 4 && x.test == .none)) && !x.draining && !x.rest && !leaving

def activeShelves (d : Dev) (w : Wing) : List Nat := (wingShelves w).filter (shelfCounts d w)

/-- The tick table and share tables of a wing in a tick: the first plan under a bundle is cut in the tick before it (01 R30). -/
def tabsFor (d : Dev) (w : Wing) (tick : Nat) : WingTabs :=
  match d.wings.pendingBundle with
  | some (b, t) =>
    if decide (t.toNat ≤ tick) then
      match b.sections.find? fun s => s.1 == w with
      | some s => { rows := s.2.1, tables := s.2.2, bundle := b.id }
      | none => getWing d w
    else getWing d w
  | none => getWing d w

/-- The share table that governs a tick (01 R28). -/
def tableFor (d : Dev) (w : Wing) (tick : Nat) : List ShareEntry :=
  let t := tabsFor d w tick
  let row := t.rows.getD (tick % t.rows.length) 0
  (t.tables.getD row.toNat []).filter (·.valid)

/-! ### Grants (01 R32) -/

/-- One function's claim on a wing: its entry, its committed verifications and its ready demand. -/
structure Claim where
  e : ShareEntry
  v : Nat
  d : Nat
deriving DecidableEq, Repr

def claimCap (c : Claim) : Nat := if c.e.cap = 0xFFFF then 2 ^ 32 else c.e.cap.toNat

/-- The floors, met in cyclic order. -/
def grantFloors : List Claim → Nat → Tab Nat → Tab Nat × Nat
  | [], c, g => (g, c)
  | x :: r, c, g =>
    let have_ := tabGet g x.e.func.toNat 0
    let top := min (min x.e.floor.toNat (claimCap x)) (x.d + x.v) - have_
    let take := min top c
    grantFloors r (c - take) (tabPut g x.e.func.toNat (have_ + take))

/-- One unit to each next entry with demand and headroom, until the capacity is gone. -/
def grantRest : Nat → List Claim → Nat → Tab Nat → Tab Nat
  | 0, _, _, g => g
  | n + 1, cs, c, g =>
    let r := cs.foldl (fun (acc : Nat × Tab Nat) x =>
      let h := tabGet acc.2 x.e.func.toNat 0
      if 0 < acc.1 && decide (h < x.d + x.v) && decide (h < claimCap x) then (acc.1 - 1, tabPut acc.2 x.e.func.toNat (h + 1))
      else acc) (c, g)
    if r.1 = c || r.1 = 0 then r.2 else grantRest n cs r.1 r.2

/-- The grants of one wing over its capacity; `cs` stands in cyclic order. -/
def grantWing (cap : Nat) (cs : List Claim) (verif : Tab Nat) : Tab Nat :=
  let vsum := (verif.map (·.2)).sum
  let f := grantFloors cs (cap - vsum) verif
  let r := f.2
  let hungry := cs.filter fun x => x.e.weight != 0 && decide (tabGet f.1 x.e.func.toNat 0 < x.d + x.v)
    && decide (tabGet f.1 x.e.func.toNat 0 < claimCap x)
  let w := (hungry.map fun x => x.e.weight.toNat).sum
  let g := hungry.foldl (fun g x =>
    let h := tabGet g x.e.func.toNat 0
    tabPut g x.e.func.toNat (h + min (r * x.e.weight.toNat / w) (min (claimCap x - h) (x.d + x.v - h)))) f.1
  let left := r - ((g.map (·.2)).sum - (f.1.map (·.2)).sum)
  grantRest left cs left g

/-! ### Ready work -/

/-- Work of one job for the next tick: `whole` work runs whole or not at all; `group` orders placement (06 R175). -/
structure Req where
  job   : JobId
  fn    : FnNo
  wing  : Wing
  kind  : PartKind
  half  : Bool
  want  : Nat
  whole : Bool
  group : Nat
deriving DecidableEq, Repr

def privileged (d : Dev) (f : FnNo) : Bool := (getFn d f.toNat).priv || f == 0 || f == 128

/-- Checked blocks of a window (01 R26). -/
def windowBlocks (j : Job) : Nat :=
  let long : Bool := match jobPart j with
    | .unwrap => (j.wkey.map (·.ktype)) == some 0x02
    | _ => if j.kind = .crateExport then (j.ekey.map (·.ktype)) == some 0x02
      else if isMeter j.kind then opLe j.e 16 1 == 2
      else ((j.key.map (·.ktype)).getD (BitVec.ofNat 8 (leAt (crateOf j) 8 1))) == 0x02
  if long then 21 else 29

/-- The part of a job that runs in the tick in progress. -/
def runningPart (d : Dev) (id : JobId) : Option Placed := d.wings.planCur.find? fun p => p.job == id && p.kind != .empty && !p.dummy

/-- Payload bytes, associated data bytes and blocks that a job has released or runs in this tick. -/
def jobProgress (d : Dev) (j : Job) : Nat × Nat × Nat :=
  match runningPart d j.id with
  | some p => if p.kind == .symOp || p.kind == .hashOp then (j.payDone + p.pay, j.aadDone + p.aad, j.blocks + p.blocks)
    else (j.payDone, j.aadDone, j.blocks)
  | none => (j.payDone, j.aadDone, j.blocks)

/-- What a stream can run next: payload bytes, associated data bytes, checked blocks, and whether it would end. -/
structure StreamStep where
  pay  : Nat
  aad  : Nat
  blocks : Nat
  ends : Bool
deriving DecidableEq, Repr

def isCcm (k : JobKind) : Bool := k = .ccmEncrypt || k = .ccmDecrypt
def isGcm (k : JobKind) : Bool := k = .gcmEncrypt || k = .gcmDecrypt || isMeter k

def jobAad (j : Job) : Nat := if isCcm j.kind || isGcm j.kind then paramBits j.e 0 24 else 0

/-- Blocks of the formatted associated data of a CCM job that its first `n` bytes complete (Appendix A of SP 800-38C). -/
def ccmBlocks (j : Job) (n : Nat) : Nat :=
  let a := jobAad j
  let pre := if a = 0 then 0 else if a < 0xFF00 then 2 else 6
  if !isCcm j.kind then 0 else if n = a then ceilDiv (n + pre) 16 else (n + pre) / 16

/-- Bytes of associated data and of payload, and checked blocks, that a stream has done; `odd` is one block position of a CCM payload
block whose second lies in the next window, `fin` that the last block has run. -/
structure SymAt where
  aad : Nat
  pay : Nat
  blocks : Nat
  odd : Bool
  fin : Bool
deriving DecidableEq, Repr

/-- What of a stream is staged: associated data and payload bytes, whether that is all, and the blocks after the last payload byte: a
padding block of CBC_ENCRYPT, or the one block of a CMAC without message (06 R184). -/
structure SymIn where
  aad : Nat
  pay : Nat
  all : Bool
  tail : Nat
deriving DecidableEq, Repr

def symIn (j : Job) (priv : Bool) : SymIn :=
  let staged := (stagedPrefix j).length
  let total := (payload j.kind j.e).getD 0
  let pad := j.kind = .cbcEncrypt && cbcPads priv j.e && total % 16 = 0
  let bare := total = 0 && (j.kind = .cmacGenerate || j.kind = .cmacVerify)
  { aad := min (jobAad j) (staged - (payOff j - jobAad j)), pay := min total (staged - payOff j), all := readsDone j,
    tail := if pad || bare then 1 else 0 }

/-- Block positions that the first window of a job gives to H and the tag mask, to the first MAC block and counter 0, or to L. -/
def symHead (j : Job) : Nat :=
  if isGcm j.kind || isCcm j.kind then 2 else if j.kind = .cmacGenerate || j.kind = .cmacVerify then 1 else 0

/-- One more window of a stream (06 R169, R179): first the associated data, then payload in whole blocks until the end, within the
partition of 512 bytes and the window's block positions. The two blocks of a CCM payload block may lie in two windows (04 R108). -/
def symWindow (j : Job) (i : SymIn) (x : SymAt) : SymAt :=
  let head := if x.blocks = 0 then symHead j else 0
  let pos := windowBlocks j - head + (if x.odd then 1 else 0)
  let done := ccmBlocks j x.aad
  let fits := if isCcm j.kind then 16 * (done + pos) - (if jobAad j < 0xFF00 then 2 else 6) - x.aad else 512
  let a := min (i.aad - x.aad) (min 512 fits)
  let mac := ccmBlocks j (x.aad + a) - done
  let per := if isCcm j.kind then 2 else 1
  let left := if x.aad + a = jobAad j then i.pay - x.pay else 0
  let room := min (16 * ((pos - mac) / per)) (512 - a)
  let p := if left ≤ room && i.all then left else min left room / 16 * 16
  let spare := pos - mac - per * ceilDiv p 16
  let over_ := i.all && decide (x.aad + a = jobAad j) && decide (x.pay + p = (payload j.kind j.e).getD 0)
  let fin := over_ && decide (i.tail ≤ spare)
  { aad := x.aad + a, pay := x.pay + p, blocks := x.blocks + head + mac + per * ceilDiv p 16 + (if fin then i.tail else 0),
    odd := isCcm j.kind && spare % 2 == 1 && decide (p < left), fin := fin }

/-- Up to `n` windows, as long as they carry something; what they did and how many they are. -/
def symWindows (j : Job) (i : SymIn) : Nat → SymAt → SymAt × Nat
  | 0, x => (x, 0)
  | n + 1, x =>
    let y := symWindow j i x
    if x.fin || (y.aad = x.aad && y.pay = x.pay && !y.fin) then (x, 0)
    else
      let r := symWindows j i n y
      (r.1, r.2 + 1)

/-- Windows that a stream may have in one tick: one, as long as 512 bytes or more of a GCM job's associated data remain. -/
def symMost (d : Dev) (j : Job) : Nat := if isGcm j.kind && decide (512 ≤ jobAad j - (jobProgress d j).2.1) then 1 else 64

/-- Where a stream stands when the tick planned begins. -/
def symStart (d : Dev) (j : Job) : SymAt :=
  let (pd, ad, bd) := jobProgress d j
  { aad := ad, pay := pd, blocks := bd, odd := false, fin := false }

/-- The next step of a symmetric stream within `units` windows (06 R109, R179). -/
def symStep (d : Dev) (j : Job) (units : Nat) : StreamStep :=
  let x := symStart d j
  let r := (symWindows j (symIn j (privileged d j.e.fn)) (min units (symMost d j)) x).1
  { pay := r.pay - x.pay, aad := r.aad - x.aad, blocks := r.blocks - x.blocks, ends := r.fin }

/-- Windows that a symmetric stream would use for everything staged, at most 64 (06 R174). -/
def symWant (d : Dev) (j : Job) : Nat := max 1 (symWindows j (symIn j (privileged d j.e.fn)) (symMost d j) (symStart d j)).2

/-- Whether a step does something: bytes move, or the job ends. -/
def stepUseful (s : StreamStep) : Bool := decide (0 < s.pay) || decide (0 < s.aad) || s.ends

/-- The hash of a job: 0 SHA-256, 1 SHA-384, 2 SHA-512. -/
def jobHash (j : Job) : Nat :=
  match j.kind with
  | .sha256 => 0
  | .sha512 => 2
  | .hmacGenerate | .hmacVerify => paramBits j.e 0 2 - 1
  | _ => 1

/-- A valid pad store entry for a job's key, or one whose fill passed at the boundary under way (07 R206). -/
def padValid (d : Dev) (j : Job) (h : Nat) : Bool :=
  match j.key with
  | none => false
  | some k => d.wings.pads.any (fun p => p.slot == k.slot && p.version == k.version && p.hash.toNat == h) ||
      d.wings.filled.contains (k.slot, BitVec.ofNat 2 h)

/-- A pad store entry for a job's key, valid now or filled by a part of this tick (07 R206). -/
def padReady (d : Dev) (j : Job) (h : Nat) : Bool :=
  padValid d j h || (match j.key with
    | none => false
    | some k => d.wings.planCur.any fun p => p.fill && !p.dummy &&
        (match findJob d p.job with | some o => (o.key.map (·.slot)) == some k.slot && jobHash o == h | none => false))

def usesPads (k : JobKind) : Bool := k = .hmacGenerate || k = .hmacVerify || k = .kdfDerive || isMeter k

/-- The next step of a hash stream within `units` windows (07 R203-R205, R211): `blocks` counts compressions. -/
def hashStep (d : Dev) (j : Job) (units : Nat) : StreamStep :=
  let (_, _, bd) := jobProgress d j
  let total := compsOf j.kind j.e (jobKeyType j)
  let size := hashBlock (jobHash j)
  let cap := units * (if jobHash j = 0 then 12 else 10)
  let fill := if bd = 0 && usesPads j.kind && !padReady d j (jobHash j) then 2 else 0
  let staged := (stagedPrefix j).length + (if j.kind = .imageDigest then 16 else 0)
  let avail := if readsDone j then total - bd else staged / size - bd
  let n := min avail (cap - fill)
  { pay := 0, aad := 0, blocks := n, ends := decide (bd + n = total) }

def hashWant (d : Dev) (j : Job) : Nat :=
  let s := hashStep d j 50
  let fill := if (jobProgress d j).2.2 = 0 && usesPads j.kind && !padReady d j (jobHash j) then 2 else 0
  max 1 (min 50 (ceilDiv (s.blocks + fill) (if jobHash j = 0 then 12 else 10)))

/-- A job that a cut may place: current, checked, its function READY, not ended, not marked, and not behind a fence. -/
def cutEligible (d : Dev) (j : Job) : Bool :=
  jobCurrent d j && j.checked && fnReady d j.e.fn.toNat && !jobEnded j && !j.aborted && !j.halted && !j.zeroed && j.dmaBad.isNone
    && !fenceBlocked d j

def isPkKind : JobKind → Bool
  | .ecdsaSignP384 | .ecdsaVerifyP384 | .ecdsaVerifyP384Key | .ecdhP384 | .keygenP384 | .ecdsaSignP256 | .ecdsaVerifyP256
  | .ecdsaVerifyP256Key | .ecdhP256 | .keygenP256 | .rsaVerifyPkcs1v15 | .rsaVerifyPss => true
  | _ => false

def isSignKind (k : JobKind) : Bool := k = .ecdsaSignP384 || k = .ecdsaSignP256

def isHashKind : JobKind → Bool
  | .sha256 | .sha384 | .sha512 | .hmacGenerate | .hmacVerify | .kdfDerive | .imageDigest => true
  | _ => false

/-- Whether a job waits for its draw (05 R145). -/
def drawReady (j : Job) : Bool := jobDraw j == 0 || j.draw.isSome

/-- The record of a GCM encryption can give a value now (06 R189, R190). A derivation's value is assigned at the cut of the tick in which
it runs: those placed and not yet assigned go first. -/
def ivReady (d : Dev) (j : Job) : Bool :=
  !(j.kind = .gcmEncrypt || j.kind = .meterGcmEncrypt) || j.iv.isSome ||
    (match jobRecord d j with
      | some r => decide ((d.jobs.filter fun o => o.id != j.id && o.stage == .planned && jobPart o = .derive && o.kind = .meterGcmEncrypt &&
          o.iv.isNone && jobRecord d o == some r).length < nonceLeft d r)
      | none => false)

/-- The work that a part of a job asks of a wing, when the part is ready. `cont` is the unit of the part that runs now. -/
def partReq (d : Dev) (j : Job) (part : JobPart) (chained : Bool) : Option Req :=
  let base (w : Wing) (k : PartKind) (half : Bool) (want : Nat) (whole : Bool) : Req :=
    { job := j.id, fn := j.e.fn, wing := w, kind := k, half := half, want := want, whole := whole,
      group := if chained then 0 else 2 }
  let p256 := (jobCurve j).len == 32
  match part with
  | .unwrap =>
    let t := BitVec.ofNat 8 (leAt (crateOf j) 8 1)
    if 0 < crateRest j then none else some (base .sym .unwrap false (ceilDiv (crateCost t) (windowBlocks j)) true)
  | .derive => if ivReady d j then some (base .hsh .derive false 1 true) else none
  | .pair => if drawReady j then some (base .pk .pkOp p256 1 true) else none
  | .sign => if drawReady j && !j.rerun then some (base .pk .sign false 1 true) else none
  | .trip =>
    match j.key with
    | none => none
    | some k =>
      if isPairType k.ktype then
        if k.attr.getLsbD atSign then (if drawReady j && !j.rerun then some (base .pk .sign p256 1 true) else none)
        else some (base .pk .pkOp p256 1 true)
      else if isAesType k.ktype then some (base .sym .symOp false 1 true)
      else some (base .hsh .hashOp false 2 true)
  | .keeper => none
  | .main =>
    if isSignKind j.kind then
      if drawReady j && !j.rerun then some (base .pk .sign p256 1 true) else none
    else if isPkKind j.kind then
      if drawReady j && readsDone j then some (base .pk .pkOp (p256 && !(j.kind = .rsaVerifyPkcs1v15 || j.kind = .rsaVerifyPss)) 1 true)
      else none
    else if j.kind = .debugAuthorise then some (base .pk .pkOp false 1 true)
    else if j.kind = .kdfDerive then some (base .hsh .derive false 1 true)
    else if isHashKind j.kind then
      if stepUseful (hashStep d j 50) || decide (0 < (hashStep d j 50).blocks) then some (base .hsh .hashOp false (hashWant d j) false) else none
    else if j.kind = .crateExport then
      some (base .sym .symOp false (ceilDiv (crateCost ((j.key.map (·.ktype)).getD 0)) (windowBlocks j)) true)
    else if isNil j.kind || j.kind = .randomBytes || j.kind = .drbgReseed then none
    else if ivReady d j && stepUseful (symStep d j 64) then some (base .sym .symOp false (symWant d j) false)
    else none

/-- The work of a job that is ready for the plan being cut: its next part when it waits; a further step of its stream, or the
part chained to the one that runs (06 R176), when it runs. -/
def jobReq (d : Dev) (j : Job) : Option Req :=
  if !cutEligible d j then none
  else if j.stage == .wait then partReq d j (jobPart j) false
  else if j.stage == .running then
    match runningPart d j.id with
    | none => none
    | some p =>
      if p.kind == .unwrap || (p.kind == .derive && jobPart j = .derive) then
        match j.todo.drop 1 with
        | next :: _ => partReq d { j with todo := j.todo.drop 1 } next true
        | [] => none
      else if jobPart j = .trip then none
      else if p.kind == .symOp || p.kind == .hashOp then
        if p.keeps then partReq d j .main false else none
      else none
  else none

/-- Ready work of a wing in the order of 03 R95 for one function: chained parts first (06 R176), then the queues in cyclic order from
(tick mod 16) of the planned tick, each in fetch order. -/
def orderReqs (t : Nat) (js : List Job) (reqs : List Req) : List Req :=
  let queue (r : Req) : Nat := match js.find? fun j => j.id == r.job with | some j => j.e.q.toNat | none => 0
  let ordered := ((List.range 16).map fun i => (t + i) % 16).flatMap fun q => reqs.filter fun r => queue r == q
  ordered.filter (fun r => r.group == 0) ++ ordered.filter fun r => r.group != 0

def wingReqs (d : Dev) (w : Wing) : List Req :=
  orderReqs (d.tick.toNat + 1) d.jobs ((d.jobs.filterMap fun j => jobReq d j).filter fun r => r.wing = w)

/-- Of requests in the order in which the wing places them, those whose counter values the committed blocks can give: each part that
would take a value of a record takes one of those left (06 R189, R190). -/
def withValues (d : Dev) : List Req → List Word → List Req
  | [], _ => []
  | r :: rest, taken =>
    let record : Option Word := match findJob d r.job with
      | some j => if (j.kind = .gcmEncrypt || j.kind = .meterGcmEncrypt) && j.iv.isNone && (r.kind == .derive || r.kind == .symOp) then
          jobRecord d j else none
      | none => none
    match record with
    | none => r :: withValues d rest taken
    | some n => if (taken.filter fun x => x == n).length < nonceLeft d n then r :: withValues d rest (n :: taken) else withValues d rest taken

/-! ### Placement -/

/-- Racks and shelves of a wing in the order in which it fills them: cyclic from the pointer that the planned tick will show
(01 R37, R39). -/
def fillOrder (d : Dev) (w : Wing) (ahead : BitVec 8) : List Nat :=
  let tie (u : Nat) : BitVec 8 := tieOf d u + ahead
  (sortBy (fun r => cyclicKey (tie (wingUnit w)) r) (wingRackUnits w)).flatMap fun r =>
    sortBy (fun s => cyclicKey (tie r) s) ((List.range (rackShelves w)).map fun j => r + 1 + j)

/-- Windows of a shelf that a plan holds, in order. -/
def busyRuns (plan : List Placed) (u : Nat) : List (Nat × Nat) :=
  sortBy (·.1) ((plan.filter fun p => p.unit.toNat == u && decide (0 < p.units)).map fun p => (p.first, p.first + p.units))

/-- The first of `n` consecutive free windows from window `cur` on. -/
def fitAt : List (Nat × Nat) → Nat → Nat → Nat → Option Nat
  | [], cur, cap, n => if cur + n ≤ cap then some cur else none
  | (a, b) :: r, cur, cap, n => if cur + n ≤ a then some cur else fitAt r (max cur b) cap n

/-- The most consecutive free windows from window `cur` on. -/
def largestGap : List (Nat × Nat) → Nat → Nat → Nat
  | [], cur, cap => cap - cur
  | (a, b) :: r, cur, cap => max (a - cur) (largestGap r (max cur b) cap)

/-- Whether a PK shelf can take an operation of a function. -/
def pkRoom (plan : List Placed) (u : Nat) (r : Req) : Bool :=
  match plan.filter fun p => p.unit.toNat == u with
  | [] => true
  | [p] => p.half && r.half && p.fn == r.fn
  | _ => false

/-- Contexts held in a rack. -/
def ctxUsed (d : Dev) (rack : Nat) : Nat := (d.wings.ctxs.filter fun c => c.rack.toNat == rack).length
def ctxCap : Wing → Nat
  | .pk => 0 | .sym => 512 | .hsh => 256

/-- Jobs that hold or need a context of a rack: those it holds, less those that the plan moves away, and those that run or are placed
in it and go on (01 R39, R45). -/
def ctxJobs (d : Dev) (plan : List Placed) (rack : Nat) : List JobId :=
  let here (p : Placed) : Bool := p.keeps && shelfRack p.unit.toNat == rack
  let away (id : JobId) : Bool := plan.any fun p => p.job == id && (p.kind == .symOp || p.kind == .hashOp) && shelfRack p.unit.toNat != rack
  (((d.wings.ctxs.filter fun c => c.rack.toNat == rack && !away c.job).map (·.job))
    ++ ((d.wings.planCur.filter fun p => here p && !away p.job).map (·.job)) ++ ((plan.filter here).map (·.job))).eraseDups

/-- A tag for a job on a unit (01 R40). -/
def placed (d : Dev) (r : Req) (u first units : Nat) (s : StreamStep) : Placed :=
  { job := r.job, fn := r.fn, wing := r.wing, kind := r.kind, half := r.half, units := units, unit := BitVec.ofNat 16 u,
    epoch := (getUnit d u).epoch, first := first, blocks := s.blocks, pay := s.pay, aad := s.aad, fill := false, relies := none,
    grp := 2, dummy := false, keeps := !s.ends, draw := [] }

/-- The rack of a stream: the one that holds its context, or in which its first tick runs now. -/
def streamRack (d : Dev) (id : JobId) : Option Nat :=
  match d.wings.ctxs.find? fun c => c.job == id with
  | some c => some c.rack.toNat
  | none => (d.wings.planCur.find? fun p => p.job == id && p.keeps && !p.dummy).map fun p => shelfRack p.unit.toNat

/-- The place of a request in the order of 06 R175 on a shelf: chained, continuing, new, or moved from another rack. DESIGN CHOICE: a
stream that moves to another shelf of its own rack, which R175 names in no group, stands with those that continue (log entry 70). -/
def placeGroup (d : Dev) (r : Req) (u : Nat) : Nat :=
  if r.group = 0 then 0
  else
    match streamRack d r.job with
    | none => 2
    | some k => if k = shelfRack u then 1 else 3

/-- PK: the first shelf in fill order that is not excluded; a P-256 operation pairs first with one of its function. -/
def placePk (d : Dev) (shelves : List Nat) (plan : List Placed) (r : Req) (bad : Nat → Bool) : Option Placed :=
  let ok := shelves.filter fun u => pkRoom plan u r && !bad u
  let pairs := ok.filter fun u => plan.any fun p => p.unit.toNat == u
  match (if r.half then pairs ++ ok else ok) with
  | [] => none
  | u :: _ => some (placed d r u (if pairs.contains u && r.half then 1 else 0) 1 { pay := 0, aad := 0, blocks := 0, ends := false })

/-- Free windows of a shelf; a moved stream leaves window 0 to another (06 R175). While a plan is built, windows are given out at its end,
so all that are free count (06 R174); a plan that is amended keeps its placements where they are, and a run must be free. -/
def freeWindows (w : Wing) (amend : Bool) (plan : List Placed) (u : Nat) (moved : Bool) : Nat :=
  let mine := plan.filter fun p => p.unit.toNat == u && decide (0 < p.units)
  if amend then largestGap (busyRuns plan u) (if moved then 1 else 0) (shelfUnits w)
  else shelfUnits w - (mine.map (·.units)).sum - (if moved && mine.all (fun p => p.grp == 3) then 1 else 0)

/-- Where a run of `n` windows starts: its place in an amended plan, else a provisional one, unlike that of any other run. -/
def windowAt (w : Wing) (amend : Bool) (plan : List Placed) (u n : Nat) (moved : Bool) : Option Nat :=
  if amend then fitAt (busyRuns plan u) (if moved then 1 else 0) (shelfUnits w) n
  else some (((plan.filter fun p => p.unit.toNat == u).map (·.units)).sum)

/-- Symmetric and hash: the first shelf in fill order with room for the whole grant, else the one with the most free windows, at every
tick anew (01 R39, R46, 06 R174, 07 R205). A stream that does not end needs a free context in the rack. -/
def placeStream (d : Dev) (w : Wing) (amend : Bool) (shelves : List Nat) (plan : List Placed) (r : Req) (grant : Nat) (ends : Nat → Bool) :
    Option (Nat × Nat × Nat) :=
  let moved (u : Nat) : Bool := placeGroup d r u = 3
  let room (u : Nat) : Nat := freeWindows w amend plan u (moved u)
  let holds (u n : Nat) : Bool :=
    let js := ctxJobs d plan (shelfRack u)
    ends n || js.contains r.job || decide (js.length < ctxCap w)
  let put (u n : Nat) : Option (Nat × Nat × Nat) := (windowAt w amend plan u n (moved u)).map fun f => (u, f, n)
  let fits (u : Nat) : Bool := decide (grant ≤ room u) && holds u grant
  match shelves.find? fits with
  | some u => put u grant
  | none =>
    if r.whole then none
    else
      let part := (shelves.map fun u => (u, room u)).filter fun x => decide (0 < x.2) && holds x.1 x.2
      let best := (part.map (·.2)).foldl max 0
      match part.find? fun x => x.2 == best with
      | some x => put x.1 best
      | none => none

/-- Slots that a function's operations cost: whole ones, and P-256 ones two to a slot (01 R27). -/
def pkCost (whole half : Nat) : Nat := whole + ceilDiv half 2

/-- Shelves that a signature's next slot must avoid (01 R35, 05 R161). -/
def pkAvoid (j : Job) (kind : PartKind) (u : Nat) : Bool :=
  let is (s : Option UnitNo) : Bool := s == some (BitVec.ofNat 16 u)
  let sameRack (s : Option UnitNo) : Bool := match s with | some x => shelfRack x.toNat == shelfRack u | none => false
  match kind with
  | .verify => if j.rerun then is j.shelf1 || is j.shelf2 || sameRack j.shelf3 else sameRack j.shelf1
  | .sign => j.rerun && (is j.shelf1 || is j.shelf2)
  | _ => false

/-! ### The cut -/

/-- A plan under construction: the tick planned, its placements, the units each function has used, the queues whose next ready job
found no place, and the device with the values assigned. -/
structure Cut where
  d    : Dev
  at_  : BitVec 48
  amend : Bool
  plan : List Placed
  whole : Tab Nat
  half : Tab Nat
  stuck : List (Nat × Nat)
deriving DecidableEq, Repr

/-- A ready job of a queue is never overtaken in the same wing by a later one (03 R95). -/
def stuckAt (c : Cut) (j : Job) : Bool := c.stuck.contains (j.e.fn.toNat, j.e.q.toNat)
def stick (c : Cut) (j : Job) : Cut := { c with stuck := (j.e.fn.toNat, j.e.q.toNat) :: c.stuck }

/-- What comes before every grant (01 R36, 05 R161): committed verifications due in the tick planned, oldest first, then reruns. -/
def dueFirst (d : Dev) (at_ : BitVec 48) : List (Job × PartKind) :=
  let due (t : Option (BitVec 48)) : Bool := match t with | some t => decide (t.toNat ≤ at_.toNat) | none => false
  let ver := sortBy (fun j => match j.vCommit with | some t => t.toNat | none => 0)
    (d.jobs.filter fun j => due j.vCommit && !jobEnded j)
  let again := d.jobs.filter fun j => j.rerun && j.stage == .wait && drawReady j && cutEligible d j && due (some j.rerunFrom)
  ver.map (fun j => (j, .verify)) ++ again.map fun j => (j, .sign)

def isP256 (j : Job) : Bool := (jobCurve j).len == 32

/-- A placement takes its slots from its function's grant. -/
def usePk (c : Cut) (r : Req) : Cut :=
  let f := r.fn.toNat
  if r.half then { c with half := tabPut c.half f (tabGet c.half f 0 + 1) } else { c with whole := tabPut c.whole f (tabGet c.whole f 0 + 1) }

/-- Signing slots of a plan: the shelves that sign, two P-256 signatures of a function in one slot. -/
def signShelves (plan : List Placed) : List Nat := ((plan.filter fun p => p.kind == .sign).map fun p => p.unit.toNat).eraseDups

/-- The limits of 01 R35 on one more signing slot. DESIGN CHOICE: the active slots that the wing expects for the tick after are those of
the shelves counted for the tick planned; the spec does not say how it expects them (log entry 70). -/
def signLimit (shelves : List Nat) (plan : List Placed) (u : Nat) : Bool :=
  let s := signShelves plan
  !s.contains u && (decide (shelves.length ≤ s.length) ||
    decide ((shelves.filter fun x => shelfRack x != shelfRack u).length ≤ (s.filter fun x => shelfRack x == shelfRack u).length))

/-- A signing slot is placed: its verification is committed for the tick after. -/
def signPlaced (d : Dev) (at_ : BitVec 48) (id : JobId) (u : UnitNo) : Dev :=
  modJob d id fun j => { j with
    stage := .planned, vCommit := some (at_ + 1), shelf1 := if j.rerun then j.shelf1 else some u, shelf3 := if j.rerun then some u else j.shelf3 }

/-- Place one committed verification or rerun; one that does not fit is delayed, and one that is to run empty withdrawn (01 R36). -/
def placeFirst (shelves : List Nat) (c : Cut) (x : Job × PartKind) : Cut :=
  let j := x.1
  let r : Req := { job := j.id, fn := j.e.fn, wing := .pk, kind := x.2, half := isP256 j, want := 1, whole := true, group := 0 }
  let bad (u : Nat) : Bool := pkAvoid j x.2 u || (x.2 == .sign && signLimit shelves c.plan u)
  let idle := x.2 == .verify && j.aborted
  match placePk c.d shelves c.plan r bad with
  | none => if idle then { c with d := modJob c.d j.id fun j => { j with vCommit := none } } else c
  | some p =>
    let p := if idle then { p with kind := .empty } else p
    let d := if x.2 == .sign then signPlaced c.d c.at_ j.id p.unit
      else modJob c.d j.id fun j => { j with vCommit := none, shelf2 := if j.rerun then j.shelf2 else some p.unit }
    usePk { c with d := d, plan := c.plan ++ [p] } r

/-- Place one PK request within its function's grant and, for a signing slot, within the limits of 01 R35. -/
def cutPk (shelves : List Nat) (grants : Tab Nat) (c : Cut) (r : Req) : Cut :=
  match findJob c.d r.job with
  | none => c
  | some j =>
    let f := r.fn.toNat
    let n := usePk c r
    if stuckAt c j then c
    else if tabGet grants f 0 < pkCost (tabGet n.whole f 0) (tabGet n.half f 0) then stick c j
    else
      match placePk c.d shelves c.plan r (fun u => pkAvoid j r.kind u || (r.kind == .sign && signLimit shelves c.plan u)) with
      | none => stick c j
      | some p =>
        let d := if r.kind == .sign then signPlaced c.d c.at_ j.id p.unit else modJob c.d j.id fun j => { j with stage := .planned }
        usePk { c with d := d, plan := c.plan ++ [p] } r

/-- Assign a GCM job its counter value at the cut that grants its AES part (06 R188, R189). -/
def assignIv (d : Dev) (j : Job) : Dev :=
  if (j.kind = .gcmEncrypt || j.kind = .meterGcmEncrypt) && j.iv.isNone then
    match jobRecord d j with
    | none => d
    | some rec_ =>
      let pfx := match d.nv.cellar.find? fun r => r.img.record == rec_ with | some r => r.img.pfx | none => 0
      let (v, d) := nonceAssign (pmcFn d 0x65 j.e.fn.toNat 1) rec_
      modJob d j.id fun j => { j with iv := some (gcmIv d.nv.twin.index pfx v), claim := false }
  else d

/-- A use of a pad store entry (07 R207): its age starts again, and the hit is counted. -/
def hitPad (d : Dev) (at_ : BitVec 48) (j : Job) (h : Nat) : Dev :=
  let d := pmcFn { d with wings := { d.wings with padHit := satInc d.wings.padHit } } 0x63 j.e.fn.toNat 1
  match j.key with
  | none => d
  | some k =>
    { d with wings := { d.wings with pads := d.wings.pads.map fun (p : PadEntry) =>
        if p.slot == k.slot && p.version == k.version && p.hash.toNat == h then { p with lastUse := at_ } else p } }

/-- A part with a key is placed: the key-cache slot is used, and the pad store entry, or the job pays for its fill (07 R206). -/
def placeKeyed (d : Dev) (at_ : BitVec 48) (j : Job) (pads : Bool) (hit : Bool) : Dev :=
  let d := modJob d j.id fun j => if j.stage == .running then j else { j with stage := .planned }
  let d := match j.key with | some k => touchKey d k.slot | none => d
  if pads && hit then hitPad d at_ j (jobHash j) else d

/-- Place one symmetric or hash request within what is left of its function's grant; the round trip of a secret takes two shelves in
different racks (08 R251). -/
def cutStream (w : Wing) (shelves : List Nat) (grants : Tab Nat) (c : Cut) (r : Req) : Cut :=
  match findJob c.d r.job with
  | none => c
  | some j =>
    let f := r.fn.toNat
    let left := tabGet grants f 0 - tabGet c.whole f 0
    let step (n : Nat) : StreamStep :=
      if r.whole then
        let n := if r.kind == .unwrap then crateCost (BitVec.ofNat 8 (leAt (crateOf j) 8 1))
          else if j.kind = .crateExport then crateCost ((j.key.map (·.ktype)).getD 0)
          else if r.kind == .hashOp then 2 else 12
        { pay := 0, aad := 0, blocks := n, ends := true }
      else if r.kind == .hashOp then hashStep c.d j n
      else symStep c.d j n
    if stuckAt c j then c
    else if left = 0 || (r.whole && decide (left < r.want)) || (r.kind == .symOp && !ivReady c.d j) then stick c j
    else
      let twice := r.whole && r.kind == .hashOp
      match placeStream c.d w c.amend shelves c.plan r (if twice then 1 else min left r.want) (fun n => (step n).ends) with
      | none => stick c j
      | some (u, first, n) =>
        let s := step n
        let h := jobHash j
        let second : Option Placed := if twice then
            (placeStream c.d w c.amend (shelves.filter fun x => shelfRack x != shelfRack u) c.plan r 1 (fun n => (step n).ends)).map fun x =>
              { placed c.d r x.1 x.2.1 x.2.2 s with kind := .check }
          else none
        let pads := r.kind == .hashOp && (twice || (usesPads j.kind && (jobProgress c.d j).2.2 == 0))
        let ready := padReady c.d j h
        let rel := if pads && ready && !padValid c.d j h then j.key.map (fun k => (k.slot, BitVec.ofNat 2 h)) else none
        let p := { placed c.d r u first n s with fill := pads && !ready, grp := placeGroup c.d r u, relies := rel }
        let d := placeKeyed (if r.kind == .symOp then assignIv c.d j else c.d) c.at_ j pads ready
        if twice && second.isNone then stick c j
        else { c with d := d, plan := c.plan ++ [p] ++ second.toList, whole := tabPut c.whole f (tabGet c.whole f 0 + n + (second.toList.map (·.units)).sum) }

/-! ### Derivation groups (07 R204-R206) -/

/-- A member of a group: whether it builds its key's pad states, finds them, or relies on a fill that runs now. -/
structure Member where
  r : Req
  j : Job
  fill : Bool
  hit : Bool
  relies : Bool
deriving DecidableEq, Repr

def deriveComps (j : Job) : Nat := compsOf j.kind j.e (jobKeyType j)

/-- The first derivations that fit into `room` compressions, at most 250: each key without pad states pays 2 once for the group. -/
def packDerive (d : Dev) (room : Nat) : List (Req × Job) → List Nat → Nat → Nat → List Member
  | [], _, _, _ => []
  | (r, j) :: rest, paid, comp, n =>
    let own := match j.key with | some k => paid.contains k.slot | none => false
    let ready := padReady d j 1
    let fill := !own && !ready
    let cost := deriveComps j + (if fill then 2 else 0)
    if decide (250 ≤ n) || decide (room < comp + cost) then []
    else
      { r := r, j := j, fill := fill, hit := !own && ready, relies := !own && ready && !padValid d j 1 } ::
        packDerive d room rest (match j.key with | some k => if fill then k.slot :: paid else paid | none => paid) (comp + cost) (n + 1)

def groupComps (ms : List Member) : Nat := (ms.map fun m => deriveComps m.j + (if m.fill then 2 else 0)).sum

/-- Sub-slots that derivations ask for: those of one shelf, and of a further group after every 250 (07 R205). -/
def deriveDemand (d : Dev) : Nat → List (Req × Job) → Nat
  | 0, _ => 0
  | n + 1, xs =>
    let ms := packDerive d 500 xs [] 0 0
    ceilDiv (groupComps ms) 10 + (if ms.length = 250 then deriveDemand d n (xs.drop 250) else 0)

/-- Place a group on a shelf: its first member carries the windows of all. -/
def placeGroupOn (c : Cut) (u first n : Nat) (ms : List Member) : Cut :=
  let ps := ms.zipIdx.map fun (m : Member × Nat) =>
    let j := m.1.j
    let p := placed c.d m.1.r u first (if m.2 = 0 then n else 0) { pay := 0, aad := 0, blocks := deriveComps j, ends := true }
    let rel := if m.1.relies then j.key.map (fun k => (k.slot, (1 : BitVec 2))) else none
    { p with fill := m.1.fill, grp := if (ms.any fun x => x.r.group == 0) then 0 else 2, relies := rel }
  let f := match ms with | m :: _ => m.r.fn.toNat | [] => 0
  { c with d := ms.foldl (fun d m => placeKeyed d c.at_ m.j true m.hit) c.d, plan := c.plan ++ ps,
           whole := tabPut c.whole f (tabGet c.whole f 0 + n) }

/-- A function's derivations: as one job they go to one shelf, and those for which it has no room are left; after a whole group of 250
the next group goes on (07 R204, R205). Those left without a place hold their queues up. -/
def cutGroups (shelves : List Nat) (grant f : Nat) : Nat → Cut → List (Req × Job) → Cut
  | 0, c, rest => rest.foldl (fun c x => stick c x.2) c
  | n + 1, c, rest =>
    let stop (c : Cut) (rest : List (Req × Job)) : Cut := rest.foldl (fun c x => stick c x.2) c
    let left := min (shelfUnits .hsh) (grant - tabGet c.whole f 0)
    let want := ceilDiv (groupComps (packDerive c.d (10 * left) rest [] 0 0)) 10
    let room (u : Nat) : Nat := freeWindows .hsh c.amend c.plan u false
    if want = 0 then stop c rest
    else
      let best := (shelves.map room).foldl max 0
      match (match shelves.find? fun u => decide (want ≤ room u) with
        | some u => some u
        | none => shelves.find? fun u => room u == best) with
      | none => stop c rest
      | some u =>
        let ms := packDerive c.d (10 * min want (room u)) rest [] 0 0
        let k := ceilDiv (groupComps ms) 10
        match windowAt .hsh c.amend c.plan u k false with
        | some first =>
          if ms.isEmpty then stop c rest
          else
            let c := placeGroupOn c u first k ms
            if ms.length = 250 then cutGroups shelves grant f n c (rest.drop 250) else stop c (rest.drop ms.length)
        | none => stop c rest

/-- One function's requests in order; its derivations take their share at the position of the first (07 R204). -/
def cutFn (w : Wing) (shelves : List Nat) (grants : Tab Nat) (c : Cut) (reqs : List Req) : Cut :=
  let isDer (r : Req) : Bool := r.kind == .derive
  (reqs.foldl (fun (acc : Cut × Bool) r =>
    if isDer r then
      if acc.2 then acc
      else
        let c := acc.1
        let ds := (reqs.filter isDer).filterMap fun r => (findJob c.d r.job).map fun j => (r, j)
        let f := r.fn.toNat
        (cutGroups shelves (tabGet grants f 0) f (ds.length + 1) c (ds.filter fun x => !stuckAt c x.2), true)
    else
      (match w with
        | .pk => cutPk shelves grants acc.1 r
        | _ => cutStream w shelves grants acc.1 r, acc.2)) (c, false)).1

/-- The windows of a shelf in the order of 06 R175: a moved stream never takes window 0. -/
def assignRuns : List Placed → Nat → List (Nat × Nat)
  | [], _ => []
  | p :: r, n => (p.first, n) :: assignRuns r (n + p.units)

def settleWindows (w : Wing) (plan : List Placed) : List Placed :=
  let mine := plan.filter fun p => p.wing == w && decide (0 < p.units)
  let maps : Tab (List (Nat × Nat)) := ((mine.map fun p => p.unit.toNat).eraseDups).foldl (fun (t : Tab (List (Nat × Nat))) u =>
    let ps := sortBy (·.grp) (mine.filter fun p => p.unit.toNat == u)
    tabPut t u (assignRuns ps (match ps with | p :: _ => (if p.grp = 3 then 1 else 0) | [] => 0))) []
  plan.map fun p =>
    if p.wing == w then
      match (tabGet maps p.unit.toNat []).find? fun x => x.1 == p.first with
      | some x => { p with first := x.2 }
      | none => p
    else p

/-! ### Demand and grants of a wing -/

/-- Whole slots and halves that PK requests ask for. -/
def pkAsks (reqs : List Req) (f : Nat) : Nat × Nat :=
  let own := reqs.filter fun r => r.fn.toNat == f
  ((own.filter fun r => !r.half).length, (own.filter fun r => r.half).length)

/-- Sub-slots that symmetric or hash requests of a function ask for. -/
def streamAsks (d : Dev) (reqs : List Req) (f : Nat) : Nat :=
  let own := reqs.filter fun r => r.fn.toNat == f
  let der := (own.filter fun r => r.kind == .derive).filterMap fun r => (findJob d r.job).map fun j => (r, j)
  ((own.filter fun r => r.kind != .derive).map (·.want)).sum + deriveDemand d der.length der

/-- The share table of a tick in the order of its tie-break pointer. -/
def wingEntries (d : Dev) (w : Wing) (at_ : BitVec 48) : List ShareEntry :=
  sortBy (fun e => cyclicKey (tieOf d (wingUnit w) + (at_ - d.tick).setWidth 8) e.func.toNat) (tableFor d w at_.toNat)

/-- Slots that a plan has committed before the grants. -/
def committedSlots (c : Cut) : Tab Nat :=
  ((c.whole ++ c.half).map (·.1)).eraseDups.foldl (fun t f => tabPut t f (pkCost (tabGet c.whole f 0) (tabGet c.half f 0))) []

/-- A PK function's ready demand beside what is committed: halves pair within the function (01 R27, R32). -/
def pkDemand (c : Cut) (f : Nat) (a : Nat × Nat) : Nat :=
  let w := tabGet c.whole f 0
  let h := tabGet c.half f 0
  pkCost (w + a.1) (h + a.2) - pkCost w h

/-- Cut one wing's plan. -/
def cutWing (c : Cut) (w : Wing) : Cut :=
  let d := c.d
  let shelves := (fillOrder d w 1).filter (shelfCounts d w)
  let first := if w = .pk then dueFirst d c.at_ else []
  let c := first.foldl (placeFirst shelves) { c with whole := [], half := [], stuck := [] }
  let v := committedSlots c
  let entries := wingEntries c.d w c.at_
  let ready := wingReqs c.d w
  let reqs := withValues c.d (entries.flatMap fun e => ready.filter fun r => r.fn == e.func) []
  let asks (f : Nat) : Nat × Nat := if w = .pk then pkAsks reqs f else (streamAsks c.d reqs f, 0)
  let claims := entries.map fun e =>
    let f := e.func.toNat
    { e := e, v := tabGet v f 0, d := if w = .pk then pkDemand c f (asks f) else (asks f).1 : Claim }
  let grants := grantWing (shelves.length * shelfUnits w) claims v
  let seen := reqs.map (fun r => r.fn.toNat) |>.eraseDups
  let gs := grants.foldl (fun t g => tabPut t (wingNo w * 256 + g.1) g.2) c.d.wings.grants
  let ds := seen.foldl (fun t f => tabPut (tabPut t (wingNo w * 256 + f) (asks f).1) (768 + wingNo w * 256 + f) (asks f).2) c.d.wings.demand
  let c := { c with d := { c.d with wings := { c.d.wings with grants := gs, demand := ds } } }
  let c := entries.foldl (fun c e => cutFn w shelves grants c (reqs.filter fun r => r.fn == e.func)) c
  if w = .pk then c else { c with plan := settleWindows w c.plan }

/-- A streaming shelf that runs an aborted stream takes no work in the tick planned: it wipes (01 R43). -/
def restAborted (d : Dev) : Dev :=
  d.wings.planCur.foldl (fun d p =>
    match findJob d p.job with
    | none => d
    | some j =>
      let stream := (p.kind == .symOp || p.kind == .hashOp) && j.kind != .crateExport && jobPart j != .trip
      if stream && (j.aborted || j.halted || !jobCurrent d j) then modUnit d p.unit.toNat fun x => { x with rest := true } else d) d

/-- A staged job's key is checked again at the cut (04 R111, 08 R254, R256): gone, the job ends; no longer cached, it loads
again. -/
def recheckJob (d : Dev) (fuse : Fuse) (j : Job) : Dev :=
  if (j.stage != .wait && j.stage != .load) || !j.checked || j.started then d
  else if d.bat.locked && !lockAllows j.kind j.e then failJob d j.id (stLife, 0x04)
  else if lcState fuse == 3 then failJob d j.id (stLife, 0)
  else if zeroizedFails d j then failJob d j.id (stZeroized, 0)
  else if j.stage == .load || j.e.keysel = 0 || j.kind = .keyEvict || j.todo.contains .keeper then d
  else
    let k := findKeys d j
    match k.fail with
    | some r => failJob d j.id r
    | none =>
      let d := if k.loads.isEmpty then d else k.loads.foldl (fun d r => wantLoad d j.e.fn r) d
      modJob d j.id fun j => { j with
        key := if j.e.keysel = 1 then k.key else j.key, wkey := if k.wkey.isSome then k.wkey else j.wkey,
        ekey := if k.ekey.isSome then k.ekey else j.ekey,
        loads := k.loads.map (fun r => (r.img.key, r.img.version)), stage := if k.loads.isEmpty then .wait else .load }

/-- RANDOM_BYTES jobs of the next tick: functions in cyclic order, 256 jobs and 65,536 bytes at most, within the blocks of the AES
pairs in service (04 R124, 09 R279, R280). -/
def cutRandom (d : Dev) : Dev :=
  let tie := blockTie d d.ties.rng + 1
  let js := sortBy (fun j => cyclicKey tie j.e.fn.toNat)
    (d.jobs.filter fun j => j.kind = .randomBytes && j.stage == .wait && cutEligible d j && canDeliver d j.e.fn.toNat && !prWaits d j.id)
  let cap := blocksCap d
  let r := js.foldl (fun (acc : Dev × Nat × Nat × Nat) j =>
    let n := paramBits j.e 0 17
    let b := acc.2.2.2
    if acc.2.1 < 256 && decide (acc.2.2.1 + n ≤ 65536) && (b == 0 || decide (b + reqBlocks n ≤ cap)) then
      (modJob acc.1 j.id fun j => { j with stage := .planned }, acc.2.1 + 1, acc.2.2.1 + n, b + reqBlocks n)
    else acc) (d, 0, 0, 0)
  { r.1 with rng := { r.1.rng with blocksNext := r.2.2.2 } }

/-- Jobs that were not ready for want of a committed nonce block are counted, those among them that the cut itself made wait
(06 R196). -/
def countNonceWaits (d : Dev) : Dev :=
  let js := d.jobs.filter fun j => j.stage == .wait && j.claim && cutEligible d j && !ivReady d j
  let d := js.foldl (fun d j => pmcFn d 0x66 j.e.fn.toNat 1) d
  { d with keys := { d.keys with njWaits := satAdd d.keys.njWaits js.length } }

/-- A placement that verifies takes its draw from the porter instance when it can deliver; without one the shelf takes λ = 1
(05 R143, R145). -/
def verifyDraws (d : Dev) (plan : List Placed) : Dev × List Placed :=
  plan.foldl (fun (acc : Dev × List Placed) p =>
    let d := acc.1
    let ver := p.draw.isEmpty && (p.kind == .verify || (p.kind == .pkOp && (match findJob d p.job with
      | some j => j.kind = .ecdsaVerifyP384 || j.kind = .ecdsaVerifyP384Key || j.kind = .ecdsaVerifyP256 || j.kind = .ecdsaVerifyP256Key
      | none => false)))
    match (if ver then takeDraw d 256 (if p.half then 80 else 112) else none) with
    | some (bs, d) => (d, acc.2 ++ [{ p with draw := bs }])
    | none => (d, acc.2 ++ [p])) (d, [])

/-- The plan cut of a tick (01 R22, R28, R32): once in each tick, for the next. -/
def planCut (d : Dev) (fuse : Fuse) : Dev :=
  if d.cutDone then d
  else
    let d := { d with cyc := 38976, cutDone := true, wings := { d.wings with grants := [], demand := [] } }
    let d := d.jobs.foldl (fun d j => recheckJob d fuse j) d
    let d := restAborted d
    let c : Cut := { d := d, at_ := d.tick + 1, amend := false, plan := [], whole := [], half := [], stuck := [] }
    let c := cutWing c .pk
    let c := cutWing c .sym
    let c := cutWing c .hsh
    let (d, plan) := verifyDraws (cutRandom (countNonceWaits c.d)) c.plan
    let work (w : Wing) : Nat := match w with | .pk => 0x30 | .sym => 0x32 | .hsh => 0x34
    let d := [Wing.pk, .sym, .hsh].foldl (fun d w => d.wings.grants.foldl (fun d g =>
      if g.1 / 256 = wingNo w then pmcFn d (work w) (g.1 % 256) g.2 else d) d) d
    let d := plan.foldl (fun d p => if p.wing == .pk then pmcFn d 0x31 p.fn.toNat 1 else d) d
    let d := { d with jobs := d.jobs.map fun (j : Job) => if plan.any fun p => p.job == j.id then { j with started := true } else j }
    { d with wings := { d.wings with planNext := plan } }

end Sys2Proof.Machine
end

