-- ==== Sys2Proof/Machine/OpMem.lean ====
section
/-! DEFINITION. The operand memory of the shelves (05 R142, 06 R171, R172, 07 R202, R203, 01 R44) and the stream contexts of the racks
(01 R45, 06 R181, 07 R211), as they stand between one boundary and the next. Operand memory holds what the load windows wrote and what
the tick's windows put out; the working values of a program in the middle of its run have no form in the spec (log entry 69). -/

namespace Sys2Proof.Machine

/-! ### Public-key shelves (05 R142) -/

/-- The digest that a signing part signs. -/
def signDigest (j : Job) (block : List Byte) : List Byte :=
  match jobPart j with
  | .sign => sha384 block
  | .trip => List.replicate 48 0xA5
  | _ => opAt j.e 0 (jobCurve j).len

/-- The input area of an operation: its operands in the order of their layout, or what a verification of a signature takes. -/
def pkInput (j : Job) (k : PartKind) : List Byte :=
  let n := (jobCurve j).len
  match k with
  | .sign => fit n (signDigest j j.sig)
  | .verify => fit n (signDigest j j.meterKey) ++ fit (2 * n) j.sig
  | _ =>
    match jobPart j with
    | .main => if j.kind = .debugAuthorise then fit 48 j.sig ++ opAt j.e 32 96 else opAt j.e 0 (j.e.operands.length - operandOff j.e)
    | _ => []

/-- What the load window writes for one operation. The key area holds d, Qx and Qy of the key that the operation uses. -/
def pkLoads (j : Job) (p : Placed) : List (Nat × List Byte) :=
  let lane := if p.half then p.first else 0
  let n := (jobCurve j).len
  let rsa := j.kind = .rsaVerifyPkcs1v15 || j.kind = .rsaVerifyPss
  let k := paramBits j.e 0 16
  let key : List Byte :=
    if p.kind == .verify || isPubType ((j.key.map (·.ktype)).getD 0) then zeros n ++ fit (2 * n) (keyPoint j)
    else if jobPart j = .pair || (keyBytes j).isEmpty then [] else fit n (keyBytes j) ++ fit (2 * n) (keyPoint j)
  let draw := if p.kind == .verify || !p.draw.isEmpty then p.draw else drawBytesOf j
  if rsa then [(0, opAt j.e 0 68), (0x400, slice (stagedPrefix j) 0 k), (0x600, slice (stagedPrefix j) k k)]
  else [(0x400 * lane, pkInput j p.kind), (0x800 + 0x100 * lane, draw), (0xA00 + 0x100 * lane, key)]

/-! ### Windows of the streaming shelves (06 R171, 07 R202) -/

/-- What one window does to its partition: which job uses it, and the bytes it leaves there. -/
structure WindowUse where
  window : Nat
  fn     : FnNo
  job    : JobId
  writes : List (Nat × List Byte)
deriving DecidableEq, Repr

/-- A stream's windows of a tick, each with where it starts and where it ends. -/
def symTrail (j : Job) (i : SymIn) : Nat → SymAt → List (SymAt × SymAt)
  | 0, _ => []
  | n + 1, x =>
    let y := symWindow j i x
    if x.fin || (y.aad = x.aad && y.pay = x.pay && !y.fin) then [] else (x, y) :: symTrail j i n y

/-- The windows of a symmetric part: input at +0x000, output at +0x200. A wrap or unwrap stays in its first window (06 R186). -/
def symUses (j : Job) (priv : Bool) (p : Placed) : List WindowUse :=
  let use (k : Nat) (inp out : List Byte) : WindowUse :=
    { window := p.first + k, fn := p.fn, job := p.job, writes := [(0, fit (min 512 inp.length) inp), (0x200, fit (min 512 out.length) out)] }
  if p.kind == .unwrap then [use 0 ((crateOf j).drop 32) []]
  else if j.kind = .crateExport then
    match j.key, j.ekey with
    | some k, some w => [use 0 [] ((makeCrate (j.e.param.getLsbD 0 && priv) k w).drop 32)]
    | _, _ => [use 0 [] []]
  else if jobPart j = .trip then
    let blk := List.replicate 64 (0xA5 : Byte)
    [use 0 blk (gcmCrypt (keyBytes j) (zeros 12) blk)]
  else
    let pay := j.payDone + p.pay
    let aad := j.aadDone + p.aad
    let all := !p.keeps
    let trail := symTrail j { symIn j priv with aad := aad, pay := pay } p.units
      { aad := j.aadDone, pay := j.payDone, blocks := j.blocks, odd := false, fin := false }
    let body := symBody j priv (slice (stagedPrefix j) (payOff j) pay)
    let rest := if all then (symFinal { j with payDone := pay, aadDone := aad } priv).out.drop (outOff j + body.length) else []
    trail.zipIdx.map fun t =>
      let x := t.1.1
      let y := t.1.2
      use t.2 (slice (gcmAad j) x.aad (y.aad - x.aad) ++ slice (stagedPrefix j) (payOff j + x.pay) (y.pay - x.pay))
        (slice body x.pay (y.pay - x.pay) ++ (if t.2 + 1 = trail.length then rest else []))

/-- A compression's block: from the message, or built by the data mover (padding, derivation input, outer HMAC blocks). -/
structure HashBlk where
  built : Bool
  bytes : List Byte
deriving DecidableEq, Repr

/-- Blocks of a message of which `n` bytes come from staging; the rest is padding. -/
def streamBlocks (h n : Nat) (padded : List Byte) : List HashBlk :=
  (chunks (hashBlock h) padded).zipIdx.map fun x => { built := decide (n < hashBlock h * (x.2 + 1)), bytes := x.1 }

/-- The blocks of an HMAC after its pad blocks: the message with its padding, then the outer block. -/
def hmacBlocks (h : Nat) (key msg : List Byte) (built : Bool) : List HashBlk :=
  let bl := hashBlock h
  let rest (m : List Byte) : List Byte := (hashPadded h (zeros bl ++ m)).drop bl
  let inner := hashOf h (hmacKey h key 0x36 ++ msg)
  (streamBlocks h (if built then 0 else msg.length) (rest msg)) ++ (chunks bl (rest inner)).map fun b => { built := true, bytes := b }

/-- The whole message of a hash job. -/
def hashMessage (j : Job) : List Byte :=
  if j.kind = .imageDigest then [0x47, 0x55, 0x4C, 0x4A, 0x4F, 0x52, 0x49, 0x4D] ++ opAt j.e 0 8 ++ stagedPrefix j else stagedPrefix j

/-- The blocks of a hash part in order, pad blocks left out. -/
def hashBlocks (j : Job) : List HashBlk :=
  let h := jobHash j
  if jobPart j = .trip then hmacBlocks 1 (keyBytes j) (List.replicate 64 0xA5) false
  else if j.kind = .hmacGenerate || j.kind = .hmacVerify then hmacBlocks h (keyBytes j) (stagedPrefix j) false
  else streamBlocks h (hashMessage j).length (hashPadded h (hashMessage j))

/-- The blocks of a derivation: for each iteration its input blocks, then the outer block. -/
def deriveBlocks (j : Job) : List HashBlk :=
  let x := deriveSpec j
  (List.range (ceilDiv x.2.2 48)).flatMap fun i => hmacBlocks 1 (keyBytes j) (kdfInput x.1 x.2.1 x.2.2 i) true

/-- The writes of one window: message blocks at 0x000, built blocks at 0x500, output at 0xA00. -/
def hashWrites (bs : List HashBlk) (out : List Byte) : List (Nat × List Byte) :=
  [(0, (bs.filter fun b => !b.built).flatMap (·.bytes)), (0x500, (bs.filter fun b => b.built).flatMap (·.bytes)), (0xA00, out.take 256)]

/-- The windows of a hash part; a fill takes the first two positions of the first window (07 R206). -/
def hashUses (j : Job) (p : Placed) : List WindowUse :=
  let per := if jobHash j = 0 then 12 else 10
  let fill := if p.fill then 2 else 0
  let bs := ((hashBlocks j).drop j.blocks).take p.blocks
  let ended := j.blocks + p.blocks == (hashBlocks j).length
  (List.range p.units).map fun i =>
    let mine := (bs.drop (per * i - fill)).take (if i = 0 then per - fill else per)
    { window := p.first + i, fn := p.fn, job := p.job,
      writes := hashWrites mine (if ended && i + 1 == p.units then (hashFinal { j with blocks := j.blocks + p.blocks }).out else []) }

/-- The windows of a derivation group; `ms` are its members in order. Inner compressions come before outer ones in each window. -/
def deriveUses (ms : List (Placed × Job)) : List WindowUse :=
  match ms with
  | [] => []
  | (p, _) :: _ =>
    let fills := 2 * (ms.filter fun m => m.1.fill).length
    let bs := ms.flatMap fun m =>
      let b := deriveBlocks m.2
      b.zipIdx.map fun x => (x.1, x.2 % (b.length / ceilDiv (deriveSpec m.2).2.2 48) + 1 == b.length / ceilDiv (deriveSpec m.2).2.2 48,
        if x.2 + 1 = b.length then deriveValue m.2 else [])
    (List.range p.units).map fun i =>
      let mine := (bs.drop (10 * i - fills)).take (10 * (i + 1) - fills - (10 * i - fills))
      let order := (mine.filter fun x => !x.2.1) ++ mine.filter fun x => x.2.1
      { window := p.first + i, fn := p.fn, job := p.job, writes := hashWrites (order.map (·.1)) (order.flatMap (·.2.2)) }

/-- All window uses of a shelf in a tick, in window order. -/
def shelfUses (d : Dev) (plan : List Placed) (u : Nat) : List WindowUse :=
  let mine := plan.filter fun p => p.unit.toNat == u && decide (0 < p.units) && !p.dummy
  sortBy (·.window) (mine.flatMap fun p =>
    match findJob d p.job with
    | none => []
    | some j =>
      if p.wing = .sym then symUses j (privileged d j.e.fn) p
      else if p.kind == .derive then
        deriveUses ((plan.filter fun q => q.unit == p.unit && q.kind == .derive && q.first == p.first && q.fn == p.fn).filterMap fun q =>
          (findJob d q.job).map fun k => (q, k))
      else hashUses j p)

/-! ### Partitions and their owners (06 R172, 07 R203) -/

/-- The partition of a window: its number, base and size in operand memory. -/
def partOf (w : Wing) (k : Nat) : Nat := if w = .hsh then k % 4 else k
def partBase (w : Wing) (n : Nat) : Nat :=
  if w = .hsh then 0x1000 * n else 0x400 * (n / 2) + (if n % 2 = 1 then 0x8000 else 0)
def partSize (w : Wing) : Nat := if w = .hsh then 0x1000 else 0x400

/-- One window uses its partition: a new owner's function finds it wiped. -/
def useWindow (w : Wing) (x : UnitSt) (v : WindowUse) : UnitSt :=
  let n := partOf w v.window
  let base := partBase w n
  let m := match tabFind x.owners n with
    | some (f, _) => if f = v.fn then x.opmem else memWipe x.opmem base (partSize w)
    | none => x.opmem
  { x with opmem := v.writes.foldl (fun m o => memPutBytes m (base + o.1) o.2) m, owners := tabPut x.owners n (v.fn, v.job) }

/-- The job that last used a window's partition before that window ran in this tick. -/
def lastUser (d : Dev) (plan : List Placed) (u k : Nat) : Option JobId :=
  match unitWing u with
  | none => none
  | some w =>
    let before := (shelfUses d plan u).filter fun v => decide (v.window < k) && partOf w v.window == partOf w k
    match before.getLast? with
    | some v => some v.job
    | none => (tabFind (getUnit d u).owners (partOf w k)).map (·.2)

/-- The streaming shelves at the end of a tick: every window of the plan has used its partition. -/
def useWindows (d : Dev) (plan : List Placed) : Dev :=
  ((plan.filter fun p => p.wing != .pk).map fun p => p.unit.toNat).eraseDups.foldl (fun e u =>
    match unitWing u with
    | some w => modUnit e u fun x => (shelfUses d plan u).foldl (useWindow w) x
    | none => e) d

/-- Operand memory at the start of a tick: every public-key shelf has wiped and loads its operations (05 R140, R141); a shelf that
wipes or tests itself, or is RETIRED, holds zeros (01 R43, R48). -/
def loadShelves (d : Dev) : Dev :=
  let zeroed (x : Nat × UnitSt) : Bool :=
    unitWing x.1 == some .pk || x.2.state == 2 || x.2.state == 3 || x.2.state == 4 || x.2.state == 6
  let wipe (x : Nat × UnitSt) : Nat × UnitSt := if zeroed x then (x.1, { x.2 with opmem := [], owners := [] }) else x
  let d := { d with units := d.units.map wipe }
  (d.wings.planCur.filter fun p => p.wing == .pk && p.kind != .empty && !p.dummy).foldl (fun d p =>
    match findJob d p.job with
    | some j => modUnit d p.unit.toNat fun x => { x with opmem := (pkLoads j p).foldl (fun m o => memPutBytes m o.1 o.2) x.opmem }
    | none => d) d

/-! ### Stream contexts (06 R181, 07 R211) -/

/-- A symmetric stream's 128 bytes after its last released block. -/
def symCtx (j : Job) (priv : Bool) : List Byte :=
  let k := aesKey j
  let n := j.payDone / 16
  let pay := slice (stagedPrefix j) (payOff j) j.payDone
  let h := aesEnc k (zeros 16)
  let last (bs iv : List Byte) : List Byte := if n = 0 then iv else slice bs (16 * (n - 1)) 16
  let c : List Byte × List Byte × List Byte × List Byte :=
    match j.kind with
    | .gcmEncrypt | .gcmDecrypt | .meterGcmEncrypt | .meterGcmDecrypt =>
      let j0 := gcmJobIv j ++ [0, 0, 0, 1]
      let ct := if j.kind = .gcmEncrypt || j.kind = .meterGcmEncrypt then symBody j priv pay else pay
      let aad := slice (gcmAad j) 0 j.aadDone
      (incCounter 4 j0 (n + 1), h, aesEnc k j0, beBytes 16 (ghash (beNat h) (padBlocks aad ++ ct)))
    | .ccmEncrypt | .ccmDecrypt =>
      let pt := if j.kind = .ccmEncrypt then pay else symBody j priv pay
      let head := ccmHead (ccmNonce j) (gcmAad j) ((payload j.kind j.e).getD 0) (opLe j.e 1 1)
      let done := if j.aadDone = jobAad j then padBlocks head ++ pt else head.take (16 * (1 + ccmBlocks j j.aadDone))
      (ccmCounter (ccmNonce j) (n + 1), cbcMac k done, aesEnc k (ccmCounter (ccmNonce j) 0), [])
    | .ctrCrypt => (incCounter 16 (opAt j.e 0 16) n, [], [], [])
    | .cbcEncrypt => (last (cbcEnc k (opAt j.e 0 16) pay) (opAt j.e 0 16), [], [], [])
    | .cbcDecrypt => (last pay (opAt j.e 0 16), [], [], [])
    | _ => ([], cbcMac k pay, h, [])
  let body := fit 16 c.1 ++ fit 16 c.2.1 ++ fit 16 c.2.2.1 ++ fit 16 c.2.2.2 ++ fit 16 c.2.2.2 ++ leBytes 8 j.payDone ++ leBytes 4 j.aadDone
    ++ leBytes 4 ((j.key.map (·.slot)).getD 0) ++ leBytes 2 j.e.fn.toNat ++ leBytes 2 j.gen.toNat ++ leBytes 4 j.id
    ++ leBytes 8 j.written ++ zeros 12
  body ++ leBytes 4 (crc32 body).toNat

/-- A hash stream's 512 bytes. The partial block holds what is staged beyond the last whole block, when all whole blocks are done. -/
def hashCtx (j : Job) : List Byte :=
  let h := jobHash j
  let bl := hashBlock h
  let mac := j.kind = .hmacGenerate || j.kind = .hmacVerify
  let pre := if mac then hmacKey h (keyBytes j) 0x36 else []
  let msg := hashMessage j
  let rest := msg.drop (bl * j.blocks)
  let part := if rest.length < bl then rest else []
  let kind := if j.kind = .hmacGenerate then 1 else if j.kind = .hmacVerify then 2 else if j.kind = .imageDigest then 3 else 0
  let body := hashState h (pre ++ msg.take (bl * j.blocks)) ++ leBytes 16 (bl * j.blocks + pre.length) ++ fit 128 part ++ leBytes 2 part.length
    ++ [BitVec.ofNat 8 (h + 1), BitVec.ofNat 8 kind] ++ leBytes 4 (if mac then (j.key.map (·.slot)).getD 0 else 0)
    ++ leBytes 2 j.e.fn.toNat ++ leBytes 2 j.gen.toNat ++ leBytes 4 j.id ++ leBytes 8 j.written ++ zeros 276
  body ++ leBytes 4 (crc32 body).toNat

/-- A stream's context goes. -/
def dropCtx (d : Dev) (id : JobId) : Dev := { d with wings := { d.wings with ctxs := d.wings.ctxs.filter fun c => c.job != id } }

/-- A released tick of a stream that goes on writes its context in the rack where it ran (01 R45). -/
def writeCtx (d : Dev) (u : Nat) (j : Job) (bytes : List Byte) : Dev :=
  let d := dropCtx d j.id
  { d with wings := { d.wings with ctxs := d.wings.ctxs ++ [{ rack := BitVec.ofNat 16 (shelfRack u), job := j.id, bytes := bytes }] } }

/-- Streams of the tick that begins take their contexts to the racks they run in (01 R46). -/
def moveCtxs (d : Dev) : Dev :=
  let move (c : Ctx) : Ctx :=
    match d.wings.planCur.find? fun p => p.job == c.job && (p.kind == .symOp || p.kind == .hashOp) && !p.dummy with
    | some p => { c with rack := BitVec.ofNat 16 (shelfRack p.unit.toNat) }
    | none => c
  { d with wings := { d.wings with ctxs := d.wings.ctxs.map move } }

end Sys2Proof.Machine
end

