-- ==== Sys2Proof/Machine/Functions.lean ====
section
/-! DEFINITION. Functions (02 R53-R65): creation from the pools, release, function-level reset and generations. -/

namespace Sys2Proof.Machine

/-! ### Pools (02 R54, R57) -/

/-- Resources drawn by the functions outside ABSENT: queue pairs, vectors, key-cache units, privileged VFs. -/
def drawn (d : Dev) (amount : FnSt → Nat) : Nat :=
  ((d.fns.filter fun p => p.2.state != 0).map fun p => amount p.2).sum

def privilegedVfs (d : Dev) : Nat :=
  (d.fns.filter fun p => p.2.state != 0 && p.2.priv && p.1 != 0 && p.1 != 128).length

/-- The first failed check of a creation, as FUNC_CMDSTAT.result numbers it; 0 when every check passes (02 R55, R59). -/
def createCheck (d : Dev) (f : Nat) : Byte :=
  let a := guardVal d (regAddr (funcPage f) 0x040)
  let kq := guardVal d (regAddr (funcPage f) 0x044)
  let vectors := bits a 16 6
  let qpairs := bits a 8 5
  let units := bits kq 0 9
  let isPf := f == 0 || f == 128
  if (getFn d f).state != 0 then 1
  else if vectors = 0 || 32 < vectors || 16 < qpairs || 256 < units then 2
  else if 2048 < drawn d (·.qpairs) + qpairs then 3
  else if 4096 < drawn d (·.vectors) + vectors then 4
  else if bit a 31 && !isPf && decide (8 ≤ privilegedVfs d) then 5
  else if 960 < drawn d (·.kcUnits) + units then 6
  else if guardBad d (regAddr (funcPage f) 0x040) || guardBad d (regAddr (funcPage f) 0x044) ||
      (getGuard d (regAddr (funcPage f) 0x040)).pend.isSome || (getGuard d (regAddr (funcPage f) 0x044)).pend.isSome then 7
  else 0

/-- CREATE draws everything at once or nothing (02 R55). -/
def createFn (d : Dev) (f : Nat) : Dev :=
  let r := createCheck d f
  if r = 0 then
    let a := guardVal d (regAddr (funcPage f) 0x040)
    let kq := guardVal d (regAddr (funcPage f) 0x044)
    let d := modFn d f fun x => { x with state := 1, result := 0, priv := bit a 31 && f != 0 && f != 128, vectors := bits a 16 6,
                                         qpairs := bits a 8 5, kcUnits := bits kq 0 9, readyAt := none, wiped := false }
    instUnseeded d f
  else modFn d f fun x => { x with result := r }

/-! ### Resets (02 R60-R64) -/

/-- A mirrored change that its device gives up: UNDO when the devices are JOINED and it is not locked; else it waits in the outbox
(16 R433, R443). A change not yet sent only goes. -/
def undoChange (d : Dev) (id : DWord) : Dev :=
  let tw := d.nv.twin
  match tw.outbox.find? fun c => c.id == id with
  | none => d
  | some c =>
    let gone := { d with nv := { d.nv with twin := { tw with outbox := tw.outbox.filter fun x => x.id != id } } }
    if !c.sent then gone
    else if d.twn.state == 4 && !d.bat.locked then twnSend gone 0x24 id 0 [] []
    else d

/-- What a landing reset does with one job of the old generation (02 R62): a job in a cut plan runs on and is discarded by the
collector, a KPR job that has committed keeps its effect and loses its record, every other is dropped. -/
def resetJob (d : Dev) (j : Job) : Dev :=
  if jobEnded j || inPlans d j || movesLife d j.id then emptyVerify d j.id
  else dropJob (undoChange (emptyVerify d j.id) j.change) j.id

/-- An open session that a test picks out is CLOSED (11 R328). -/
def closeSession (d : Dev) (p : Session → Bool) : Dev :=
  match d.crd.session with
  | some s =>
    if p s && (s.state == 0 || s.state == 1 || s.state == 5) then
      { d with crd := { d.crd with session := some { sessionWiped s with state := 4 } } }
    else d
  | none => d

/-- A monitor is bound to a function, as written (17 R458). -/
def monBound (m : MonSt) (f : Nat) : Bool := bit m.bind 31 && bits m.bind 0 8 == f

/-- The monitors bound to a function that is reset stop and are zeroed at the next boundary; a release unbinds them (17 R458). -/
def monsReset (d : Dev) (f : Nat) (release : Bool) : Dev :=
  { d with mons := d.mons.map fun (v : Nat × MonSt) =>
      if monBound v.2 f then (v.1, { v.2 with en := false, clr := true, bind := if release then 0 else v.2.bind }) else v }

/-- A mailbox of MGT page 5 and its change; mailbox 0 is that of PF 0 (18 R477). -/
def getMbox (d : Dev) (k : Bool) : Mailbox := if k then d.mgt.mb1 else d.mgt.mb0
def setMbox (d : Dev) (k : Bool) (m : Mailbox) : Dev :=
  if k then { d with mgt := { d.mgt with mb1 := m } } else { d with mgt := { d.mgt with mb0 := m } }

/-- A reset of a PF empties its mailbox; the reply to what it had sent is discarded (18 R477). -/
def mboxReset (d : Dev) (k : Bool) : Dev :=
  let m := getMbox d k
  setMbox d k { m with inbusy := false, outvalid := false, stale := m.stale || m.inbusy }

/-- What a reset of a function takes with it in other blocks: its monitors, its dump page (17 R459) and a PF's mailbox. -/
def resetSides (d : Dev) (f : Nat) (release : Bool) : Dev :=
  let d := monsReset (modFn d f fun x => { x with dbase := 0, dcfg := 0, dlost := 0, dwritten := 0, dseq := 0, dumps := [] }) f release
  if f = 0 || f = 128 then mboxReset d (f == 128) else d

/-- A reset lands on a function (02 R61, R62): READY at the boundary into n+2, or n+3 when the plan of n+1 is cut; a reset that
lands on a function already RESETTING or RELEASING joins. -/
def landReset (d : Dev) (f : Nat) (release : Bool) : Dev :=
  let x := getFn d f
  if x.state == 0 then d
  else if x.state == 2 || x.state == 4 then resetSides d f release
  else
    let d := resetSides d f release
    let old := d.jobs.filter fun j => j.e.fn.toNat == f && j.gen == x.gen
    let at_ : BitVec 48 := d.tick + (if d.cutDone then 3 else 2)
    let d := modFn d f fun x => { x with state := if release then 4 else 2, gen := x.gen + 1, readyAt := some at_, wiped := false }
    let d := { d with msix := d.msix.map fun (v : Nat × MsixSt) => if v.1 / 32 = f then (v.1, { v.2 with work := false }) else v }
    settleDraws (instUnseeded (old.foldl resetJob (closeSession d fun s => s.fn.toNat == f)) f)

/-- The work of a resetting function (02 R63): its queues return to their reset configuration, its pending bits clear, its
key-cache slots are wiped. -/
def wipeFn (d : Dev) (f : Nat) : Dev :=
  let d := { d with
    queues := d.queues.filter fun (q : Nat × QueueSt) => q.1 / 16 != f,
    msix := d.msix.map fun (v : Nat × MsixSt) => if v.1 / 32 = f then (v.1, { v.2 with pend := false }) else v }
  let d := (d.keys.cache.filter fun e => e.kind != .cellar && e.fn.toNat == f && !e.dropped).foldl dropEntry (blockReset d [quePage f])
  modFn d f fun x => { x with wiped := true }

/-- Functions at a boundary: the wipe of a reset, and its end (02 R56, R63, R64). `d.tick` is the tick that begins. DESIGN CHOICE: a
release clears FUNC_HALTINFO, a reset keeps it; R65 does not say (log entry 33). -/
def fnBoundary (d : Dev) (f : Nat) : Dev :=
  let x := getFn d f
  let d := if (x.state == 2 || x.state == 4) && !x.wiped then wipeFn d f else d
  match x.readyAt with
  | some t =>
    if decide (d.tick.toNat < t.toNat) then d
    else if x.state == 4 then
      instAbsent (modFn d f fun x => { x with state := 0, busy := false, readyAt := none, priv := false, vectors := 0, qpairs := 0,
                                              kcUnits := 0, haltCode := 0, haltQ := 0 }) f
    else raise (modFn d f fun x => { x with state := 1, busy := false, readyAt := none }) (funcPage f) 1
  | none => d

/-- A PCIe reset of a function's configuration space (02 R60): Bus Master Enable, the MSI-X capability and its table; for a PF
also VF Enable, NumVFs and the request in its DOE mailbox (02 R75). -/
def configReset (d : Dev) (f : Nat) : Dev :=
  let d := modFn d f fun x => { x with bme := false, fnMask := false }
  let d := { d with msix := d.msix.map fun (v : Nat × MsixSt) =>
    if v.1 / 32 = f then (v.1, { v.2 with addr := 0, data := 0, mask := true, pend := false }) else v }
  if f = 0 || f = 128 then
    modPort d (f == 128) fun p => { p with vfEnable := false, numVfs := 0, doe := { request := none } }
  else d

/-- Function-level reset by PCIe. -/
def flrOne (d : Dev) (f : Nat) : Dev := configReset (landReset d f false) f

/-- The functions of a port. -/
def portFns (p : Bool) : List Nat := (List.range 128).map fun k => 128 * portNo p + k

/-- A PCIe FLR: of a PF, every function of its port. -/
def pcieFlr (d : Dev) (f : Nat) : Dev := if f = 0 || f = 128 then (portFns (f == 128)).foldl flrOne d else flrOne d f

/-! ### FUNC_CMD (02 R52, R58, R59) -/

/-- Who may command a function: the PF of its port through MMIO, porter cores, and the keeper side. -/
def mayCommandFn (i : Ini) (f : Nat) : Bool :=
  isPorterCore i.id || isKeeperCore i.id || isBoot i.id
    || (isPf i.id && i.priv && i.id.toNat / 128 == f / 128)

/-- A write of FUNC_CMD: 1 CREATE, 2 RELEASE, 3 RESET; ignored and recorded while busy. -/
def funcCommand (d : Dev) (i : Ini) (f cmd : Nat) : Dev :=
  let x := getFn d f
  if !mayCommandFn i f || x.busy then ignored d i (regAddr (funcPage f) 0x048)
  else if cmd = 1 then createFn d f
  else if cmd = 2 then
    if x.state == 1 || x.state == 3 then landReset (modFn d f fun x => { x with busy := true, result := 0 }) f true
    else modFn d f fun x => { x with result := 1 }
  else if cmd = 3 then
    if x.state == 0 then modFn d f fun x => { x with result := 1 }
    else landReset (modFn d f fun x => { x with busy := true, result := 0 }) f false
  else d

/-- FUNC_CREATE (02 R55). -/
def execFuncCreate (ini : Ini) (fn : FnNo) (s : State) : Host.Outcome State Fault Refusal :=
  act s fun d => funcCommand d ini fn.toNat 1

/-- FUNC_RELEASE (02 R56). -/
def execFuncRelease (ini : Ini) (fn : FnNo) (s : State) : Host.Outcome State Fault Refusal :=
  act s fun d => funcCommand d ini fn.toNat 2

/-- FUNC_RESET (02 R60, R61). -/
def execFuncReset (ini : Ini) (fn : FnNo) (s : State) : Host.Outcome State Fault Refusal :=
  act s fun d => funcCommand d ini fn.toNat 3

/-- PCIE_FLR (02 R60). -/
def execPcieFlr (fn : FnNo) (s : State) : Host.Outcome State Fault Refusal := act s fun d => pcieFlr d fn.toNat

/-- BUS_MASTER_ENABLE (02 R68): with it off every vector counts as masked; pending messages go when it returns. -/
def execBusMasterEnable (fn : FnNo) (on : Bool) (s : State) : Host.Outcome State Fault Refusal :=
  act s fun d => modFn d fn.toNat fun x => { x with bme := on }

/-- MSIX_MASK_CLEAR (02 R66, R68): entries at or above the function's count ignore writes. -/
def execMsixMaskClear (fn : FnNo) (vector : BitVec 5) (s : State) : Host.Outcome State Fault Refusal :=
  act s fun d =>
    if (getFn d fn.toNat).state != 0 && decide (vector.toNat < (getFn d fn.toNat).vectors) then
      setVec d fn.toNat vector.toNat { getVec d fn.toNat vector.toNat with mask := false }
    else d

end Sys2Proof.Machine
end

