-- ==== Sys2Proof/Machine/Queues.lean ====
section
/-! DEFINITION. Queue pairs (03 R76-R104): the hatch, fetching, the DMA of jobs, and the completion path. -/

namespace Sys2Proof.Machine

/-! ### Rings (03 R76, R78, R82, R84) -/

/-- Units of a submission ring, records of a completion ring: 4 KiB x 2^size over 32 bytes. -/
def ringUnits (sz : BitVec 4) : Nat := 128 * 2 ^ min sz.toNat 12

/-- Jobs of a queue's present generation that are still in the device. -/
def queueJobs (d : Dev) (f q : Nat) : List Job :=
  d.jobs.filter fun j => j.e.fn.toNat == f && j.e.q.toNat == q && jobCurrent d j

/-- Entries fetched and not yet planned: what the fetch window counts. -/
def unplanned (j : Job) : Bool := !j.started && (j.stage == .load || j.stage == .wait || j.stage == .keeper || j.stage == .twin)

/-- Bytes of a job's read buffer that its engine has done with. -/
def readUsed (j : Job) : Nat :=
  if isHashKind j.kind then hashBlock (jobHash j) * j.blocks else if j.blocks = 0 then 0 else payOff j - jobAad j + j.aadDone + j.payDone

/-- Read data that the staging area holds for a job (03 R84): what its next tick may use, or the buffer of a KPR job that copies it. -/
def stagedRead (j : Job) : Nat :=
  let n := (stagedPrefix j).length
  if j.kind = .tenantPlanLoad || j.kind = .shareBundleLoad then n
  else if isKpr j.kind then 0
  else min (n - readUsed j) (if isHashKind j.kind then 64000 else 32768)

/-- Staging bytes of a job: its entry, its crate read with keysel 2 and its read data, each rounded up to 64 bytes. -/
def stageBytes (j : Job) : Nat :=
  64 * (ceilDiv (32 * j.units) 64 + ceilDiv (tabGet j.got 255 []).length 64 + ceilDiv (stagedRead j) 64)

/-- Staging bytes and whole pages that a function holds. -/
def fnStage (d : Dev) (f : Nat) : Nat := ((d.jobs.filter fun j => j.e.fn.toNat == f).map stageBytes).sum
def fnPages (d : Dev) (f : Nat) : Nat := ceilDiv (fnStage d f) 4096

/-- Functions that hold staged material. -/
def stagers (d : Dev) : List Nat := (d.jobs.map fun j => j.e.fn.toNat).eraseDups

/-- Staging pages that the functions hold, one more for each entry read that is outstanding. -/
def stagePagesUsed (d : Dev) : Nat :=
  ((stagers d).map fun f => fnPages d f).sum + (d.queues.filter fun (q : Nat × QueueSt) => q.2.entryOut).length

/-- Fetching pauses for every function while no staging page is free. -/
def stageRoom (d : Dev) : Bool := decide (stagePagesUsed d < 1024)

/-- What stops the fetching of a queue (03 R82): its fetch window, its completion ring, the staging area. -/
structure FetchStop where
  win   : Bool
  cq    : Bool
  stage : Bool
deriving DecidableEq, Repr

def fetchStop (d : Dev) (f q : Nat) : FetchStop :=
  let x := getQ d f q
  let js := queueJobs d f q
  { win := decide (16 * 2 ^ min x.win.toNat 8 ≤ (js.filter unplanned).length),
    cq := decide (ringUnits x.cqsz ≤ (x.cqProd - x.cqCons).toNat + js.length), stage := !stageRoom d }

/-- A queue that has an entry to fetch shows what stops it. -/
def showStop (d : Dev) (f q : Nat) (s : FetchStop) : Dev :=
  modQ d f q fun x => { x with cqwait := s.cq, winwait := s.win, stwait := s.stage, cqSaw := x.cqSaw || s.cq, winSaw := x.winSaw || s.win }

/-! ### The pages of the staging area (03 R84, 10 R295) -/

/-- A function takes or gives back pages until it holds as many as its staged material fills: first pages that it held last, then the
lowest free ones, which are wiped. The pages that are wiped come with the result. -/
def stageFn (d : Dev) (f : Nat) : Dev × List Nat :=
  let t := d.pot.stage
  let mine := (t.filter fun (p : Nat × StagePage) => p.2.held && p.2.fn.toNat == f).map (·.1)
  let need := fnPages d f
  let set (ps : List Nat) (held : Bool) : Dev :=
    { d with pot := { d.pot with stage := ps.foldl (fun t p => tabPut t p { fn := BitVec.ofNat 8 f, held := held }) t } }
  if need ≤ mine.length then (set (mine.drop need) false, [])
  else
    let own := (t.filter fun (p : Nat × StagePage) => !p.2.held && p.2.fn.toNat == f).map (·.1)
    let n := need - mine.length
    let wiped := ((List.range 1024).filter fun p => match tabFind t p with | some x => !x.held && x.fn.toNat != f | none => true).take (n - own.length)
    (set (own.take n ++ wiped) true, wiped)

/-- The staging area after a command: each function holds the pages that its material fills. -/
def stageSettle (s : State) : State :=
  let fns := (((s.dev.pot.stage.filter fun (p : Nat × StagePage) => p.2.held).map fun p => p.2.fn.toNat) ++ stagers s.dev).eraseDups
  fns.foldl (fun s f =>
    let r := stageFn s.dev f
    { s with dev := r.1, mem := r.2.foldl (fun m p => memWipe m (0x1000 * p) 0x1000) s.mem }) s

/-- A command of the device with its staging pages settled. -/
def actStaged (s : State) (f : Dev → Dev) : Host.Outcome State Fault Refusal := .next (stageSettle { s with dev := f s.dev })

/-! ### The index block (03 R77, R83, R93, R99) -/

/-- Write the device half of the index block; a function that may issue no request meets malformation 0x0F. -/
def writeIndex (d : Dev) (f q : Nat) : Dev :=
  let x := getQ d f q
  let fn : FnNo := BitVec.ofNat 8 f
  if x.dead then d
  else if !(getFn d f).bme then haltFunction d fn (BitVec.ofNat 4 q) 0x0F x.sqCons
  else pmcFn (emit d (.indexWrite fn (BitVec.ofNat 4 q) (x.idxbase + 32) x.sqCons x.cqProd)) 0x27 f 8

/-- Issue an index read (03 R81). -/
def readIndex (d : Dev) (f q : Nat) : Dev :=
  let x := getQ d f q
  let fn : FnNo := BitVec.ofNat 8 f
  if (getFn d f).bme then emit (setQ d f q { x with idxOut := true }) (.indexRead fn (BitVec.ofNat 4 q) x.idxbase)
  else haltFunction d fn (BitVec.ofNat 4 q) 0x0E x.sqCons

/-- A ring of a doorbell (03 R81). -/
def ringHatch (d : Dev) (f q : Nat) : Dev :=
  if queueOpen d (BitVec.ofNat 8 f) (BitVec.ofNat 4 q) then
    let d := pmcFn d 0x20 f 1
    if (getQ d f q).idxOut then modQ d f q fun x => { x with reread := true } else readIndex d f q
  else d

/-- Fetch the next entry while the conditions of 03 R82 hold; a ring's end splits the read (03 R83). -/
def fetchMore (d : Dev) (f q : Nat) : Dev :=
  let x := getQ d f q
  let fn : FnNo := BitVec.ofNat 8 f
  let qn : QNo := BitVec.ofNat 4 q
  let avail := (x.sqProd - x.sqCons).toNat
  let stop := fetchStop d f q
  if !queueOpen d fn qn || x.entryOut || avail = 0 then modQ d f q fun x => { x with cqwait := false, winwait := false, stwait := false }
  else
    let d := showStop d f q stop
    if stop.win || stop.cq || stop.stage then d
    else if !(getFn d f).bme then haltFunction d fn qn 0x0E x.sqCons
    else
      let n := min avail 128
      let pos := x.sqCons.toNat % ringUnits x.sqsz
      let head := min n (ringUnits x.sqsz - pos)
      let d := modQ d f q fun x => { x with entryOut := true }
      let d := emitReads d fn (.entryRead fn qn) (x.sqbase + BitVec.ofNat 64 (32 * pos)) (32 * head)
      if head < n then emitReads d fn (.entryRead fn qn) x.sqbase (32 * (n - head)) else d

/-- Fetching resumes by itself when a cut has freed room (03 R82, R84): functions that staging stopped go on in cyclic order from the
porter hardware's pointer. -/
def fetchResume (d : Dev) (f q : Nat) : Dev :=
  let key (f : Nat) : Nat := cyclicKey (blockTie d d.ties.porter) f
  let before := d.queues.any fun (p : Nat × QueueSt) => p.2.stwait && decide (key (p.1 / 16) < key f)
  if (getQ d f q).stwait && before then d else fetchMore d f q

/-- An index read returns with sq_prod and cq_cons, or fails (03 R82, R102, R103). -/
def indexReturn (d : Dev) (f q : Nat) (res : Option (Word × Word)) : Dev :=
  let x := getQ d f q
  let fn : FnNo := BitVec.ofNat 8 f
  let qn : QNo := BitVec.ofNat 4 q
  if !x.idxOut then d
  else
    let d := modQ d f q fun x => { x with idxOut := false, reread := false }
    if !queueOpen d fn qn then d
    else
      match res with
      | none => haltFunction d fn qn 0x0E x.sqCons
      | some (prod, cons) =>
        let d := pmcFn d 0x26 f 8
        if ringUnits x.sqsz < (prod - x.sqCons).toNat then haltFunction d fn qn 0x05 x.sqCons
        else if ringUnits x.cqsz < (x.cqProd - cons).toNat then haltFunction d fn qn 0x06 x.sqCons
        else
          let d := modQ d f q fun x => { x with sqProd := prod, cqCons := cons }
          let d := fetchMore d f q
          if x.reread then readIndex d f q else d

/-- An entry read returns, or fails: the entry is checked and staged, and the index block is written after a burst's last entry
(03 R83, R102, R103). -/
def entryReturn (d : Dev) (fuse : Fuse) (f q : Nat) (res : Option (List Byte)) : Dev :=
  let x := getQ d f q
  let fn : FnNo := BitVec.ofNat 8 f
  let qn : QNo := BitVec.ofNat 4 q
  if !x.entryOut then d
  else
    let d := modQ d f q fun x => { x with entryOut := false }
    if !queueOpen d fn qn then d
    else
      match res with
      | none => haltFunction d fn qn 0x0E x.sqCons
      | some bs =>
        let d := pmcFn d 0x26 f bs.length
        match bytesMalformed fn qn (x.sqProd - x.sqCons).toNat bs with
        | .inl c => writeIndex (haltFunction d fn qn c x.sqCons) f q
        | .inr (i, e, n) =>
          let d := pmcFn d 0x21 f 1
          let d := modQ d f q fun x => { x with sqCons := x.sqCons + BitVec.ofNat 32 n }
          let d := stageEntry d fuse i.kind e n x.sqCons
          let d := fetchMore d f q
          if (getQ d f q).entryOut then d else writeIndex d f q

/-! ### Enable and disable (03 R93) -/

/-- QUE_CFG.en = 1: the device's indices start at 0, the last-read ones with them (log entry 9). DESIGN CHOICE: an index or entry read
that was outstanding when en went to 0 stays outstanding, and its return is acted on when the queue is enabled again (log entry 71). -/
def enableQueue (d : Dev) (i : Ini) (f q : Nat) : Dev :=
  let x := getQ d f q
  if x.disabling then ignored d i (regAddr (quePage f) (0x100 * q + 0x058))
  else if x.en || (getFn d f).qpairs ≤ q || (getFn d f).state == 0 then d
  else
    let d := setQ d f q { x with en := true, sqCons := 0, cqProd := 0, sqProd := 0, cqCons := 0, cqwait := false, winwait := false,
                                 stwait := false, dead := false }
    if fnReady d f then writeIndex d f q else d

/-- QUE_CFG.en = 0: no further index read or fetch; the queue reads enabled until its last record is issued. -/
def disableQueue (d : Dev) (i : Ini) (f q : Nat) : Dev :=
  let x := getQ d f q
  if x.disabling then ignored d i (regAddr (quePage f) (0x100 * q + 0x058))
  else if x.en then setQ d f q { x with en := false, disabling := !(queueJobs d f q).isEmpty, cqwait := false, winwait := false, stwait := false, reread := false }
  else d

/-! ### Data reads (03 R100, R101) -/

/-- A read of a job returns or fails. -/
def dataReturn (d : Dev) (fuse : Fuse) (id : JobId) (src : DmaSrc) (res : Option (List Byte)) : Dev :=
  match findJob d id with
  | none => d
  | some j =>
    if jobEnded j then d
    else
      match src, res with
      | .desc i, none => if (j.e.descs[i]?).any (fun x => !x.dir) then dmaFault d j (BitVec.ofNat 8 i) else d
      | .crate, none => if j.e.keysel = 2 && (!j.checked || decide (0 < crateRest j)) then dmaFault d j 0xFE else d
      | .desc i, some bs =>
        match j.e.descs[i]? with
        | some x =>
          if x.dir || (tabFind j.got i).isSome then d
          else readEnd (pmcFn (modJob d id fun j => { j with got := tabPut j.got i (fit x.blen.toNat bs) }) 0x26 j.e.fn.toNat x.blen.toNat) id
        | none => d
      | .crate, some bs =>
        if j.e.keysel = 2 && !j.checked && (tabFind j.got 255).isNone then
          checkJob (pmcFn (modJob d id fun j => { j with got := tabPut j.got 255 bs }) 0x26 j.e.fn.toNat bs.length) fuse id
        else if j.e.keysel = 2 && j.checked && decide (0 < crateRest j) then
          pmcFn (modJob d id fun j => { j with got := tabPut j.got 255 (tabGet j.got 255 [] ++ bs.take (crateRest j)) }) 0x26 j.e.fn.toNat bs.length
        else d

/-! ### The completion path (02 R67, R68, 03 R88, R89, R97) -/

/-- The record of a job, written in the tick that begins (03 R88, R89): res0 of a job with a write buffer counts its bytes. -/
def recordOf (d : Dev) (j : Job) (written : Nat) : List Byte :=
  let r := j.res
  let halted := r.status == stHalted
  let res0 : DWord := if writeLen j.e != 0 then BitVec.ofNat 64 (if r.zero then 0 else written) else r.res0
  leBytes 4 j.e.tag.toNat ++ leBytes 2 (jobInfo j.kind).code ++ [r.status] ++ (if j.moved && !halted then [1] else [0])
    ++ leBytes 4 j.sqpos.toNat ++ leBytes 2 j.gen.toNat ++ leBytes 1 j.e.q.toNat
    ++ (if halted then zeros 17 else [r.detail] ++ leBytes 8 res0.toNat ++ leBytes 4 d.tick.toNat ++ leBytes 4 r.res1.toNat)

/-- Pieces of a job's output on its write descriptors, from the bytes already written on: descriptor, address and bytes (03 R87). -/
def outPieces (j : Job) (from_ : Nat) (out : List Byte) : List (Nat × DWord × List Byte) :=
  ((j.e.descs.zipIdx.filter fun x => x.1.dir).foldl (fun (acc : List (Nat × DWord × List Byte) × Nat) x =>
    let n := x.1.blen.toNat
    let lo := max acc.2 from_
    let hi := min (acc.2 + n) (from_ + out.length)
    (if lo < hi then acc.1 ++ [(x.2, x.1.addr + BitVec.ofNat 64 (lo - acc.2), slice out (lo - from_) (hi - lo))] else acc.1, acc.2 + n)) ([], 0)).1

/-- Write such pieces to host memory. -/
def writePieces (d : Dev) (j : Job) (ps : List (Nat × DWord × List Byte)) : Dev :=
  ps.foldl (fun d x => pmcFn (emitWrites d j.e.fn x.2.1 x.2.2) 0x27 j.e.fn.toNat x.2.2.length) d

/-- Zeros over what a failed job must not leave: the whole output length of a public-key job and of an attestation, else what has been
written (04 R119, 05 R157). -/
def zeroLen (d : Dev) (j : Job) : Nat :=
  let x := getFn d j.e.fn.toNat
  if drawLen j.kind != 0 || j.kind = .attestKey || j.kind = .attestDevice then
    (outLen j.kind j.e (x.priv || isPf (j.e.fn.setWidth 10)) (jobKeyType j)).getD 0
  else j.written

/-- The output that a job's record waits for (03 R97 step 1, R98). Where the function may issue no request, a job that has output to
write ends with DMA_FAULT instead, which passes at the next boundary (03 R99, R101). -/
def outputJob (d : Dev) (j : Job) : Dev :=
  let ps := if j.res.zero then outPieces j 0 (zeros (zeroLen d j)) else outPieces j j.written j.res.out
  match ps with
  | [] => d
  | (i, _) :: _ =>
    if (getQ d j.e.fn.toNat j.e.q.toNat).dead then d
    else if (getFn d j.e.fn.toNat).bme then
      writePieces (modJob d j.id fun j => { j with written := if j.res.zero then j.written else j.written + j.res.out.length,
                                                   res := { j.res with out := [] } }) j ps
    else if j.res.status == stOk then
      let o := { outcome stDma (BitVec.ofNat 8 i) with res0 := BitVec.ofNat 64 j.written }
      modJob (emit d (.aer j.e.fn)) j.id fun j => { j with res := o }
    else d

/-- One record at cq_prod (03 R97 step 2); a record that cannot be written is malformation 0x0F. -/
def completeJob (d : Dev) (j : Job) : Dev :=
  let f := j.e.fn.toNat
  let q := j.e.q.toNat
  let x := getQ d f q
  let d := { d with jobs := d.jobs.filter fun k => k.id != j.id }
  if x.dead then d
  else if !(getFn d f).bme then haltFunction d j.e.fn j.e.q 0x0F j.sqpos
  else
    let rec_ := recordOf d j j.written
    let at_ := x.cqbase + BitVec.ofNat 64 (32 * (x.cqProd.toNat % ringUnits x.cqsz))
    let d := emit d (.record j.e.fn j.e.q at_ rec_)
    let d := modQ d f q fun x => { x with cqProd := x.cqProd + 1 }
    let d := pmcFn (pmcFn (pmcFn d 0x22 f 1) 0x27 f 32) (0x40 + j.res.status.toNat) f 1
    let v := x.vector.toNat
    if j.e.nointr && j.res.status != stHalted then d else setVec d f v { getVec d f v with work := true }

/-- A queue's records of the tick in fetch order, then its index block (03 R97). -/
def completeQueue (d : Dev) (js : List Job) (f q : Nat) : Dev :=
  let mine := js.filter fun j => j.e.fn.toNat == f && j.e.q.toNat == q
  if mine.isEmpty then d
  else
    let d := mine.foldl completeJob d
    if (getQ d f q).dead then d else writeIndex d f q

/-- Every vector with pending work, after the records. -/
def sendVectors (d : Dev) : Dev :=
  d.msix.foldl (fun d v => sendVector d (v.1 / 32) (v.1 % 32)) d

/-! ### The commands -/

/-- HATCH_RING (03 R80, R81). -/
def execHatchRing (fn : FnNo) (q : QNo) (s : State) : Host.Outcome State Fault Refusal := act s fun d => ringHatch d fn.toNat q.toNat

/-- INDEX_READ_RETURN (03 R82, R102). -/
def execIndexReadReturn (fn : FnNo) (q : QNo) (res : Option (Word × Word)) (s : State) : Host.Outcome State Fault Refusal :=
  act s fun d => indexReturn d fn.toNat q.toNat res

/-- ENTRY_READ_RETURN (03 R102). -/
def execEntryReadReturn (fn : FnNo) (q : QNo) (res : Option (List Byte)) (s : State) : Host.Outcome State Fault Refusal :=
  actStaged s fun d => entryReturn d s.fuse fn.toNat q.toNat res

/-- FETCH_RESUME (03 R82, R84). -/
def execFetchResume (fn : FnNo) (q : QNo) (s : State) : Host.Outcome State Fault Refusal :=
  act s fun d => fetchResume d fn.toNat q.toNat

/-- DMA_READ_COMPLETION (03 R100, R101). -/
def execDmaReadCompletion (job : JobId) (src : DmaSrc) (res : Option (List Byte)) (s : State) : Host.Outcome State Fault Refusal :=
  actStaged s fun d => dataReturn d s.fuse job src res

/-- DMA_COMPLETION_TIMEOUT (03 R100): the read fails. -/
def execDmaCompletionTimeout (tag : ReadTag) (s : State) : Host.Outcome State Fault Refusal :=
  act s fun d =>
    match tag with
    | .index fn q => indexReturn d fn.toNat q.toNat none
    | .entry fn q => entryReturn d s.fuse fn.toNat q.toNat none
    | .data job src => dataReturn d s.fuse job src none

/-- QUEUE_ENABLE (03 R93), by the function's own MMIO. -/
def execQueueEnable (fn : FnNo) (q : QNo) (s : State) : Host.Outcome State Fault Refusal :=
  let i : Ini := { id := fn.setWidth 10, priv := true }
  act s fun d => unlessLocked d i (quePage fn.toNat) (0x100 * q.toNat + 0x058) fun d => enableQueue d i fn.toNat q.toNat

/-- QUEUE_DISABLE (03 R93). -/
def execQueueDisable (fn : FnNo) (q : QNo) (s : State) : Host.Outcome State Fault Refusal :=
  let i : Ini := { id := fn.setWidth 10, priv := true }
  act s fun d => unlessLocked d i (quePage fn.toNat) (0x100 * q.toNat + 0x058) fun d => disableQueue d i fn.toNat q.toNat

end Sys2Proof.Machine
end

