-- ==== Sys2Proof/Machine/Collect.lean ====
section
/-! DEFINITION. The end of a tick on the wings: what the collector does with each result (01 R41), the fates of shelves
(01 R43, R48-R50, 05 R161-R164, 15 R408-R411), and the amendment of the plan already cut (01 R47). -/

namespace Sys2Proof.Machine

/-! ### Shelves -/

/-- Spares of a wing: the shelves that hold the spare role, one in a test, drained or in an OFF domain among them (14 R379, 15 R420). -/
def wingSpares (d : Dev) (w : Wing) : Nat := ((wingShelves w).filter fun u => !(getUnit d u).role && (getUnit d u).state != 6).length

/-- ACTIVE shelves that the ordering code promises (00 R2, 01 R26). -/
def wingPromised (gj7716 : Bool) : Wing → Nat
  | .pk => if gj7716 then 48 else 96
  | .sym => if gj7716 then 32 else 64
  | .hsh => if gj7716 then 8 else 16

/-- Causes 0 to 2 and 13 of the store room for a wing. -/
def spareCauses (d : Dev) (w : Wing) : Dev :=
  let thr := svcThr d
  let t := match w with | .pk => bits thr 0 8 | .sym => bits thr 8 8 | .hsh => bits thr 16 8
  let d := if wingSpares d w ≤ t then setCause d (wingNo w) else d
  let serving := ((wingShelves w).filter fun u => (getUnit d u).role && (getUnit d u).state != 6).length
  if serving < wingPromised d.gj7716 w && wingSpares d w == 0 then setCause d 13 else d

/-- The shelves below a unit: itself, or every shelf of a rack. -/
def shelvesBelow (u : Nat) : List Nat :=
  if isShelf u then [u]
  else
    match rackIndex u with
    | some (w, r) => (List.range (rackShelves w)).map fun j => shelfUnit w r j
    | none =>
      match unitWing u with
      | some w => wingShelves w
      | none => wingShelves .pk ++ wingShelves .sym ++ wingShelves .hsh

/-- Record a shelf's role in the store room: 0 spare, 1 ACTIVE, 2 RETIRED (15 R407). -/
def recordRole (d : Dev) (u : Nat) (r : BitVec 2) : Dev := { d with nv := { d.nv with roles := tabPut d.nv.roles u r } }

/-- The spare that takes a retired shelf's place: from its rack, else from the rack that the wing's order reaches first; the first
in cyclic order of identity from that rack's pointer (01 R49). -/
def chooseSpare (d : Dev) (w : Wing) (u : Nat) : Option Nat :=
  let spare (s : Nat) : Bool := (getUnit d s).state == 1 && domOn d (unitDomain s)
  let inRack (r : Nat) : List Nat := sortBy (fun s => cyclicKey (tieOf d r) s)
    (((List.range (rackShelves w)).map fun j => r + 1 + j).filter spare)
  match inRack (shelfRack u) with
  | s :: _ => some s
  | [] => ((sortBy (fun r => cyclicKey (tieOf d (wingUnit w)) r) (wingRackUnits w)).flatMap inRack).head?

/-- A unit enters ACTIVE (event 0x0504). -/
def enterActive (d : Dev) (u : Nat) (replaced : Option Nat) : Dev :=
  let d := modUnit d u fun x => { x with state := 0, role := true, test := .none, fresh := true }
  let d := recordRole d u 1
  let d := raise d (unitPage u) 2
  let d := match replaced with | some r => raise d (unitPage r) 2 | none => d
  evLog d 0x0504 (lineAt (unitPage u) 2) noFn (leBytes 2 u ++ leBytes 2 (replaced.getD 0xFFFF))

/-- Retire a shelf and bring a spare to its entry self-test; `cause` is 0 self-test, 1 second strike, 2 rotating test. DESIGN CHOICE: a
shelf that holds the spare role when it retires brings no spare, for the wing loses no slot with it (log entry 70). -/
def retireUnit (d : Dev) (u cause : Nat) : Dev :=
  match unitWing u with
  | none => d
  | some w =>
    let wasRole := (getUnit d u).role
    let d := modUnit d u fun x => { x with state := 6, role := false, epoch := x.epoch + 1, test := .none, request := 0, draining := false }
    let d := recordRole d u 2
    let d := raise (raise d (unitPage u) 0) svcPage 0
    let d := evLog d 0x0502 (lineAt (unitPage u) 0) noFn (leBytes 2 u ++ leBytes 1 cause)
    let d := if wasRole then
        (match chooseSpare d w u with
          | some s => modUnit d s fun x => { x with state := 3, test := .entry (BitVec.ofNat 16 u), role := true }
          | none => d)
      else d
    spareCauses d w

/-- PG_STAT.state of a unit: a rack's follows from the shelves below it (01 R20). -/
def unitState (d : Dev) (u : Nat) : BitVec 3 :=
  if isShelf u then (getUnit d u).state
  else
    let ss := (shelvesBelow u).map fun s => (getUnit d s).state
    if ss.any (· == 0) then 0
    else if ss.all (· == 6) then 6
    else if ss.any fun s => s == 2 || s == 3 || s == 4 then 3
    else if ss.any (· == 5) then 5
    else 1

/-- The racks above a shelf: its own, its wing's and the house rack. -/
def unitsAbove (s : Nat) : List Nat :=
  shelfRack s :: (match unitWing s with | some w => [wingUnit w, 0] | none => [0])

/-- The events of a rack that entered RETIRED, ACTIVE or DRAINED at a boundary (01 R21): those above the shelves that changed. -/
def rackEvents (before d : Dev) : Dev :=
  let changed := (d.units.map (·.1)).filter fun u => isShelf u && (getUnit before u).state != (getUnit d u).state
  ((changed.flatMap unitsAbove).eraseDups).foldl (fun d r =>
    let st := unitState d r
    if st == unitState before r then d
    else if st == 6 then raise d (unitPage r) 0
    else if st == 0 then raise d (unitPage r) 2
    else if st == 5 then raise d (unitPage r) 3
    else d) d

/-- A placement epoch rises at most once at a boundary (01 R40). DESIGN CHOICE: what takes work from a shelf takes it from the racks above,
whose epochs rise with it (log entry 70). -/
def epochsOnce (before d : Dev) : Dev :=
  let rose := (d.units.map (·.1)).filter fun u => isShelf u && (getUnit before u).epoch != (getUnit d u).epoch
  (rose ++ (rose.flatMap unitsAbove).eraseDups).foldl (fun d u => modUnit d u fun x => { x with epoch := (getUnit before u).epoch + 1 }) d

/-- A fault check fails: the shelf becomes SUSPECT (01 R48, event 0x0501). -/
def suspectUnit (d : Dev) (u kind : Nat) : Dev :=
  let x := getUnit d u
  if x.state == 6 || x.state == 2 then d
  else
    let d := setUnit d u { x with state := 2, epoch := x.epoch + 1, test := .suspect }
    let d := raise d (unitPage u) 1
    evLog d 0x0501 (lineAt (unitPage u) 1) noFn (leBytes 2 u ++ leBytes 1 kind ++ zeros 1 ++ leBytes 6 (x.epoch + 1).toNat)

/-- The kind of a failed check in byte 2 of event 0x0501. DESIGN CHOICE: the spec gives the byte no codes, and these are the model's
(log entry 70). -/
def checkCode : CheckKind → Nat
  | .abMismatch => 0 | .wipeReadback _ => 1 | .inversion => 2 | .keyExpansion => 3 | .ghash => 4 | .hashAb => 5 | .selfTest => 6
  | .resultCurve => 7

/-- Fault counters of a shelf's page (05 R165, 06 R196, 07 R218). -/
def countFault (x : UnitSt) : CheckKind → UnitSt
  | .abMismatch => { x with abmiss := satInc x.abmiss }
  | .hashAb => { x with abmiss := satInc x.abmiss }
  | .inversion => { x with inv := satInc x.inv }
  | .keyExpansion => { x with keyx := satInc x.keyx }
  | .ghash => { x with ghash := satInc x.ghash }
  | _ => x

/-- A strike on a shelf at this boundary, from which its window runs; a second one within the window of the last retires it at the next
boundary (05 R163). -/
def strikeUnit (d : Dev) (u : Nat) : Dev :=
  let x := getUnit d u
  let live := match x.strike with | some t => decide (d.tick.toNat < t.toNat + 2 ^ 20) | none => false
  setUnit d u { x with second := x.second || live, strike := some d.tick, xtick := d.tick.setWidth 32 }

/-- The end of a shelf's strike (05 R163). DESIGN CHOICE: PKS_XTICK keeps the tick of the strike that has ended (log entry 70). -/
def strikeEnd (d : Dev) (u : Nat) : Dev :=
  let x := getUnit d u
  match x.strike with
  | some t => if decide (t.toNat + 2 ^ 20 ≤ d.tick.toNat) then setUnit d u { x with strike := none } else d
  | none => d

/-- A self-test that ends at this boundary (01 R48-R50, 15 R408, R410). -/
def endTest (d : Dev) (failed : Nat → Bool) (u : Nat) : Dev :=
  let x := getUnit d u
  let d := modUnit d u fun x => { x with lastTest := d.tick }
  match x.test with
  | .none => if x.state == 4 then modUnit d u fun x => { x with state := 0 } else d
  | .suspect => if failed u then retireUnit d u 0 else enterActive d u none
  | .entry r => if failed u then retireUnit d u 0 else enterActive d u (some r.toNat)
  | .back active =>
    if failed u then retireUnit d u 0
    else if active then enterActive d u none
    else modUnit d u fun x => { x with state := 1, test := .none }
  | .rotSpare => d
  | .rotDue => d

/-- The last rotating test of a shelf, which the store room keeps (15 R405, R409). -/
def recordTest (d : Dev) (u : Nat) : Dev :=
  { modUnit d u fun x => { x with lastTest := d.tick } with nv := { d.nv with tested := tabPut d.nv.tested u d.tick } }

/-- Set or end the rotation of a wing. -/
def setRotation (d : Dev) (w : Wing) (r : Option Rotation) : Dev :=
  match w with
  | .pk => { d with wings := { d.wings with rotPk := r } }
  | .sym => { d with wings := { d.wings with rotSym := r } }
  | .hsh => { d with wings := { d.wings with rotHsh := r } }

/-- S at the end of its self-test; `u` is D, and `goes` whether the rotation goes on (15 R410, R411). -/
def rotSpareEnd (d : Dev) (w : Wing) (r : Rotation) (failed goes : Bool) : Dev :=
  let s := r.spare.toNat
  let u := r.due.toNat
  let d := recordTest d s
  if failed then setRotation (raise (retireUnit d s 2) svcPage 1) w none
  else
    let d := enterActive d s none
    if goes then setRotation (recordRole (modUnit d u fun x => { x with role := false }) u 0) w (some { r with phase := 2 })
    else setRotation d w none

/-- A rotation ends because a wing domain of S or D loses its last vote: roles are as last recorded (15 R411). -/
def rotLost (d : Dev) (w : Wing) (r : Rotation) (failed : Nat → Bool) : Dev :=
  let s := r.spare.toNat
  let u := r.due.toNat
  let d := setRotation d w none
  if r.phase = 1 then
    if failed s then raise (retireUnit d s 2) svcPage 1 else modUnit d s fun x => { x with state := 1, test := .none }
  else if r.phase = 2 && (getUnit d u).state == 0 then modUnit d u fun x => { x with state := 1, epoch := x.epoch + 1 }
  else d

/-- The rotation of a wing at a boundary (15 R410). `hit` is whether a fault check or a second strike decides for a shelf at this
boundary: then the rotation ends, and D has back the role it gave up (15 R411). -/
def rotStep (d : Dev) (failed hit : Nat → Bool) (w : Wing) : Dev :=
  match rotationOf d w with
  | none => d
  | some r =>
    let s := r.spare.toNat
    let u := r.due.toNat
    let serves := (getUnit d u).state == 0
    if r.phase < 3 && !(domOn d (unitDomain s) && domOn d (unitDomain u)) then rotLost d w r failed
    else if r.phase = 0 then
      if (getUnit d s).state == 1 then
        setRotation (modUnit d s fun x => { x with state := 3, test := .rotSpare }) w (some { r with phase := 1 })
      else setRotation d w none
    else if r.phase = 1 then rotSpareEnd d w r (failed s) (serves && !hit u)
    else if r.phase = 2 then
      if hit u then setRotation (modUnit d u fun x => { x with role := true }) w none
      else if serves then
        setRotation (modUnit d u fun x => { x with state := 3, test := .rotDue, epoch := x.epoch + 1 }) w (some { r with phase := 3 })
      else setRotation d w none
    else
      let d := recordTest d u
      let d := if failed u then raise (retireUnit d u 2) svcPage 1
        else modUnit d u fun x => { x with state := 1, test := .none }
      setRotation { d with svc := { d.svc with rotDone := satInc d.svc.rotDone } } w none

/-- The spare of a rotation: from the due shelf's rack if that holds one, else the first in the wing's tie-break order, which goes by
shelf identity (15 R409, 01 R37). -/
def rotSpare (d : Dev) (w : Wing) (u : Nat) : Option Nat :=
  let spares := (wingShelves w).filter fun s => (getUnit d s).state == 1 && domOn d (unitDomain s)
  let first (r : Nat) (ss : List Nat) : Option Nat := (sortBy (fun s => cyclicKey (tieOf d r) s) ss).head?
  match first (shelfRack u) (spares.filter fun s => shelfRack s == shelfRack u) with
  | some s => some s
  | none => first (wingUnit w) spares

/-- A wing starts a rotation when none is running (15 R409): the ACTIVE shelf tested longest ago, and a spare from its rack or
from the wing's order. DESIGN CHOICE (log 75): ROTATION_START stands for the time having come, every rotivl ticks. -/
def rotStart (d : Dev) (w : Wing) : Dev :=
  if (rotationOf d w).isSome || bits (svcCtl d) 0 16 == 0 then d
  else
    let act := sortBy (fun u => (getUnit d u).lastTest.toNat)
      (sortBy (fun u => cyclicKey (tieOf d (wingUnit w)) u) ((wingShelves w).filter fun u => (getUnit d u).state == 0))
    match act with
    | [] => d
    | u :: _ =>
      match rotSpare d w u with
      | none => { d with svc := { d.svc with nospare := satInc d.svc.nospare } }
      | some s => setRotation d w (some { phase := 0, due := BitVec.ofNat 16 u, spare := BitVec.ofNat 16 s })

/-! ### Service requests (01 R21, R50) -/

/-- A unit enters DRAINED. -/
def drainUnit (d : Dev) (u : Nat) : Dev :=
  let d := modUnit d u fun x => { x with state := 5, draining := false, role := x.state == 0, epoch := x.epoch + 1 }
  raise d (unitPage u) 3

/-- One shelf at a boundary: a drain that the last boundary acted on ends in DRAINED, unless the shelf was in a passing state until
now; then the requests of the tick that ends. `just` is whether a passing state ended or goes on. -/
def serviceUnit (just : Nat → Bool) (d : Dev) (u : Nat) : Dev :=
  let x := getUnit d u
  let d := if x.draining && (x.state == 0 || x.state == 1) && !just u then drainUnit d u
    else if x.state == 5 || x.state == 6 then modUnit d u fun x => { x with draining := false }
    else d
  let x := getUnit d u
  if x.request == 1 then setUnit d u { x with request := 0, draining := x.draining || !(x.state == 5 || x.state == 6) }
  else if x.request == 2 then
    if x.state == 5 && domOn d (unitDomain u) then setUnit d u { x with state := 3, test := .back x.role, request := 0 }
    else setUnit d u { x with request := 0 }
  else d

/-- A commit of RACK_SVCREQ makes one request, of the value committed last. -/
def requestService (d : Dev) (u : Nat) (v : Word) : Dev :=
  let r := bits v 0 2
  (shelvesBelow u).foldl (fun d s => modUnit d s fun x => { x with request := if r = 1 then 1 else if r = 2 then 2 else 0 }) d

/-! ### Results -/

/-- A job has a placement in the plan of the tick that begins; or one that works there. -/
def laterPlaced (d : Dev) (id : JobId) : Bool := d.wings.planNext.any fun p => p.job == id && p.kind != .empty
def laterWork (d : Dev) (id : JobId) : Bool := d.wings.planNext.any fun p => p.job == id && p.kind != .empty && !p.dummy

/-- What a job's dependent placements of the tick that begins become when its part is withheld: the windows of a chained part run
dummy blocks (06 R177), a committed verification runs empty (05 R164). -/
def idleLater (d : Dev) (id : JobId) : Dev :=
  { d with wings := { d.wings with planNext := d.wings.planNext.map fun (p : Placed) =>
      if p.job == id then (if p.kind == .verify then { p with kind := .empty } else { p with dummy := true }) else p } }

/-- A job goes back to wait for a placement (01 R41 tests 3 and 4, 06 R177). The random values of an operation on a public-key shelf went
with the tick: it draws anew (05 R148), at this boundary where its instance can deliver (09 R279; DESIGN CHOICE, log entry 70), so that the amended
plan can hold it. -/
def replaceJob (d : Dev) (j : Job) (drew : Bool) : Dev :=
  let d := pmcFn (modJob d j.id fun j => { j with stage := .wait, moved := true, draw := if drew then none else j.draw }) 0x36 j.e.fn.toNat 1
  if drew then makeDraw (stageDraw d j.id) j.id else d

/-- The verdict of R133 item 3 over what a part gives: a halt, a zeroization, a stop of the keeper world or an abort met while it was
placed comes first. -/
def overridden (j : Job) : Option OutcomeRec :=
  if j.halted then some (outcome stHalted 0)
  else if j.zeroed then some { outcome stZeroized 0 with zero := isDecrypt j.kind || isPkKind j.kind }
  else if j.absent then some { outcome stKeeper 0 with zero := isPkKind j.kind }
  else if j.aborted then
    some { outcome stAborted 0 with zero := isDecrypt j.kind || isPkKind j.kind,
                                    res0 := if isDecrypt j.kind || isPkKind j.kind then 0 else BitVec.ofNat 64 j.written }
  else
    match j.dmaBad with
    | some x => some { outcome stDma x with res0 := BitVec.ofNat 64 j.written }
    | none => none

/-- Place a job's new volatile key and finish it with the handle. -/
def finishWithKey (d : Dev) (j : Job) (kind : CacheKind) (k : KeyVal) (out : DWord → OutcomeRec) : Dev :=
  match placeReserved d j kind k with
  | some (d, h, _) => finishJob d j.id (out h)
  | none => finishJob d j.id { outcome stQuota 0 with zero := isPkKind j.kind }

/-- Finish a PK part with its outcome; anything but OK writes zeros over the write buffer (05 R157). -/
def finishPk (d : Dev) (j : Job) (o : OutcomeRec) : Dev :=
  finishJob d j.id (if o.status = stOk then o else { o with zero := true })

/-- A part is over: the next one is due. -/
def nextPart (d : Dev) (j : Job) : Dev :=
  let chained := laterWork d j.id
  modJob d j.id fun j => { j with todo := j.todo.drop 1, blocks := 0,
                                  stage := if chained then .planned else if j.todo.drop 1 |>.head? |>.any (· == .keeper) then .keeper else .wait }

/-- An earlier part fails: the dependent windows run dummy blocks, and the job completes when they have (06 R177). -/
def failPart (d : Dev) (j : Job) (o : OutcomeRec) : Dev :=
  if laterPlaced d j.id then modJob (idleLater d j.id) j.id fun j => { j with res := o, stage := .planned, vCommit := none }
  else finishJob d j.id o

/-- An unwrap's result (08 R248, 04 R122, R123). -/
def unwrapDone (d : Dev) (j : Job) : Dev :=
  if j.res.status != stOk then failPart d j j.res
  else match j.wkey with
  | none => failPart d j (outcome stAuth 0x02)
  | some w =>
    match openCrate (crateOf j) w with
    | none => failPart d j (outcome stAuth 0x02)
    | some k =>
      if j.kind = .crateLoad then finishWithKey d j .crateCopy k fun h => outcomeRes h
      else
        match placeReserved d j (.unwrapped j.id) k with
        | some (d, _, k) => nextPart (modJob d j.id fun j => { j with key := some k }) j
        | none => failPart d j (outcome stQuota 0)

/-- The switch of a replacement at its boundary: the version that passed the round trip becomes ACTIVE (08 R251), and the pad store
entries of the others go (07 R208). -/
def switchKey (d : Dev) (key : Word) (v : BitVec 16) : Dev :=
  if !((recByVersion d.nv key v).any fun r => r.img.state == 1) then d
  else
    let d := moveRecords d key [3] 4
    let d := moveRecords d key [2] 3
    let d := moveRecords d key [1] 2
    let gone := d.keys.cache.filter fun e => e.kind == .cellar && e.k.key == key &&
      (match recByVersion d.nv key e.k.version with | some r => r.img.state == 4 | none => true)
    let slots := (d.keys.cache.filter fun e => e.kind == .cellar && e.k.key == key && e.k.version != v).map (·.k.slot)
    let d := { d with wings := { d.wings with pads := d.wings.pads.filter fun p => !slots.contains p.slot } }
    gone.foldl dropEntry d

/-- The images that a replacement's switch writes. -/
def switchObjs (nv : Nv) (key : Word) : List MirrorObj :=
  (nv.cellar.filter fun r => r.img.key == key).filterMap fun r =>
    if r.img.state == 3 then some (.record { r.img with state := 4, value := [] })
    else if r.img.state == 2 then some (.record { r.img with state := 3 })
    else if r.img.state == 1 then some (.record { r.img with state := 2 })
    else none

/-- A round trip's verdict: the job's outcome, or FAULT_DETECTED with the pending version made INVALID (08 R251). A version that an
invalidation or a sweep has reached meanwhile gives ORPHANED (08 R256). -/
def tripDone (d : Dev) (j : Job) (ok : Bool) (det : Byte) : Dev :=
  match j.key with
  | none => finishJob d j.id (outcome stFault 0)
  | some k =>
    let pending := (recByVersion d.nv k.key k.version).any fun r => r.img.state == 1
    if !(keyLive d.nv k.key && lineLive d.nv k.key && pending) then finishJob d j.id (outcome stOrphaned 0)
    else if ok then mirrorJob d j.id (switchObjs d.nv k.key) [] (outcome stOk det)
    else finishJob (moveRecords d k.key [1] 4) j.id (outcome stFault 0)

/-- A signing part ends: held for verification, with the status of a rejected value if it has one (01 R35, 05 R158). -/
def signDone (d : Dev) (j : Job) (p : Placed) : Dev :=
  let _ := p
  if (jobPart j = .main || jobPart j = .trip || jobPart j = .sign) && j.draw.isNone then
    finishPk d j (outcome stRng 0)
  else
    match signJob j (signDigest j j.sig) with
    | .ok bs => modJob d j.id fun j => { j with stage := .held, meterKey := j.sig, sig := bs, res := outcome 0 0 }
    | .bad st det => modJob d j.id fun j => { j with stage := .held, meterKey := j.sig, sig := zeros (2 * (jobCurve j).len), res := outcome st det }

/-- A verification part ends (05 R161, R162). -/
def verifyDone (d : Dev) (j : Job) (p : Placed) (bad : List UnitNo) : Dev :=
  let c := jobCurve j
  let n := c.len
  let block := j.meterKey
  let good := !bad.contains p.unit && (ecdsaVerify c (fit n (signDigest j block)) (slice j.sig 0 n) (slice j.sig n n) (keyPoint j) == .ok [])
  let finish (d : Dev) (det : Byte) : Dev :=
    match jobPart j with
    | .trip => tripDone d j true det
    | .sign => finishJob d j.id { outcomeOut (block ++ j.sig) with detail := det }
    | _ => finishJob d j.id { outcomeOut j.sig with detail := det }
  let unit (o : Option UnitNo) : Nat := match o with | some u => u.toNat | none => 0xFFFF
  let log (d : Dev) (v : Byte) : Dev := evLog d 0x0503 noLine j.e.fn.toNat
    (leBytes 2 (unit j.shelf1) ++ leBytes 2 (unit j.shelf2) ++ leBytes 2 (unit j.shelf3) ++ leBytes 2 p.unit.toNat ++ [v])
  if j.res.status != stOk then
    let d := if j.res.status = stInput then modUnit d (unit (if j.rerun then j.shelf3 else j.shelf1)) fun x => { x with inval := satInc x.inval } else d
    finishPk d j j.res
  else if good then
    if j.rerun then log (strikeUnit (strikeUnit (finish d 1) (unit j.shelf1)) (unit j.shelf2)) 0 else finish d 0
  else
    let count (d : Dev) (u : Nat) : Dev := modUnit d u fun x => { x with xfails := satInc x.xfails }
    if j.rerun then
      let d := log (count (count d (unit j.shelf3)) p.unit.toNat) 1
      let d := match d.keys.cache.find? fun e => jobPart j != .sign && (j.key.map (·.slot)) == some e.k.slot && !e.dropped with
        | some e => dropEntry d e
        | none => d
      if jobPart j = .trip then tripDone d j false 0 else finishPk d j (outcome stFault 0)
    else
      let d := count (count d (unit j.shelf1)) p.unit.toNat
      stageDraw (modJob d j.id fun j => { j with stage := .wait, rerun := true, rerunFrom := d.tick + 1, draw := none, sig := j.meterKey }) j.id

/-- A PK.F or PK.H part ends; `bad` is whether the shelf's comparison in a round trip fails. -/
def pkDone (d : Dev) (j : Job) (bad : Bool) : Dev :=
  if 0 < jobDraw j && j.draw.isNone then finishPk d j (outcome stRng 0)
  else
    match jobPart j with
    | .pair =>
      match pkJob j with
      | .ok bs => modJob d j.id fun j => { j with sig := bs, todo := j.todo.drop 1, draw := none, stage := .keeper }
      | .bad st det => finishPk d j (outcome st det)
    | .trip => tripDone d j (!bad && ecMul (jobCurve j) (beNat (keyBytes j)) (ecBase (jobCurve j)) == some (pointOf (jobCurve j) (keyPoint j))) 0
    | _ =>
      match pkJob j with
      | .bad st det => finishPk d j (outcome st det)
      | .ok bs =>
        match j.kind with
        | .ecdhP384 | .ecdhP256 =>
          let t : Byte := if j.kind = .ecdhP384 then 0x21 else 0x20
          finishWithKey d j .volatile (volatileKey d j t 0x2040 1 (sourceOf j) bs []) fun h => outcomeRes h
        | .keygenP384 | .keygenP256 =>
          let n := (jobCurve j).len
          let t : Byte := if n = 48 then 0x11 else 0x10
          let a : BitVec 16 := BitVec.ofNat 16 (opLe j.e 0 2) ||| 0x8000
          finishWithKey d j .volatile (volatileKey d j t a 0 0 (bs.take n) (bs.drop n)) fun h =>
            outcomeOut (leBytes 8 h.toNat ++ bs.drop n)
        | _ => finishPk d j (outcome stOk 0)

/-- A derivation ends: the meter key goes to the AES part, a KDF output into the cache. -/
def deriveDone (d : Dev) (j : Job) : Dev :=
  if j.kind = .kdfDerive then
    let k := volatileKey d j (jobKeyType j) (BitVec.ofNat 16 (opLe j.e 2 2)) 1 (sourceOf j) (deriveValue j) []
    finishWithKey d j .volatile k fun h => outcomeRes h
  else nextPart (modJob d j.id fun x => { x with meterKey := deriveValue j }) j

/-- Output of a stream's tick goes to host memory in the next tick (03 R98). A function that may issue no request ends the job with
DMA_FAULT, which names the descriptor (03 R99, R101). -/
def writeOut (d : Dev) (j : Job) (out : List Byte) : Dev :=
  match outPieces j j.written out with
  | [] => d
  | (i, x) :: r =>
    if (getFn d j.e.fn.toNat).bme then
      modJob (writePieces d j ((i, x) :: r)) j.id fun j => { j with written := j.written + out.length }
    else dmaFault d j (BitVec.ofNat 8 i)

/-- A symmetric part ends its tick. -/
def symDone (d : Dev) (j : Job) (p : Placed) (bad : Bool) : Dev :=
  if j.kind = .crateExport then
    match j.key, j.ekey with
    | some k, some w =>
      let kwp := j.e.param.getLsbD 0 && privileged d j.e.fn
      let out := makeCrate kwp k w
      finishJob d j.id { outcomeOut out with res0 := BitVec.ofNat 64 out.length }
    | _, _ => finishJob d j.id (outcome stNotFound 0)
  else if jobPart j = .trip then
    let k := keyBytes j
    let blk := List.replicate 64 (0xA5 : Byte)
    let ct := gcmCrypt k (zeros 12) blk
    tripDone d j (!bad && gcmCrypt k (zeros 12) ct == blk) 0
  else
    let priv := privileged d j.e.fn
    let j' := { j with payDone := j.payDone + p.pay, aadDone := j.aadDone + p.aad, blocks := j.blocks + p.blocks }
    let d := modJob d j.id fun _ => j'
    if !p.keeps then
      let o := symFinal j' priv
      finishJob (dropCtx d j.id) j.id { o with out := o.out.drop j.written }
    else
      let out := (symSoFar j' priv j'.payDone).drop j.written
      let keepLast := cbcPads priv j.e && j.kind = .cbcDecrypt && j'.payDone == (payload j.kind j.e).getD 0
      let d := if out.isEmpty || keepLast then d else writeOut d j' out
      let now := (findJob d j.id).getD j'
      let d := writeCtx d p.unit.toNat now (symCtx now priv)
      let chained := laterWork d j.id
      modJob d j.id fun j => if jobEnded j then j else { j with stage := if chained then .planned else .wait }

/-- A pad store entry that a part built becomes valid: with a hash job's outcome, or with a derivation (07 R206, R207). Its last use is the
tick that ends; entries used in the plan already cut are not replaced, and among equally old ones the tie-break pointer of the wing
decides. An entry that is valid already is no further fill (07 R218). -/
def fillPad (d : Dev) (j : Job) : Dev :=
  match j.key with
  | none => d
  | some k =>
    let h := BitVec.ofNat 2 (jobHash j)
    let same (x : PadEntry) : Bool := x.slot == k.slot && x.version == k.version && x.hash == h
    if !(d.keys.cache.any fun e => e.k.slot == k.slot && !e.dropped && !e.marked) || d.wings.pads.any same then d
    else
      let e : PadEntry := { slot := k.slot, version := k.version, hash := h, lastUse := d.tick - 1, states := padStates h.toNat k.value }
      let inUse (x : PadEntry) : Bool := (d.wings.planNext ++ d.wings.planCur).any fun p =>
        (match findJob d p.job with
          | some o => (o.key.map fun k => (k.slot, k.version)) == some (x.slot, x.version) && usesPads o.kind && jobHash o == x.hash.toNat
          | none => false)
      let tie := tieOf d (wingUnit .hsh)
      let old := sortBy (fun (x : PadEntry) => x.lastUse.toNat) (sortBy (fun (x : PadEntry) => cyclicKey tie x.slot) (d.wings.pads.filter fun x => !inUse x))
      let put (d : Dev) (rest : List PadEntry) : Dev := { d with wings := { d.wings with pads := rest ++ [e], padFills := satInc d.wings.padFills } }
      if d.wings.pads.length < 4096 then put d d.wings.pads
      else
        match old with
        | x :: _ => put d (d.wings.pads.filter fun y => y != x)
        | [] => { d with wings := { d.wings with padNoStore := satInc d.wings.padNoStore } }

/-- A hash part ends its tick. -/
def hashDone (d : Dev) (j : Job) (p : Placed) (bad : Bool) : Dev :=
  if jobPart j = .trip then tripDone (if p.fill then fillPad d j else d) j (!bad) 0
  else
    let j' := { j with blocks := j.blocks + p.blocks, padFill := j.padFill || p.fill }
    let d := modJob d j.id fun _ => j'
    if j'.blocks == compsOf j.kind j.e (jobKeyType j) then
      let d := if j'.padFill then fillPad d j' else d
      finishJob (dropCtx d j.id) j.id (hashFinal j')
    else
      let d := writeCtx d p.unit.toNat j' (hashCtx j')
      let chained := laterWork d j.id
      modJob d j.id fun j => { j with stage := if chained then .planned else .wait }

/-- A released result is counted on its shelf's page (05 R165, 06 R196, 07 R218); a slot for which no program ran counts nothing.
DESIGN CHOICE: a signing half that is held and a verification that fails each count as an operation; the spec leaves open when a signature
counts (log entry 70). -/
def countWork (p : Placed) (after : Option Job) (x : UnitSt) : UnitSt :=
  let st := match after with | some j => if j.stage == .done then j.res.status else 0xFF | none => 0xFF
  match p.kind with
  | .pkOp => if st = stRng then x else
    { x with ops := satInc x.ops, inval := if st = stInput then satInc x.inval else x.inval,
             sigbad := if st = stSig then satInc x.sigbad else x.sigbad }
  | .sign | .verify => if st = stRng then x else { x with ops := satInc x.ops }
  | .empty => x
  | .derive => { x with ops := satAdd x.ops p.blocks, deriv := satInc x.deriv }
  | _ => { x with ops := satAdd x.ops p.blocks }

/-- A result that the collector does not withhold, and what it does to its job. -/
def releaseOne (b : BoundaryIn) (d : Dev) (j : Job) (p : Placed) : Dev :=
  let bad := d.wings.planCur.any fun q => q.job == p.job && b.badVerdicts.contains q.unit
  match p.kind with
  | .sign => signDone d j p
  | .verify => verifyDone d j p b.badVerdicts
  | .pkOp => pkDone d j bad
  | .unwrap => unwrapDone d j
  | .derive => deriveDone (if p.fill then fillPad d j else d) j
  | .symOp => symDone d j p bad
  | .hashOp => hashDone d j p bad
  | .empty => d
  | .check => d

/-- The counts of a released result: pad fills, blocks, crate unwraps, and its shelf's own. -/
def countRelease (d : Dev) (before : Job) (p : Placed) : Dev :=
  let d := if p.fill then
      let d := pmcFn d 0x64 p.fn.toNat 1
      match before.key with
      | some k => { d with wings := { d.wings with filled := d.wings.filled ++ [(k.slot, BitVec.ofNat 2 (jobHash before))] } }
      | none => d
    else d
  let d := if p.wing = .pk then d else pmcFn d (if p.wing = .sym then 0x33 else 0x35) p.fn.toNat p.blocks
  let d := if p.kind == .unwrap then pmcFn d 0x62 p.fn.toNat 1 else d
  modUnit d p.unit.toNat (countWork p (findJob d before.id))

/-- A streaming shelf that held an aborted stream wipes, unless it is lost or wipes already (01 R43). -/
def restAfter (d : Dev) (lost : List Nat) (j : Job) (p : Placed) : Dev :=
  let stream := (p.kind == .symOp || p.kind == .hashOp) && j.kind != .crateExport && jobPart j != .trip
  if stream && !lost.contains p.unit.toNat then modUnit d p.unit.toNat fun x => { x with rest := true } else d

/-- The collector takes the result of one placement (01 R41). `lost` are the shelves retired or made SUSPECT at this boundary,
`resting` those that wipe already, `last` the last user of a window before this tick's. A job that was aborted, halted or reset leaves
with its last placement (01 R42, 04 R128). DESIGN CHOICE: a chained job whose earlier part fails its check a second time ends at that
boundary, as 01 R48 has it, and not with its dependent part (06 R177; log entry 70). -/
def collectOne (b : BoundaryIn) (lost resting : List Nat) (last : Nat → Nat → Option JobId) (d : Dev) (p : Placed) : Dev :=
  match findJob d p.job with
  | none => d
  | some j =>
    let units := p.unit :: ((d.wings.planCur.filter fun q => q.job == p.job && (q.kind == .check || (p.kind == .check && q.kind == .hashOp))).map (·.unit))
    let lostHere := units.any fun u => lost.contains u.toNat
    let ownFault := b.faults.any fun f =>
      match f.kind with
      | .selfTest => false
      | .wipeReadback w => if unitWing f.unit.toNat == some .pk then units.contains f.unit else last f.unit.toNat w == some j.id
      | _ => units.contains f.unit && (f.job.isNone || f.job == some j.id)
    let ends (d : Dev) (o : OutcomeRec) : Dev := finishJob (dropCtx d j.id) j.id o
    if !jobCurrent d j then if laterPlaced d j.id then d else dropJob (restAfter d (lost ++ resting) j p) j.id
    else if p.kind == .check then (if lostHere || p.dummy then d else countRelease d j p)
    else if jobEnded j || p.kind == .empty then d
    else
      match overridden j with
      | some o => if laterPlaced d j.id then d else ends (restAfter d (lost ++ resting) j p) o
      | none =>
        if p.dummy then if j.res.status = stOk || laterPlaced d j.id then d else ends d { j.res with zero := isPkKind j.kind }
        else if ownFault && 0 < j.fails then
          ends (idleLater d j.id) { outcome stFault 0 with zero := isPkKind j.kind || isDecrypt j.kind }
        else if lostHere || ownFault then
          let d := modJob d j.id fun j => { j with fails := if ownFault then j.fails + 1 else j.fails }
          if p.kind == .verify then modJob (pmcFn d 0x36 j.e.fn.toNat 1) j.id fun j => { j with vCommit := some d.tick, moved := true }
          else if p.kind == .symOp || p.kind == .hashOp then replaceJob d j false
          else modJob (replaceJob (idleLater d j.id) j (p.wing == .pk)) j.id fun j => { j with vCommit := none }
        else if b.badContexts.contains j.id && (p.kind == .symOp || p.kind == .hashOp) && decide (0 < j.blocks) then
          let d := if p.kind == .hashOp then modUnit d p.unit.toNat fun x => { x with crc := satInc x.crc } else d
          ends d { outcome stFault 0 with zero := isDecrypt j.kind, res0 := BitVec.ofNat 64 j.written }
        else countRelease (releaseOne b d j p) j p

/-- A failed DMA of a placed job: its outcome passes at the next boundary, wherever its placements are (03 R101). `bad` are the jobs
whose DMA failed before this boundary. -/
def dmaOutcomes (bad : List JobId) (d : Dev) : Dev :=
  (d.jobs.filter fun j => bad.contains j.id && !jobEnded j && !j.halted && !j.aborted && jobCurrent d j).foldl (fun d j =>
    match overridden j with
    | some o => finishJob d j.id o
    | none => d) d

/-- A fill that was withheld or discarded: every job placed on the strength of it runs dummy compressions and waits (07 R206). -/
def fillsLost (d : Dev) : Dev :=
  d.wings.planNext.foldl (fun d p =>
    match p.relies with
    | none => d
    | some (slot, h) =>
      let valid := d.wings.filled.contains (slot, h) || d.wings.pads.any fun x => x.slot == slot && x.hash == h
      if valid then d
      else modJob (idleLater d p.job) p.job fun j => if j.stage == .planned then { j with stage := .wait } else j) d

/-! ### The amendment (01 R47) -/

/-- A placement is withdrawn: its job waits again, and what the placement committed goes with it. -/
def withdraw (d : Dev) (p : Placed) : Dev :=
  modJob d p.job fun j =>
    if jobEnded j then j
    else if p.kind == .verify then { j with vCommit := some d.tick }
    else if p.kind == .sign then { j with stage := .wait, vCommit := none }
    else { j with stage := .wait }

/-- The units that a function's placements cost. -/
def placedCost (w : Wing) (ps : List Placed) : Nat :=
  if w = .pk then pkCost (ps.filter fun p => !p.half).length (ps.filter fun p => p.half).length else (ps.map (·.units)).sum

/-- Whether a placement stands before the grants: a verification, the slot it left empty, or a rerun. -/
def isFirst (d : Dev) (p : Placed) : Bool :=
  p.kind == .verify || p.kind == .empty || (p.kind == .sign && (match findJob d p.job with | some j => j.rerun | none => false))

/-- Placements of a function, the latest in the order of 03 R95 first. -/
def latestFirst (d : Dev) (ps : List Placed) : List Placed :=
  let pos (p : Placed) : Nat :=
    match d.jobs.zipIdx.find? fun x => x.1.id == p.job with
    | some (j, i) => ((j.e.q.toNat + 16 - d.tick.toNat % 16) % 16) * (d.jobs.length + 1) + i
    | none => 0
  (sortBy pos ps).reverse

/-- Amend the plan of a wing for the tick that begins, after shelves of it were lost at its boundary. `again` are the jobs withheld
there. -/
def amendWing (lost : List Nat) (again : List JobId) (d : Dev) (w : Wing) : Dev :=
  let plan := d.wings.planNext
  let mine := plan.filter fun p => p.wing == w && !(p.dummy && lost.contains p.unit.toNat)
  let idle := (plan.filter fun p => p.wing == w && p.dummy && lost.contains p.unit.toNat).map fun (p : Placed) => { p with units := 0 }
  let others := (plan.filter fun p => p.wing != w) ++ idle
  let pair (ps : List Placed) (p : Placed) : List Placed := ps.filter fun q => q.job == p.job && (q.kind == .check || p.kind == .check)
  let out := mine.filter fun p => lost.contains p.unit.toNat || ((pair mine p).any fun q => lost.contains q.unit.toNat) || (again.contains p.job && (p.kind == .symOp || p.kind == .hashOp) && !p.dummy)
  let keep := mine.filter fun p => !out.contains p
  let d := { out.foldl withdraw d with wings := { d.wings with planNext := others ++ keep } }
  let d := ((out.map fun p => p.unit.toNat).eraseDups.filter fun u => !lost.contains u).foldl (fun d u => modUnit d u fun x => { x with epoch := x.epoch + 1 }) d
  let shelves := (fillOrder d w 0).filter fun u => let x := getUnit d u; x.state == 0 && !x.fresh && !x.draining && !lost.contains u
  let ready := (d.jobs.filterMap fun j => if j.stage == .wait then jobReq d j else none).filter fun r => r.wing = w
  let redo := orderReqs d.tick.toNat d.jobs (ready.filter fun r => again.contains r.job)
  let moved := orderReqs d.tick.toNat d.jobs (ready.filter fun r => !again.contains r.job && out.any fun p => p.job == r.job && !isFirst d p)
  let first := if w = .pk then dueFirst d d.tick else []
  let fns := ((keep ++ out).map (·.fn) ++ redo.map (·.fn) ++ first.map fun x => x.1.e.fn).eraseDups
  let firsts (f : FnNo) : Nat × Nat :=
    let k := keep.filter fun p => p.fn == f && isFirst d p
    let n := first.filter fun x => x.1.e.fn == f
    ((k.filter fun p => !p.half).length + (n.filter fun x => !isP256 x.1).length, (k.filter (·.half)).length + (n.filter fun x => isP256 x.1).length)
  let v : Tab Nat := if w = .pk then fns.foldl (fun t f => tabPut t f.toNat (pkCost (firsts f).1 (firsts f).2)) [] else []
  let entries := wingEntries d w d.tick
  let seen (f : Nat) (k : Nat) : Nat := tabGet d.wings.demand (k + wingNo w * 256 + f) 0
  let claims := entries.map fun e =>
    let f := e.func.toNat
    let back := ((out.filter fun p => p.fn == e.func && again.contains p.job).map (·.units)).sum
    let n := firsts e.func
    let a := pkAsks redo f
    { e := e, v := tabGet v f 0,
      d := if w = .pk then pkCost (n.1 + seen f 0 + a.1) (n.2 + seen f 768 + a.2) - pkCost n.1 n.2
        else seen f 0 - back + streamAsks d redo f : Claim }
  let grants := grantWing (shelves.length * shelfUnits w) claims v
  let stay := fns.flatMap fun f =>
    let ps := keep.filter fun p => p.fn == f
    let fixed := ps.filter fun p => isFirst d p || p.dummy
    let more := (redo ++ moved).filter fun r => r.fn == f
    let n := firsts f
    let m := pkAsks more f.toNat
    let room := if w = .pk then tabGet grants f.toNat 0 else tabGet grants f.toNat 0 - placedCost w fixed - streamAsks d more f.toNat
    let loose := latestFirst d (ps.filter fun p => !(isFirst d p || p.dummy))
    let fits (q : List Placed) : Bool :=
      if w = .pk then decide (pkCost (n.1 + m.1 + (q.filter fun p => !p.half).length) (n.2 + m.2 + (q.filter (·.half)).length) ≤ room)
      else decide (placedCost w q ≤ room)
    let rec drop : List Placed → List Placed
      | [] => []
      | p :: r => if fits (p :: r) then p :: r else drop r
    fixed ++ drop loose
  let whole (p : Placed) : Bool := stay.contains p && (pair keep p).all fun q => stay.contains q
  let gone := keep.filter fun p => !whole p
  let kept := keep.filter whole
  let d := { gone.foldl withdraw d with wings := { d.wings with planNext := others ++ kept } }
  let d := (gone.map fun p => p.unit.toNat).eraseDups.foldl (fun d u => modUnit d u fun x => { x with epoch := x.epoch + 1 }) d
  let base : Cut := { d := d, at_ := d.tick, amend := true, plan := kept, whole := [], half := [], stuck := [] }
  let base := kept.foldl (fun (c : Cut) p =>
    let f := p.fn.toNat
    if w = .pk then (if p.half then { c with half := tabPut c.half f (tabGet c.half f 0 + 1) } else { c with whole := tabPut c.whole f (tabGet c.whole f 0 + 1) })
    else { c with whole := tabPut c.whole f (tabGet c.whole f 0 + p.units) }) base
  let c := first.foldl (placeFirst shelves) base
  let c := entries.foldl (fun c e => cutFn w shelves grants c ((redo ++ moved).filter fun r => r.fn == e.func)) c
  let (d, plan) := verifyDraws c.d c.plan
  { d with wings := { d.wings with planNext := others ++ plan } }

/-- The wings at a boundary: the collector over the plan that ran, the shelves' fates, and the amended plan. `d.tick` is already
the tick that begins. -/
def wingsBoundary (d : Dev) (b : BoundaryIn) : Dev :=
  let failed (u : Nat) : Bool := b.faults.any fun f => f.unit.toNat == u && f.kind == .selfTest
  let plan := d.wings.planCur
  let before := d
  let d := { useWindows d plan with units := tabMap (fun (x : UnitSt) => { x with fresh := false }) (useWindows d plan).units }
  let struck := (d.units.filter fun p => p.2.second).map (·.1)
  let faulted := ((b.faults.filter fun f => f.kind != .selfTest && isShelf f.unit.toNat).map fun f => f.unit.toNat).eraseDups
  let passing := (d.units.filter fun p => p.2.state == 2 || p.2.state == 3 || p.2.state == 4).map (·.1)
  let resting := (d.units.filter fun p => p.2.rest).map (·.1)
  let lost := (struck ++ faulted).eraseDups
  let bad := (d.jobs.filter fun j => j.dmaBad.isSome).map (·.id)
  let d := b.faults.foldl (fun d f => modUnit d f.unit.toNat fun x => countFault x f.kind) d
  let d := plan.foldl (collectOne b lost resting (lastUser before plan)) d
  let d := fillsLost (dmaOutcomes bad d)
  let used := (plan.filter fun p => p.kind != .empty && decide (0 < p.units)).foldl (fun (t : Tab (Nat × Nat)) p =>
    let o := tabGet t p.unit.toNat (0, 0)
    tabPut t p.unit.toNat (if p.wing = .pk then 1 else o.1 + p.units, o.2 + 1)) []
  let d := { d with units := tabMap (fun x => { x with used := 0, winJobs := 0, winUsed := 0 }) d.units }
  let d := used.foldl (fun d x => modUnit d x.1 fun y => { y with used := BitVec.ofNat 16 x.2.1, winUsed := BitVec.ofNat 16 x.2.1, winJobs := BitVec.ofNat 16 x.2.2 }) d
  let d := passing.foldl (fun d u => endTest d failed u) d
  let d := [Wing.pk, .sym, .hsh].foldl (fun d w => rotStep d failed lost.contains w) d
  let d := (faulted.filter fun u => !struck.contains u).foldl (fun d u => suspectUnit d u ((b.faults.find? fun f => f.unit.toNat == u && f.kind != .selfTest).map (fun f => checkCode f.kind) |>.getD 0)) d
  let d := struck.foldl (fun d u =>
    let d := modUnit d u fun x => { x with second := false }
    if (getUnit d u).state == 6 then d else retireUnit d u 1) d
  let d := resting.foldl (fun d u => modUnit d u fun x =>
    if x.state == 0 then { x with rest := false, state := 4, epoch := x.epoch + 1 } else { x with rest := false }) d
  let again := (plan.filter fun p => lost.contains p.unit.toNat).map (·.job)
  let d := { d with wings := { d.wings with planCur := [] } }
  let d := ([Wing.pk, .sym, .hsh].filter fun w => lost.any fun u => unitWing u == some w).foldl (amendWing lost again) d
  let d := (d.units.map (·.1)).foldl (serviceUnit passing.contains) d
  let d := { d with wings := { d.wings with planCur := d.wings.planNext, planNext := [], filled := [] } }
  let d := loadShelves (moveCtxs (rackEvents before (epochsOnce before d)))
  { d with jobs := d.jobs.map fun (j : Job) =>
      if j.stage == .planned && (d.wings.planCur.any fun p => p.job == j.id && p.kind != .empty) then { j with stage := .running } else j }

end Sys2Proof.Machine
end

