-- ==== Sys2Proof/Machine/Power.lean ====
section
/-! DEFINITION. Power domains and votes (14 R375-R381), operating points (R383-R388), standby (R390, R391) and the power-fail
signal (R392-R394). -/

namespace Sys2Proof.Machine

/-! ### Clients and pages -/

/-- Domains whose control page is a keeper page (10 R293, 14 R375). -/
def keeperDomains : List Nat := [1, 2, 9, 11, 14, 15, 16, 17, 18]

/-- The voting client of an initiator: 0 keeper core, 1 porter core, 2 MMIO of a PF (14 R377). -/
def voteClient (i : Ini) : Option Nat :=
  if isKeeperCore i.id then some 0 else if isPorterCore i.id then some 1
  else if isPf i.id && i.priv then some 2 else none

/-- A porter-world transaction to a keeper page (10 R291 step 2, R293). -/
def keeperDenied (d : Dev) (i : Ini) (addr : Nat) : Dev := violate d i addr 4 .write true 0x402

/-- A posted MMIO write that port `p` holds (14 R382). -/
def heldAt (p : Bool) (t : Txn) : Bool :=
  isFnId t.ini.id && t.mmio && t.kind == .write && decide (128 ≤ t.ini.id.toNat) == p

/-! ### What a domain's power takes and gives (14 R379, R380, R396) -/

def domVoted (x : Domain) : Bool := x.hw || x.boot || x.host || x.porter || x.keeper

/-- Shelves that lie in a wing domain. -/
def domShelves (n : Nat) : List Nat :=
  (wingShelves .pk ++ wingShelves .sym ++ wingShelves .hsh).filter fun u => unitDomain u == n

/-- `drained` sets once no transaction checked before the latest commit of its table is outstanding (10 R302). -/
def settleDrained (d : Dev) : Dev :=
  { d with
    acl := { d.acl with drained := d.acl.drained || !(d.acl.stalled.any fun x => x.oldAcl) }
    pot := { d.pot with drained := d.pot.drained || !(d.acl.stalled.any fun x => decide (x.potAt < d.pot.commits)) } }

/-- Transactions that wait, and whose issuer is reset, are discarded (14 R400). -/
def dropStalled (d : Dev) (gone : Txn → Bool) : Dev :=
  settleDrained { d with acl := { d.acl with stalled := d.acl.stalled.filter fun x => !gone x.t } }

/-- Racks that lie in a wing domain. -/
def domRacks (n : Nat) : List Nat := (List.range unitCount).filter fun u => !isShelf u && decide (5 ≤ n) && decide (n ≤ 8) && unitDomain u == n

/-- A port loses its link: a port reset for every function of it (02 R53, 14 R396). -/
def portReset_ (d : Dev) (p : Bool) : Dev :=
  let d := modPort d p fun x => { x with link := false, resets := satInc x.resets }
  let d := dropStalled d fun t => heldAt p t
  let d := (portFns p).foldl flrOne d
  raise d rstPage (portNo p)

/-- The RNG without its domain: no source, no seed, no service; instances that exist are unseeded (09 R270). Its counters read as
the read mirror holds them (14 R382). -/
def rngPowerOff (d : Dev) : Dev :=
  { d with
    rng := { d.rng with state := 0, served := false, seeds := [], rawBuf := [], drawBytes := 0,
                        sources := tabMap (fun (x : SourceSt) => { x with sstate := 0, blockDone := false }) d.rng.sources,
                        insts := tabMap (fun _ => { drbgReset with istate := 1 }) d.rng.insts }
    jobs := d.jobs.map fun (j : Job) => if j.stage == .load || j.stage == .wait then { j with draw := none } else j }

/-- The RNG at power-on: every register at its reset value, the instances of functions without a seed (09 R271); the sources' block
numbers count on from the cold reset (09 R268). -/
def rngPowerOn (d : Dev) : Dev :=
  let r := rngStart d.nv.deadSrc d.nv.deadSha d.nv.deadPair
  let insts := d.rng.insts.foldl (fun (t : Tab DrbgSt) e => tabPut t e.1 { drbgReset with istate := 1 }) r.insts
  let sources := r.sources.map fun (x : Nat × SourceSt) => (x.1, { x.2 with blocks := (getSource d x.1).blocks })
  rngLeft { d with rng := { r with insts := insts, prs := d.rng.prs, sources := sources } }

/-- A slot with nothing but its detect switch. -/
def slotCleared (x : CardSlot) : CardSlot := { slotReset with present := x.present, state := if x.present then 1 else 0 }

def cardsCleared (d : Dev) : Dev :=
  { d with crd := { d.crd with s0 := slotCleared d.crd.s0, s1 := slotCleared d.crd.s1, s2 := slotCleared d.crd.s2,
                               s3 := slotCleared d.crd.s3 } }

/-- Pages of the blocks that lie in a Switchable domain (14 R375, R396). -/
def domPages (n : Nat) : List Nat :=
  if n = 14 then [twnPage] else if n = 15 then (List.range 4).map crdPage else if n = 16 then [rngPage]
  else ((List.range unitCount).filter fun u => unitDomain u == n && n != 4).map unitPage

/-- The twin link without its domain; its registers read as the read mirror holds them. -/
def twinOff (d : Dev) : Dev :=
  let st := twnIdle d false
  let d := twnState d st
  let t := d.twn
  { d with twn := { twnReset with
      state := st, herr := t.herr, width := t.width, retrains := t.retrains, resent := t.resent, grRes := t.grRes,
      peerLevel := t.peerLevel, peerLocked := t.peerLocked, peerZero := t.peerZero, peerLc := t.peerLc, peerParked := t.peerParked,
      peerReleased := t.peerReleased, syncIvl := t.syncIvl, grantBuf := t.grantBuf, newId := t.newId } }

/-- A domain goes off. -/
def domOff (d : Dev) (n : Nat) : Dev :=
  let d := modDom d n fun x => { x with state := 0, hw := false, offAt := none }
  if n = 12 || n = 13 then portReset_ d (n == 13)
  else if n = 14 then twinOff d
  else if n = 15 then cardsCleared d
  else if n = 16 then rngPowerOff d
  else
    (domShelves n).foldl (fun d u => modUnit d u fun x =>
      if x.state == 6 then x else { x with state := 5, test := .none, draining := false, request := 0 }) d

/-- A domain is ready: its blocks start at their reset values, and a wing domain's units that are not RETIRED return through their
entry self-test (14 R379). -/
def domReady (d : Dev) (n : Nat) : Dev :=
  if (getDom d n).state != 1 then d
  else
    let d := blockReset (modDom d n fun x => { x with state := 2, ups := satInc x.ups, last := d.tick }) (domPages n)
    if n = 14 then { twnState d (twnIdle d true) with twn := { twnReset with state := twnIdle d true, newId := d.twn.newId } }
    else if n = 15 then cardsCleared d
    else if n = 16 then rngPowerOn d
    else
      let back (d : Dev) (u : Nat) : Dev :=
        let x := getUnit d u
        let r := tabGet d.nv.roles u (if firstRole d.gj7716 u then 1 else 0)
        setUnit d u { unitByRole r false with tie := - (d.tick.setWidth 8), request := if r = 2 then 0 else 2, lastTest := x.lastTest }
      let rack (d : Dev) (u : Nat) : Dev := setUnit d u { unitZero with tie := - (d.tick.setWidth 8) }
      (domShelves n).foldl back ((domRacks n).foldl rack d)

/-- The votes of a domain changed: power on, or begin to power off (14 R376, R379, R380). -/
def domUpdate (d : Dev) (n : Nat) : Dev :=
  let x := getDom d n
  if n < 2 || heldDomains.contains n then d
  else if domVoted x then (if x.state == 0 then setDom d n { x with state := 1 } else d)
  else if x.state == 0 || x.state == 3 then d
  else if 5 ≤ n && n ≤ 8 && x.state == 2 then
    let d := setDom d n { x with state := 3, offAt := some (d.tick + 2) }
    (domShelves n).foldl (fun d u => modUnit d u fun y => { y with request := 1 }) d
  else domOff d n

/-- Domains at a boundary: a drained wing domain powers off, and is voted on again if a vote came meanwhile. -/
def domBoundary (d : Dev) (n : Nat) : Dev :=
  let x := getDom d n
  match x.offAt with
  | some t => if decide (t.toNat ≤ d.tick.toNat) then domUpdate (domOff d n) n else d
  | none => d

/-- Set one client's vote on a domain. -/
def setVote (d : Dev) (n client : Nat) (v : Bool) : Dev :=
  domUpdate (modDom d n fun x => if client = 0 then { x with keeper := v } else if client = 1 then { x with porter := v } else { x with host := v }) n

/-- A write of PG_VOTE: the writer's own bit (14 R377, R378). -/
def voteWrite (d : Dev) (i : Ini) (n : Nat) (v : Word) : Dev :=
  let a := regAddr (pwrPage n) 0x02C
  match voteClient i with
  | none => if iniKeeper d i.id || !keeperDomains.contains n then ignored d i a else keeperDenied d i a
  | some c =>
    if c != 0 && keeperDomains.contains n then keeperDenied d i a
    else if n < 2 then d
    else setVote d n c (bit v c)

/-- A write of PWR_PVOTE: the porter votes on the keeper-owned domains (14 R378). -/
def pvoteWrite (d : Dev) (i : Ini) (v : Word) : Dev :=
  match voteClient i with
  | some c =>
    if c = 0 then ignored d i (regAddr (pwrPage 20) 0x048)
    else
      let own := (List.range 20).filter fun n => keeperDomains.contains n && n != 1
      let m : Word := own.foldl (fun m n => m ||| put n 1) 0
      let d := { d with pwr := { d.pwr with pvote := (v &&& m).setWidth 20 } }
      own.foldl (fun d n => setVote d n 1 (bit v n)) d
  | none => ignored d i (regAddr (pwrPage 20) 0x048)

/-- A first access to an OFF domain sets its hw vote (14 R381). -/
def hwVote (d : Dev) (n : Nat) : Dev := domUpdate (modDom d n fun x => { x with hw := true, last := d.tick }) n

/-- The Switchable domain that a register page lies in (14 R375). -/
def pageDomain (p : Nat) : Option Nat :=
  match pageKind p with
  | .twn => some 14 | .crd _ => some 15 | .rng => some 16
  | .unit u => if unitDomain u = 4 then none else some (unitDomain u)
  | _ => none

/-- The domain of a page, while it is OFF or WAKING. -/
def asleep (d : Dev) (p : Nat) : Option Nat :=
  match pageDomain p with
  | some n => if (getDom d n).state == 0 || (getDom d n).state == 1 then some n else none
  | none => none

/-- A transaction to a page of a powered Switchable domain: PWR_IDLE counts from it. -/
def touchPage (d : Dev) (p : Nat) : Dev :=
  match pageDomain p with
  | some n => modDom d n fun x => { x with last := d.tick }
  | none => d

/-- A checked transaction stalls until a domain is ready, or for a page's wipe (code 255); an OFF domain gets its hw vote
(14 R381, 10 R297). A port holds 16 posted writes: it takes no more (14 R382). -/
def stallTxn (d : Dev) (x : Stalled) : Dev :=
  let port := decide (128 ≤ x.t.ini.id.toNat)
  let d := if x.domain < 20 && (getDom d x.domain).state == 0 then hwVote d x.domain else d
  if heldAt port x.t && decide (16 ≤ (d.acl.stalled.filter fun y => heldAt port y.t).length) then d
  else { d with acl := { d.acl with stalled := d.acl.stalled ++ [x] } }

/-- A write of registers, as a transaction. -/
def regTxn (i : Ini) (addr : Nat) (data : List Byte) : Txn :=
  { ini := i, mmio := isFnId i.id && i.priv, kind := .write, burst := false, buffered := true, addr := BitVec.ofNat 40 addr,
    len := data.length, data := data }

/-- A register write that stalls while its page's domain sleeps. -/
def wakeWrite (d : Dev) (i : Ini) (addr : Nat) (v : Word) (k : Dev → Dev) : Dev :=
  if !hostSees i (addr / 0x1000) then d
  else
  match asleep d (addr / 0x1000) with
  | some n => stallTxn d ⟨regTxn i addr (leBytes 4 v.toNat), n, false, d.pot.commits⟩
  | none => k (touchPage d (addr / 0x1000))

/-- The hw vote clears after PWR_IDLE ticks without a transaction (14 R381). -/
def hwExpire (d : Dev) (n : Nat) : Dev :=
  let x := getDom d n
  if x.hw && x.state == 2 && decide (x.last.toNat + x.idle.toNat ≤ d.tick.toNat) then domUpdate (setDom d n { x with hw := false }) n
  else d

/-- The boot votes clear when the porter world is first READY (14 R377). -/
def clearBootVotes (d : Dev) : Dev :=
  (List.range 20).foldl (fun d n => domUpdate (modDom d n fun x => { x with boot := false }) n) d

/-! ### Operating points (14 R385-R388) -/

def clkAddr (off : Nat) : Nat := regAddr (clkPage 0) off

/-- The chosen point: the lowest request present, or 0, but not below the cap. -/
def oppChosen (d : Dev) : BitVec 2 :=
  let rs := [d.pwr.opKeeper, d.pwr.opPorter, d.pwr.opHost].filter fun r => decide (r.toNat < 4)
  let want := match rs with | [] => 0 | r :: t => (t.map (·.toNat)).foldl min r.toNat
  BitVec.ofNat 2 (max want (bits (guardVal d (clkAddr 0x04C)) 0 2))

/-- Target voltage of a point in mV, held to 600 to 850 (14 R388). -/
def oppVolt (d : Dev) (p : BitVec 2) : BitVec 10 :=
  BitVec.ofNat 10 (min 850 (max 600 (bits (guardVal d (clkAddr (0x054 + 4 * p.toNat))) 0 10)))

def avsWrite (d : Dev) (p : BitVec 2) : Dev :=
  emit d (.avs (BitVec.ofNat 4 (bits (guardVal d (clkAddr 0x068)) 0 4)) (oppVolt d p))

/-- Frequency of a point in kHz. -/
def oppKhz (p : BitVec 2) : Nat := match p.toNat with | 0 => 1250000 | 1 => 1000000 | 2 => 625000 | _ => 312500

/-- Start a step to a point; from FIO the direction is that from 400 MHz. -/
def oppStart (d : Dev) (p : BitVec 2) (fio : Bool) : Dev :=
  let up := if fio then decide (400000 < oppKhz p) else decide (p.toNat < d.pwr.point.toNat)
  let d := { d with pwr := { d.pwr with busy := true, target := p, fromFio := fio,
                                        phase := if up then .upWait false false else .downLock } }
  if up then avsWrite d p else d

/-- A request or the cap changed, or a step ended: step towards the chosen point (14 R386). A switch from FIO that was abandoned is tried
again then (14 R387, R399). -/
def oppKick (d : Dev) : Dev :=
  if d.pwr.phase != .idle then d
  else if d.pwr.src == 0 then (if bit (guardVal d (clkAddr 0x044)) 0 then oppStart d (oppChosen d) true else d)
  else if oppChosen d == d.pwr.point then d else oppStart d (oppChosen d) false

/-- Write the voltage of the point in force, as a step of its own (14 R388, 15 R418). -/
def voltStep (d : Dev) : Dev :=
  avsWrite { d with pwr := { d.pwr with busy := true, target := d.pwr.point, phase := .voltOnly, recal := false } } d.pwr.point

/-- A step ended: a voltage that waited is written, else the next step starts. -/
def nextStep (d : Dev) : Dev := if d.pwr.recal && d.pwr.phase == .idle then voltStep d else oppKick d

/-- The committed voltage of a point changed; that of the point in force goes to the regulator once no step runs. -/
def voltChanged (d : Dev) (p : Nat) : Dev :=
  if d.pwr.src == 0 || p != d.pwr.point.toNat then d
  else if d.pwr.phase == .idle then voltStep d else { d with pwr := { d.pwr with recal := true } }

/-- A step ends without its confirmation (14 R387, event 0x0103); its choice is not tried again. -/
def oppFail (d : Dev) : Dev :=
  let t := d.pwr.target
  let d := { d with pwr := { d.pwr with busy := false, vfail := true, phase := .idle, fromFio := false } }
  let d := raise d (clkPage 0) 1
  let d := evLog d 0x0103 (lineAt (clkPage 0) 1) noFn (leBytes 1 d.pwr.point.toNat ++ leBytes 1 t.toNat)
  if oppChosen d == t && !d.pwr.recal then d else nextStep d

def oppDone (d : Dev) : Dev :=
  nextStep (raise { d with pwr := { d.pwr with busy := false, vfail := false, phase := .idle } } (clkPage 0) 0)

/-- The idle core PLL locks. -/
def pllLock (d : Dev) : Dev :=
  match d.pwr.phase with
  | .upWait _ v => { d with pwr := { d.pwr with phase := if v then .switchDue true else .upWait true false } }
  | .downLock => { d with pwr := { d.pwr with phase := .switchDue false } }
  | _ => d

/-- The regulator reports VDone. -/
def avsVdone (d : Dev) : Dev :=
  match d.pwr.phase with
  | .upWait p _ => { d with pwr := { d.pwr with phase := if p then .switchDue true else .upWait false true } }
  | .downVolt => oppDone d
  | .voltOnly => nextStep { d with pwr := { d.pwr with busy := false, phase := .idle } }
  | _ => d

/-- CLK_VSETTLE passes, or the AVSBus answers with an error. -/
def avsTimeout (d : Dev) : Dev :=
  match d.pwr.phase with
  | .upWait _ v => if v then d else oppFail d
  | .downVolt => oppFail d
  | .voltOnly => oppFail d
  | _ => d

/-- The switch of CCLK at a boundary (14 R386, R399). -/
def oppBoundary (d : Dev) : Dev :=
  match d.pwr.phase with
  | .switchDue up =>
    let d := { d with
      pwr := { d.pwr with point := d.pwr.target, src := if d.pwr.src == 1 then 2 else 1, sysPll := d.pwr.sysPll || d.pwr.fromFio, fromFio := false }
      tmp := { d.tmp with refArmed := d.tmp.refArmed || d.pwr.fromFio } }
    if up then oppDone d else avsWrite { d with pwr := { d.pwr with phase := .downVolt } } d.pwr.point
  | _ => d

/-- A write of CLK_OPPREQ changes the writer's own field (14 R385, R402). -/
def oppreqWrite (d : Dev) (i : Ini) (v : Word) : Dev :=
  match voteClient i with
  | none => ignored d i (clkAddr 0x048)
  | some 0 => oppKick { d with pwr := { d.pwr with opKeeper := BitVec.ofNat 3 (bits v 8 3) } }
  | some 1 => oppKick { d with pwr := { d.pwr with opPorter := BitVec.ofNat 3 (bits v 16 3) } }
  | some _ => oppKick { d with pwr := { d.pwr with opHost := BitVec.ofNat 3 (bits v 24 3) } }

/-- A committed CLK_OPPCAP (14 R385): keeper cores only. -/
def oppcapWrite (d : Dev) (i : Ini) (v : Word) : Dev :=
  if isKeeperCore i.id then
    oppKick (setGuard d (clkAddr 0x04C) { val := v &&& 3, shadow := ~~~ (v &&& 3), pend := none })
  else ignored d i (clkAddr 0x04C)

/-- A committed CLK_SRC.sel = 1 switches CCLK from FIO; a later 0 is ignored (14 R399). -/
def clkSrcSwitch (d : Dev) (i : Ini) : Dev :=
  if !isKeeperCore i.id then ignored d i (clkAddr 0x044)
  else
    let d := setGuard d (clkAddr 0x044) { val := 1, shadow := ~~~ 1, pend := none }
    if d.pwr.src == 0 && d.pwr.phase == .idle then oppStart d (oppChosen d) true else d

/-! ### Standby (14 R390, R391) -/

def sessionOpen (d : Dev) : Bool :=
  match d.crd.session with
  | some s => s.state == 0 || s.state == 1 || s.state == 5
  | none => false

/-- The reason to refuse STANDBY, 0 for none. -/
def standbyRefuse (d : Dev) : BitVec 4 :=
  if d.fns.any fun p => p.2.state != 0 then 1
  else if sessionOpen d || d.lcs.active then 2
  else if !d.pwr.pfLevel then 3
  else if d.lcs.trans.isSome || d.lcs.erasing || d.lcs.due then 4
  else 0

/-- Begin a flush of the recorder (17 R449). -/
def evrFlush (d : Dev) : Dev := { d with evr := { d.evr with flushing := true } }

/-- A write of PWR_SYSCMD: keeper-only, confirm 0x5B3D. -/
def standbyCommand (d : Dev) (i : Ini) (v : Word) : Dev :=
  let a := regAddr (pwrPage 20) 0x044
  if !keeperOnly i || bits v 16 16 != 0x5B3D then ignored d i a
  else if !bit v 0 || d.pwr.sysstate != 1 then d
  else
    let r := standbyRefuse d
    if r != 0 then raise { d with pwr := { d.pwr with refuse := r } } (pwrPage 20) 3
    else
      let d := evLog d 0x0104 noLine noFn (leBytes 6 d.pwr.alm.toNat)
      evrFlush { d with pwr := { d.pwr with sysstate := 2, refuse := 0 } }

/-- The device wakes from STANDBY: the cold start follows from step 2 (COLD_RESET). -/
def wakeStandby (d : Dev) : Dev := if d.pwr.sysstate == 3 then { d with pwr := { d.pwr with sysstate := 4 } } else d

/-- The domains power off and CCLK stops, once the recorder's flush has ended; an alarm that is already due wakes the device at
once. -/
def enterStandby (d : Dev) : Dev :=
  let ds := (List.range 17).map fun k => 18 - k
  let d := ds.foldl (fun d n => setDom d n { getDom d n with state := 0, hw := false, boot := false, host := false, porter := false, keeper := false }) d
  let d := { d with
    pwr := { d.pwr with sysstate := 3, pvote := 0 }, keys := { keysReset with uses := [] }, wings := wingsReset, units := [], twn := { twnReset with state := twnIdle d false, newId := d.twn.newId },
    acl := { d.acl with keeper := 0, porter := 0 } }
  let d := modPort (modPort d false fun x => { x with link := false }) true fun x => { x with link := false }
  let d := cardsCleared (rngPowerOff d)
  if d.pwr.almEn && decide (d.pwr.alm.toNat ≤ d.bat.rtc.toNat) then wakeStandby d else d

/-- The RTC count reaches PWR_ALM. -/
def rtcAlarm (d : Dev) : Dev :=
  if d.pwr.almEn then
    wakeStandby { d with bat := { d.bat with rtc := if d.bat.rtc.toNat < d.pwr.alm.toNat then d.pwr.alm else d.bat.rtc } }
  else d

/-! ### PWR_FAIL_N (14 R392) -/

/-- PWR_FAIL_N falls: the recorder flushes, and what follows in it waits for the rise (17 R449). -/
def pfFall (d : Dev) : Dev :=
  if !d.pwr.pfLevel then d
  else
    let n := satInc d.pwr.pfCount
    let d := raise { d with pwr := { d.pwr with pfCount := n } } (pwrPage 20) 0
    let d := evLog d 0x0102 (lineAt (pwrPage 20) 0) noFn (leBytes 2 n.toNat)
    let d := { d with pwr := { d.pwr with pfLevel := false, pfState := 1 } }
    evrFlush { d with evr := { d.evr with holdFrom := some d.nv.evNext } }

/-! ### The commands -/

def badDomain (n : BitVec 5) : Bool := decide (19 < n.toNat)

/-- PG_VOTE_WRITE (14 R377). -/
def execPgVoteWrite (ini : Ini) (domain : BitVec 5) (v : Word) (s : State) : Host.Outcome State Fault Refusal :=
  if badDomain domain then .fault .noSuchDomain else act s fun d => voteWrite d ini domain.toNat v

/-- PWR_PVOTE_WRITE (14 R378). -/
def execPwrPvoteWrite (ini : Ini) (v : Word) (s : State) : Host.Outcome State Fault Refusal :=
  act s fun d => unlessLocked d ini (pwrPage 20) 0x048 fun d => pvoteWrite d ini v

/-- HW_VOTE_EXPIRE (14 R381). -/
def execHwVoteExpire (domain : BitVec 5) (s : State) : Host.Outcome State Fault Refusal :=
  if badDomain domain then .fault .noSuchDomain else act s fun d => hwExpire d domain.toNat

/-- CLK_OPPREQ_WRITE (14 R385). -/
def execClkOppreqWrite (ini : Ini) (v : Word) (s : State) : Host.Outcome State Fault Refusal :=
  act s fun d => unlessLocked d ini (clkPage 0) 0x048 fun d => oppreqWrite d ini v

/-- CLK_OPPCAP_WRITE (14 R385): the committed pair. -/
def execClkOppcapWrite (ini : Ini) (v : Word) (s : State) : Host.Outcome State Fault Refusal :=
  act s fun d => unlessLocked d ini (clkPage 0) 0x04C fun d => oppcapWrite d ini v

/-- PLL_LOCK (14 R386). -/
def execPllLock (s : State) : Host.Outcome State Fault Refusal := act s pllLock

/-- AVS_VDONE (14 R387). -/
def execAvsVdone (s : State) : Host.Outcome State Fault Refusal := act s avsVdone

/-- AVS_SETTLE_TIMEOUT (14 R387). -/
def execAvsSettleTimeout (s : State) : Host.Outcome State Fault Refusal := act s avsTimeout

/-- CLK_SRC_SWITCH (14 R399). -/
def execClkSrcSwitch (ini : Ini) (s : State) : Host.Outcome State Fault Refusal :=
  act s fun d => unlessLocked d ini (clkPage 0) 0x044 fun d => clkSrcSwitch d ini

/-- PWR_SYSCMD_STANDBY (14 R390). -/
def execPwrSyscmdStandby (ini : Ini) (v : Word) (s : State) : Host.Outcome State Fault Refusal :=
  act s fun d => standbyCommand d ini v

/-- RTC_ALARM (14 R391). -/
def execRtcAlarm (s : State) : Host.Outcome State Fault Refusal := act s rtcAlarm

/-- PWR_FAIL_N_FALL (14 R392). -/
def execPwrFailNFall (s : State) : Host.Outcome State Fault Refusal := act s pfFall

/-- PORT_LINK_DOWN (02 R53): a link down or a hot reset. -/
def execPortLinkDown (port : Bool) (s : State) : Host.Outcome State Fault Refusal := act s fun d => portReset_ d port

/-- The configuration space of a port, the same on both: a PF's DOE and SR-IOV with it (02 R51). -/
def portConfig (d : Dev) : PortConfig :=
  { vendor := Config.vendorId, pfDevice := if d.gj7716 then 0x7716 else 0x7720, vfDevice := 0x7721, totalVfs := 127, initialVfs := 127,
    vfOffset := 1, vfStride := 1, vfPages := 1, msixSize := 32, maxPayload := 2, tag10 := true, ari := true, sriov := true, doe := true,
    aer := true, aspmL0s := false, aspmL1 := true, l1Sub := false, ats := false, pri := false, pasid := false, ide := false, tdisp := false }

/-- PORT_LINK_UP (02 R51, R53): a link trains only with its domain ON and PERSTx_N high; Device Control is as the host sets it then. -/
def execPortLinkUp (up : LinkUp) (s : State) : Host.Outcome State Fault Refusal :=
  act s fun d =>
    if domOn d (12 + portNo up.port) && (getPort d up.port).perst then modPort d up.port fun x => { x with link := true, cfg := up.link } else d

/-- PERST_ASSERT (14 R396). -/
def execPerstAssert (port : Bool) (s : State) : Host.Outcome State Fault Refusal :=
  act s fun d => portReset_ (modPort d port fun x => { x with perst := false }) port

/-- PERST_DEASSERT (14 R391, 19 R485): the SRIS strap is latched, and a device in STANDBY wakes. -/
def execPerstDeassert (port : Bool) (sris : Bool) (s : State) : Host.Outcome State Fault Refusal :=
  act s fun d => wakeStandby (modPort d port fun x => { x with perst := true, sris := sris })

/-- VF_ENABLE_CHANGE (02 R53): a cleared VF Enable or another NumVFs resets every VF of the port. -/
def execVfEnableChange (port : Bool) (enable : Bool) (numVfs : BitVec 7) (s : State) : Host.Outcome State Fault Refusal :=
  act s fun d =>
    let p := getPort d port
    let d := modPort d port fun x => { x with vfEnable := enable, numVfs := numVfs }
    if (p.vfEnable && !enable) || p.numVfs != numVfs then ((portFns port).drop 1).foldl flrOne d else d

end Sys2Proof.Machine
end

