-- ==== Sys2Proof/Machine/World.lean ====
section
/-! DEFINITION. The two worlds: watchdogs and restarts (10 R309-R312). -/

namespace Sys2Proof.Machine

/-! ### Page owner entries (10 R294) -/

def potGet (t : Tab Word) (p : Nat) : Word := tabGet t p 0x80000000
def potKind (e : Word) : Nat := let k := bits e 28 3; if k < 4 then k else 0
def potWorld (e : Word) : Bool := bit e 31
def potBad (e : Word) : Bool := bit e 27

/-- Shared SRAM pages of kind WORLD of one world. -/
def worldPages (d : Dev) (keeper : Bool) : List Nat :=
  (d.pot.cur.filter fun p => potWorld p.2 == keeper && potKind p.2 == 1).map (·.1)

/-- The wipe engine is to wipe pages, for the latest commit (10 R297). -/
def wantWipes (d : Dev) (ps : List Nat) : Dev :=
  let c := d.pot.commits
  { d with pot := { d.pot with wipes := d.pot.wipes ++ (ps.filter fun p => !d.pot.wipes.contains (p, c)).map fun p => (p, c) } }

/-! ### Debug sessions (12 R349) -/

/-- A debug session ends (event 0x0302). -/
def endDebug (d : Dev) : Dev :=
  if d.lcs.active then
    let sc := d.lcs.scope
    let d := raise { d with lcs := { d.lcs with active := false, scope := 0, dbgKeeper := false } } lcsPage 3
    evLog d 0x0302 (lineAt lcsPage 3) noFn (leBytes 1 sc.toNat ++ [1] ++ zeros 2 ++ leBytes 4 (d.lcs.dbgEnd.toNat % 2 ^ 32))
  else d

/-! ### Restarts (10 R310, R312) -/

/-- A job that the keeper world holds, or that waits for the seal unit, has no effect and ends with a status. -/
def keeperEnds (d : Dev) (j : Job) (st det : Byte) : Dev := failJob d j.id (st, det)

/-- A job that is in the keeper world's hands. -/
def keeperHolds (j : Job) : Bool := (j.stage == .keeper || j.stage == .twin)

/-- A job that needs the keeper world: a KPR job that it has taken, in whatever part, and one that waits for it or for the seal unit
(10 R310, 04 R131, R504). -/
def keeperWork (j : Job) : Bool := !jobEnded j && (keeperTaken j || keeperHolds j || j.stage == .load)

/-- Such a job completes with KEEPER_ABSENT; what of it is placed runs on and is discarded at its boundary. -/
def keeperStops (d : Dev) (j : Job) : Dev :=
  let d := emptyVerify d j.id
  if inPlans d j then modJob d j.id fun j => { j with absent := true } else keeperEnds d j stKeeper 0

/-- The event bits of a page that a keeper restart leaves set: those of the KEY page, which drives the keeper world's own input, and
those whose line is routed to the keeper world (10 R310, 18 R469). -/
def keeperEvents (d : Dev) (p : Nat) : Word :=
  let evt := (getPage d p).evt
  if p = keyPage then evt
  else (List.range 6).foldl (fun w b =>
    match lineOf p b with
    | some l => if (tabGet d.mgt.routesEff l (routeReset l)).kind == 1 then w ||| (evt &&& put b 1) else w
    | none => w) 0

/-- A block's reset that leaves those bits set. -/
def resetKeeping (d : Dev) (ps : List Nat) : Dev :=
  ps.foldl (fun r p => if keeperEvents d p = 0 then r else { r with pages := tabPut r.pages p { pageReset p with evt := keeperEvents d p } })
    (blockReset d ps)

/-- The keeper world's next start runs the image that an update has put on the boot device (08 R222, 14 R398). -/
def nextImage (d : Dev) : Dev :=
  match d.mgt.nextIlmel with
  | none => d
  | some i =>
    let images := match d.mgt.images with | a :: _ :: r => a :: i :: r | l => l
    { d with keys := { d.keys with svn := i.svn, signer := i.signer }, mgt := { d.mgt with images := images, nextIlmel := none } }

/-- A keeper restart: RESTARTING in this cycle; its jobs and the loads end with KEEPER_ABSENT; its pages are to be wiped; the seal
unit clears its lineage secret; its DRBG instance is unseeded; sessions close. -/
def keeperRestart (d : Dev) : Dev :=
  if d.acl.keeper != 2 && d.acl.keeper != 1 then d
  else
    let d := settleDraws ((d.jobs.filter keeperWork).foldl keeperStops d)
    let d := { d with
      acl := { d.acl with keeper := 3, krestarts := satInc d.acl.krestarts, kReadyDue := false }
      keys := { d.keys with loads := [], lineage := none, sweeps := 0 }
      rng := { d.rng with insts := tabPut d.rng.insts 257 { drbgReset with istate := 1 } } }
    let d := wantWipes (dropStalled d fun t => isKeeperCore t.ini.id) (worldPages d true)
    let d := closeSession d fun _ => true
    let d := if d.lcs.active && d.lcs.dbgKeeper then endDebug d else d
    nextImage (freeOld (rngFeed (cardsCleared (resetKeeping d (keyPage :: (List.range 4).map crdPage)))))

/-- A porter restart. -/
def porterRestart (d : Dev) : Dev :=
  if d.acl.porter == 0 || d.acl.porter == 4 then d
  else
    let d := { d with acl := { d.acl with porter := 3, prestarts := satInc d.acl.prestarts, pReadyDue := false } }
    wantWipes (dropStalled d fun t => isPorterCore t.ini.id) (worldPages d false)

/-- Both worlds stop for good (12 R344). -/
def worldsOff (d : Dev) : Dev :=
  let d := closeSession d fun _ => true
  { d with
    acl := { d.acl with keeper := 0, porter := 0, kReadyDue := false, pReadyDue := false }
    keys := { d.keys with lineage := none, loads := [] } }

/-! ### Watchdogs (10 R309) -/

/-- Intervals in ticks: ACL_KWDOG.ivl is guarded, the porter's is plain; 0 turns a watchdog off. -/
def kwdogTicks (d : Dev) : Nat := 64 * bits (guardVal d (regAddr aclPage 0x09C)) 0 16
def pwdogTicks (d : Dev) : Nat := 64 * d.acl.pwdog.toNat

def keeperPet (d : Dev) (i : Ini) : Dev :=
  if keeperOnly i then { d with acl := { d.acl with kPet := d.tick } } else ignored d i (regAddr aclPage 0x0A4)

def porterPet (d : Dev) (i : Ini) : Dev :=
  if isPorterCore i.id then { d with acl := { d.acl with pPet := d.tick } } else ignored d i (regAddr aclPage 0x0A8)

def keeperExpire (d : Dev) : Dev :=
  if d.acl.keeper == 2 && kwdogTicks d != 0 && decide (d.acl.kPet.toNat + kwdogTicks d ≤ d.tick.toNat) then keeperRestart d else d

def porterExpire (d : Dev) : Dev :=
  if d.acl.porter == 2 && pwdogTicks d != 0 && decide (d.acl.pPet.toNat + pwdogTicks d ≤ d.tick.toNat) then porterRestart d else d

/-- ACL_WCMD.krestart is the keeper world's, ignored while it restarts already (10 R313); prestart is either world's. A world that is
OFF or FAILED is not restarted (10 R310). -/
def krestartCommand (d : Dev) (i : Ini) : Dev :=
  if keeperOnly i && (d.acl.keeper == 1 || d.acl.keeper == 2) then keeperRestart d else ignored d i (regAddr aclPage 0x098)

def prestartCommand (d : Dev) (i : Ini) : Dev :=
  if coreOnly i && (d.acl.porter == 1 || d.acl.porter == 2 || d.acl.porter == 3) then porterRestart d else ignored d i (regAddr aclPage 0x098)

/-- A world's image fails its verification: FAILED until a cold reset (10 R310). -/
def worldFail (d : Dev) (w : World) : Dev :=
  match w with
  | .keeper => if d.acl.keeper == 1 || d.acl.keeper == 3 then { d with acl := { d.acl with keeper := 4 } } else d
  | .porter => if d.acl.porter == 1 || d.acl.porter == 3 then { d with acl := { d.acl with porter := 4 } } else d

/-! ### Core tests (15 R412) -/

/-- The first `n` members of a mask. -/
def firstOf (n w : Nat) (m : Nat) : Nat :=
  (((List.range w).filter fun i => m.testBit i).take n).foldl (fun s i => s + 2 ^ i) 0

/-- Cores that fail their test go to the dead list for good; the first 4 keeper cores and 8 porter cores that pass serve. -/
def coresTested (d : Dev) (bad : BitVec 16) : Dev :=
  let dead := d.nv.deadCores ||| bad
  let k := (~~~ dead).setWidth 6
  let p := (~~~ (dead >>> 6)).setWidth 10
  let d := if dead != d.nv.deadCores then raise d svcPage 0 else d
  let d := { d with
    nv := { d.nv with deadCores := dead }
    svc := { d.svc with kCores := BitVec.ofNat 6 (firstOf 4 6 k.toNat), pCores := BitVec.ofNat 10 (firstOf 8 10 p.toNat) } }
  let d := if popCount k ≤ 4 then setCause d 3 else d
  let d := if popCount p ≤ 8 then setCause d 4 else d
  if popCount k < 2 || popCount p < 2 then setCause d 13 else d

/-- A world's cores that pass. -/
def coresPass (d : Dev) (keeper : Bool) : Nat :=
  if keeper then popCount ((~~~ d.nv.deadCores).setWidth 6) else popCount ((~~~ (d.nv.deadCores >>> 6)).setWidth 10)

/-- The tests of a world that starts or restarts: with fewer than 2 cores that pass it is FAILED (10 R310). -/
def startTests (d : Dev) (bad : BitVec 16) : Dev :=
  let starts (w : BitVec 3) : Bool := w == 1 || w == 3
  let bad := bad &&& ((if starts d.acl.keeper then 0x003F else 0) ||| (if starts d.acl.porter then 0xFFC0 else 0))
  if bad = 0 then d
  else
    let d := coresTested d bad
    let d := if coresPass d true < 2 then worldFail d .keeper else d
    if coresPass d false < 2 then worldFail d .porter else d

/-! ### The commands -/

/-- ACL_KPET (10 R309). -/
def execAclKpet (ini : Ini) (s : State) : Host.Outcome State Fault Refusal := act s fun d => keeperPet d ini

/-- ACL_PPET (10 R309). -/
def execAclPpet (ini : Ini) (s : State) : Host.Outcome State Fault Refusal := act s fun d => porterPet d ini

/-- KEEPER_WATCHDOG_EXPIRE (10 R309). -/
def execKeeperWatchdogExpire (s : State) : Host.Outcome State Fault Refusal := act s keeperExpire

/-- PORTER_WATCHDOG_EXPIRE (10 R309). -/
def execPorterWatchdogExpire (s : State) : Host.Outcome State Fault Refusal := act s porterExpire

/-- KRESTART (10 R309). -/
def execKrestart (ini : Ini) (s : State) : Host.Outcome State Fault Refusal := act s fun d => krestartCommand d ini

/-- PRESTART (10 R309). -/
def execPrestart (ini : Ini) (s : State) : Host.Outcome State Fault Refusal := act s fun d => prestartCommand d ini

/-- WORLD_START_FAIL (10 R310). -/
def execWorldStartFail (world : World) (s : State) : Host.Outcome State Fault Refusal := act s fun d => worldFail d world

end Sys2Proof.Machine
end

