-- ==== Sys2Proof/Machine/Tamper.lean ====
section
/-! DEFINITION. Tamper and environment monitors (13): sources, responses, the counter, and the guarded pairs' comparison. -/

namespace Sys2Proof.Machine

/-! ### Sources (13 R352, R353, R368) -/

/-- Sources 0 to 11 that fuses have turned off. -/
def fusedOff (f : Fuse) (n : Nat) : Bool := decide (n < 12) && wordSet (f.off.getD n 0)

/-- Conditions of the sampled sources: a switch alarms on the level that TMP_SWPOL names. -/
def sampledCond (d : Dev) (f : Fuse) (t : TamperIn) (battery : Bool) : BitVec 23 :=
  let pol := guardVal d (regAddr tmpPage 0x0C0)
  let on (n : Nat) : Bool :=
    if fusedOff f n then false
    else if n < 8 then t.sw.getLsbD n != bit pol n
    else if n < 12 then t.meshBad.getLsbD (n - 8)
    else if n = 12 then t.tempLo else if n = 13 then t.tempHi else if n = 18 then t.clkRtc
    else if n = 19 then battery && t.light else false
  (List.range 23).foldl (fun (b : BitVec 23) n => if on n then b ||| BitVec.ofNat 23 (1 <<< n) else b) 0

/-- Sources that the samples of `sampledCond` decide. -/
def sampledMask (battery : Bool) : BitVec 23 := if battery then 0x0C3FFF else 0x043FFF

/-! ### The counter (13 R364-R367) -/

/-- Index above the highest bit set: h + 1. -/
def counterTop (f : Fuse) : Nat :=
  match ((List.range 8192).reverse).find? fun k => f.counter.getLsbD k with
  | some h => h + 1
  | none => 0

/-- Program the next bit that takes its pulses; `bad` are bits that do not (they are left and never tried again). -/
def counterBurn (f : Fuse) (bad : List Nat) : Option Fuse :=
  match ((List.range (8192 - counterTop f)).map fun i => counterTop f + i).find? fun k => !bad.contains k with
  | some k => some { f with counter := f.counter ||| BitVec.ofNat 8192 (1 <<< k) }
  | none => none

/-- The counter is full: the lock is latched for good (13 R367), and the device asks to be replaced (15 R420). -/
def counterFull (d : Dev) : Dev := setCause { d with bat := { d.bat with full := true, locked := true } } 13

/-- One increment on main power. -/
def counterStep (d : Dev) (f : Fuse) (bad : List Nat) : Dev × Fuse :=
  match counterBurn f bad with
  | none => (counterFull d, f)
  | some f' =>
    let d := if f'.counter.getLsbD 8191 then counterFull d else d
    (if 8192 - counterTop f' < 256 then setCause (raise d tmpPage 4) 10 else d, f')

/-- Every pending increment (13 R366, R394). -/
def counterDrain : Nat → Dev → Fuse → List Nat → Dev × Fuse
  | 0, d, f, _ => ({ d with bat := { d.bat with pcount := 0, pidx := none } }, f)
  | n + 1, d, f, bad => let r := counterStep d f bad; counterDrain n r.1 r.2 bad

/-! ### Responses (13 R359-R362) -/

/-- Wipe the key cache whole: every slot's use count rises (08 R237, R257). -/
def wipeCache (d : Dev) : Dev :=
  let slots := d.keys.cache.flatMap fun e => (List.range e.slots).map fun i => e.k.slot + i
  let uses := slots.foldl (fun t s => tabPut t s (tabGet t s 0 + 1)) d.keys.uses
  { d with
    keys := { d.keys with cache := [], uses := uses, nonces := [] }
    wings := { d.wings with pads := [] } }

/-- ZEROIZE_ALL on main power, but for the restart that follows (13 R359, R361, 08 R257): debug sessions end (12 R349), every KPR job not
yet committed is void (08 R256); a transition past its commit runs on (12 R351). -/
def zeroizeAll (d : Dev) : Dev :=
  let d := endDebug (wipeCache (if d.bat.zeroized then d else raise d keyPage 0))
  let d := { d with
    bat := { d.bat with bbk := none, zeroized := true }
    wings := { d.wings with ctxs := [] }
    units := tabMap (fun (x : UnitSt) => { x with opmem := [] }) d.units
    rng := { d.rng with insts := tabMap (fun _ => { drbgReset with istate := 1 }) d.rng.insts, drawBytes := 0 }
    jobs := d.jobs.map fun (j : Job) =>
      let j := { j with draw := none, meterKey := if jobPlaced j || jobEnded j then j.meterKey else [] }
      if jobPlaced j then { j with zeroed := true } else j }
  let moving (j : Job) : Bool := match d.lcs.trans with | some t => t.job == some j.id | none => false
  let held := d.jobs.filter fun j => keeperWork j && !moving j && !jobPlaced j
  held.foldl (fun d j => keeperEnds d j stZeroized 0) d

/-- LOCK: the latch; debug sessions end; a KPR job not yet committed is refused, unless the lock allows it or it is a transition past
its commit (12 R351). -/
def lockDevice (d : Dev) : Dev :=
  let d := endDebug { d with bat := { d.bat with locked := true } }
  let moving (j : Job) : Bool := match d.lcs.trans with | some t => t.job == some j.id | none => false
  let held := d.jobs.filter fun j => keeperWork j && !lockAllows j.kind j.e && !moving j && !jobPlaced j
  held.foldl (fun d j => keeperEnds d j stLife 0x04) d

/-- CLEAR_CACHE: every slot is marked; unheld slots are wiped at the next boundary (08 R257). -/
def clearCache (d : Dev) : Dev :=
  let ks := d.keys.cache.map fun e => if e.kind == .cellar then [(e.k.key, e.k.version)] else []
  let d := { d with keys := { d.keys with cache := d.keys.cache.map fun (e : CacheEnt) => { e with dropped := true } } }
  ks.flatten.foldl (fun d k => nonceForget d k.1 k.2) d

/-- Alarm sources of a set. -/
def alarmList (m : BitVec 23) : List Nat := (List.range 23).filter fun n => m.getLsbD n

/-- The response of a set of alarms: the union of their classes (13 R363). -/
def alarmUnion (d : Dev) (ns : List Nat) : BitVec 4 := ns.foldl (fun m n => m ||| tamperResp d n) 0

/-- New alarms on main power: latched, logged, responded to in rank order, and counted (13 R353, R359, R363, R365). -/
def alarmMain (d : Dev) (f : Fuse) (m : BitVec 23) (stop : Bool) : Dev × Fuse :=
  let ns := (alarmList m).filter fun n => !fusedOff f n && !d.bat.alarm.getLsbD n
  if ns.isEmpty then (d, f)
  else
    let u := alarmUnion d ns
    let d := { d with bat := { d.bat with alarm := ns.foldl (fun (b : BitVec 23) n => b ||| BitVec.ofNat 23 (1 <<< n)) d.bat.alarm } }
    let d := if u.getLsbD 3 then raise (zeroizeAll d) tmpPage 1 else d
    let d := if u.getLsbD 2 then raise (lockDevice d) tmpPage 2 else d
    let d := if u.getLsbD 1 && !u.getLsbD 3 then clearCache d else d
    let d := raise d tmpPage 0
    let d := ns.foldl (fun d n => evLog d 0x0201 (lineAt tmpPage 0) noFn
      (leBytes 1 n ++ leBytes 1 (tamperResp d n).toNat ++ [0, 0] ++ leBytes 6 d.bat.rtc.toNat)) d
    let d := if u.getLsbD 3 then (if stop then worldsOff d else keeperRestart d) else d
    if u.getLsbD 3 || u.getLsbD 2 then
      if d.pwr.pfLevel then counterStep d f []
      else ({ d with bat := { d.bat with pcount := satInc d.bat.pcount } }, f)
    else (d, f)

/-- New alarms on battery: only the BAT domain acts (13 R358, R359, R365). -/
def alarmBattery (d : Dev) (f : Fuse) (m : BitVec 23) : Dev :=
  let ns := (alarmList m).filter fun n => !fusedOff f n && !d.bat.alarm.getLsbD n
  if ns.isEmpty then d
  else
    let u := alarmUnion d ns
    let b := d.bat
    let add (acc : List AlarmLog × Byte) (n : Nat) : List AlarmLog × Byte :=
      if acc.1.length < 16 then (acc.1 ++ [⟨n, b.rtc, tamperResp d n⟩], acc.2) else (acc.1, satInc acc.2)
    let l := ns.foldl add (b.log, b.batovf)
    { d with bat := { b with
      alarm := ns.foldl (fun (b : BitVec 23) n => b ||| BitVec.ofNat 23 (1 <<< n)) b.alarm, log := l.1, batovf := l.2,
      bbk := if u.getLsbD 3 then none else b.bbk, zeroized := b.zeroized || u.getLsbD 3, locked := b.locked || u.getLsbD 2,
      pcount := if u.getLsbD 3 || u.getLsbD 2 then satInc b.pcount else b.pcount } }

/-! ### Samples and bursts (13 R354-R356) -/

/-- Sources that the BAT domain checks by itself (13 R356): SW, MESH, TEMP, SLEW_BAT, CLK_RTC, LIGHT and LOGIC. -/
def batterySources : BitVec 23 := 0x2CBFFF

/-- A check of the sampled sources, while VDD_AON is present. -/
def tamperSample (d : Dev) (f : Fuse) (t : TamperIn) : Dev × Fuse :=
  if d.bat.onCell then (d, f)
  else
  let m := sampledMask false
  let c := sampledCond d f t false
  let d := { d with tmp := { d.tmp with cond := (d.tmp.cond &&& ~~~ m) ||| c } }
  alarmMain d f c false

/-- The sources that find their condition in one cycle of main power: the continuous sources that are not among them no longer show it.
CLK_REF counts once it is armed. Without VDD_AON only the sources of the BAT domain run; BATLOSS is found at power-up alone (13 R352-R356,
R371). -/
def sourcesAlarm (d : Dev) (f : Fuse) (sources : BitVec 23) : Dev × Fuse :=
  let live := (alarmList sources).foldl (fun (b : BitVec 23) n =>
    if fusedOff f n || (n == 17 && !d.tmp.refArmed) then b else b ||| BitVec.ofNat 23 (1 <<< n)) 0
  if d.bat.onCell then
    let live := live &&& batterySources
    (alarmBattery { d with tmp := { d.tmp with cond := (d.tmp.cond &&& sampledMask true) ||| live } } f live, f)
  else
  let live := live &&& ~~~ (BitVec.ofNat 23 (1 <<< 22))
  let kept : BitVec 23 := sampledMask false ||| (if d.guards.any fun g => guardBad d g.1 then BitVec.ofNat 23 (1 <<< 21) else 0)
  alarmMain { d with tmp := { d.tmp with cond := (d.tmp.cond &&& kept) ||| live } } f live false

/-- A burst on battery: 262 RTC cycles later, the sampled sources, the guarded registers of the BAT domain (alarm on the second
burst in a row), and every 256th time the cells. None runs while VDD_AON is
present. -/
def batteryBurst (d : Dev) (f : Fuse) (b : BurstIn) : Dev :=
  if !d.bat.onCell then d
  else
  let d := { d with bat := { d.bat with rtc := d.bat.rtc + 262 } }
  let c := sampledCond d f b.levels true
  let logic : BitVec 23 := if b.mismatch && d.bat.burstMiss then BitVec.ofNat 23 (1 <<< 21) else 0
  let d := { d with
    bat := { d.bat with burstMiss := b.mismatch }
    tmp := { d.tmp with cond := (d.tmp.cond &&& ~~~ (sampledMask true)) ||| c } }
  let d := match b.vbat with
    | some (x, y) =>
      let low := (x.toNat < 2400 && !d.bat.lowa) || (y.toNat < 2400 && !d.bat.lowb)
      let d := if low then raise d tmpPage 3 else d
      { d with bat := { d.bat with vbat := x ++ y, cellA := x, cellB := y, lowa := decide (x.toNat < 2400), lowb := decide (y.toNat < 2400) } }
    | none => d
  alarmBattery d f (c ||| logic)

/-- TMP_ALARM is W1C: a 1 clears a bit only while the lock latch is clear and the condition absent (13 R374). -/
def alarmClear (d : Dev) (i : Ini) (v : Word) : Dev :=
  if !keeperOnly i then keeperDenied d i (regAddr tmpPage 0x044)
  else if d.bat.locked then d
  else { d with bat := { d.bat with alarm := d.bat.alarm &&& ~~~ (v.setWidth 23 &&& ~~~ d.tmp.cond) } }

/-- TMP_FUSEOFF (13 R368): keeper cores, confirm 0x7A3C, a source up to 11, main power, TEST or PRODUCTION. -/
def fuseOff (d : Dev) (f : Fuse) (i : Ini) (v : Word) : Dev × Fuse :=
  let n := bits v 0 5
  let lc := lcState f
  if !isKeeperCore i.id || !d.pwr.pfLevel || bits v 16 16 != 0x7A3C || decide (11 < n) || lc == 0 || lc == 3 then
    (ignored d i (regAddr tmpPage 0x058), f)
  else
    let bit_ : BitVec 23 := BitVec.ofNat 23 (1 <<< n)
    ({ d with bat := { d.bat with alarm := d.bat.alarm &&& ~~~ bit_ }, tmp := { d.tmp with cond := d.tmp.cond &&& ~~~ bit_ } },
      { f with off := f.off.set n 0xFFFFFFFF })

/-- The battery selector: the domain runs from VDD_AON, else from the higher cell (13 R355). -/
def sourceChange (d : Dev) (aon : Bool) (a b : BitVec 16) : Dev :=
  { d with bat := { d.bat with onCell := !aon, cellA := a, cellB := b } }

/-- A guarded pair has mismatched for 64 cycles, while main power is present (13 R370). -/
def guardMismatch (d : Dev) (f : Fuse) (addr : Nat) : Dev × Fuse :=
  if d.bat.onCell || !isGuarded addr || !guardBad d addr then (d, f)
  else
    let d := if d.bat.alarm.getLsbD 21 then d
      else { d with tmp := { d.tmp with logicAddr := BitVec.ofNat 32 addr } }
    let d := { d with tmp := { d.tmp with cond := d.tmp.cond ||| BitVec.ofNat 23 (1 <<< 21) } }
    alarmMain d f (BitVec.ofNat 23 (1 <<< 21)) false

/-- The LOGIC condition ends once no guarded pair mismatches. -/
def logicCond (d : Dev) : Dev :=
  if d.guards.any fun g => guardBad d g.1 then d
  else { d with tmp := { d.tmp with cond := d.tmp.cond &&& ~~~ (BitVec.ofNat 23 (1 <<< 21)) } }

/-! ### Clearing a lock (13 R372) -/

/-- The effect of TAMPER_LOCK_CLEAR at its boundary (event 0x0203). Alarms that are not in `seen`, those latched at the job's check, came
after it: their response latches the lock again at once (13 R373). -/
def lockClear (d : Dev) (session : DWord) (seen : BitVec 23) : Dev :=
  if d.bat.locked && !d.bat.full then
    let new := d.bat.alarm &&& ~~~ seen
    let d := { d with bat := { d.bat with locked := (alarmUnion d (alarmList new)).getLsbD 2, alarm := new } }
    evLog (raise d tmpPage 5) 0x0203 (lineAt tmpPage 5) noFn (leBytes 8 session.toNat)
  else d

/-! ### The commands -/

/-- A command that acts on the device and on the fuses. -/
def actFuse (s : State) (r : Dev × Fuse) : Host.Outcome State Fault Refusal := .next { s with dev := r.1, fuse := r.2 }

/-- TAMPER_SAMPLE (13 R354). -/
def execTamperSample (levels : TamperIn) (s : State) : Host.Outcome State Fault Refusal := actFuse s (tamperSample s.dev s.fuse levels)

/-- BATTERY_BURST (13 R356). -/
def execBatteryBurst (b : BurstIn) (s : State) : Host.Outcome State Fault Refusal := act s fun d => batteryBurst d s.fuse b

/-- TAMPER_ALARM (13 R353, R363): sources that find their condition in one cycle. -/
def execTamperAlarm (sources : BitVec 23) (s : State) : Host.Outcome State Fault Refusal :=
  actFuse s (sourcesAlarm s.dev s.fuse sources)

/-- TMP_ALARM_CLEAR (13 R374). -/
def execTmpAlarmClear (ini : Ini) (v : Word) (s : State) : Host.Outcome State Fault Refusal := act s fun d => alarmClear d ini v

/-- TMP_FUSEOFF (13 R368). -/
def execTmpFuseoff (ini : Ini) (v : Word) (s : State) : Host.Outcome State Fault Refusal := actFuse s (fuseOff s.dev s.fuse ini v)

/-- BATTERY_SOURCE_CHANGE (13 R355). -/
def execBatterySourceChange (vddAon : Bool) (cellA : BitVec 16) (cellB : BitVec 16) (s : State) :
    Host.Outcome State Fault Refusal := act s fun d => sourceChange d vddAon cellA cellB

/-- GUARD_MISMATCH (13 R370). -/
def execGuardMismatch (addr : BitVec 40) (s : State) : Host.Outcome State Fault Refusal := actFuse s (guardMismatch s.dev s.fuse addr.toNat)

/-- PWR_FAIL_N_RISE (14 R394): MRAM writes resume, records that waited take their place, pending increments are committed. -/
def pfRise (d : Dev) (f : Fuse) : Dev × Fuse :=
  if d.pwr.pfLevel then (d, f)
  else
    let d := raise { d with pwr := { d.pwr with pfLevel := true, pfState := 0 } } (pwrPage 20) 1
    let d := evrRaiseHigh { d with evr := { d.evr with holdFrom := none, flushing := d.evr.flushing || !d.evr.buf.isEmpty } }
    counterDrain d.bat.pcount.toNat d f []

/-- PWR_FAIL_N_RISE. -/
def execPwrFailNRise (s : State) : Host.Outcome State Fault Refusal := actFuse s (pfRise s.dev s.fuse)

end Sys2Proof.Machine
end

