-- ==== Sys2Proof/Machine/Lifecycle.lean ====
section
/-! DEFINITION. Life cycle, factory provisioning and debug authorisation (12). -/

namespace Sys2Proof.Machine

/-! ### Transitions (12 R340-R345) -/

/-- The transitions that exist: BLANK to TEST, TEST to PRODUCTION or END_OF_LIFE, PRODUCTION to END_OF_LIFE. -/
def lcAllowed (lc : BitVec 2) (t : Nat) : Bool :=
  (lc == 0 && t == 1) || (lc == 1 && (t == 2 || t == 3)) || (lc == 2 && t == 3)

/-- The token digest of a target; fuse word i of a digest holds its bytes 4 (i - first) on, lowest byte first (log entry 4). -/
def tokenDigest (f : Fuse) (t : Nat) : List Byte :=
  if t = 1 then Config.tTest else if t = 2 then leBytes 48 f.tProd.toNat else leBytes 48 f.tEol.toNat

/-- The first pulse of a state word: bits 0 to 7. -/
def burnFirst (f : Fuse) (t : Nat) : Fuse :=
  if t = 1 then { f with wTest := f.wTest ||| 0xFF } else if t = 2 then { f with wProd := f.wProd ||| 0xFF }
  else { f with wEol := f.wEol ||| 0xFF }

/-- The remaining pulses of a state word. -/
def burnRest (f : Fuse) (t : Nat) : Fuse :=
  if t = 1 then { f with wTest := 0xFFFFFFFF } else if t = 2 then { f with wProd := 0xFFFFFFFF } else { f with wEol := 0xFFFFFFFF }

/-- A word with 8 to 31 bits set is completed at power-up. -/
def burnTorn (w : Word) : Word := if wordSet w then 0xFFFFFFFF else w

/-- LCS_STAT.entrydone: the D word of the current state is set, or the state has none. -/
def entryDone (f : Fuse) : Bool :=
  match (lcState f).toNat with
  | 2 => wordSet f.dProd
  | 3 => wordSet f.dEol
  | _ => true

/-- Erase what the entry actions erase: every cellar place, the nonce reservation area and both custody copies. -/
def eraseStores (d : Dev) : Dev :=
  { d with nv := { d.nv with cellar := [], old := [], tenants := [], journal := [], custodyA := none, custodyB := none, lostKeys := [] } }

/-- The entry actions of END_OF_LIFE begin: the trapdoor's ZEROIZE_ALL and LOCK, both worlds stop, and the erase engine runs. A debug
authorisation under way is denied (12 R351). -/
def eolActions (d : Dev) : Dev :=
  let d := (d.jobs.filter fun j => j.kind == .debugAuthorise && !jobEnded j).foldl (fun d j => finishJob d j.id (outcome stLife 0)) d
  let d := worldsOff (lockDevice (zeroizeAll d))
  { d with lcs := { d.lcs with erasing := true } }

/-- A draw of the keeper world's own from instance 257. -/
def keeperDraw (d : Dev) (n : Nat) : Option (List Byte × Dev) :=
  match takeDraw d 257 n with
  | some (bs, d) => some (bs, rngFeed d)
  | none => none

/-- A key record as the keeper world makes it. -/
def newImage (d : Dev) (key parent : Word) (tenant version : BitVec 16) (ktype level : Byte) (attr : BitVec 16) (export_ : Byte)
    (origin : BitVec 2) (qinval : Bool) (pfx : BitVec 31) (value point : List Byte) (st : Byte) : RecImage :=
  { key := key, parent := parent, tenant := tenant, version := version, ktype := ktype, level := level, attr := attr,
    export_ := export_, origin := origin, qinval := qinval, record := d.nv.nextRecord, pfx := pfx, stamp := d.nv.evNext,
    value := value, point := point, state := st }

/-- Write a new record: its number is used up. -/
def addRecord (d : Dev) (i : RecImage) : Dev :=
  let d := putRecord d i
  { d with nv := { d.nv with nextRecord := d.nv.nextRecord + 1 } }

/-- The entry actions of PRODUCTION (12 R344): erase, draw BBK, make and seal the device import key. None while the keeper instance
cannot deliver. -/
def prodActions (d : Dev) : Option Dev :=
  let d := eraseStores d
  let d := { d with nv := { d.nv with sessionNext := 1, planSeq := 0 }, keys := { d.keys with nonces := [] } }
  match keeperDraw d 32 with
  | none => none
  | some (bbk, d) =>
    match keeperDraw d 184 with
    | none => none
    | some (draw, d) =>
      let b : BitVec 256 := BitVec.ofNat 256 (beNat bbk)
      let d := { d with bat := { d.bat with bbk := some b }, keys := { d.keys with lineage := some b } }
      let p := ecKeygen p384 draw
      some (addRecord d (newImage d 1 0 0 1 0x11 0 0x8004 0 0 false 0 p.1 p.2 2))

/-- A transition commits: its first pulse; the device is in the new state (events 0x0301, PG_EVT.moved), and outside TEST RNG_RAWCTL.en
reads 0 (09 R286). -/
def lcCommit (d : Dev) (f : Fuse) (t : Nat) (job : Option JobId) : Dev × Fuse :=
  let old := lcState f
  let f := burnFirst f t
  let d := { d with lcs := { d.lcs with trans := some { target := BitVec.ofNat 2 t, job := job, pulses := 1, actions := false }, dbgKeeper := d.lcs.dbgKeeper && t == 1 } }
  let d := if t = 1 then d else { d with rng := { d.rng with rawEn := false, rawBuf := [] } }
  let d := raise d lcsPage 0
  let d := evLog d 0x0301 (lineAt lcsPage 0) noFn (leBytes 1 old.toNat ++ leBytes 1 t ++ [0])
  (if t = 3 then endDebug (eolActions d) else d, f)

/-- The outcome of a transition's job. -/
def finishMaybe (d : Dev) (job : Option JobId) (o : OutcomeRec) : Dev :=
  match job with
  | some id => finishJob d id o
  | none => d

/-- At a boundary the remaining pulses of a state word are done; a transition to TEST is then over (12 R343). -/
def lcBoundary (d : Dev) (f : Fuse) : Dev × Fuse :=
  match d.lcs.trans with
  | none => (d, f)
  | some t =>
    if !d.pwr.pfLevel || t.pulses = 4 then (d, f)
    else
      let f := burnRest f t.target.toNat
      if t.target = 1 then
        (finishMaybe { d with lcs := { d.lcs with trans := none }, keys := { d.keys with lineage := some 0 } } t.job (outcome stOk 0), f)
      else ({ d with lcs := { d.lcs with trans := some { t with pulses := 4 } } }, f)

/-- The keeper world ends a transition to PRODUCTION: the entry actions, then D_PROD, then the job's outcome. -/
def prodFinish (d : Dev) (f : Fuse) : Dev × Fuse :=
  match d.lcs.trans with
  | some t =>
    if t.target = 2 && t.pulses = 4 && d.pwr.pfLevel then
      match prodActions d with
      | some d => (finishMaybe { d with lcs := { d.lcs with trans := none, due := false } } t.job (outcome stOk 0), { f with dProd := 0xFFFFFFFF })
      | none => (d, f)
    else (d, f)
  | none => (d, f)

/-- The erase engine is done: D_EOL, and the job's outcome (12 R343, R344). -/
def eraseDone (d : Dev) (f : Fuse) : Dev × Fuse :=
  if !d.lcs.erasing || !d.pwr.pfLevel then (d, f)
  else
    let job := match d.lcs.trans with | some t => t.job | none => none
    let d := eraseStores d
    (finishMaybe { d with lcs := { d.lcs with trans := none, erasing := false } } job (outcome stOk 0),
      { burnRest f 3 with dEol := 0xFFFFFFFF })

/-- A wrong token, or a debug response that fails (events 0x0303, PG_EVT.authfail). -/
def authFailed (d : Dev) (debug : Bool) : Dev :=
  let d := if debug then { d with lcs := { d.lcs with debugFails := satInc d.lcs.debugFails } }
    else { d with lcs := { d.lcs with tokenFails := satInc d.lcs.tokenFails } }
  let n := if debug then d.lcs.debugFails else d.lcs.tokenFails
  evLog (raise d lcsPage 1) 0x0303 (lineAt lcsPage 1) noFn [if debug then 1 else 0, n]

/-- LIFECYCLE_TRANSITION in the keeper world's hands (12 R341, R343, R351). -/
def runTransition (d : Dev) (f : Fuse) (j : Job) : Dev × Fuse :=
  let t := opLe j.e 0 1
  let dg := tokenDigest f t
  match d.lcs.trans with
  | some tr => if tr.job = some j.id then prodFinish d f else (d, f)
  | none =>
    if !lcAllowed (lcState f) t then (finishJob d j.id (outcome stInput 0x0C), f)
    else if 16 ≤ d.lcs.tokenFails.toNat then (finishJob d j.id (outcome stLife 0x03), f)
    else if allZero dg then (finishJob d j.id (outcome stLife 0), f)
    else if sha384 ([0x47, 0x4A, 0x2D, 0x4C, 0x43, 0x54, 0x00, BitVec.ofNat 8 t] ++ opAt j.e 32 32) != dg then
      (finishJob (authFailed d false) j.id (outcome stAuth 0x04), f)
    else if !d.pwr.pfLevel then (d, f)
    else lcCommit d f t (some j.id)

/-! ### Debug authorisation (12 R347-R349) -/

/-- A new debug nonce after every DEBUG_AUTHORISE and at every keeper start; without a draw the old one is still used up: the new
value is free (log entry 5). -/
def newDebugNonce (d : Dev) : Dev :=
  match keeperDraw d 16 with
  | some (bs, d) => { d with lcs := { d.lcs with nonce := BitVec.ofNat 128 (leNat bs) } }
  | none =>
    let w (i : Nat) : Word := Config.freeWord (d.free + i)
    { d with lcs := { d.lcs with nonce := w 3 ++ w 2 ++ w 1 ++ w 0 }, free := d.free + 4 }

/-- What a debug response signs (12 R347). -/
def debugDigest (d : Dev) (j : Job) : List Byte :=
  sha384 ([0x47, 0x4A, 0x2D, 0x44, 0x45, 0x42, 0x55, 0x47, 0x00] ++ opAt j.e 0 32 ++ sha384 (attestPair d).2)

/-- The checks of DEBUG_AUTHORISE that come before its signature's; none where the signature decides (12 R348). -/
def debugVerdict (d : Dev) (f : Fuse) (j : Job) : Option OutcomeRec :=
  let req := opAt j.e 0 32
  let scope := leAt req 0 1
  let dur := leAt req 1 1
  if lcState f != 2 then some (outcome stLife 0)
  else if 2 < scope || dur < 1 || 64 < dur || !allZero (slice req 2 14) then some (outcome stInput 0x0D)
  else if scope = 0 then some (outcome stOk 0)
  else if slice req 16 16 != leBytes 16 d.lcs.nonce.toNat || sha384 Config.debugKey != leBytes 48 f.tDbg.toNat then some (outcome stAuth 0x05)
  else none

/-- DEBUG_AUTHORISE in the keeper world's hands: its checks; the signature is then verified in a slot of a PK shelf. -/
def runDebug (d : Dev) (f : Fuse) (j : Job) : Dev :=
  newDebugNonce (match debugVerdict d f j with
    | some o => finishJob d j.id o
    | none => modJob d j.id fun x => { x with todo := x.todo.drop 1, stage := .wait, sig := debugDigest d j })

/-- The session that a DEBUG_AUTHORISE with OK grants, or closes, at its boundary (event 0x0302). -/
def debugGrant (d : Dev) (f : Fuse) (j : Job) : Dev :=
  let scope := opLe j.e 0 1
  let d := endDebug d
  if scope = 0 || lcState f != 2 then d
  else
    let e := d.tick + BitVec.ofNat 48 (opLe j.e 1 1 * 2 ^ 20)
    let d := raise { d with lcs := { d.lcs with active := true, scope := BitVec.ofNat 2 scope, dbgEnd := e, dbgKeeper := false } } lcsPage 2
    evLog d 0x0302 (lineAt lcsPage 2) noFn (leBytes 1 scope ++ [0] ++ zeros 2 ++ leBytes 4 (e.toNat % 2 ^ 32))

/-! ### Provisioning (12 R346) -/

/-- A word of a fuse field that starts at a word. -/
def fieldWord {n : Nat} (v : BitVec n) (i : Nat) : Word := BitVec.ofNat 32 (v.toNat >>> (32 * i))

/-- A fuse word as LCS_FUSERD shows it; words 5 to 20 read 0 (12 R337). -/
def fuseRead (f : Fuse) (i : Nat) : Word :=
  if i = 0 then f.wTest else if i = 1 then f.wProd else if i = 2 then f.wEol else if i = 3 then f.dProd else if i = 4 then f.dEol
  else if i ≤ 20 then 0 else if i = 21 then f.mDrs else if i < 34 then fieldWord f.tProd (i - 22)
  else if i < 46 then fieldWord f.tEol (i - 34) else if i < 58 then fieldWord f.tDbg (i - 46)
  else fieldWord f.product (i - 58)

/-- Program a word from 22 to 63. -/
def fuseWrite (f : Fuse) (i : Nat) (v : Word) : Fuse :=
  let or384 (x : BitVec 384) (k : Nat) : BitVec 384 := x ||| (v.setWidth 384 <<< (32 * k))
  if i < 22 then f
  else if i < 34 then { f with tProd := or384 f.tProd (i - 22) }
  else if i < 46 then { f with tEol := or384 f.tEol (i - 34) }
  else if i < 58 then { f with tDbg := or384 f.tDbg (i - 46) }
  else { f with product := f.product ||| (v.setWidth 192 <<< (32 * (i - 58))) }

/-- LCS_FUSECMD.program: keeper-only, in TEST, words 22 to 63 that read all zero. -/
def fuseProgram (d : Dev) (f : Fuse) (i : Ini) : Dev × Fuse :=
  let a := regAddr lcsPage 0x068
  let k := d.lcs.fuseIdx.toNat
  if !keeperOnly i || lcState f != 1 || k < 22 then (ignored d i a, f)
  else if fuseRead f k != 0 then (ignored d i a, f)
  else if !d.pwr.pfLevel then (d, f)
  else (d, fuseWrite f k d.lcs.fuseData)

/-- The draw of gendrs and its programming: DRS, then M_DRS. Both wait for the first seed of the keeper instance (09 R270) and for
PWR_FAIL_N (R339); DEDUCED (log 76). -/
def drsStep (d : Dev) (f : Fuse) : Dev × Fuse :=
  match (if d.pwr.pfLevel then keeperDraw d 64 else none) with
  | some (bs, d) =>
    ({ d with lcs := { d.lcs with gdDue := false } }, { f with drs := f.drs ||| BitVec.ofNat 512 (beNat bs), mDrs := 0xFFFFFFFF })
  | none => ({ d with lcs := { d.lcs with gdDue := true } }, f)

/-- LCS_FUSECMD.gendrs: refused when any of words 5 to 21 is not zero. -/
def genDrs (d : Dev) (f : Fuse) (i : Ini) : Dev × Fuse :=
  if !keeperOnly i || lcState f != 1 then (ignored d i (regAddr lcsPage 0x068), f)
  else if f.drs != 0 || f.mDrs != 0 then ({ d with lcs := { d.lcs with gdfail := true } }, f)
  else drsStep d f

/-- A gendrs that waits is tried again at every boundary while the device is in TEST. -/
def genDrsWaits (d : Dev) (f : Fuse) : Dev × Fuse :=
  if !d.lcs.gdDue then (d, f)
  else if lcState f != 1 then ({ d with lcs := { d.lcs with gdDue := false } }, f)
  else drsStep d f

/-! ### The commands -/

/-- LCS_FUSE_PROGRAM (12 R346). -/
def execLcsFuseProgram (ini : Ini) (s : State) : Host.Outcome State Fault Refusal := actFuse s (fuseProgram s.dev s.fuse ini)

/-- LCS_GENDRS (12 R346). -/
def execLcsGendrs (ini : Ini) (s : State) : Host.Outcome State Fault Refusal := actFuse s (genDrs s.dev s.fuse ini)

/-- DEBUG_SESSION_END (12 R349): the window of the session is over. -/
def execDebugSessionEnd (s : State) : Host.Outcome State Fault Refusal :=
  act s fun d => if d.lcs.active && decide (d.lcs.dbgEnd.toNat ≤ d.tick.toNat) then endDebug d else d

/-- ERASE_ENGINE_DONE (12 R344). -/
def execEraseEngineDone (s : State) : Host.Outcome State Fault Refusal := actFuse s (eraseDone s.dev s.fuse)

end Sys2Proof.Machine
end

