-- ==== Sys2Proof/Machine/Cards.lean ====
section
/-! DEFINITION. Custodian cards and quorum (11): the slots, the Calgenan commands and channel, sessions and custody changes. -/

namespace Sys2Proof.Machine

/-! ### The field of the shares (11 R325) -/

def shareQ : Nat := 2 ^ 256 - 189

/-- f(x) of the polynomial with constant term `c0` and the other coefficients in rising degree. -/
def sharePoly (c0 : Nat) (cs : List Nat) (x : Nat) : Nat := (cs.reverse.foldl (fun a c => (a * x + c) % shareQ) 0 * x + c0) % shareQ

/-- Lagrange interpolation at 0 over (index, y) pairs. -/
def shareJoin (ps : List (Nat × Nat)) : Nat :=
  ps.foldl (fun acc p =>
    let t := ps.foldl (fun (nd : Nat × Nat) o => if o.1 = p.1 then nd else
      (nd.1 * o.1 % shareQ, nd.2 * ((o.1 + shareQ - p.1) % shareQ) % shareQ)) (1, 1)
    (acc + p.2 * (t.1 * invMod t.2 shareQ % shareQ)) % shareQ) 0

/-- SHA-384("GJ-QUORUM", 0, [v]32, QS) of the custody record. -/
def quorumDigest (v qs : Nat) : List Byte :=
  sha384 ([0x47, 0x4A, 0x2D, 0x51, 0x55, 0x4F, 0x52, 0x55, 0x4D, 0x00] ++ beBytes 4 v ++ beBytes 32 qs)

/-- The check value of a share. -/
def shareCheck (v i : Nat) (y : List Byte) : List Byte :=
  (sha384 ([0x47, 0x4A, 0x2D, 0x53, 0x48, 0x41, 0x52, 0x45, 0x00] ++ beBytes 4 v ++ beBytes 1 i ++ y)).take 16

/-- The number of the newest session, 0 before the first. -/
def sessionNo (d : Dev) : Nat := match d.crd.session with | some s => s.number.toNat | none => 0

/-! ### Slots (11 R316-R321) -/

def slotPage (i : BitVec 2) : Nat := crdPage i.toNat

/-- End an exchange. -/
def slotIdle (x : CardSlot) : CardSlot := { x with state := 3, ins := 0, busy := false, tries := 0, resynced := false }

/-- The deactivation sequence of a slot. -/
def slotOff (x : CardSlot) : CardSlot :=
  { x with cls := 0, busy := false, clkstop := false, ins := 0, tries := 0, resynced := false, retryB := false, wakeDue := false,
           chan := false, kd := [], km := [], ctr := 0, cardId := [], cardPub := [], ephD := [], devNonce := [] }

/-- A card is rejected or faulted: DEACTIVATED until it is removed. -/
def slotReject (d : Dev) (i : BitVec 2) (err : Byte) (evt : Option Nat) : Dev :=
  let d := emit (modSlot d i fun x => { slotOff x with state := 7, err := err }) (.cardPins i false)
  match evt with | some b => raise d (slotPage i) b | none => d

/-- Activation of a card that has passed its debounce begins: class C first, unless CRD_CTL.class asks for class B only. -/
def slotActivate (d : Dev) (i : BitVec 2) : Dev :=
  let x := getSlot d i
  if x.present && x.debounced && (x.state == 1) && domOn d 15 then
    emit (setSlot d i { slotOff x with state := 2, cls := if x.clsSel == 2 then 2 else 1, err := 0 }) (.cardPins i true)
  else d

/-- A slot gives up class C: back after 10 ms at class B, or rejected. -/
def slotFallback (d : Dev) (i : BitVec 2) (err : Byte) : Dev :=
  let x := getSlot d i
  if x.cls == 1 && x.clsSel != 1 then
    emit (setSlot d i { slotOff x with state := 2, retryB := true }) (.cardPins i false)
  else slotReject d i err (some 2)

/-- What an ATR says that the slot uses. -/
structure AtrInfo where
  ta1   : Option Nat
  ta2   : Option Nat
  tc1   : Nat
  t1    : Bool
  ifsc  : Nat
  tb3   : Nat
  crc   : Bool
  glob  : Option Nat             -- first TA after T=15
deriving DecidableEq, Repr

/-- Interface bytes in groups: `y` is the presence nibble, `t` the protocol of the group, `k` its number. -/
def atrGroups : Nat → Nat → Nat → Nat → List Byte → AtrInfo → AtrInfo
  | 0, _, _, _, _, a => a
  | fuel + 1, k, t, y, bs, a =>
    let has (b : Nat) : Bool := y / 2 ^ b % 2 = 1
    let nextB (bs : List Byte) (h : Bool) : Option Nat × List Byte := if h then (bs.head?.map (·.toNat), bs.drop 1) else (none, bs)
    let (ta, bs) := nextB bs (has 0)
    let (tb, bs) := nextB bs (has 1)
    let (tc, bs) := nextB bs (has 2)
    let (td, bs) := nextB bs (has 3)
    let a :=
      if k = 1 then { a with ta1 := ta, tc1 := tc.getD 0 }
      else if k = 2 then { a with ta2 := ta }
      else if t = 15 then { a with glob := if a.glob.isSome then a.glob else ta }
      else if t = 1 && !a.t1 then
        { a with t1 := true, ifsc := ta.getD 32, tb3 := tb.getD 0x4D, crc := tc.getD 0 % 2 = 1 }
      else a
    match td with
    | some v => atrGroups fuel (k + 1) (v % 16) (v / 16) bs a
    | none => a

/-- Whether any group offers T=1. -/
def atrOffers : Nat → Nat → List Byte → Bool
  | 0, _, _ => false
  | fuel + 1, y, bs =>
    let n := (if y % 2 = 1 then 1 else 0) + (if y / 2 % 2 = 1 then 1 else 0) + (if y / 4 % 2 = 1 then 1 else 0)
    if y / 8 % 2 = 1 then
      match (bs.drop n).head? with
      | some td => td.toNat % 16 == 1 || atrOffers fuel (td.toNat / 16) (bs.drop (n + 1))
      | none => false
    else false

/-- Fi and Di of TA1 in the supported set; the default otherwise. -/
def atrFactors (ta : Option Nat) : Option (Nat × Nat) :=
  match ta with
  | none => some (372, 1)
  | some v =>
    let fi := if v / 16 = 1 || v / 16 = 0 then some 372 else if v / 16 = 9 then some 512 else none
    let di := if v % 16 = 1 then some 1 else if v % 16 = 2 then some 2 else if v % 16 = 3 then some 4 else if v % 16 = 4 then some 8
      else if v % 16 = 5 then some 16 else none
    match fi, di with
    | some f, some d => some (f, d)
    | _, _ => none

/-- An ATR arrives: class indicator, T=1, TA2, CRC; then the parameters by PPS and S(IFS request) (11 R316, R317). -/
def slotAtr (d : Dev) (i : BitVec 2) (atr : List Byte) : Dev :=
  let x := getSlot d i
  if x.state != 2 || x.retryB then d
  else
    let t0 := leAt atr 1 1
    let a := atrGroups 33 1 0 (t0 / 16) (atr.drop 2)
      { ta1 := none, ta2 := none, tc1 := 0, t1 := false, ifsc := 32, tb3 := 0x4D, crc := false, glob := none }
    let offers := atrOffers 33 (t0 / 16) (atr.drop 2)
    let d := setSlot d i { x with atrLen := BitVec.ofNat 6 (min 33 atr.length) }
    let cls := match a.glob with | some g => g % 64 | none => 7
    let noC := x.cls == 1 && cls % 8 / 4 = 0
    let badTa2 := match a.ta2 with | some v => v % 16 != 1 || (atrFactors a.ta1).isNone | none => false
    if noC then slotFallback d i 0x01
    else if !offers || a.crc || badTa2 || 9 < a.tb3 / 16 || a.ifsc < 16 || 254 < a.ifsc then slotReject d i 0x02 (some 2)
    else
      let (fi, di) := (atrFactors a.ta1).getD (372, 1)
      modSlot d i fun x => { slotIdle x with
        fi := BitVec.ofNat 11 fi, di := BitVec.ofNat 5 di, tc1 := BitVec.ofNat 8 a.tc1, ifsc := BitVec.ofNat 8 a.ifsc,
        bwi := BitVec.ofNat 4 (a.tb3 / 16), cwi := BitVec.ofNat 4 a.tb3, stopInd := BitVec.ofNat 2 ((a.glob.getD 0) / 64), err := 0 }

/-- The detect switch opens: deactivation at once, logged with the command in progress (11 R318, R330). -/
def slotRemove (d : Dev) (i : BitVec 2) : Dev :=
  let x := getSlot d i
  if !x.present then d
  else
    let d := setSlot d i { slotOff x with present := false, debounced := false, state := 0, err := if x.ins = 0 then x.err else 0x05 }
    let d := raise (emit d (.cardPins i false)) (slotPage i) 1
    let d := evLog d 0x0701 (lineAt (slotPage i) 1) noFn (leBytes 1 i.toNat ++ [x.ins])
    if x.ins = 0x30 then
      evLog d 0x0703 (lineAt (slotPage i) 1) noFn (leBytes 1 i.toNat ++ [2, 0, 0] ++ leBytes 8 (sessionNo d))
    else d

/-! ### Commands and the channel (11 R322-R324) -/

/-- A slot that can take a command: READY, its domain ON, the keeper world present, and a stopped card awakened. -/
def slotFree (d : Dev) (i : BitVec 2) (ins : Byte) : Bool :=
  let x := getSlot d i
  keeperPresent d && domOn d 15 && (x.state == 3 || (x.state == 6 && ins == 0x02)) && (!x.wakeDue || ins == 0x02)

/-- Send a command on a slot. -/
def slotSend (d : Dev) (i : BitVec 2) (ins : Byte) (body : List Byte) : Dev :=
  emit (modSlot d i fun x => { x with state := 4, ins := ins, clkstop := false, rspDone := false, rspErr := false, tries := 0, resynced := false })
    (.apdu i ins body)

/-- A command under the channel: AES-256-GCM under Kd with the channel counter as IV. -/
def slotSeal (d : Dev) (i : BitVec 2) (ins : Byte) (pt : List Byte) : Dev :=
  let x := getSlot d i
  let iv := beBytes 12 x.ctr
  let ct := gcmCrypt x.kd iv pt
  slotSend (setSlot d i { x with ctr := x.ctr + 1 }) i ins (ct ++ gcmTag x.kd iv [] ct)

/-- The plaintext of a response under the channel; none when its tag fails. -/
def slotOpen (x : CardSlot) (data : List Byte) : Option (List Byte) :=
  let n := data.length - 16
  let iv := beBytes 12 x.ctr
  let ct := data.take n
  if 16 ≤ data.length && gcmTag x.km iv [] ct == data.drop n then some (gcmCrypt x.km iv ct) else none

/-- A card's entry of the custody record. -/
def custodyCard (c : Custody) (id : List Byte) : Option CardEntry := c.cards.find? fun e => e.cardId == id

/-- The public key for a channel: the custody record's, or while enrolling what IDENTIFY gave. -/
def cardKey (d : Dev) (x : CardSlot) : Option (List Byte) :=
  let enrolling := match d.crd.session with | some s => s.state == 5 | none => false
  if x.cardId.isEmpty then none
  else if enrolling then some x.cardPub
  else (custodyOf d.nv).bind fun c => (custodyCard c x.cardId).map (·.pub)

/-! ### Sessions (11 R328-R333) -/

def window120 : Nat := 3932160

/-- The version of a change under way: v + 1, or 1 without a group. -/
def nextVersion (nv : Nv) : Nat := match custodyOf nv with | some c => c.version.toNat + 1 | none => 1

/-- M and N of a custody code. -/
def custodyM (code : BitVec 16) : Nat := (code.toNat - 0x1000) / 0x100 + 1
def custodyN (code : BitVec 16) : Nat := (code.toNat - 0x1000) % 0x100 + 1

/-- One value of the field from the keeper instance, in [1, q - 1] (log entry 7). -/
def drawField (d : Dev) : Option (Nat × Dev) :=
  match keeperDraw d 40 with
  | some (bs, d) => some (beNat bs % (shareQ - 1) + 1, d)
  | none => none

def drawFields : Nat → Dev → Option (List Nat × Dev)
  | 0, d => some ([], d)
  | n + 1, d =>
    match drawField d with
    | none => none
    | some (v, d) =>
      match drawFields n d with
      | some (vs, d) => some (v :: vs, d)
      | none => none

/-- A satisfied custody change enters ENROLLING: QS' and a new polynomial are drawn; it waits while the keeper instance cannot
deliver. -/
def enterEnrolling (d : Dev) : Dev :=
  match d.crd.session with
  | some s =>
    if s.state = 1 && decide (0x1000 ≤ s.code.toNat) then
      match drawFields (custodyM s.code) d with
      | some (q :: cs, d) => { d with crd := { d.crd with session := some { s with state := 5, qs := q, coeffs := cs } } }
      | _ => d
    else d
  | none => d

def setSession (d : Dev) (s : Session) : Dev := { d with crd := { d.crd with session := some s } }

/-- A card that does not count (event 0x0703). -/
def notCounted (d : Dev) (i : BitVec 2) (reason : Byte) : Dev :=
  evLog d 0x0703 (lineAt (slotPage i) 3) noFn (leBytes 1 i.toNat ++ [reason, 0, 0] ++ leBytes 8 (sessionNo d))

/-- A share passes or fails its check and counts toward the session; the M-th one satisfies it (11 R324, R329, R330). -/
def countShare (d : Dev) (i : BitVec 2) (pt : List Byte) : Dev :=
  let x := getSlot d i
  let ix := leAt pt 0 1
  let y := slice pt 1 32
  match (custodyOf d.nv).bind fun c => (custodyCard c x.cardId).map fun e => (c, e) with
  | none => notCounted d i 0
  | some (c, e) =>
    if e.index != ix || shareCheck c.version.toNat ix y != e.check then notCounted d i 1
    else
      match d.crd.session with
      | none => d
      | some s =>
        if s.state != 0 then d
        else if s.windowEnd ≤ d.bat.rtc.toNat then setSession d { sessionWiped s with state := 3 }
        else if s.counted.any fun k => k.1 == x.cardId then d
        else
          let counted := s.counted ++ [(x.cardId, ix, y)]
          if counted.length < c.m then setSession d { s with counted := counted }
          else
            let qs := shareJoin ((counted.take c.m).map fun k => (k.2.1, beNat k.2.2))
            if quorumDigest c.version.toNat qs != c.digest then notCounted (setSession d { sessionWiped { s with counted := counted } with state := 3 }) i 3
            else enterEnrolling (setSession d { sessionWiped { s with counted := counted } with state := 1, windowEnd := d.bat.rtc.toNat + window120 })

/-- The index of a card that is being enrolled: the one it holds, or the next. -/
def enrolIndex (s : Session) (id : List Byte) : Nat :=
  match s.written.find? fun e => e.cardId == id with
  | some e => e.index
  | none => s.written.length + 1

/-- The record that an enrolment has completed, when the cards' digest is the session's. -/
def enrolled (nv : Nv) (s : Session) : Option Custody :=
  let ids := sortBy (fun (e : CardEntry) => beNat e.cardId) s.written
  if s.written.length = custodyN s.code && sha384 (ids.flatMap (·.cardId)) == s.digest then
    some { m := custodyM s.code, n := custodyN s.code, version := BitVec.ofNat 32 (nextVersion nv), commit := 0,
           digest := quorumDigest (nextVersion nv) s.qs, cards := sortBy (fun (e : CardEntry) => e.index) s.written }
  else none

/-- A change of the custody record goes to the twin first, or commits at once; then the session is DONE (11 R333, 16 R432). -/
def commitCustody (d : Dev) (s : Session) (c : Custody) : Dev :=
  if twinAlone d then
    let d := { d with nv := putCustody d.nv c, crd := { d.crd with session := some { sessionWiped s with state := 6 } } }
    if d.nv.twin.grant.isSome then noteMirror d [.custody c] (nextMirror d) else d
  else (putChange d [.custody c] [.custody c] 0).1

/-- A share is written and checked: the window starts again; with N cards the record is committed or the session expires. -/
def countWrite (d : Dev) (i : BitVec 2) : Dev :=
  let x := getSlot d i
  match d.crd.session with
  | some s =>
    if s.state != 5 then d
    else if s.windowEnd ≤ d.bat.rtc.toNat then setSession d { sessionWiped s with state := 3 }
    else
      let ix := x.wIndex
      let y := beBytes 32 (sharePoly s.qs s.coeffs ix)
      let e : CardEntry := { cardId := x.cardId, index := ix, pub := x.cardPub, check := shareCheck (nextVersion d.nv) ix y }
      let s := { s with written := (s.written.filter fun w => w.cardId != x.cardId) ++ [e], windowEnd := d.bat.rtc.toNat + window120 }
      let d := setSession d s
      if s.written.length < custodyN s.code then d
      else
        match enrolled d.nv s with
        | some c => commitCustody d s c
        | none => setSession d { sessionWiped s with state := 3 }
  | none => d

/-! ### A response (11 R322-R324) -/

/-- A command fails (event 0x0702). -/
def cardFailed (d : Dev) (i : BitVec 2) (ins : Byte) (sw : BitVec 16) : Dev :=
  let d := evLog d 0x0702 (lineAt (slotPage i) 3) noFn (leBytes 1 i.toNat ++ [ins] ++ leBytes 2 sw.toNat)
  if ins = 0x02 then slotReject d i 0x00 none else d

/-- What a response with status 0x9000 does. -/
def cardAccepted (d : Dev) (i : BitVec 2) (ins : Byte) (data : List Byte) (sw : BitVec 16) : Dev :=
  let x := getSlot d i
  if ins = 0x02 then
    if !x.chan then modSlot d i fun x => { x with wakeDue := false }
    else
      match slotOpen x data with
      | some pt =>
        if pt == beBytes 4 x.ctr then modSlot d i fun x => { x with wakeDue := false, ctr := x.ctr + 1 } else cardFailed d i ins sw
      | none => cardFailed d i ins sw
  else if ins = 0x10 then
    modSlot d i fun x => { x with cardId := slice data 0 16, cardPub := slice data 16 64,
                                  vers0 := BitVec.ofNat 32 (beNat (slice data 80 4)), vers1 := BitVec.ofNat 32 (beNat (slice data 84 4)) }
  else if ins = 0x20 then
    match cardKey d x with
    | some q =>
      match ecdh p256 x.ephD q with
      | .ok z =>
        let k := kdf z [0x47, 0x4A, 0x2D, 0x43, 0x41, 0x52, 0x44] (x.cardId ++ x.devNonce ++ slice data 0 16) 64
        modSlot d i fun x => { x with chan := true, kd := slice k 0 32, km := slice k 32 32, ctr := 0, ephD := [], devNonce := [] }
      | .bad _ _ => cardFailed d i ins sw
    | none => cardFailed d i ins sw
  else if ins = 0x30 then
    match slotOpen x data with
    | some pt => countShare (modSlot d i fun x => { x with ctr := x.ctr + 1 }) i pt
    | none => notCounted (cardFailed d i ins sw) i 1
  else if ins = 0x40 then
    match slotOpen x data with
    | some pt =>
      let d := modSlot d i fun x => { x with ctr := x.ctr + 1 }
      if pt == beBytes 4 (nextVersion d.nv) then countWrite d i else cardFailed d i ins sw
    | none => cardFailed d i ins sw
  else if ins = 0x60 then modSlot d i fun x => { x with chan := false, kd := [], km := [], ctr := 0 }
  else d

/-- A response arrives. -/
def cardResponse (d : Dev) (i : BitVec 2) (data : List Byte) (sw : BitVec 16) : Dev :=
  let x := getSlot d i
  if x.state != 4 then d
  else
    let d := setSlot d i { slotIdle x with rspDone := true, rspErr := sw != 0x9000, rspLen := BitVec.ofNat 12 (data.length + 2) }
    let d := raise d (slotPage i) 3
    if sw = 0x9000 then cardAccepted d i x.ins data sw else cardFailed d i x.ins sw

/-- A window ends unmet (11 R329): by QUORUM_WINDOW_EXPIRE, at a check, or at the first tick boundary after it. -/
def windowExpire (d : Dev) : Dev :=
  match d.crd.session with
  | some s =>
    if (s.state == 0 || s.state == 1 || s.state == 5) && decide (s.windowEnd ≤ d.bat.rtc.toNat) then setSession d { sessionWiped s with state := 3 } else d
  | none => d

/-- A block that is not answered in time: three retransmissions, then S(RESYNCH), then the slot is deactivated. -/
def blockTimeout (d : Dev) (i : BitVec 2) : Dev :=
  let x := getSlot d i
  if x.state != 4 then d
  else if x.resynced then slotReject d i 0x03 none
  else if x.tries < 3 then setSlot d i { x with tries := x.tries + 1 }
  else setSlot d i { x with resynced := true }

/-! ### QUORUM_OPEN and QUORUM_STATUS -/

/-- Open a session (11 R327, R332): without a group a custody change is satisfied at once. -/
def openSession (d : Dev) (j : Job) : Dev :=
  let n := d.nv.sessionNext
  let code : BitVec 16 := BitVec.ofNat 16 (opLe j.e 0 2)
  let free := (custodyOf d.nv).isNone
  let s : Session := { number := n, fn := j.e.fn, code := code, digest := opAt j.e 2 48, state := if free then 1 else 0,
                       windowEnd := d.bat.rtc.toNat + window120, counted := [], qs := 0, coeffs := [], written := [] }
  let d := { d with nv := { d.nv with sessionNext := n + 1 }, crd := { d.crd with before := d.crd.session, session := some s } }
  finishJob (enterEnrolling d) j.id (outcomeRes n)

/-- The session that a number names. -/
def sessionOf (d : Dev) (n : DWord) : Option Session :=
  match d.crd.session, d.crd.before with
  | some s, b => if s.number == n then some s else b.filter fun s => s.number == n
  | none, b => b.filter fun s => s.number == n

def sessionStatus (d : Dev) (n : DWord) : OutcomeRec :=
  match sessionOf d n with
  | none => { outcome stOk 0 with res1 := 7 }
  | some s =>
    let live := s.state == 0 || s.state == 1 || s.state == 5
    let secs := if live then (s.windowEnd - d.bat.rtc.toNat) / 32768 else 0
    { outcome stOk 0 with res0 := BitVec.ofNat 64 s.counted.length, res1 := put 8 secs ||| BitVec.ofNat 32 s.state.toNat }

/-! ### The card buffer in shared SRAM (11 R334) -/

/-- Bytes that a slot puts into its buffer page, which must be a keeper page. -/
def cardBuffer (s : State) (i : BitVec 2) (off : Nat) (bs : List Byte) : List Host.Cell :=
  let p := (getSlot s.dev i).bufpg.toNat
  if potWorld (potGet s.dev.pot.cur p) && potKind (potGet s.dev.pot.cur p) != 0 then memPutBytes s.mem (0x1000 * p + off) (bs.take (0x1000 - off)) else s.mem

/-! ### The commands -/

/-- CARD_DETECT_CLOSE (11 R317). -/
def execCardDetectClose (slot : BitVec 2) (s : State) : Host.Outcome State Fault Refusal :=
  act s fun d => if (getSlot d slot).present then d else modSlot d slot fun x => { x with present := true, debounced := false, state := 1, err := 0 }

/-- CARD_DEBOUNCE_END (11 R317). -/
def execCardDebounceEnd (slot : BitVec 2) (s : State) : Host.Outcome State Fault Refusal :=
  act s fun d =>
    if (getSlot d slot).present && !(getSlot d slot).debounced then
      slotActivate (raise (modSlot d slot fun x => { x with debounced := true }) (slotPage slot) 0) slot
    else d

/-- ATR_TIMEOUT (11 R317). -/
def execAtrTimeout (slot : BitVec 2) (s : State) : Host.Outcome State Fault Refusal :=
  act s fun d => if (getSlot d slot).state == 2 && !(getSlot d slot).retryB then slotFallback d slot 0x01 else d

/-- CARD_CLASS_B_RETRY (11 R317). -/
def execCardClassBRetry (slot : BitVec 2) (s : State) : Host.Outcome State Fault Refusal :=
  act s fun d =>
    if (getSlot d slot).state == 2 && (getSlot d slot).retryB then
      emit (modSlot d slot fun x => { x with retryB := false, cls := 2 }) (.cardPins slot true)
    else d

/-- ATR_RECEIVED (11 R316, R317); the ATR goes to the slot's buffer page. -/
def execAtrReceived (slot : BitVec 2) (atr : List Byte) (s : State) : Host.Outcome State Fault Refusal :=
  .next { s with dev := slotAtr s.dev slot atr, mem := cardBuffer s slot 0xFC0 (atr.take 33) }

/-- CARD_REMOVE (11 R318). -/
def execCardRemove (slot : BitVec 2) (s : State) : Host.Outcome State Fault Refusal := act s fun d => slotRemove d slot

/-- CRD_ACT (11 R334). -/
def execCrdAct (ini : Ini) (slot : BitVec 2) (cls : BitVec 2) (s : State) : Host.Outcome State Fault Refusal :=
  act s fun d =>
    if isKeeperCore ini.id then
      wakeWrite d ini (regAddr (slotPage slot) 0x040) (flag 31 true ||| put 0 cls.toNat) fun d =>
        unlessLocked d ini (slotPage slot) 0x040 fun d => slotActivate (modSlot d slot fun x => { x with clsSel := cls }) slot
    else keeperDenied d ini (regAddr (slotPage slot) 0x040)

/-- A deactivation by command. -/
def slotDeactivate (d : Dev) (i : BitVec 2) : Dev :=
  let x := getSlot d i
  if 2 ≤ x.state.toNat && x.state.toNat ≤ 6 then emit (setSlot d i { slotOff x with state := 1 }) (.cardPins i false) else d

/-- CRD_DEACT (11 R334): the card may be activated again. -/
def execCrdDeact (ini : Ini) (slot : BitVec 2) (s : State) : Host.Outcome State Fault Refusal :=
  act s fun d =>
    if !isKeeperCore ini.id then keeperDenied d ini (regAddr (slotPage slot) 0x040)
    else
      wakeWrite d ini (regAddr (slotPage slot) 0x040) (flag 30 true ||| put 0 (getSlot d slot).clsSel.toNat) fun d =>
        unlessLocked d ini (slotPage slot) 0x040 fun d => slotDeactivate d slot

/-- WAKE (11 R321, R322). -/
def execWake (slot : BitVec 2) (s : State) : Host.Outcome State Fault Refusal :=
  act s fun d =>
    let x := getSlot d slot
    if !slotFree d slot 0x02 then d
    else if x.chan then slotSeal d slot 0x02 (beBytes 4 x.ctr) else slotSend d slot 0x02 (beBytes 4 x.ctr)

/-- IDENTIFY (11 R322). -/
def execIdentify (slot : BitVec 2) (s : State) : Host.Outcome State Fault Refusal :=
  act s fun d => if slotFree d slot 0x10 then slotSend d slot 0x10 [] else d

/-- OPEN_CHANNEL (11 R323): an ephemeral point and a nonce from the keeper instance. A card that the custody record does not list has no
key to open a channel under: while cards are being counted, that is logged (R330). -/
def execOpenChannel (slot : BitVec 2) (s : State) : Host.Outcome State Fault Refusal :=
  act s fun d =>
    if !slotFree d slot 0x20 then d
    else if (cardKey d (getSlot d slot)).isNone then
      if !(getSlot d slot).cardId.isEmpty && (match d.crd.session with | some s => s.state == 0 | none => false) then notCounted d slot 0
      else d
    else
      match keeperDraw d 56 with
      | none => d
      | some (bs, d) =>
        let e := scalarOf p256 (bs.take 40)
        let d := modSlot d slot fun x => { x with ephD := beBytes 32 e, devNonce := bs.drop 40 }
        slotSend d slot 0x20 (pointBytes p256 (ecMul p256 e (ecBase p256)) ++ bs.drop 40)

/-- SHARE_RELEASE (11 R322, R324). -/
def execShareRelease (slot : BitVec 2) (s : State) : Host.Outcome State Fault Refusal :=
  act s fun d =>
    match custodyOf d.nv with
    | some c => if slotFree d slot 0x30 && (getSlot d slot).chan then slotSeal d slot 0x30 (beBytes 4 c.version.toNat) else d
    | none => d

/-- SHARE_WRITE (11 R320, R322, R333): the next index's share, with target v + 1 and keep v. -/
def execShareWrite (slot : BitVec 2) (s : State) : Host.Outcome State Fault Refusal :=
  act s fun d =>
    let d := enterEnrolling d
    match d.crd.session with
    | some se =>
      let x := getSlot d slot
      let ix := enrolIndex se x.cardId
      if se.state == 5 && slotFree d slot 0x40 && x.chan && decide (ix ≤ custodyN se.code) then
        let v := nextVersion d.nv
        slotSeal (setSlot d slot { x with wIndex := ix }) slot 0x40
          (beBytes 4 v ++ beBytes 4 (v - 1) ++ beBytes 1 ix ++ beBytes 32 (sharePoly se.qs se.coeffs ix))
      else d
    | none => d

/-- CLOSE (11 R322). -/
def execClose (slot : BitVec 2) (s : State) : Host.Outcome State Fault Refusal :=
  act s fun d => if slotFree d slot 0x60 then slotSend d slot 0x60 [] else d

/-- APDU_RESPONSE (11 R322-R324); the response goes to the slot's buffer page. -/
def execApduResponse (slot : BitVec 2) (data : List Byte) (sw : BitVec 16) (s : State) : Host.Outcome State Fault Refusal :=
  if (getSlot s.dev slot).state == 4 then
    .next { s with dev := cardResponse s.dev slot data sw, mem := cardBuffer s slot 0x800 (data ++ beBytes 2 sw.toNat) }
  else .next s

/-- CARD_IO_LOW (11 R319). -/
def execCardIoLow (slot : BitVec 2) (s : State) : Host.Outcome State Fault Refusal :=
  act s fun d => if (getSlot d slot).state == 4 && (getSlot d slot).ins == 0x40 then modSlot d slot fun x => { x with state := 5, busy := true } else d

/-- CARD_IO_RISE (11 R319). -/
def execCardIoRise (slot : BitVec 2) (s : State) : Host.Outcome State Fault Refusal :=
  act s fun d => if (getSlot d slot).state == 5 then modSlot d slot fun x => { x with state := 4, busy := false } else d

/-- CARD_BUSY_TIMEOUT (11 R319). -/
def execCardBusyTimeout (slot : BitVec 2) (s : State) : Host.Outcome State Fault Refusal :=
  act s fun d => if (getSlot d slot).state == 5 then slotReject d slot 0x04 (some 4) else d

/-- BLOCK_WAITING_TIME_EXPIRE (11 R316). -/
def execBlockWaitingTimeExpire (slot : BitVec 2) (s : State) : Host.Outcome State Fault Refusal := act s fun d => blockTimeout d slot

/-- CARD_CLOCK_STOP (11 R321). -/
def execCardClockStop (slot : BitVec 2) (s : State) : Host.Outcome State Fault Refusal :=
  act s fun d =>
    let x := getSlot d slot
    if x.state == 3 && x.stopInd != 0 && x.idleMs != 0 then setSlot d slot { x with state := 6, clkstop := true, wakeDue := true } else d

/-- QUORUM_WINDOW_EXPIRE (11 R329). -/
def execQuorumWindowExpire (s : State) : Host.Outcome State Fault Refusal := act s windowExpire

end Sys2Proof.Machine
end

