-- ==== Sys2Proof/Machine/Twin.lean ====
section
/-! DEFINITION. The Epale twin link (16): training, frames, grants, the handshake, mirrored changes, reservations, fills, parking
and release. -/

namespace Sys2Proof.Machine

/-! ### Registers that other parts read (16 R444) -/

/-- The device is empty: no tenant root and no plan signer key, or zeroized (16 R428). -/
def twinEmpty (d : Dev) : Bool :=
  d.bat.zeroized || !(d.nv.cellar.any fun r => r.img.state != 4 && (r.img.key == 3 || (r.img.parent == 0 && r.img.tenant != 0)))

/-- TWN_STAT. -/
def twnStatWord (d : Dev) : Word :=
  let t := d.nv.twin
  put 29 d.twn.state.toNat ||| flag 28 t.index ||| flag 27 t.fixed ||| flag 26 (twinEmpty d) ||| flag 25 t.solo ||| flag 24 t.released
    ||| flag 23 t.diverged ||| put 8 d.twn.herr.toNat

/-- The plan signer key, empty when there is none (08 R225). -/
def signerKey (nv : Nv) : List Byte :=
  match recBySel nv 3 0 with
  | some r => if r.img.state == 4 then [] else r.img.point
  | none => []

/-! ### The outbox (16 R433) -/

def isCustodyChange (c : TwinChange) : Bool := c.objs.any fun o => match o with | .custody _ => true | _ => false

/-- Whether the job or the session that made a change still waits for it. -/
def changeWaits (d : Dev) (c : TwinChange) : Bool :=
  if isCustodyChange c then (match d.crd.session with | some s => s.state == 5 | none => false)
  else d.jobs.any fun j => j.id == c.job && j.stage == .twin && j.change == c.id

def setOutbox (d : Dev) (l : List TwinChange) : Dev := { d with nv := { d.nv with twin := { d.nv.twin with outbox := l } } }
def dropChange (d : Dev) (id : DWord) : Dev := setOutbox d (d.nv.twin.outbox.filter fun c => c.id != id)

/-- The originator commits a change under its mirror sequence: FINAL follows at once while the link is JOINED. -/
def commitChange (d : Dev) (c : TwinChange) (m : DWord) : Dev :=
  let d := noteMirror (applyObjs d c.old) c.objs m
  let d := if isCustodyChange c then
      { d with crd := { d.crd with session := d.crd.session.map fun (s : Session) => { sessionWiped s with state := 6 } } }
    else match findJob d c.job with
      | some j => finishJob (jobBinds d c.job) c.job j.res
      | none => d
  if !c.sent then dropChange d c.id
  else if d.twn.state == 4 then twnSend (dropChange d c.id) 0x23 c.id 0 [] []
  else setOutbox d (updateFirst (fun x => x.id == c.id) (fun x => { x with done := true }) d.nv.twin.outbox)

/-- One outbox entry at a plan cut, or when a wait ends: its CHANGE, FINAL or UNDO is sent, or it commits alone. -/
def settleOne (d : Dev) (c : TwinChange) : Dev :=
  let joined := d.twn.state == 4
  if c.done then (if joined then twnSend (dropChange d c.id) 0x23 c.id 0 [] [] else d)
  else if !changeWaits d c then
    if !c.sent then dropChange d c.id
    else if joined then twnSend (dropChange d c.id) 0x24 c.id 0 [] []
    else d
  else if twinAlone d then commitChange d c (nextMirror d)
  else if joined && !c.sent then
    let m := if d.nv.twin.index then 0 else nextMirror d
    let d := setOutbox d (updateFirst (fun x => x.id == c.id) (fun x => { x with sent := true, m := m }) d.nv.twin.outbox)
    twnSend d 0x20 c.id m c.objs []
  else d

/-- A locked device sends nothing of its changes (16 R439, R443). -/
def settleOutbox (d : Dev) : Dev := if d.bat.locked then d else d.nv.twin.outbox.foldl settleOne d

/-- Reservations that need no acknowledgement any more commit (16 R439-R441). -/
def settleAlone (d : Dev) : Dev :=
  if twinAlone d then
    (d.keys.nonces.filter fun n => n.wait.isSome && !n.peerDone).foldl (fun d n => reserveSettle d { n with peerDone := true }) d
  else d

/-- Journal heads of a twin index. -/
def heads (nv : Nv) (index : Bool) : List JournalEntry := nv.journal.filter fun j => j.twin == index

/-- A release goes out when nothing of this device waits (16 R442). -/
def releaseTry (d : Dev) : Dev :=
  if d.twn.releasing && !d.twn.relSent && d.twn.state == 4 && d.nv.twin.outbox.isEmpty && !(d.keys.nonces.any fun n => n.wait.isSome) then
    twnSend { d with twn := { d.twn with relSent := true } } 0x51 0 0 [] (heads d.nv d.nv.twin.index)
  else d

/-! ### JOINED (16 R431, R433) -/

/-- At JOINED a change whose acknowledgement was lost is undone on the peer and sent anew; everything else in the outbox is
settled, and reservations go on. -/
def joinTwin (d : Dev) : Dev :=
  let d := twnState { d with
    twn := { d.twn with peerParked := false, retryAt := none, lostFrom := none, filling := 0, hello := [] }
    nv := { d.nv with twin := { d.nv.twin with parked := false } } } 4
  let again (d : Dev) (c : TwinChange) : Dev :=
    if c.sent && !c.done && changeWaits d c then
      let n := d.twn.newId
      let d := twnSend { d with twn := { d.twn with newId := n + 1 } } 0x24 c.id 0 [] []
      let d := setOutbox d (updateFirst (fun x => x.id == c.id) (fun x => { x with id := n, sent := false }) d.nv.twin.outbox)
      modJob d c.job fun j => if j.stage == .twin && j.change == c.id then { j with change := n } else j
    else d
  let d := if d.bat.locked then d else d.nv.twin.outbox.foldl again d
  let d := settleOutbox d
  let waiting := d.keys.nonces.filter fun n => n.wait.isSome && !n.peerDone
  let d := waiting.foldl (fun d n => twnSend d 0x30 0 0 [] [⟨n.record, n.twin, n.nextFree + 1⟩]) d
  let due := d.keys.nonces.filter fun n => n.cached && n.wait.isNone && decide (n.limit ≤ n.next)
  due.foldl (fun d n => reserveStart d n.record n.twin) d

/-- A fill or resync ends for this device when its own frames are acknowledged and the peer's FILL_END has come. -/
def fillBit (d : Dev) (b : BitVec 2) : Dev :=
  if d.twn.filling &&& b = 0 then d
  else
    let d := { d with
      twn := { d.twn with filling := d.twn.filling &&& ~~~ b }
      nv := { d.nv with twin := { d.nv.twin with diverged := if d.twn.resync then d.nv.twin.diverged else false } } }
    if d.twn.filling = 0 then joinTwin (raise d twnPage 2) else d

/-- Own fill frames are all acknowledged. -/
def fillAcked (d : Dev) : Dev :=
  if d.twn.replay.any fun r => r.2.1 == 0x40 || r.2.1 == 0x41 then d else fillBit d 1

/-! ### Losing the link (16 R424, R426, R438) -/

/-- Enter LOST: the link keys go. -/
def enterLost (d : Dev) : Dev :=
  twnState { d with twn := { d.twn with keys := none, width := 0, replay := [], lostFrom := none, hello := [], peer := none, filling := 0,
                                        relSent := false } } 5

/-- A frame whose tag fails. -/
def tagFailure (d : Dev) (seq : DWord) : Dev :=
  let d := raise { d with twn := { d.twn with herr := 0x06 } } twnPage 3
  enterLost (evLog d 0x0A02 (lineAt twnPage 3) noFn (leBytes 8 seq.toNat))

/-- The link retrains: keys and replay buffer stay. -/
def retrainLink (d : Dev) : Dev :=
  if d.twn.width = 0 then d
  else
    let from_ := match d.twn.lostFrom with | some t => t | none => d.tick
    let d := { d with twn := { d.twn with width := 0, retrains := satInc d.twn.retrains, lostFrom := some from_ } }
    if d.twn.keys.isSome then d else twnState { d with twn := { d.twn with hello := [], peer := none } } (if d.twn.state == 5 then 5 else twnIdle d true)

/-- TWN_LOSTTO ticks have passed since the first failure; the standby of a parked peer is no loss. -/
def lostTimeout (d : Dev) : Dev :=
  match d.twn.lostFrom with
  | none => d
  | some t =>
    if d.tick.toNat < t.toNat + bits (guardVal d (regAddr twnPage 0x068)) 0 16 then d
    else if d.nv.twin.grant.isNone || d.twn.state == 6 then d
    else if d.twn.peerParked then
      twnState { d with twn := { d.twn with keys := none, replay := [], lostFrom := none, hello := [], peer := none, filling := 0 } } 1
    else enterLost d

/-! ### The handshake (16 R429-R431) -/

/-- HELLO's payload, in the order in which R429 names its parts. -/
def helloBody (d : Dev) (point nonce : List Byte) : List Byte :=
  (Config.chain 0).getD [] ++ point ++ nonce ++ [if d.nv.twin.index then 1 else 0] ++ leBytes 4 (twnStatWord d).toNat
    ++ leBytes 8 d.nv.twin.grSeq.toNat ++ leBytes 8 d.nv.twin.mSeq.toNat

def retryLater (d : Dev) : Dev := { d with twn := { d.twn with hello := [], peer := none, retryAt := some (d.tick + BitVec.ofNat 48 (2 ^ 20)) } }

/-- Start a handshake: the keeper world is present, a grant is held, and the link is up. -/
def startHandshake (d : Dev) : Dev :=
  if !keeperPresent d || d.nv.twin.grant.isNone || d.twn.width = 0 || d.twn.state == 6 then d
  else
    match keeperDraw d 88 with
    | none => retryLater d
    | some (bs, d) =>
      let e := scalarOf p384 (bs.take 56)
      let nonce := bs.drop 56
      let d := if d.twn.state == 5 then d else twnState d 2
      let body := helloBody d (pointBytes p384 (ecMul p384 e (ecBase p384))) nonce
      let d := { d with twn := { d.twn with keys := none, ephD := beBytes 48 e, nonce := nonce, hello := body, sentSigned := false, gotSigned := false,
                                            peer := none, retryAt := none, filling := 0 } }
      twnSendBytes d 0x01 body

/-- A step of the handshake fails: tried again after 2^20 ticks. -/
def failHandshake (d : Dev) (code : Byte) : Dev :=
  retryLater (raise { d with twn := { d.twn with herr := code, keys := none, filling := 0 } } twnPage 3)

/-- The peer's attestation digest by the grant in force. -/
def peerDigest (d : Dev) : List Byte :=
  match d.nv.twin.grant with
  | some g => if d.nv.twin.index then g.dev0 else g.dev1
  | none => []

/-- The digest that SIGNED covers. -/
def signedDigest (d : Dev) (peer : List Byte) : List Byte :=
  let (a, b) := if d.nv.twin.index then (peer, d.twn.hello) else (d.twn.hello, peer)
  sha384 ([0x47, 0x4A, 0x2D, 0x45, 0x50, 0x41, 0x4C, 0x45, 0x00] ++ a ++ b)

/-- Tenants and every mirrored record, in the order of a fill (16 R435). -/
def fillObjs (nv : Nv) : List MirrorObj :=
  let live := nv.cellar.filter fun r => r.img.state != 4 && twinRecord r.img
  let signer := live.filter fun r => r.img.key == 3
  let roots := live.filter fun r => r.img.key != 3 && r.img.parent == 0
  let rest := sortBy (fun (r : CellarRec) => r.img.level.toNat) (live.filter fun r => r.img.key != 3 && r.img.parent != 0)
  let rec_ (r : CellarRec) : MirrorObj := .record r.img
  signer.map rec_ ++ nv.tenants.map MirrorObj.tenant ++ roots.map rec_ ++ rest.map rec_
    ++ (match custodyOf nv with | some c => [.custody c] | none => []) ++ [.planSeq nv.planSeq]

/-- Objects whose mirror sequence is above the peer's, in the order of their sequence (16 R431). -/
def resyncObjs (nv : Nv) (above : DWord) : List MirrorObj :=
  let due := sortBy (fun (x : MirrorKey × DWord) => x.2.toNat) (nv.twin.marks.filter fun x => decide (above.toNat < x.2.toNat))
  due.filterMap fun x =>
    match x.1 with
    | .record k v => (recByVersion nv k v).map fun r => .record r.img
    | .tenant n => some (match nv.tenants.find? fun t => t.no == n with | some t => .tenant t | none => .tenantDelete n)
    | .planSeq => some (.planSeq nv.planSeq)
    | .custody => (custodyOf nv).map MirrorObj.custody

/-- Lists of at most `n` elements. -/
def groupsOf {α : Type} (n : Nat) : Nat → List α → List (List α)
  | 0, _ => []
  | fuel + 1, l => if l.isEmpty then [] else l.take n :: groupsOf n fuel (l.drop n)

/-- Send a fill or a resync: FILL frames of at most 4,096 bytes, then FILL_END. After the device has parked itself, the heads of
its peer's index stand TWN_PARKQ blocks higher for a successor (16 R437). -/
def sendFill (d : Dev) (objs : List MirrorObj) : Dev :=
  let extra := if d.nv.twin.parked && !d.twn.resync then bits (guardVal d (regAddr twnPage 0x06C)) 0 16 else 0
  let peerHeads := (heads d.nv (!d.nv.twin.index)).map fun j => { j with nextFree := j.nextFree + extra }
  let hs := heads d.nv d.nv.twin.index ++ peerHeads
  let d := (groupsOf 16 (objs.length + 1) objs).foldl (fun d os => twnSend d 0x40 0 0 os []) d
  let d := (groupsOf 256 (hs.length + 1) hs).foldl (fun d h => twnSend d 0x40 0 0 [] h) d
  twnSend d 0x41 0 0 [] []

/-- Start a fill, a resync, or the wait for the peer's fill. -/
def startFill (d : Dev) (filling : BitVec 2) (resync : Bool) (objs : List MirrorObj) : Dev :=
  let d := twnState { d with twn := { d.twn with filling := filling, resync := resync, filled := [], fillWait := [], fillEnded := false } } 3
  if filling.getLsbD 0 then sendFill d objs else d

/-- What two devices do once they know each other (16 R431). -/
def reconcile (d : Dev) (m : HelloMsg) : Dev :=
  let nv := d.nv
  let e := twinEmpty d
  let source : Byte := match nv.twin.grant with | some g => g.source | none => 0xFF
  if e && m.isEmpty then joinTwin d
  else if e then startFill d 2 false []
  else if m.isEmpty then startFill d 1 false (fillObjs nv)
  else if !nv.twin.diverged && !m.diverged && signerKey nv == m.signerKey then startFill d 3 true (resyncObjs nv m.mSeq)
  else if (nv.twin.diverged != m.diverged) && source != 0xFF then
    if source == (if nv.twin.index then 1 else 0) then startFill d 1 false (fillObjs nv) else startFill d 2 false []
  else failHandshake d 0x05

/-- Both SIGNED frames have passed: the link keys of R430. -/
def finishHandshake (d : Dev) (m : HelloMsg) : Dev :=
  if d.twn.sentSigned && d.twn.gotSigned then
    match ecdh p384 d.twn.ephD m.point with
    | .ok z =>
      let (n0, n1) := if d.nv.twin.index then (m.nonce, d.twn.nonce) else (d.twn.nonce, m.nonce)
      let k := kdf z [0x47, 0x4A, 0x2D, 0x45, 0x50, 0x41, 0x4C, 0x45] (n0 ++ n1) 64
      let d := { d with twn := { d.twn with keys := some (slice k 0 32, slice k 32 32), txSeq := 0, rxSeq := 0, replay := [], ephD := [],
                                            hello := [], retryAt := none } }
      reconcile d m
    | .bad _ _ => failHandshake d 0x04
  else d

/-- A HELLO from the peer: chain, identity and grant sequence are checked, then SIGNED goes out. -/
def onHello (d : Dev) (m : HelloMsg) : Dev :=
  let d := if d.twn.hello.isEmpty then startHandshake d else d
  if d.twn.hello.isEmpty || !keeperPresent d then d
  else if !m.chainOk then failHandshake d 0x01
  else if sha384 m.attestKey != peerDigest d then failHandshake d 0x02
  else if m.grSeq != d.nv.twin.grSeq then failHandshake d 0x03
  else if m.released || m.endOfLife then failHandshake d 0x08
  else
    match keeperDraw d 304 with
    | none => retryLater d
    | some (rho, d) =>
      match ecdsaSign p384 (beBytes 48 (attestSecret d)) (signedDigest d m.raw) rho with
      | .ok sig => finishHandshake (twnSendBytes { d with twn := { d.twn with peer := some m, sentSigned := true } } 0x02 sig) m
      | .bad _ _ => failHandshake d 0x04

/-- A SIGNED from the peer. -/
def onSigned (d : Dev) (sig : List Byte) : Dev :=
  match d.twn.peer with
  | none => d
  | some m =>
    if d.twn.hello.isEmpty || !keeperPresent d then d
    else if ecdsaVerify p384 (signedDigest d m.raw) (slice sig 0 48) (slice sig 48 48) m.attestKey == .ok [] then
      finishHandshake { d with twn := { d.twn with gotSigned := true } } m
    else failHandshake d 0x04

/-! ### Frames (16 R425, R426) -/

/-- Sends again every frame from a sequence number on. -/
def resendFrom (d : Dev) (q : Nat) : Dev :=
  let l := d.twn.replay.filter fun r => decide (q ≤ r.1.toNat)
  l.foldl (fun d r => emit d r.2.2) { d with twn := { d.twn with resent := satAdd d.twn.resent l.length } }

/-- A frame arrives: a bad CRC or a gap is answered with a NAK, a failed tag drops the link, and a frame in order is taken. -/
def frameIn (d : Dev) (h : FrameHdr) (ftype : Nat) (k : Dev → Dev) : Dev :=
  if d.twn.width = 0 || !domOn d 14 then d
  else if !h.crcOk || decide (d.twn.rxSeq.toNat < h.seq.toNat) then twnSendBytes d 0x04 (leBytes 8 d.twn.rxSeq.toNat)
  else if h.seq.toNat < d.twn.rxSeq.toNat then d
  else if 0x10 ≤ ftype && d.twn.keys.isNone then d
  else if 0x10 ≤ ftype && !h.tagOk then tagFailure d h.seq
  else
    let d := { d with twn := { d.twn with rxSeq := d.twn.rxSeq + 1,
                                          replay := d.twn.replay.filter fun r => decide (h.ack.toNat < r.1.toNat) } }
    releaseTry (k (fillAcked d))

/-! ### The peer's changes (16 R433) -/

/-- Whether two changes touch a common key or object. -/
def touches (a b : List MirrorObj) : Bool :=
  let name (o : MirrorObj) : Nat × Nat :=
    match o with
    | .record r => (0, r.key.toNat) | .tenant t => (1, t.no.toNat) | .tenantDelete n => (1, n.toNat) | .planSeq _ => (2, 0) | .custody _ => (3, 0)
  a.any fun x => b.any fun y => name x == name y

/-- The status with which this device refuses a change; none when it passes (log entry 25). -/
def changeFails (d : Dev) (objs : List MirrorObj) : Option Byte :=
  let mine (k : Word) : Bool := objs.any fun o => match o with | .record r => r.key == k && r.state != 4 | _ => false
  let bad (o : MirrorObj) : Option Byte :=
    match o with
    | .record r =>
      if r.state == 4 then none
      else if r.parent != 0 && !mine r.parent && !(keyLive d.nv r.parent && lineLive d.nv r.parent) then some stOrphaned
      else
        match recByVersion d.nv r.key r.version with
        | some x => if x.img.record != r.record then some stInput else if x.img.state == 4 then some stOrphaned else none
        | none =>
          if (d.nv.cellar.any fun x => x.img.key == r.key) && !keyLive d.nv r.key then some stOrphaned
          else if (cellarFull d.nv r.tenant 0).isSome then some stQuota else none
    | .tenantDelete n => if d.fns.any fun p => p.2.state != 0 && p.2.tenant == n then some stInput else none
    | _ => none
  objs.findSome? bad

/-- What a change replaces. -/
def oldObjs (nv : Nv) (objs : List MirrorObj) : List MirrorObj :=
  objs.filterMap fun o =>
    match o with
    | .record r => (recByVersion nv r.key r.version).map fun x => .record x.img
    | .tenant t => some (match nv.tenants.find? fun x => x.no == t.no with | some x => .tenant x | none => .tenantDelete t.no)
    | .tenantDelete n => (nv.tenants.find? fun x => x.no == n).map MirrorObj.tenant
    | .planSeq _ => some (.planSeq nv.planSeq)
    | .custody _ => (custodyOf nv).map MirrorObj.custody

def setDoubt (d : Dev) (l : List TwinChange) : Dev := { d with nv := { d.nv with twin := { d.nv.twin with doubt := l } } }
def setInbox (d : Dev) (l : List TwinChange) : Dev := { d with nv := { d.nv with twin := { d.nv.twin with inbox := l } } }

/-- The keeper world applies the peer's change and acknowledges it; index 0 assigns m. -/
def applyChange (d : Dev) (c : TwinChange) : Dev :=
  let joined := d.twn.state == 4
  match changeFails d c.objs with
  | some st => if joined then twnSendBytes d 0x22 (leBytes 8 c.id.toNat ++ [st]) else d
  | none =>
    let m := if d.nv.twin.index then c.m else nextMirror d
    let old := oldObjs d.nv c.objs
    let d := noteMirror (applyObjs d c.objs) c.objs m
    let d := setDoubt d (d.nv.twin.doubt ++ [{ c with m := m, old := old }])
    if joined then twnSend d 0x21 c.id m [] [] else d

/-- Take from the inbox what can be applied: the keeper world is present, and no change in doubt touches the same keys. -/
def drainInbox (d : Dev) : Dev :=
  if !keeperPresent d || d.bat.locked || !d.pwr.pfLevel then d
  else
    let one (d : Dev) (c : TwinChange) : Dev :=
      if d.nv.twin.doubt.any fun x => touches x.objs c.objs then setInbox d (d.nv.twin.inbox ++ [c]) else applyChange d c
    d.nv.twin.inbox.foldl one (setInbox d [])

/-- A change held in doubt is undone: the old images are written back as a new commit, and what was new goes. -/
def undoOne (d : Dev) (c : TwinChange) : Dev :=
  let d := setDoubt d (d.nv.twin.doubt.filter fun x => x.id != c.id)
  let had (r : RecImage) : Bool := c.old.any fun o => match o with | .record x => x.key == r.key && x.version == r.version | _ => false
  let fresh := c.objs.filterMap fun o => match o with | .record r => if had r then none else some (r.key, r.version) | _ => none
  let noCustody := isCustodyChange c && !(c.old.any fun o => match o with | .custody _ => true | _ => false)
  let nv := { d.nv with cellar := d.nv.cellar.filter fun r => !fresh.contains (r.img.key, r.img.version) }
  let nv := if noCustody then { nv with custodyA := none, custodyB := none } else nv
  let copies := d.keys.cache.filter fun e => e.kind == .cellar && fresh.contains (e.k.key, e.k.version)
  applyObjs (copies.foldl dropEntry { d with nv := nv }) c.old

/-- A grant that no longer names the peer, or the end of a lock: changes that wait for their UNDO get it. -/
def undoMarked (d : Dev) : Dev := (d.nv.twin.doubt.filter fun c => c.undo).foldl undoOne d

/-! ### What the frames do -/

def onChange (d : Dev) (id m : DWord) (objs : List MirrorObj) : Dev :=
  if d.bat.locked then d
  else
    let c : TwinChange := { id := id, m := m, objs := objs, old := [], sent := true, done := false, undo := false, job := 0 }
    drainInbox (setInbox d (d.nv.twin.inbox ++ [c]))

def onChangeAck (d : Dev) (id m : DWord) : Dev :=
  match d.nv.twin.outbox.find? fun c => c.id == id && c.sent && !c.done with
  | none => d
  | some c =>
    if d.bat.locked then d
    else if changeWaits d c then commitChange d c (if d.nv.twin.index then m else c.m)
    else settleOne d c

def onChangeNak (d : Dev) (id : DWord) (st : Byte) : Dev :=
  match d.nv.twin.outbox.find? fun c => c.id == id && c.sent && !c.done with
  | none => d
  | some c =>
    let waits := changeWaits d c
    let d := dropChange d id
    if !waits then d
    else if isCustodyChange c then { d with crd := { d.crd with session := d.crd.session.map fun (s : Session) => { sessionWiped s with state := 3 } } }
    else finishJob d c.job (outcome st 0)

def onFinal (d : Dev) (id : DWord) : Dev := drainInbox (setDoubt d (d.nv.twin.doubt.filter fun c => c.id != id))

def onUndo (d : Dev) (id : DWord) : Dev :=
  let d := setInbox d (d.nv.twin.inbox.filter fun c => c.id != id)
  match d.nv.twin.doubt.find? fun c => c.id == id with
  | none => d
  | some c =>
    if d.bat.locked then setDoubt d (updateFirst (fun x => x.id == id) (fun x => { x with undo := true }) d.nv.twin.doubt)
    else drainInbox (undoOne d c)

def onReserve (d : Dev) (j : JournalEntry) : Dev :=
  if d.bat.locked then d else twnSend { d with nv := journalPut d.nv j } 0x31 0 0 [] [j]

def onStatus (d : Dev) (m : StatusMsg) : Dev :=
  let up := decide (d.twn.peerLevel.toNat < m.level.toNat)
  let d := { d with twn := { d.twn with peerLevel := m.level, peerLocked := m.locked, peerZero := m.zeroized, peerLc := m.lcState } }
  settleAlone (if up then raise d twnPage 5 else d)

/-- The first objects of a list with at most `n` records among them, and the rest. -/
def splitRecords : Nat → List MirrorObj → List MirrorObj × List MirrorObj
  | _, [] => ([], [])
  | n, .record r :: l =>
    (match n with
      | 0 => ([], .record r :: l)
      | k + 1 => (.record r :: (splitRecords k l).1, (splitRecords k l).2))
  | n, o :: l => (o :: (splitRecords n l).1, (splitRecords n l).2)

def recordKeys (objs : List MirrorObj) : List (Word × BitVec 16) :=
  objs.filterMap fun o => match o with | .record r => some (r.key, r.version) | _ => none

/-- Apply what a fill has brought, at most 256 records in a tick (16 R435). -/
def fillApply (d : Dev) : Dev :=
  let p := splitRecords (256 - d.twn.fillCount) d.twn.fillWait
  let m := match d.twn.peer with | some x => x.mSeq | none => 0
  let d := markObjs (applyObjs d p.1) p.1 m
  let recs := recordKeys p.1
  { d with twn := { d.twn with filled := d.twn.filled ++ recs, fillWait := p.2, fillCount := d.twn.fillCount + recs.length } }

/-- A fill's objects and journal heads; a zeroized receiver draws a new BBK before the first record (16 R435). -/
def onFill (d : Dev) (objs : List MirrorObj) (hs : List JournalEntry) : Dev :=
  if d.bat.locked || !d.twn.filling.getLsbD 1 then d
  else
    let ready := if d.bat.bbk.isSome then some d
      else match keeperDraw d 32 with
        | some (bs, d) =>
          let b : BitVec 256 := BitVec.ofNat 256 (beNat bs)
          some { d with bat := { d.bat with bbk := some b }, keys := { d.keys with lineage := some b } }
        | none => none
    match ready with
    | none => d
    | some d =>
      let d := fillApply { d with twn := { d.twn with fillWait := d.twn.fillWait ++ objs } }
      hs.foldl (fun d j => { d with nv := journalPut d.nv j }) d

/-- A record is written INVALID. -/
def voidRecord (d : Dev) (r : CellarRec) : Dev := settleKey (moveRecord d r 4) r.img.key

/-- The signature of a grant under a plan signer key (16 R427). -/
def grantSigned (raw key : List Byte) : Bool :=
  !key.isEmpty && ecdsaVerify p384 (sha384 (raw.take 128)) (slice raw 128 48) (slice raw 176 48) key == .ok []

/-- The peer's fill is applied whole; the zeroized latch clears only where a new BBK was drawn for it (08 R257). Records that the source
does not hold are made INVALID where this device was not empty (16 R431). -/
def fillComplete (d : Dev) : Dev :=
  let m := match d.twn.peer with | some p => p.mSeq | none => 0
  let empty := d.bat.zeroized
  let d := raiseMseq { d with bat := { d.bat with zeroized := d.bat.zeroized && (d.twn.resync || d.bat.bbk.isNone) } } m
  let prov := match d.nv.twin.grant with | some g => g.provisional | none => false
  let raw := match d.nv.twin.grant with | some g => g.raw | none => []
  if prov && !grantSigned raw (signerKey d.nv) then
    let got := d.nv.cellar.filter fun r => d.twn.filled.contains (r.img.key, r.img.version)
    let d := got.foldl voidRecord d
    failHandshake { d with nv := { d.nv with tenants := [] } } 0x07
  else
    let extra := if d.twn.resync || empty then [] else
      d.nv.cellar.filter fun r => r.img.state != 4 && twinRecord r.img && !d.twn.filled.contains (r.img.key, r.img.version)
    let d := extra.foldl (fun d r => evLog (voidRecord d r) 0x0A03 (lineAt twnPage 2) noFn
      (leBytes 4 r.img.key.toNat ++ leBytes 2 r.img.tenant.toNat ++ leBytes 2 r.img.version.toNat)) d
    let grant := d.nv.twin.grant.map fun (g : Grant) => { g with provisional := false }
    fillBit { d with nv := { d.nv with twin := { d.nv.twin with grant := grant } } } 2

/-- The peer's fill has ended; it is complete once what it brought is applied. -/
def onFillEnd (d : Dev) : Dev :=
  if d.bat.locked || !d.twn.filling.getLsbD 1 then d
  else if d.twn.fillWait.isEmpty then fillComplete d
  else { d with twn := { d.twn with fillEnded := true } }

/-- A fill goes on in the tick that begins. -/
def fillBoundary (d : Dev) : Dev :=
  let d := { d with twn := { d.twn with fillCount := 0 } }
  if d.bat.locked || !d.pwr.pfLevel || !d.twn.filling.getLsbD 1 || d.twn.fillWait.isEmpty then d
  else
    let d := fillApply d
    if d.twn.fillWait.isEmpty && d.twn.fillEnded then fillComplete d else d

def onPark (d : Dev) : Dev :=
  settleAlone { d with twn := { d.twn with peerParked := true, parkSent := heads d.nv d.nv.twin.index } }

/-- RELEASE with the peer's final journal heads (16 R442); a locked device acknowledges nothing (R439; DEDUCED, log 77). -/
def onRelease (d : Dev) (hs : List JournalEntry) : Dev :=
  if d.bat.locked then d
  else
  let d := hs.foldl (fun d j => { d with nv := journalPut d.nv j }) d
  raise (twnSend { d with twn := { d.twn with peerReleased := true } } 0x52 0 0 [] []) twnPage 4

def onReleaseAck (d : Dev) : Dev :=
  if d.twn.relSent then
    raise { d with twn := { d.twn with releasing := false, relSent := false }, nv := { d.nv with twin := { d.nv.twin with released := true } } } twnPage 4
  else d

/-! ### Grants (16 R427, R428) -/

/-- The grant buffer as bytes. -/
def grantBytes (t : Twn) : List Byte := (List.range 56).flatMap fun k => leBytes 4 (tabGet t.grantBuf k 0).toNat

/-- The first failing check, or what is accepted and the index it gives. -/
def checkGrant (d : Dev) (f : Fuse) : Byte ⊕ (Grant × Bool) :=
  let b := grantBytes d.twn
  let kind := leAt b 5 1
  let pair := kind = 1
  let src := leAt b 6 1
  let seq := leAt b 8 8
  let dev0 := slice b 16 48
  let dev1 := slice b 64 48
  let own := sha384 (attestPair d).2
  let named := if dev0 == own then some false else if dev1 == own then some true else none
  let peer := if named = some false then dev1 else dev0
  let samePeer := twinBound d && peer == peerDigest d
  let tw := d.nv.twin
  if slice b 0 4 != [0x47, 0x4A, 0x54, 0x47] || leAt b 4 1 != 1 || (kind != 1 && kind != 2) || (pair && src != 0 && src != 1 && src != 0xFF)
      || leAt b 7 1 != 0 || !allZero (slice b 112 16) then .inl 0x01
  else if seq ≤ tw.grSeq.toNat then .inl 0x02
  else if !twinEmpty d && !grantSigned b (signerKey d.nv) then .inl 0x03
  else
    match named with
    | none => .inl 0x04
    | some ix =>
      if tw.fixed && ix != tw.index then .inl 0x05
      else if pair && twinBound d && !samePeer && !d.twn.peerReleased && d.twn.state != 5 && d.twn.state != 7 then .inl 0x06
      else if tw.released || d.bat.locked || lcState f != 2 then .inl 0x07
      else if !keeperPresent d then .inl 0x08
      else .inr ({ pair := pair, source := BitVec.ofNat 8 src, seq := BitVec.ofNat 64 seq, dev0 := dev0, dev1 := dev1,
                   provisional := twinEmpty d, raw := b }, ix)

/-- A grant is accepted: its index is fixed; changes in doubt for a peer that it no longer names are undone. -/
def acceptGrant (d : Dev) (g : Grant) (ix : Bool) : Dev :=
  let oldPeer := peerDigest d
  let had := twinBound d
  let d := { d with nv := { d.nv with twin := { d.nv.twin with
    grant := some g, grSeq := g.seq, index := ix, fixed := true, solo := !g.pair, diverged := d.nv.twin.diverged || !g.pair } } }
  let samePeer := had && g.pair && peerDigest d == oldPeer
  if samePeer then d
  else
    let d := d.nv.twin.doubt.foldl undoOne d
    let d := { d with twn := { d.twn with peerReleased := false, peerParked := false, peerLocked := false, peerZero := false, peerLevel := 0,
                                          peerLc := 0, keys := none, replay := [], hello := [], peer := none, filling := 0, lostFrom := none } }
    let d := twnState d (twnIdle d (domOn d 14))
    settleOutbox (settleAlone (if g.pair then startHandshake d else d))

/-- TWN_CMD.grant. -/
def grantCommand (d : Dev) (f : Fuse) (i : Ini) : Dev :=
  if !((isPf i.id && i.priv) || isKeeperCore i.id) then ignored d i (regAddr twnPage 0x048)
  else
    match checkGrant d f with
    | .inl r => { d with twn := { d.twn with grRes := r } }
    | .inr (g, ix) => acceptGrant { d with twn := { d.twn with grRes := 0 } } g ix

/-- TWN_CMD.release (16 R442). -/
def releaseCommand (d : Dev) (i : Ini) (v : Word) : Dev :=
  if !((isPf i.id && i.priv) || isKeeperCore i.id) || bits v 16 16 != 0x7E1A || d.twn.state != 4 then ignored d i (regAddr twnPage 0x048)
  else releaseTry { d with twn := { d.twn with releasing := true } }

/-- TWN_CMD.park (16 R440): PARK, state PARKED, and a request for STANDBY with the alarm set. -/
def parkCommand (d : Dev) (i : Ini) (v : Word) : Dev :=
  if !isKeeperCore i.id || bits v 16 16 != 0x7E1A then ignored d i (regAddr twnPage 0x048)
  else
    let d := if d.twn.keys.isSome && d.twn.width != 0 then twnSendBytes d 0x50 (leBytes 8 d.nv.twin.mSeq.toNat) else d
    let d := twnState { d with nv := { d.nv with twin := { d.nv.twin with parked := true } } } 6
    let alm := d.bat.rtc + BitVec.ofNat 48 (d.twn.syncIvl.toNat * 32768)
    standbyCommand { d with pwr := { d.pwr with alm := alm, almEn := true } } i 0x5B3D0001

/-- TWN_CMD.retrain: the link may widen. -/
def retrainCommand (d : Dev) (i : Ini) : Dev :=
  if !isKeeperCore i.id then ignored d i (regAddr twnPage 0x048)
  else retrainLink { d with twn := { d.twn with wide := true } }

/-! ### Training (16 R424) -/

/-- The width that the locked lanes give: x4, x2 on lanes 0 and 1, x1 on lane 0. -/
def lanesWidth (l : BitVec 4) : BitVec 3 := if l = 0xF then 4 else if l.getLsbD 0 && l.getLsbD 1 then 2 else if l.getLsbD 0 then 1 else 0

/-- Training is complete: after a retrain in time the link goes on with its keys; otherwise the handshake follows. -/
def linkTrained (d : Dev) (l : BitVec 4) : Dev :=
  let w := lanesWidth l
  if !domOn d 14 || d.twn.width != 0 || w = 0 then d
  else
    let w := if d.twn.wide || decide (w.toNat ≤ d.twn.cap.toNat) then w else d.twn.cap
    let d := { d with twn := { d.twn with width := w, cap := w, wide := false } }
    if d.twn.keys.isSome then resendFrom { d with twn := { d.twn with lostFrom := none } } 0
    else startHandshake { d with twn := { d.twn with lostFrom := none } }

/-- STATUS as this device sends it: level, latches, life-cycle state. -/
def statusBytes (d : Dev) (f : Fuse) : List Byte :=
  [BitVec.ofNat 8 (svcLevel d), (if d.bat.locked then 1 else 0) + (if d.bat.zeroized then 2 else 0), (lcState f).setWidth 8]

/-- Send STATUS. -/
def sendStatus (d : Dev) (f : Fuse) : Dev :=
  if d.twn.width = 0 || d.twn.keys.isNone then d
  else twnSendBytes { d with twn := { d.twn with statusSent := statusBytes d f } } 0x10 (statusBytes d f)

/-- The twin link at a boundary: a fill goes on, and a STATUS goes out when what it carries has changed (16 R432, R435). -/
def twinBoundary (d : Dev) (f : Fuse) : Dev :=
  let d := fillBoundary d
  if d.twn.statusSent == statusBytes d f then d else sendStatus d f

/-! ### The commands -/

/-- LINK_TRAINED (16 R424). -/
def execLinkTrained (locked : BitVec 4) (s : State) : Host.Outcome State Fault Refusal := act s fun d => linkTrained d locked

/-- LINK_RETRAIN (16 R424): a lane loses lock, or no valid frame for 1 microsecond. -/
def execLinkRetrain (s : State) : Host.Outcome State Fault Refusal := act s retrainLink

/-- TRAINING_RESTART (16 R424): no lane has locked; training starts again, and nothing that software sees changes. -/
def execTrainingRestart (s : State) : Host.Outcome State Fault Refusal :=
  act s fun d => if domOn d 14 then { d with twn := { d.twn with width := 0 } } else d

/-- TWIN_LOST_TIMEOUT (16 R424, R440). -/
def execTwinLostTimeout (s : State) : Host.Outcome State Fault Refusal := act s lostTimeout

/-- HELLO (16 R429). -/
def execHello (f : FrameHdr) (m : HelloMsg) (s : State) : Host.Outcome State Fault Refusal :=
  act s fun d => frameIn d f 0x01 fun d => onHello d m

/-- SIGNED (16 R429). -/
def execSigned (f : FrameHdr) (sig : List Byte) (s : State) : Host.Outcome State Fault Refusal :=
  act s fun d => frameIn d f 0x02 fun d => onSigned d sig

/-- IDLE (16 R426): it carries an acknowledgement. -/
def execIdle (f : FrameHdr) (s : State) : Host.Outcome State Fault Refusal := act s fun d => frameIn d f 0x03 fun d => d

/-- NAK (16 R426). -/
def execNak (f : FrameHdr) (expected : DWord) (s : State) : Host.Outcome State Fault Refusal :=
  act s fun d => frameIn d f 0x04 fun d => resendFrom d expected.toNat

/-- STATUS (16 R432, R439). -/
def execStatus (f : FrameHdr) (m : StatusMsg) (s : State) : Host.Outcome State Fault Refusal :=
  act s fun d => frameIn d f 0x10 fun d => settleOutbox (onStatus d m)

/-- CHANGE (16 R433): while PWR_FAIL_N is low it is neither applied nor acknowledged. -/
def execChange (f : FrameHdr) (id : DWord) (m : DWord) (objs : List MirrorObj) (s : State) : Host.Outcome State Fault Refusal :=
  act s fun d => if !d.pwr.pfLevel then d else frameIn d f 0x20 fun d => onChange d id m objs

/-- CHANGE_ACK (16 R433). -/
def execChangeAck (f : FrameHdr) (id : DWord) (m : DWord) (s : State) : Host.Outcome State Fault Refusal :=
  act s fun d => frameIn d f 0x21 fun d => onChangeAck d id m

/-- CHANGE_NAK (16 R433). -/
def execChangeNak (f : FrameHdr) (id : DWord) (st : Byte) (s : State) : Host.Outcome State Fault Refusal :=
  act s fun d => frameIn d f 0x22 fun d => onChangeNak d id st

/-- FINAL (16 R433). -/
def execFinal (f : FrameHdr) (id : DWord) (s : State) : Host.Outcome State Fault Refusal :=
  act s fun d => frameIn d f 0x23 fun d => onFinal d id

/-- UNDO (16 R433, R439). -/
def execUndo (f : FrameHdr) (id : DWord) (s : State) : Host.Outcome State Fault Refusal :=
  act s fun d => frameIn d f 0x24 fun d => onUndo d id

/-- RESERVE (16 R434). -/
def execReserve (f : FrameHdr) (j : JournalEntry) (s : State) : Host.Outcome State Fault Refusal :=
  act s fun d => if !d.pwr.pfLevel then d else frameIn d f 0x30 fun d => onReserve d j

/-- RESERVE_ACK (16 R434). -/
def execReserveAck (f : FrameHdr) (j : JournalEntry) (s : State) : Host.Outcome State Fault Refusal :=
  act s fun d => frameIn d f 0x31 fun d => reservePeer d j

/-- FILL (16 R435). -/
def execFill (f : FrameHdr) (objs : List MirrorObj) (heads : List JournalEntry) (s : State) : Host.Outcome State Fault Refusal :=
  act s fun d => if !d.pwr.pfLevel then d else frameIn d f 0x40 fun d => onFill d objs heads

/-- FILL_END (16 R431, R435). -/
def execFillEnd (f : FrameHdr) (s : State) : Host.Outcome State Fault Refusal := act s fun d => frameIn d f 0x41 onFillEnd

/-- PARK (16 R440). -/
def execPark (f : FrameHdr) (mSeq : DWord) (s : State) : Host.Outcome State Fault Refusal :=
  let _ := mSeq
  act s fun d => frameIn d f 0x50 fun d => settleOutbox (onPark d)

/-- RELEASE (16 R442). -/
def execRelease (f : FrameHdr) (heads : List JournalEntry) (s : State) : Host.Outcome State Fault Refusal :=
  act s fun d => frameIn d f 0x51 fun d => onRelease d heads

/-- RELEASE_ACK (16 R442). -/
def execReleaseAck (f : FrameHdr) (s : State) : Host.Outcome State Fault Refusal := act s fun d => frameIn d f 0x52 onReleaseAck

/-- FRAME_RESEND_TIMEOUT (16 R426): what has not been acknowledged for 4 microseconds is sent again. -/
def execFrameResendTimeout (s : State) : Host.Outcome State Fault Refusal :=
  act s fun d => if d.twn.width = 0 then d else resendFrom d 0

/-- IDLE_SEND_TIMER (16 R426). -/
def execIdleSendTimer (s : State) : Host.Outcome State Fault Refusal :=
  act s fun d => if d.twn.width = 0 then d else twnSendBytes d 0x03 []

/-- STATUS_SEND_TIMER (16 R432). -/
def execStatusSendTimer (s : State) : Host.Outcome State Fault Refusal :=
  act s fun d => sendStatus d s.fuse

/-- HANDSHAKE_RETRY (16 R429): 2^20 ticks after a failed step. -/
def execHandshakeRetry (s : State) : Host.Outcome State Fault Refusal :=
  act s fun d =>
    match d.twn.retryAt with
    | some t => if t.toNat ≤ d.tick.toNat then startHandshake d else d
    | none => d

/-- LINK_REKEY (16 R430): a new handshake before a sequence number reaches 2^40. -/
def execLinkRekey (s : State) : Host.Outcome State Fault Refusal :=
  act s fun d => if d.twn.state == 4 then startHandshake d else d

/-- TWN_CMD_GRANT (16 R428). -/
def execTwnCmdGrant (ini : Ini) (s : State) : Host.Outcome State Fault Refusal :=
  act s fun d => wakeWrite d ini (regAddr twnPage 0x048) 1 fun d => grantCommand d s.fuse ini

/-- TWN_CMD_RELEASE (16 R442). -/
def execTwnCmdRelease (ini : Ini) (v : Word) (s : State) : Host.Outcome State Fault Refusal :=
  act s fun d => wakeWrite d ini (regAddr twnPage 0x048) (v ||| 2) fun d => releaseCommand d ini v

/-- TWN_CMD_PARK (16 R440). -/
def execTwnCmdPark (ini : Ini) (v : Word) (s : State) : Host.Outcome State Fault Refusal :=
  act s fun d => wakeWrite d ini (regAddr twnPage 0x048) (v ||| 4) fun d => parkCommand d ini v

/-- TWN_CMD_RETRAIN (16 R424). -/
def execTwnCmdRetrain (ini : Ini) (s : State) : Host.Outcome State Fault Refusal :=
  act s fun d => wakeWrite d ini (regAddr twnPage 0x048) 8 fun d => retrainCommand d ini

end Sys2Proof.Machine
end

