-- ==== Sys2Proof/Machine/Keeper.lean ====
section
/-! DEFINITION. The keeper world's part of jobs: keys, plans, bundles, attestation, firmware (08 R225-R231, R249-R253, R258-R261, 01 R29-R31, 04 R131,
R504, 14 R398), and the seal unit's loads (08 R244). -/

namespace Sys2Proof.Machine

/-! ### Draws and records -/

/-- A job's keeper part waits for random numbers (08 R249, 09 R281). -/
def holdJob (d : Dev) (j : Job) : Dev := modJob d j.id fun j => { j with rngHeld := true }

/-- Bytes from the function's instance, after any prediction-resistance request of the job. -/
def drawFor (d : Dev) (j : Job) (n : Nat) : Option (List Byte × Dev) :=
  if prWaits d j.id then none
  else match takeDraw d j.e.fn.toNat n with
    | some (bs, d) => some (bs, rngFeed d)
    | none => none

/-- A GCM prefix of 31 bits from the keeper instance for a record whose counter serves GCM jobs, an AES key or a secret from which
meter keys derive; 0 for other keys (06 R188). -/
def drawPfx (d : Dev) (t : Byte) (attr : BitVec 16) : Option (BitVec 31 × Dev) :=
  if isAesType t || (isSecretType t && attr.getLsbD atDerive) then
    match keeperDraw d 4 with
    | some (bs, d) => some (BitVec.ofNat 31 (beNat bs), d)
    | none => none
  else some (0, d)

/-- Value and point of a new key of a type: the pair that the PK slot made, or a draw from the function's instance. -/
def drawValue (d : Dev) (j : Job) (t : Byte) : Option ((List Byte × List Byte) × Dev) :=
  if isPairType t then some ((slice j.sig 0 (typeValue t), slice j.sig (typeValue t) (typePoint t)), d)
  else
    match drawFor d j (typeValue t) with
    | some (bs, d) => some ((bs, []), d)
    | none => none

/-- A key's quorum rule for invalidation, fixed when it is made (08 R241). -/
def qinvalAt (nv : Nv) (tenant : BitVec 16) (level : Nat) : Bool :=
  match nv.tenants.find? fun t => t.no == tenant with
  | some t => decide (level ≤ t.qlevel.toNat)
  | none => false

/-! ### Keys (08 R249-R253) -/

/-- A KEY_INVALIDATE with sel 0 that the keeper world took earlier, and whose boundary is still to come, condemns a key (08 R256). -/
def condemned (d : Dev) (key : Word) : Bool :=
  d.jobs.any fun j => j.kind == .keyInvalidate && j.stage == .done && j.res.status == stOk && selOf j.e.keyref == 0
    && (match j.key with | some k => k.key == key | none => false)

/-- A key's line as a hierarchy change finds it: live, and no change taken earlier condemns an ancestor. -/
def lineStands (d : Dev) (key : Word) : Bool := lineLive d.nv key && !(ancestorsOf d.nv key).any (condemned d)

/-- KEY_GENERATE. -/
def runGenerate (d : Dev) (j : Job) : Dev :=
  let parent := match j.key with | some k => k.key | none => 0
  if !(keyLive d.nv parent && lineStands d parent) || condemned d parent then finishJob d j.id (outcome stOrphaned 0)
  else
    match recBySel d.nv parent 0 with
    | none => finishJob d j.id (outcome stNotFound 0)
    | some p =>
      match cellarFull d.nv p.img.tenant 0 with
      | some det => finishJob d j.id (outcome stQuota det)
      | none =>
        let t := jobKeyType j
        match drawValue d j t with
        | none => holdJob d j
        | some ((v, q), d) =>
          match drawPfx d t (BitVec.ofNat 16 (opLe j.e 2 2)) with
          | none => holdJob d j
          | some (pfx, d) =>
            let level := p.img.level.toNat + 1
            let key := d.nv.nextKey
            let i := newImage d key parent p.img.tenant 1 t (BitVec.ofNat 8 level) (BitVec.ofNat 16 (opLe j.e 2 2)) (BitVec.ofNat 8 (opLe j.e 1 1)) 0
              (qinvalAt d.nv p.img.tenant level) pfx v q 2
            mirrorJob d j.id [.record i] [.record i] (outcomeRes (cellarHandle 0 p.img.tenant key))

/-- KEY_REPLACE_BEGIN: an older PENDING version becomes INVALID in the same commit. -/
def runReplaceBegin (d : Dev) (j : Job) : Dev :=
  let key := match j.key with | some k => k.key | none => 0
  match recBySel d.nv key 0 with
  | none => finishJob d j.id (outcome stNotFound 0)
  | some r =>
    if condemned d key then finishJob d j.id (outcome stNotFound 0)
    else if !lineStands d key then finishJob d j.id (outcome stOrphaned 0)
    else
      match cellarFull d.nv r.img.tenant 0 with
      | some det => finishJob d j.id (outcome stQuota det)
      | none =>
        match drawValue d j r.img.ktype with
        | none => holdJob d j
        | some ((v, q), d) =>
          match drawPfx d r.img.ktype r.img.attr with
          | none => holdJob d j
          | some (pfx, d) =>
            let newest := ((d.nv.cellar.filter fun x => x.img.key == key).map (·.img.version.toNat)).foldl max 0
            let i : RecImage := { r.img with version := BitVec.ofNat 16 (newest + 1), record := d.nv.nextRecord, pfx := pfx, stamp := d.nv.evNext,
                                             value := v, point := q, state := 1 }
            let old := (d.nv.cellar.filter fun x => x.img.key == key && x.img.state == 1).map fun x =>
              MirrorObj.record { x.img with state := 4, value := [] }
            mirrorJob d j.id (old ++ [.record i]) (old ++ [.record i]) (outcomeRes (cellarHandle 1 r.img.tenant key))

/-- KEY_REPLACE_COMMIT: the pending version is loaded for its round trip on the shelves. -/
def runReplaceCommit (d : Dev) (j : Job) : Dev :=
  let key := match j.key with | some k => k.key | none => 0
  match recBySel d.nv key 1 with
  | none => finishJob d j.id (outcome stNotFound 0)
  | some r =>
    if condemned d key then finishJob d j.id (outcome stNotFound 0)
    else if !lineStands d key then finishJob d j.id (outcome stOrphaned 0)
    else
      let found : Byte ⊕ (Dev × KeyVal) := match cacheHit d key r.img.version with
        | some e => .inr (d, e.k)
        | none => loadRecord d r
      match found with
      | .inl det => finishJob d j.id (outcome stQuota det)
      | .inr (d, k) => stageDraw (modJob d j.id fun j => { j with key := some k, todo := j.todo.drop 1, stage := .wait, draw := none }) j.id

/-- KEY_INVALIDATE: sel 0 takes effect at the boundary at which its outcome passes, sel 1 and 2 at their commit. -/
def runInvalidate (d : Dev) (j : Job) : Dev :=
  let key := match j.key with | some k => k.key | none => 0
  let sel := selOf j.e.keyref
  let hit (st : Byte) : Bool := if sel = 0 then st == 1 || st == 2 || st == 3 else if sel = 1 then st == 1 else st == 3
  let objs := (d.nv.cellar.filter fun r => r.img.key == key && hit r.img.state).map fun r => MirrorObj.record { r.img with state := 4, value := [] }
  if objs.isEmpty then finishJob d j.id (outcome stNotFound 0)
  else mirrorJob d j.id objs (if sel = 0 then [] else objs) (outcome stOk 0)

/-! ### Measurements and statements (02 R74, 08 R260, R261) -/

/-- Digest of a firmware lineage: signer digest, then the security version number as 4 bytes (log entry 10). -/
def lineageDigest (i : Option Image) : List Byte :=
  match i with
  | some i => sha384 (i.signer ++ leBytes 4 i.svn.toNat)
  | none => sha384 []

/-- The digests of measurement blocks 1 to 6. -/
def measureBlocks (d : Dev) (f : Fuse) : List (List Byte) :=
  [lineageDigest d.mgt.images[0]?, lineageDigest d.mgt.images[1]?, lineageDigest d.mgt.images[2]?,
   lineageDigest (if d.acl.porter == 2 then d.mgt.extension else none),
   sha384 (leBytes 1 (lcState f).toNat ++ leBytes 2 (tamperCount f)), sha384 (leBytes 4 d.wings.lastBundle.toNat)]

/-- The attestation key as a job holds it. -/
def attestKeyVal (d : Dev) : KeyVal :=
  let p := attestPair d
  { noKey with ktype := 0x11, attr := 0x8003, key := 2, version := 1, value := p.1, point := p.2 }

/-- A statement goes to the PK wing for its signature. -/
def signStatement (d : Dev) (j : Job) (block : List Byte) : Dev :=
  stageDraw (modJob d j.id fun j => { j with key := some (attestKeyVal d), sig := block, todo := [.sign], stage := .wait, draw := none }) j.id

def runAttestKey (d : Dev) (j : Job) : Dev :=
  match j.key with
  | none => finishJob d j.id (outcome stNotFound 0)
  | some k =>
    let r := if k.key = 0 then none else recByVersion d.nv k.key k.version
    if k.key != 0 && (r.isNone || !lineLive d.nv k.key) then finishJob d j.id (outcome stOrphaned 0)
    else signStatement d j (attestKeyBlock d k r (opAt j.e 0 32))

def runAttestChain (d : Dev) (j : Job) : Dev :=
  match Config.chain (BitVec.ofNat 3 (paramBits j.e 0 1)) with
  | none => finishJob d j.id (outcome stNotFound 0)
  | some c => finishJob d j.id (outcomeOut (leBytes 4 c.length ++ c))

/-! ### Share bundles (01 R29-R31) -/

/-- The wing that a wing rack's identity names (01 R19). -/
def wingOfRack (u : Nat) : Option Wing := if u = wingUnit .pk then some .pk else if u = wingUnit .sym then some .sym else if u = wingUnit .hsh then some .hsh else none

/-- One share table entry. -/
def parseShare (b : List Byte) : ShareEntry :=
  { func := BitVec.ofNat 8 (leAt b 7 1), valid := decide (128 ≤ leAt b 6 1), floor := BitVec.ofNat 16 (leAt b 4 2),
    cap := BitVec.ofNat 16 (leAt b 2 2), weight := BitVec.ofNat 16 (leAt b 0 2) }

/-- The entries of one share table in reading order: up to `n` more from an offset on; the first failing check is its number. -/
def parseEntries : Nat → List Byte → Nat → Nat → List ShareEntry → Nat ⊕ List ShareEntry
  | 0, _, _, _, acc => .inr acc
  | n + 1, b, off, lim, acc =>
    let e := parseShare (slice b off 8)
    if lim < off + 8 then .inl 7
    else if leAt b (off + 6) 1 % 128 != 0 then .inl 8
    else if e.valid && acc.any fun x => x.valid && x.func == e.func then .inl 9
    else parseEntries n b (off + 8) lim (acc ++ [e])

/-- The tables of a section, one after the other. -/
def parseTables : List Nat → List Byte → Nat → Nat → List (List ShareEntry) → Nat ⊕ List (List ShareEntry)
  | [], _, _, _, acc => .inr acc
  | n :: rest, b, off, lim, acc =>
    match parseEntries n b off lim [] with
    | .inl r => .inl r
    | .inr t => parseTables rest b (off + 8 * n) lim (acc ++ [t])

/-- A section header at an offset, in reading order (01 R31): the wing, the row selectors and the entry counts. -/
def parseSection (b : List Byte) (off lim : Nat) (seen : List Wing) : Nat ⊕ (Wing × List (BitVec 2) × List Nat) :=
  let rows := leAt b (off + 2) 1
  let sel := slice b (off + 3) 16
  let counts := (List.range 4).map fun k => leAt b (off + 19 + 2 * k) 2
  if lim < off + 2 then .inl 7
  else
    match wingOfRack (leAt b off 2) with
    | none => .inl 2
    | some w =>
      if seen.contains w then .inl 3
      else if lim < off + 3 then .inl 7
      else if rows = 0 || 16 < rows then .inl 4
      else if lim < off + 19 then .inl 7
      else if ((sel.take rows).any fun x => 3 < x.toNat) || !allZero (sel.drop rows) then .inl 5
      else if lim < off + 27 then .inl 7
      else if counts.any fun c => 256 < c then .inl 6
      else if lim < off + 32 then .inl 7
      else if !allZero (slice b (off + 27) 5) then .inl 8
      else .inr (w, (sel.take rows).map fun x => BitVec.ofNat 2 x.toNat, counts)

/-- The sections from an offset on; `lim` is where the signature begins. The first failing check is its number. -/
def parseSections : Nat → List Byte → Nat → Nat → List (Wing × List (BitVec 2) × List (List ShareEntry)) →
    Nat ⊕ (Nat × List (Wing × List (BitVec 2) × List (List ShareEntry)))
  | 0, _, off, _, acc => .inr (off, acc)
  | n + 1, b, off, lim, acc =>
    match parseSection b off lim (acc.map (·.1)) with
    | .inl r => .inl r
    | .inr (w, rows, counts) =>
      match parseTables counts b (off + 32) lim [] with
      | .inl r => .inl r
      | .inr tables => parseSections n b (off + 32 + 8 * counts.sum) lim (acc ++ [(w, rows, tables)])

/-- A bundle's structure: the first failing check of R31 in reading order, or the bundle. -/
def parseBundle (b : List Byte) : Nat ⊕ Bundle :=
  let n := leAt b 10 1
  let lim := b.length - 96
  if lim < 11 then .inl 7
  else if n = 0 || 3 < n then .inl 1
  else if lim < 64 then .inl 7
  else if !allZero (slice b 11 53) then .inl 8
  else
    match parseSections n b 64 lim [] with
    | .inl r => .inl r
    | .inr (off, secs) =>
      if off != lim || b.length < 96 then .inl 7
      else .inr { id := BitVec.ofNat 32 (leAt b 0 4), commit := BitVec.ofNat 48 (leAt b 4 6), sections := secs }

/-- ECDSA P-384 over all but the last 96 bytes. -/
def tailSigned (b key : List Byte) : Bool :=
  let n := b.length - 96
  !key.isEmpty && ecdsaVerify p384 (sha384 (b.take n)) (slice b n 48) (slice b (n + 48) 48) key == .ok []

/-- SHARE_BUNDLE_LOAD: accepted at the boundary at which its outcome passes. -/
def runBundle (d : Dev) (j : Job) : Dev :=
  let b := stagedPrefix j
  match parseBundle b with
  | .inl r => finishJob d j.id { outcome stInput 0x0E with res1 := BitVec.ofNat 32 r }
  | .inr _ => finishJob d j.id (if tailSigned b (signerKey d.nv) then outcome stOk 0 else outcome stAuth 0x03)

/-- An accepted bundle: in effect at the boundary into max(a + 1, commit_tick), where `a` is the tick that begins now; a pending
bundle is discarded (01 R30). -/
def acceptBundle (d : Dev) (j : Job) : Dev :=
  match parseBundle (stagedPrefix j) with
  | .inl _ => d
  | .inr b => { d with wings := { d.wings with pendingBundle := some (b, BitVec.ofNat 48 (max (d.tick.toNat + 1) b.commit.toNat)) } }

/-- A bundle takes effect: the wings that it names change (01 R30, R31, 02 R74). -/
def bundleEffect (d : Dev) : Dev :=
  match d.wings.pendingBundle with
  | none => d
  | some (b, t) =>
    if d.tick.toNat < t.toNat then d
    else
      let d := { d with wings := { d.wings with pendingBundle := none, lastBundle := b.id } }
      b.sections.foldl (fun d s => setWing d s.1 { rows := s.2.1, tables := s.2.2, bundle := b.id }) d

/-! ### Tenant plans (08 R225-R231) -/

/-- Length that an entry's body calls for, before rounding up to a multiple of 8; none for an unknown type. -/
def entryBody (e : List Byte) : Option Nat :=
  let blob (t : Nat) : Nat := 96 + 8 * ceilDiv (typeValue (BitVec.ofNat 8 t)) 8 + 8
  match leAt e 0 1 with
  | 1 => some (24 + (if leAt e 20 1 = 2 then blob (leAt e 16 1) else 0))
  | 2 => some 6
  | 3 => some 8
  | 4 => some (20 + leAt e 18 1)
  | 5 => some (24 + blob (leAt e 14 1))
  | 6 => some (24 + typePoint (BitVec.ofNat 8 (leAt e 14 1)))
  | 7 => some 104
  | _ => none

def entryLenOk (e : List Byte) : Bool :=
  match entryBody e with
  | some n => e.length = 8 * ceilDiv n 8 && leAt e 2 2 = e.length && (leAt e 0 1 != 4 || (1 ≤ leAt e 18 1 && leAt e 18 1 ≤ 32))
  | none => false

/-- The structure of a plan: header and entry lengths; the first entry at fault, 0xFFFF for the header. -/
def planShape (b : List Byte) : Option Nat :=
  let n := leAt b 6 2
  let body := slice b 64 (b.length - 160)
  let es := planEntries n body
  if b.length < 160 || slice b 0 4 != [0x47, 0x4A, 0x54, 0x50] || leAt b 4 1 != 1 || leAt b 5 1 != 0 || n = 0 || 4096 < n then some 0xFFFF
  else
    match es.zipIdx.find? fun x => !entryLenOk x.1 with
    | some x => some x.2
    | none => if (es.map (·.length)).sum = body.length then none else some 0xFFFF

/-- The value that an import blob carries to this device; none when its point or its KWP check fails (08 R228), or when the seal unit
cannot unseal the import key (08 R222). -/
def openBlob (d : Dev) (tenant : Nat) (key : Nat) (t : Byte) (blob : List Byte) : Option (List Byte) :=
  match (recBySel d.nv 1 0).filter (readable d) with
  | none => none
  | some r =>
    match ecdh p384 r.img.value (blob.take 96) with
    | .bad _ _ => none
    | .ok z =>
      let w := kdf z [0x47, 0x4A, 0x2D, 0x49, 0x4D, 0x50, 0x4F, 0x52, 0x54] (beBytes 2 tenant ++ beBytes 4 key) 32
      let c := slice blob 96 (8 * ceilDiv (typeValue t) 8 + 8)
      match kwpUnwrap w c with
      | some v => if v.length = typeValue t then some v else none
      | none => none

/-- Public point of an imported private value; none when the value is out of range. -/
def pointOfValue (t : Byte) (v : List Byte) : Option (List Byte) :=
  if isPairType t then
    let c := if t = 0x10 then p256 else p384
    let n := beNat v
    if n = 0 || c.n ≤ n then none else some (pointBytes c (ecMul c n (ecBase c)))
  else some []

/-- What checking and applying an entry gives: the device after it, a reason, or a wait for random numbers. -/
inductive PlanStep where
  | ok (d : Dev)
  | bad (reason : Nat)
  | wait

/-- A plan key is made; every number of it is fresh, and the cellar has room (08 R227, R229, R234, R235, R241). -/
def planKey (d : Dev) (key parent : Nat) (tenant : BitVec 16) (t : Byte) (level : Nat) (attr : BitVec 16) (exp : Nat) (origin : BitVec 2)
    (value : Dev → Option ((List Byte × List Byte) × Dev)) (valueOk : Bool) : PlanStep :=
  if key < 0x10 || 0xFFFFFF < key || (d.nv.cellar.any fun r => r.img.key.toNat == key) then .bad 0x03
  else if !attrOk t attr || 3 < exp then .bad 0x05
  else if 18 < level || (level = 18 && (attr.getLsbD atDerive || attr.getLsbD atWrapu)) then .bad 0x06
  else if !valueOk then .bad 0x07
  else if (cellarFull d.nv tenant 0).isSome then .bad 0x08
  else
    match value d with
    | none => .wait
    | some ((v, q), d) =>
      match drawPfx d t attr with
      | none => .wait
      | some (pfx, d) =>
        .ok (addRecord d (newImage d (BitVec.ofNat 32 key) (BitVec.ofNat 32 parent) tenant 1 t (BitVec.ofNat 8 level) attr
          (BitVec.ofNat 8 (exp % 2 + 2)) origin true pfx v q 2))

/-- A key that may be a parent: derive or wrap (08 R233). -/
def mayParent (r : CellarRec) : Bool := r.img.attr.getLsbD atDerive || r.img.attr.getLsbD atWrapu

/-- A live key that an entry names as its parent. -/
def planParent (d : Dev) (key : Nat) : Option CellarRec :=
  let k : Word := BitVec.ofNat 32 key
  (recBySel d.nv k 0).filter fun r => (r.img.state == 2 || r.img.state == 3) && lineLive d.nv k && r.img.tenant != 0

def planCreate (d : Dev) (e : List Byte) : PlanStep :=
  let no := leAt e 4 2
  let q := leAt e 6 1
  let t : Byte := BitVec.ofNat 8 (leAt e 16 1)
  let imported := leAt e 20 1 = 2
  let key := leAt e 12 4
  let blob := e.drop 24
  if no = 0 || no = 0xFFFF || hasTenant d no then .bad 0x04
  else if q = 0 || 18 < q || !isKeyType t || isPubType t || !(imported || leAt e 20 1 = 0) then .bad 0x05
  else if 256 ≤ d.nv.tenants.length then .bad 0x08
  else
    let rec_ : TenantRec := { no := BitVec.ofNat 16 no, qlevel := BitVec.ofNat 8 q, quota := BitVec.ofNat 32 (leAt e 8 4) }
    let d := { d with nv := { d.nv with tenants := d.nv.tenants ++ [rec_] } }
    let v := if imported then openBlob d no key t blob else none
    let p := v.bind fun v => pointOfValue t v
    let value (d : Dev) : Option ((List Byte × List Byte) × Dev) :=
      if imported then some ((v.getD [], p.getD []), d)
      else if isPairType t then (keeperDraw d (if t = 0x11 then 184 else 136)).map fun x => (ecKeygen (if t = 0x11 then p384 else p256) x.1, x.2)
      else (keeperDraw d (typeValue t)).map fun x => ((x.1, []), x.2)
    planKey d key 0 rec_.no t 1 (BitVec.ofNat 16 (leAt e 18 2)) (leAt e 17 1) (if imported then 2 else 0) value (!imported || p.isSome)

def planDelete (d : Dev) (e : List Byte) : PlanStep :=
  let no : BitVec 16 := BitVec.ofNat 16 (leAt e 4 2)
  if !hasTenant d no.toNat then .bad 0x04
  else if d.fns.any fun p => p.2.state != 0 && p.2.tenant == no then .bad 0x09
  else
    let roots := d.nv.cellar.filter fun r => r.img.parent == 0 && r.img.tenant == no && r.img.state != 4
    let d := roots.foldl voidRecord d
    .ok (applyObj d (.tenantDelete no))

def planBind (d : Dev) (e : List Byte) : PlanStep :=
  match bindBad d e with
  | some r => .bad r
  | none => .ok (bindEntry d e)

/-- BRANCH_DERIVE (08 R231). DESIGN CHOICE: a private value of a pair that the derivation puts outside [1, n-1] is refused with reason
0x07, and a parent that the seal unit cannot unseal with 0x04 (log entry 72). -/
def planBranch (d : Dev) (e : List Byte) : PlanStep :=
  let t : Byte := BitVec.ofNat 8 (leAt e 14 1)
  let tenant := leAt e 12 2
  match planParent d (leAt e 8 4) with
  | none => .bad 0x04
  | some p =>
    if !hasTenant d tenant then .bad 0x04
    else if !readable d p then .bad 0x04
    else if !(isSecretType p.img.ktype && p.img.attr.getLsbD atDerive) || !isKeyType t || isPubType t then .bad 0x05
    else
      let v := kdf p.img.value [0x42, 0x52, 0x41, 0x4E, 0x43, 0x48] (slice e 20 (leAt e 18 1)) (typeValue t)
      let q := pointOfValue t v
      planKey d (leAt e 4 4) (leAt e 8 4) (BitVec.ofNat 16 tenant) t (p.img.level.toNat + 1) (BitVec.ofNat 16 (leAt e 16 2)) (leAt e 15 1) 1
        (fun d => some ((v, q.getD []), d)) q.isSome

def planImport (d : Dev) (e : List Byte) : PlanStep :=
  let t : Byte := BitVec.ofNat 8 (leAt e 14 1)
  let tenant := leAt e 12 2
  let key := leAt e 4 4
  match planParent d (leAt e 8 4) with
  | none => .bad 0x04
  | some p =>
    if !hasTenant d tenant then .bad 0x04
    else if !mayParent p || !isKeyType t || isPubType t then .bad 0x05
    else
      let v := openBlob d tenant key t (e.drop 24)
      let q := v.bind fun v => pointOfValue t v
      planKey d key (leAt e 8 4) (BitVec.ofNat 16 tenant) t (p.img.level.toNat + 1) (BitVec.ofNat 16 (leAt e 16 2)) (leAt e 15 1) 2
        (fun d => some ((v.getD [], q.getD []), d)) q.isSome

def planPublic (d : Dev) (e : List Byte) : PlanStep :=
  let t : Byte := BitVec.ofNat 8 (leAt e 14 1)
  let tenant := leAt e 12 2
  match planParent d (leAt e 8 4) with
  | none => .bad 0x04
  | some p =>
    if !hasTenant d tenant then .bad 0x04
    else if !mayParent p || !isPubType t then .bad 0x05
    else
      let q := slice e 24 (typePoint t)
      let c := if t = 0x12 then p256 else p384
      let xy := pointOf c q
      planKey d (leAt e 4 4) (leAt e 8 4) (BitVec.ofNat 16 tenant) t (p.img.level.toNat + 1) (BitVec.ofNat 16 (leAt e 16 2)) 0 3
        (fun d => some (([], q), d)) (decide (xy.1 < c.p) && decide (xy.2 < c.p) && onCurve c xy.1 xy.2)

/-- SIGNER_SET: the next version of key 3; the one before is INVALID. -/
def planSigner (d : Dev) (e : List Byte) : PlanStep :=
  let q := slice e 8 96
  let xy := pointOf p384 q
  if !(decide (xy.1 < p384.p) && decide (xy.2 < p384.p) && onCurve p384 xy.1 xy.2) then .bad 0x07
  else if (cellarFull d.nv 0 0).isSome then .bad 0x08
  else
    let newest := ((d.nv.cellar.filter fun r => r.img.key == 3).map (·.img.version.toNat)).foldl max 0
    let d := moveRecords d 3 [1, 2, 3] 4
    .ok (addRecord d (newImage d 3 0 0 (BitVec.ofNat 16 (newest + 1)) 0x13 0 0x8002 2 3 true 0 [] q 2))

def planEntry (d : Dev) (e : List Byte) : PlanStep :=
  match leAt e 0 1 with
  | 1 => planCreate d e
  | 2 => planDelete d e
  | 3 => planBind d e
  | 4 => planBranch d e
  | 5 => planImport d e
  | 6 => planPublic d e
  | _ => planSigner d e

/-- Every entry in order on a copy of the device: the copy after all of them, the first at fault with its reason, or a wait. -/
def planFold : List (List Byte) → Nat → Dev → (Nat × Nat) ⊕ Option Dev
  | [], _, d => .inr (some d)
  | e :: r, i, d =>
    match planEntry d e with
    | .ok d => planFold r (i + 1) d
    | .bad w => .inl (i, w)
    | .wait => .inr none

def planRefused (d : Dev) (j : Job) (i reason : Nat) : Dev :=
  finishJob d j.id { outcome stInput 0x09 with res1 := put 16 i ||| BitVec.ofNat 32 reason }

/-- The key under which a plan is verified: the plan signer key, or before there is one the key that the plan sets. -/
def planKeyOf (d : Dev) (es : List (List Byte)) : List Byte :=
  if (signerKey d.nv).isEmpty then
    match es.find? fun e => leAt e 0 1 = 7 with
    | some e => slice e 8 96
    | none => []
  else signerKey d.nv

/-- TENANT_PLAN_LOAD: the session that its read's end consumed, structure, signature, sequence, entries; then one commit (log
entry 11). -/
def runPlan (d : Dev) (j : Job) : Dev :=
  let b := stagedPrefix j
  let es := planEntries (leAt b 6 2) (slice b 64 (b.length - 160))
  if !j.checked then d
  else if j.session = 0 then finishJob d j.id (outcome stQuorum 0)
  else
    match planShape b with
    | some i => planRefused d j i 0x01
    | none =>
      let key := planKeyOf d es
      if !tailSigned b key || sha384 key != slice b 16 48 then finishJob d j.id (outcome stAuth 0x03)
      else if leAt b 8 8 ≤ d.nv.planSeq.toNat then planRefused d j 0xFFFF 0x02
      else
        match planFold es 0 d with
        | .inl (i, w) => planRefused d j i w
        | .inr none => holdJob d j
        | .inr (some n) =>
          let n := { n with nv := { n.nv with planSeq := BitVec.ofNat 64 (leAt b 8 8) } }
          let objs := changedObjs d n ((es.filter fun e => leAt e 0 1 = 2).map fun e => BitVec.ofNat 16 (leAt e 4 2)).eraseDups
          let d := { d with rng := n.rng, free := n.free }
          mirrorJob d j.id objs objs (outcome stOk 0)

/-! ### Firmware (08 R224, 14 R398) -/

/-- An image with its signature in place and correct. -/
def dirSigned (b : List Byte) (x : DirEntry) : Bool :=
  decide (x.offset + x.len + 192 ≤ b.length) &&
    ecdsaVerify p384 (dirDigest b x) (slice b (x.offset + x.len + 96) 48) (slice b (x.offset + x.len + 144) 48) (dirKey b x) == .ok []

/-- The Ilmel image that an update puts on boot device A is the one that the keeper world's next start loads (14 R398). -/
def stageIlmel (d : Dev) (b : List Byte) (x : Option DirEntry) : Dev :=
  match x with
  | some x => { d with mgt := { d.mgt with nextIlmel := some { signer := sha384 (dirKey b x), svn := BitVec.ofNat 12 x.svn, testSigned := false } } }
  | none => d

/-- FIRMWARE_UPDATE: lineage rules, quorum for a new signer, then the signatures; the boot device gets the bytes that were read. -/
def runFirmware (d : Dev) (j : Job) : Dev :=
  let b := stagedPrefix j
  match parseDir b with
  | none => finishJob d j.id (outcome stAuth 0)
  | some es =>
    let ilmel := dirIlmel d es
    if !dirWhole b es then finishJob d j.id (outcome stAuth 0)
    else if ilmel.isNone && es.any fun x => x.kind = 2 then finishJob d j.id (outcome stInput 0x05)
    else
      let signer := newSigner d b
      if signer.isSome && j.session = 0 then finishJob d j.id (outcome stQuorum 0)
      else if !es.all (dirSigned b) then finishJob d j.id (outcome stAuth 0)
      else
        let onB := opLe j.e 0 1 == 1
        let d := match signer with | some x => { d with nv := { d.nv with imgSigner := x.2 } } | none => d
        finishJob (emit (if onB then d else stageIlmel d b ilmel) (.bootWrite onB b)) j.id (outcome stOk 0)

/-! ### The keeper world ends its part of a job (04 R131, R504) -/

def isHierarchy (k : JobKind) : Bool :=
  k = .keyGenerate || k = .keyReplaceBegin || k = .keyReplaceCommit || k = .keyInvalidate || k = .tenantPlanLoad

/-- A hierarchy change waits behind another that the twin has not acknowledged, behind a fill that this device sends, behind a
change in doubt for its key, and for MRAM writes (08 R256, 16 R433, R435, R438, 14 R392). -/
def hierBusy (d : Dev) (j : Job) : Bool :=
  isHierarchy j.kind &&
    (!d.pwr.pfLevel || (d.jobs.any fun k => k.stage == .twin) || d.twn.filling != 0 ||
      (let key := match j.key with | some k => k.key | none => 0
       d.nv.twin.doubt.any fun c => c.objs.any fun o => match o with | .record r => r.key == key | _ => false))

/-- Jobs that write MRAM, fuses or the boot device wait while PWR_FAIL_N is low. -/
def needsWrite (k : JobKind) : Bool := isHierarchy k || k = .quorumOpen || k = .firmwareUpdate

/-- What the keeper world does with a job. -/
def keeperRun (d : Dev) (f : Fuse) (j : Job) : Dev × Fuse :=
  match j.kind with
  | .lifecycleTransition => runTransition d f j
  | k =>
    (match k with
      | .keyGenerate => runGenerate d j
      | .keyReplaceBegin => runReplaceBegin d j
      | .keyReplaceCommit => runReplaceCommit d j
      | .keyInvalidate => runInvalidate d j
      | .keyInfo | .keyPublic => runNil d j
      | .attestKey => runAttestKey d j
      | .attestDevice => signStatement d j (attestDeviceBlock d (measureBlocks d f) (opAt j.e 0 32))
      | .attestChain => runAttestChain d j
      | .tenantPlanLoad => runPlan d j
      | .shareBundleLoad => runBundle d j
      | .quorumOpen => openSession d j
      | .quorumStatus => finishJob d j.id (sessionStatus d (BitVec.ofNat 64 (opLe j.e 0 8)))
      | .tamperLockClear => finishJob d j.id (outcomeRes (if d.bat.locked then 1 else 0))
      | .firmwareUpdate => runFirmware d j
      | .debugAuthorise => runDebug d f j
      | _ => finishJob d j.id (outcome stOk 0), f)

/-- The keeper world finishes its part of a job that it holds and whose reads have returned; under the lock a KPR job not yet committed is
denied (13 R361). -/
def keeperDone (d : Dev) (f : Fuse) (id : JobId) : Dev × Fuse :=
  match findJob d id with
  | none => (d, f)
  | some j =>
    if j.stage != .keeper || jobPart j != .keeper || !keeperPresent d || !readsDone j || hierBusy d j
        || (needsWrite j.kind && !d.pwr.pfLevel) then (d, f)
    else if d.bat.locked && !lockAllows j.kind j.e && !movesLife d j.id then (failJob d j.id (stLife, 0x04), f)
    else keeperRun d f j

/-! ### Loads (08 R244) -/

/-- A job whose load is done has its keys as the cache holds them. -/
def resumeLoaded (d : Dev) (id : JobId) : Dev :=
  match findJob d id with
  | none => d
  | some j =>
    let k := findKeys d j
    match k.fail with
    | some r => failJob d id r
    | none =>
      let d := modJob d id fun j => { j with
        stage := if j.stage == .load then .wait else j.stage, key := if j.e.keysel = 1 && j.todo.headD .main != .pair then k.key else j.key, wkey := k.wkey, ekey := k.ekey }
      startJob d id

/-- The loads that the seal unit can still make in this tick: at most 64, in cyclic order of function number (08 R244). -/
def loadsDue (d : Dev) : List (Word × BitVec 16 × FnNo × BitVec 48) :=
  (sortBy (fun (l : Word × BitVec 16 × FnNo × BitVec 48) => cyclicKey (blockTie d d.ties.keeper) l.2.2.1.toNat) d.keys.loads).take
    (64 - d.keys.loaded)

/-- The seal unit ends a load: every job that waits for it goes on or fails. -/
def loadDone (d : Dev) (key : Word) (version : BitVec 16) : Dev :=
  match (loadsDue d).find? fun l => l.1 == key && l.2.1 == version with
  | none => d
  | some l =>
    let d := { d with keys := { d.keys with loads := d.keys.loads.filter fun x => !(x.1 == key && x.2.1 == version), loaded := d.keys.loaded + 1 } }
    let mine (j : Job) : Bool := j.loads.contains (key, version)
    let waiting := (d.jobs.filter mine).map (·.id)
    let fail (r : Byte × Byte) : Dev := waiting.foldl (fun d id => failJob d id r) d
    match recByVersion d.nv key version with
    | none => fail (stNotFound, 0)
    | some r =>
      if r.img.state == 4 then fail (if keyLive d.nv key || lineLive d.nv key then stNotFound else stOrphaned, 0)
      else if !readable d r then fail (stNotFound, 0x01)
      else if !lineLive d.nv key then fail (stOrphaned, 0)
      else
        match (if (cacheHit d key version).isSome then (.inr d : Byte ⊕ Dev) else (loadRecord d r).map id (·.1)) with
        | .inl det => fail (stQuota, det)
        | .inr d =>
          let d := pmcFn d 0x61 l.2.2.1.toNat 1
          let d := { d with jobs := d.jobs.map fun (j : Job) => if mine j then { j with loads := j.loads.filter fun x => x != (key, version) } else j }
          waiting.foldl (fun d id =>
            match findJob d id with
            | some j => if j.loads.isEmpty then resumeLoaded d id else d
            | none => d) d

/-! ### The commands -/

/-- KPR_KEEPER_DONE (04 R110, R131). -/
def execKprKeeperDone (job : JobId) (s : State) : Host.Outcome State Fault Refusal := actFuse s (keeperDone s.dev s.fuse job)

/-- CELLAR_LOAD_DONE (08 R244). -/
def execCellarLoadDone (key : Word) (version : BitVec 16) (s : State) : Host.Outcome State Fault Refusal :=
  act s fun d => if keeperPresent d then loadDone d key version else d

/-- NONCE_RESERVE_COMMIT (06 R190, R194): the journal entries are written. -/
def execNonceReserveCommit (record : Word) (twin : Bool) (s : State) : Host.Outcome State Fault Refusal :=
  act s fun d => if d.pwr.pfLevel then releaseTry (reserveOwn d record twin) else d

end Sys2Proof.Machine
end

