-- ==== Sys2Proof/Machine/Recorder.lean ====
section
/-! DEFINITION. The event recorder's flushes and snapshot windows, and the commands of the performance monitors (17 R449-R461). -/

namespace Sys2Proof.Machine

/-! ### Flushes (17 R446, R447, R449) -/

/-- Numbers 0 to 4,095 lie in the attic, written once. -/
def inAttic (n : DWord) : Bool := decide (n.toNat < 4096)

/-- Store a durable record: the circulating area keeps one record per slot, seq mod 65,536. -/
def storeRecord (st : List (DWord × EvRec)) (e : DWord × EvRec) : List (DWord × EvRec) :=
  let same (x : DWord × EvRec) : Bool := !inAttic x.1 && !inAttic e.1 && x.1.toNat % 65536 == e.1.toNat % 65536
  (st.filter fun x => !same x) ++ [e]

/-- Records that a flush may write: while PWR_FAIL_N is low only those numbered before its flush began. -/
def flushable (d : Dev) (e : DWord × EvRec) : Bool :=
  match d.evr.holdFrom with
  | none => true
  | some h => decide (e.1.toNat < h.toNat)

/-- A flush ends: what it wrote is durable. The flush of a PWR_FAIL_N fall also writes h = next + 512, and the flush of standby
entry is followed by the power-off of the domains. -/
def flushDone (d : Dev) : Dev :=
  if !d.evr.flushing || !d.evr.started then d
  else
    let out := d.evr.buf.filter (flushable d)
    let d := { d with
      evr := { d.evr with flushing := false, buf := d.evr.buf.filter fun e => !flushable d e }
      nv := { d.nv with evStore := out.foldl storeRecord d.nv.evStore } }
    let d := if d.pwr.pfState == 1 then
        { d with pwr := { d.pwr with pfState := 2 }, nv := { d.nv with evHigh := d.nv.evNext + 512 } }
      else d
    if d.pwr.sysstate == 2 then enterStandby d else d

/-- EVR_OLD: the lowest number above 4,095 still in the circulating area; 4,096 while it holds none (log entry 13). -/
def evrOld (d : Dev) : DWord :=
  match d.nv.evStore.filter fun e => !inAttic e.1 with
  | [] => 4096
  | e :: r => r.foldl (fun m x => if x.1.toNat < m.toNat then x.1 else m) e.1

/-- EVR_DUR: every number below it is durable or a gap. -/
def evrDurable (d : Dev) : DWord :=
  match d.evr.buf with
  | [] => d.nv.evNext
  | e :: _ => e.1

/-- The 64 bytes of a record (17 R445). -/
def evBytes (n : DWord) (r : EvRec) : List Byte :=
  let b := leBytes 8 n.toNat ++ leBytes 4 r.hours.toNat ++ leBytes 4 r.frac.toNat ++ leBytes 4 r.pcyc.toNat ++ leBytes 6 r.tick.toNat
    ++ leBytes 2 r.code.toNat ++ [BitVec.ofNat 8 (r.sev.toNat * 64 + if r.late then 32 else 0), 0] ++ leBytes 2 r.line.toNat
    ++ leBytes 2 r.func.toNat ++ [0, 0] ++ fit 24 r.data
  b ++ leBytes 4 (crc32 b).toNat

/-! ### Snapshot windows (17 R453, R454) -/

def getWin (d : Dev) (w : BitVec 2) : SnapWin :=
  match w.toNat with
  | 0 => d.evr.w0 | 1 => d.evr.w1 | 2 => d.evr.w2 | _ => d.evr.w3

def setWin (d : Dev) (w : BitVec 2) (x : SnapWin) : Dev :=
  match w.toNat with
  | 0 => { d with evr := { d.evr with w0 := x } }
  | 1 => { d with evr := { d.evr with w1 := x } }
  | 2 => { d with evr := { d.evr with w2 := x } }
  | _ => { d with evr := { d.evr with w3 := x } }

/-- The initiators that a window serves. -/
def winOwner (w : BitVec 2) (i : Ini) : Bool :=
  match w.toNat with
  | 0 => i.id == 0 | 1 => i.id == 128 | 2 => isPorterCore i.id | _ => isKeeperCore i.id

/-- What a fetch finds: its result and the record's bytes. -/
def snapFind (d : Dev) (n : DWord) (readable : Bool) : BitVec 3 × List Byte :=
  if d.nv.evNext.toNat ≤ n.toNat then (1, zeros 64)
  else
    match d.evr.buf.find? fun e => e.1 == n with
    | some e => (0, evBytes e.1 e.2)
    | none =>
      if !inAttic n && decide (n.toNat < (evrOld d).toNat) then (2, zeros 64)
      else if d.nv.evBad.contains n then (4, zeros 64)
      else
        match d.nv.evStore.find? fun e => e.1 == n with
        | some e => if readable then (0, evBytes e.1 e.2) else (4, zeros 64)
        | none => (3, zeros 64)

/-- A fetch written through a window; while busy it is ignored. -/
def snapFetch (d : Dev) (i : Ini) (w : BitVec 2) : Dev :=
  let a := regAddr evrPage (0x108 + 0x80 * w.toNat)
  if !winOwner w i || (getWin d w).busy then ignored d i a else setWin d w { getWin d w with busy := true }

def snapDone (d : Dev) (w : BitVec 2) (readable : Bool) : Dev :=
  let x := getWin d w
  if x.busy then
    let r := snapFind d x.seq readable
    setWin d w { x with busy := false, result := r.1, data := r.2 }
  else d

/-! ### Monitors (17 R455-R460) -/

/-- Monitors 28 to 31 lie in the keeper-only region. -/
def monDenied (d : Dev) (i : Ini) (m : Nat) : Bool := decide (28 ≤ m) && !iniKeeper d i.id

/-- A write of PMC_CTL: en and clr as written take effect at the next boundary. -/
def monCtl (d : Dev) (m : Nat) (en clr : Bool) : Dev :=
  let x := getMon d m
  setMon d m { x with en := en, clr := x.clr || clr }

/-- A write of PMC_BIND (17 R458): porter cores, and a PF for the functions of its own port; monitors 28 to 31 cannot be bound. -/
def monBind (d : Dev) (i : Ini) (m : Nat) (v : Word) : Dev :=
  let f := bits v 0 8
  let own := isPf i.id && i.priv && (!bit v 31 || i.id.toNat / 128 == f / 128)
  let now := getMon d m
  let held := !bit now.bind 31 || !isPf i.id || i.id.toNat / 128 == bits now.bind 0 8 / 128
  if 28 ≤ m || !(isPorterCore i.id || own) || !held then ignored d i (regAddr (pmcPage m) 0x044)
  else setMon d m { now with bind := v &&& 0x800000FF }

/-- The ring of a function's dumps: E records (17 R461). -/
def dumpRing (c : Word) : Nat := 32 * 2 ^ min (bits c 16 4) 8

/-- n of PMC_DCFG, held to 10 to 20. -/
def dumpPeriod (c : Word) : Nat := 2 ^ min 20 (max 10 (bits c 0 5))

/-- A dump record of a monitor as latched at a boundary (17 R460). -/
def dumpBytes (x : FnSt) (m : Nat) (s : MonSt) (wrap : BitVec 9) (tick : BitVec 48) : List Byte :=
  leBytes 8 x.dseq.toNat ++ leBytes 6 tick.toNat ++ [BitVec.ofNat 8 m, 1] ++ leBytes 8 s.lcyc.toNat
    ++ ((List.range 8).flatMap fun c => leBytes 6 (tabGet s.lcnt c 0).toNat)
    ++ [wrap.setWidth 8, if wrap.getLsbD 8 then 1 else 0] ++ leBytes 2 x.dlost.toNat ++ zeros 4
    ++ ((List.range 8).map fun c => BitVec.ofNat 8 (monClass s c)) ++ zeros 40

/-- A boundary makes the dumps of the tick that begins: every enabled monitor bound to a function with en = 1 whose period has come,
in monitor order, with the values latched at the boundary (17 R459, R462). -/
def dumpsMake (d : Dev) (tick : BitVec 48) : Dev :=
  d.mons.foldl (fun d (v : Nat × MonSt) =>
    let f := bits v.2.eBind 0 8
    let x := getFn d f
    if v.2.eEn && bit v.2.eBind 31 && bit x.dcfg 31 && tick.toNat % dumpPeriod x.dcfg == 0 && x.state == 1 then
      setFn d f { x with dseq := x.dseq + 1, dumps := x.dumps ++ [(x.dseq, dumpBytes x v.1 v.2 v.2.wrap tick)] }
    else d) d

/-- One dump through the function's DMA channel; a write that may not be issued is lost (17 R459, 03 R99). -/
def dumpOne (d : Dev) (f : Nat) (r : DWord × List Byte) : Dev :=
  let x := getFn d f
  let at_ := x.dbase + BitVec.ofNat 64 (128 * (r.1.toNat % dumpRing x.dcfg))
  if x.bme && x.state == 1 then
    pmcFn (emit (setFn d f { x with dwritten := x.dwritten + 1 }) (.dump (BitVec.ofNat 8 f) at_ r.2)) 0x27 f 128
  else setFn d f { x with dlost := satInc x.dlost }

/-- Every dump that waits is written. -/
def dumpsIssue (d : Dev) : Dev :=
  d.fns.foldl (fun d (v : Nat × FnSt) =>
    v.2.dumps.foldl (fun d r => dumpOne d v.1 r) (modFn d v.1 fun x => { x with dumps := [] })) d

/-- The latch of a boundary: counters into registers, and the boundary into PMC_LTICK (17 R456). -/
def monLatch (tick : BitVec 48) (m : MonSt) : MonSt := { m with ltick := tick.setWidth 32, lcyc := m.cyc, lcnt := m.cnt }

/-- What was written to a monitor takes effect, and PMC_CTL.clr zeroes its counters (17 R456). -/
def monEffect (m : MonSt) : MonSt :=
  let m := { m with eEn := m.en, eBind := m.bind, eFilt := m.filt, ePfirst := m.pfirst, ePlast := m.plast, eFsel := m.fsel,
                    eEv0 := m.ev0, eEv1 := m.ev1 }
  if m.clr then { m with clr := false, cyc := 0, cnt := [] } else m

/-! ### The commands -/

/-- EVR_FLUSH (17 R449). -/
def execEvrFlush (ini : Ini) (s : State) : Host.Outcome State Fault Refusal :=
  let _ := ini
  act s evrFlush

/-- EVR_FLUSH_DONE (17 R449). -/
def execEvrFlushDone (s : State) : Host.Outcome State Fault Refusal := act s flushDone

/-- RATE_WINDOW_END (17 R452). -/
def execRateWindowEnd (entry : BitVec 7) (s : State) : Host.Outcome State Fault Refusal := act s fun d => rateClose d entry.toNat

/-- EVR_SNAPCMD_FETCH (17 R453). -/
def execEvrSnapcmdFetch (ini : Ini) (window : BitVec 2) (s : State) : Host.Outcome State Fault Refusal :=
  act s fun d => snapFetch d ini window

/-- SNAP_FETCH_DONE (17 R453, R454). -/
def execSnapFetchDone (window : BitVec 2) (readable : Bool) (s : State) : Host.Outcome State Fault Refusal :=
  act s fun d => snapDone d window readable

/-- PMC_CLR (17 R456): the counters are zeroed at the next boundary; the write leaves en as it stands. -/
def execPmcClr (ini : Ini) (monitor : BitVec 5) (s : State) : Host.Outcome State Fault Refusal :=
  act s fun d =>
    let m := monitor.toNat
    if monDenied d ini m then keeperDenied d ini (regAddr (pmcPage m) 0x040)
    else unlessLocked d ini (pmcPage m) 0x040 fun d => monCtl d m (getMon d m).en true

/-- PMC_DUMP (17 R459): the dumps of the tick, after the completion records. -/
def execPmcDump (s : State) : Host.Outcome State Fault Refusal := act s dumpsIssue

/-- PMC_BIND_WRITE (17 R458). -/
def execPmcBindWrite (ini : Ini) (monitor : BitVec 5) (v : Word) (s : State) : Host.Outcome State Fault Refusal :=
  act s fun d =>
    let m := monitor.toNat
    if monDenied d ini m then keeperDenied d ini (regAddr (pmcPage m) 0x044)
    else unlessLocked d ini (pmcPage m) 0x044 fun d => monBind d ini m v

end Sys2Proof.Machine
end

