-- ==== Sys2Proof/Machine/RegRead.lean ====
section
/-! DEFINITION. What every register reads (18 R463-R479 and the register tables of each chapter). A page is an internal page number,
an offset is a multiple of 4 within it; an offset without a register reads 0 (00 R12, 18 R470). -/

namespace Sys2Proof.Machine

/-! ### Pages (10 R293, 18 R467, R471) -/

/-- A keeper page of the register and keeper-only regions (10 R293, 18 R475). -/
def keeperPage (d : Dev) (p : Nat) : Bool :=
  match pageKind p with
  | .pwr i => keeperDomains.contains i
  | .clk i => [4, 8, 9, 12, 13, 14, 15, 17].contains i
  | .i3c => d.acl.claimed
  | _ => decide (0x18000 ≤ p) && decide (p < 0x19000)

/-- Block type and instance of PG_ID (18 R471). -/
def pageId (p : Nat) : Nat × Nat :=
  match pageKind p with
  | .func f => (0x0201, f) | .que f => (0x0202, f) | .dump f => (0x0802, 0x100 + f)
  | .unit u =>
    if isShelf u then (match unitWing u with | some .pk => (0x0101, u) | some .sym => (0x0102, u) | _ => (0x0103, u)) else (0x0001, u)
  | .info => (0x0C01, 4) | .route i => (0x0C01, i) | .mbox => (0x0C01, 5) | .i3c => (0x0C01, 6)
  | .acl => (0x0401, 0) | .pot => (0x0402, 0) | .rng => (0x0501, 0) | .lcs => (0x0702, 0) | .evr => (0x0801, 0)
  | .svc => (0x0B01, 0) | .twn => (0x0A01, 0) | .pmc m => (0x0802, m) | .pwr i => (0x0301, i) | .clk i => (0x0302, i)
  | .rst => (0x0303, 0) | .key => (0x0601, 0) | .crd i => (0x0901, i) | .tmp => (0x0701, 0)
  | .hatch _ => (0, 0) | .msixTab _ => (0, 0) | .pba _ => (0, 0) | .none => (0, 0)

/-- Pages without the common header (18 R467). -/
def headless (p : Nat) : Bool :=
  match pageKind p with
  | .hatch _ => true | .msixTab _ => true | .pba _ => true | .none => true
  | _ => false

/-! ### Units (01 R20, R21, 05 R165, 06 R196, 07 R218) -/

/-- Children of a unit. -/
def unitChildren (u : Nat) : List Nat :=
  if u = 0 then [wingUnit .pk, wingUnit .sym, wingUnit .hsh]
  else if isShelf u then []
  else
    match rackIndex u with
    | some _ => shelvesBelow u
    | none => match unitWing u with | some w => wingRackUnits w | none => []

/-- Operation classes of a shelf (05 R137, 06 R168, 07 R199). -/
def wingClasses : Wing → Nat
  | .pk => 0x7F | .sym => 0x1FF | .hsh => 0x7F

/-- PG_CAP of a unit page: a rack shows the classes of its active children; the house rack is mixed. -/
def unitCap (d : Dev) (u : Nat) : Word :=
  let live (w : Wing) : Nat := if isShelf u || ((wingShelves w).any fun s => (shelvesBelow u).contains s && (getUnit d s).state == 0) then wingClasses w else 0
  match unitWing u with
  | some .pk => put 28 1 ||| put 0 (live .pk)
  | some .sym => put 28 2 ||| put 0 (live .sym)
  | some .hsh => put 28 3 ||| put 0 (live .hsh)
  | none => put 0 (live .pk) ||| put 0 (live .sym) ||| put 0 (live .hsh)

/-- Slot units of the shelves below a unit that pass a test. -/
def slotUnits (u : Nat) (p : Nat → Bool) : Nat :=
  (((shelvesBelow u).filter p).map fun s => match unitWing s with | some w => shelfUnits w | none => 0).sum

/-- The saturating sum of a counter over the shelves below a unit. -/
def sumBelow (d : Dev) (u w : Nat) (c : UnitSt → Nat) : Nat :=
  min (2 ^ w - 1) (((shelvesBelow u).map fun s => c (getUnit d s)).sum)

/-- Low and high words of a number. -/
def lowOf (n : Nat) : Word := BitVec.ofNat 32 n
def highOf (n : Nat) : Word := BitVec.ofNat 32 (n / 2 ^ 32)

/-- The registers of R165, R196 and R218 of a unit page. -/
def wingReg (d : Dev) (u off : Nat) : Word :=
  let s (w : Nat) (c : UnitSt → Nat) : Nat := sumBelow d u w c
  let ops := s 48 (·.ops.toNat)
  let win := put 16 (s 16 (·.winJobs.toNat)) ||| put 0 (s 16 (·.winUsed.toNat))
  match unitWing u with
  | none => 0
  | some .pk =>
    if off = 0x080 then lowOf ops else if off = 0x084 then highOf ops
    else if off = 0x088 then put 16 (s 16 (·.inval.toNat)) ||| put 0 (s 16 (·.sigbad.toNat))
    else if off = 0x08C then put 0 (s 16 (·.abmiss.toNat))
    else if off = 0x090 then flag 31 ((shelvesBelow u).any fun x => (getUnit d x).strike.isSome) ||| put 0 (s 16 (·.xfails.toNat))
    else if off = 0x094 then (if isShelf u then (getUnit d u).xtick else 0)
    else 0
  | some .sym =>
    let top := u == wingUnit .sym
    if off = 0x080 then lowOf ops else if off = 0x084 then highOf ops
    else if off = 0x088 then put 24 (s 8 (·.keyx.toNat)) ||| put 16 (s 8 (·.ghash.toNat)) ||| put 0 (s 16 (·.inv.toNat))
    else if off = 0x08C then win
    else if off = 0x090 && top then d.keys.njRes
    else if off = 0x094 && top then put 16 d.keys.njExhausted.toNat ||| put 0 d.keys.njWaits.toNat
    else 0
  | some .hsh =>
    let top := u == wingUnit .hsh
    if off = 0x080 then lowOf ops else if off = 0x084 then highOf ops
    else if off = 0x088 then lowOf (s 32 (·.deriv.toNat))
    else if off = 0x08C then put 16 (s 16 (·.crc.toNat)) ||| put 0 (s 16 (·.abmiss.toNat))
    else if off = 0x090 then win
    else if off = 0x094 && top then d.wings.padHit
    else if off = 0x098 && top then put 16 d.wings.padNoStore.toNat ||| put 0 d.wings.padFills.toNat
    else 0

/-- Stream contexts that a unit holds: those of the racks of the symmetric and hash wings (01 R45). -/
def ctxHeld (u : Nat) : Nat :=
  if isShelf u then 0 else match rackIndex u with | some (.sym, _) => 512 | some (.hsh, _) => 256 | _ => 0

/-- A wing rack's RACK_TTSTAT; the other units hold no tables. -/
def ttStat (d : Dev) (u : Nat) : Word :=
  match unitWing u with
  | some w =>
    if u = wingUnit w then
      let t := getWing d w
      put 16 (bits t.bundle 0 16) ||| put 8 (t.rows.length - 1) ||| put 0 (d.tick.toNat % t.rows.length)
    else 0
  | none => 0

def unitReg (d : Dev) (u off : Nat) : Word :=
  let x := getUnit d u
  if off = 0x040 then
    put 16 (slotUnits u fun s => (getUnit d s).state == 0 && !(getUnit d s).fresh) ||| put 0 (slotUnits u fun _ => true)
  else if off = 0x044 then lowOf x.epoch.toNat else if off = 0x048 then highOf x.epoch.toNat
  else if off = 0x04C then (if isShelf u then 0 else put 0 (tieOf d u).toNat)
  else if off = 0x050 then ttStat d u
  else if off = 0x054 then lowOf (((shelvesBelow u).map fun s => (getUnit d s).used.toNat).sum)
  else if off = 0x058 then
    lowOf ((((d.wings.planCur.filter fun p => p.kind != .empty && (shelvesBelow u).contains p.unit.toNat).map (·.job)).eraseDups).length)
  else if off = 0x05C then put 16 (ctxUsed d u) ||| put 0 (ctxHeld u)
  else if off = 0x060 then put 0 (128 + u)
  else if off = 0x064 then guardVal d (regAddr (unitPage u) 0x064) &&& 3
  else wingReg d u off

/-! ### Functions, queues, vectors (02 R59, R66, 03 R92, 17 R461, 18 R473) -/

def funcReg (d : Dev) (f off : Nat) : Word :=
  let x := getFn d f
  if off = 0x040 then guardVal d (regAddr (funcPage f) 0x040) &&& 0x803F1F00
  else if off = 0x044 then guardVal d (regAddr (funcPage f) 0x044) &&& 0x1FF
  else if off = 0x04C then flag 31 x.busy ||| put 0 x.result.toNat
  else if off = 0x050 then put 0 x.gen.toNat
  else if off = 0x054 then put 0 x.bindShow.toNat
  else if off = 0x058 then put 0 ((d.jobs.filter fun j => j.e.fn.toNat == f && jobCurrent d j).length % 65536)
  else if off = 0x05C then put 8 x.haltCode.toNat ||| put 0 x.haltQ.toNat
  else if 0x080 ≤ off && off ≤ 0x0FC then put 0 (tabGet x.coal ((off - 0x080) / 4) 0).toNat
  else 0

/-- QUE_STAT (03 R92). -/
def queueStat (d : Dev) (f q : Nat) : Word :=
  let x := getQ d f q
  flag 31 (x.en || x.disabling) ||| flag 30 (x.idxOut || x.reread) ||| flag 29 x.cqwait ||| flag 28 x.winwait
    ||| put 0 (queueJobs d f q).length

/-- A register of a queue's window; windows at or above the function's queue pairs read 0 (03 R90). -/
def queReg (d : Dev) (f q off : Nat) : Word :=
  let x := getQ d f q
  if (getFn d f).qpairs ≤ q then 0
  else if off = 0x040 then loWord x.sqbase else if off = 0x044 then hiWord x.sqbase
  else if off = 0x048 then loWord x.cqbase else if off = 0x04C then hiWord x.cqbase
  else if off = 0x050 then loWord x.idxbase else if off = 0x054 then hiWord x.idxbase
  else if off = 0x058 then
    flag 31 x.en ||| put 16 x.vector.toNat ||| put 12 x.win.toNat ||| put 4 x.cqsz.toNat ||| put 0 x.sqsz.toNat
  else if off = 0x05C then queueStat d f q
  else if off = 0x060 then x.sqCons else if off = 0x064 then x.cqProd
  else if off = 0x068 then x.sqProd else if off = 0x06C then x.cqCons
  else 0

/-- MSI-X table: entries at or above the function's vectors read 0 with the Mask bit set (02 R66). -/
def msixReg (d : Dev) (f off : Nat) : Word :=
  let v := off / 16
  let e := getVec d f v
  let live := decide (v < (getFn d f).vectors)
  if 32 ≤ v then 0
  else if off % 16 = 0 then (if live then loWord e.addr else 0)
  else if off % 16 = 4 then (if live then hiWord e.addr else 0)
  else if off % 16 = 8 then (if live then e.data else 0)
  else flag 0 (!live || e.mask)

/-- Pending-bit array. -/
def pbaReg (d : Dev) (f off : Nat) : Word :=
  if off = 0 then (List.range 32).foldl (fun (w : Word) v => w ||| flag v (getVec d f v).pend) 0 else 0

def dumpReg (d : Dev) (f off : Nat) : Word :=
  let x := getFn d f
  if off = 0x040 then loWord x.dbase else if off = 0x044 then hiWord x.dbase
  else if off = 0x048 then x.dcfg
  else if off = 0x04C then put 16 x.dlost.toNat ||| put 0 x.dwritten.toNat
  else 0

/-! ### Management (02 R70, 18 R476-R478) -/

/-- MGT_PART: the part and the grade; step A0. -/
def partWord (d : Dev) : Word := put 16 (if d.gj7716 then 0x7716 else 0x7720) ||| put 12 (if d.grade then 1 else 0)

def infoReg (d : Dev) (off : Nat) : Word :=
  if off = 0x040 then partWord d
  else if off = 0x044 then lowOf d.tick.toNat else if off = 0x048 then highOf d.tick.toNat
  else if off = 0x04C then put 0 d.cyc.toNat
  else 0

/-- MGT_EVROUTE of the line at an offset of route page i; none outside the 256 routes. -/
def routeLine (i off : Nat) : Option Nat := if 0x040 ≤ off && off < 0x440 then some (256 * i + (off - 0x040) / 4) else none

def routeReg (d : Dev) (i off : Nat) : Word :=
  match routeLine i off with
  | some l =>
    let r := tabGet d.mgt.routes l (routeReset l)
    put 30 r.kind.toNat ||| flag 29 (keeperReserved l) ||| put 8 r.func.toNat ||| put 0 r.vector.toNat
  | none => 0

/-- The mailbox that an offset of MGT page 5 belongs to. -/
def mboxOf (off : Nat) : Option Bool :=
  if 0x040 ≤ off && off < 0x054 then some false else if 0x060 ≤ off && off < 0x074 then some true
  else if 0x100 ≤ off && off < 0x300 then some false else if 0x300 ≤ off && off < 0x500 then some true
  else none

/-- A PF reaches for the other PF's mailbox (18 R477). -/
def mboxForeign (i : Ini) (off : Nat) : Bool :=
  match mboxOf off with
  | some k => isFnId i.id && i.id.toNat != (if k then 128 else 0)
  | none => false

def mboxReg (d : Dev) (i : Ini) (off : Nat) : Word :=
  if mboxForeign i off then 0
  else
    match mboxOf off with
    | none => 0
    | some k =>
      let m := getMbox d k
      let o := off - (if k then 0x20 else 0)
      let b := off - (if k then 0x300 else 0x100)
      if 0x100 ≤ off then (if b < 0x100 then tabGet m.inb (b / 4) 0 else tabGet m.outb ((b - 0x100) / 4) 0)
      else if o = 0x044 then
        flag 31 m.inbusy ||| flag 30 m.outvalid ||| flag 29 (d.acl.porter != 2) ||| put 16 (if m.outvalid then m.outlen.toNat else 0) ||| put 0 (if m.inbusy then m.sentLen.toNat else 0)
      else if o = 0x048 then put 0 m.inlen.toNat
      else if o = 0x050 then put 0 m.outlen.toNat
      else 0

/-- Four bytes of a byte table as a register. -/
def tabWord (t : Tab Byte) (k : Nat) : Word := BitVec.ofNat 32 (leNat ((List.range 4).map fun i => tabGet t (4 * k + i) 0))

def i3cReg (d : Dev) (off : Nat) : Word :=
  let x := d.mgt.i3c
  if off = 0x040 then x.cfg
  else if off = 0x044 then flag 31 x.assigned ||| flag 30 x.busy ||| put 16 x.dyn.toNat
  else if 0x100 ≤ off && off < 0x140 then tabWord x.post ((off - 0x100) / 4)
  else if 0x140 ≤ off && off < 0x180 then tabWord x.inbox ((off - 0x140) / 4)
  else 0

/-! ### Access control (10 R314, R315) -/

def aclGet (t : Tab AclEnt) (k : Nat) : AclEnt := tabGet t k ⟨0, 0, 0, 0⟩
def aclWord (e : AclEnt) (k : Nat) : Word := match k with | 0 => e.w0 | 1 => e.w1 | 2 => e.w2 | _ => e.w3
def aclDiffers (a : Acl) (keeper : Bool) : Bool :=
  ((a.cur ++ a.next).map (·.1)).any fun k => decide (768 ≤ k) == keeper && aclGet a.cur k != aclGet a.next k

/-- The entry that an index register selects; its bit 31 selects the current table. -/
def aclSel (a : Acl) (idx : Word) : AclEnt := aclGet (if bit idx 31 then a.cur else a.next) (bits idx 0 10)

def aclReg (d : Dev) (off : Nat) : Word :=
  let a := d.acl
  if off = 0x040 then guardVal d (regAddr aclPage 0x040) &&& 1
  else if off = 0x044 then flag 31 a.drained ||| flag 30 (aclDiffers a true) ||| flag 29 (aclDiffers a false)
  else if off = 0x04C then a.kidx
  else if 0x050 ≤ off && off < 0x060 then aclWord (aclSel a a.kidx) ((off - 0x050) / 4)
  else if off = 0x060 then a.pidx
  else if 0x064 ≤ off && off < 0x074 then aclWord (aclSel a a.pidx) ((off - 0x064) / 4)
  else if off = 0x074 then put 0 a.vhead.toNat
  else if off = 0x078 then put 0 a.vtail.toNat
  else if off = 0x07C then flag 31 a.fvalid ||| put 8 a.lost.toNat ||| put 0 a.missed.toNat
  else if 0x080 ≤ off && off < 0x090 then BitVec.ofNat 32 (a.vfirst.toNat >>> (32 * ((off - 0x080) / 4)))
  else if off = 0x094 then put 29 a.keeper.toNat ||| put 26 a.porter.toNat ||| put 16 a.krestarts.toNat ||| put 8 a.prestarts.toNat
  else if off = 0x09C then guardVal d (regAddr aclPage 0x09C) &&& 0xFFFF
  else if off = 0x0A0 then put 0 a.pwdog.toNat
  else if off = 0x0AC then flag 0 a.pinclaim
  else if 0x100 ≤ off && off < 0x300 then
    BitVec.ofNat 32 ((tabGet a.vlog ((off - 0x100) / 16) 0).toNat >>> (32 * ((off - 0x100) / 4 % 4)))
  else 0

def potDiffers (p : Pot) (ks : List Nat) : Bool := ks.any fun k => potGet p.cur k != potGet p.next k
def potBadPages (p : Pot) : Nat := (p.cur.filter fun e => potBad e.2).length

def potReg (d : Dev) (off : Nat) : Word :=
  let p := d.pot
  if off = 0x040 then
    flag 31 p.drained ||| flag 30 (!p.wipes.isEmpty) ||| flag 29 (potDiffers p p.kTouch) ||| flag 28 (potDiffers p p.pTouch)
      ||| put 0 ((p.wipes.map (·.1)).eraseDups.length % 8192)
  else if off = 0x048 then put 0 p.kfirst.toNat else if off = 0x04C then put 0 p.kcount.toNat else if off = 0x050 then p.kval
  else if off = 0x058 then put 0 p.pfirst.toNat else if off = 0x05C then put 0 p.pcount.toNat else if off = 0x060 then p.pval
  else if off = 0x068 then p.rdidx
  else if off = 0x06C then potGet (if bit p.rdidx 31 then p.cur else p.next) (bits p.rdidx 0 13)
  else if off = 0x070 then put 0 (potBadPages p)
  else 0

/-! ### Random numbers, keys (09 R287, 08 R262) -/

/-- The sources in a state, as a mask. -/
def sourceMask (d : Dev) (st : BitVec 3) : Nat :=
  (List.range 6).foldl (fun m i => if (getSource d i).sstate == st then m + 2 ^ i else m) 0

def rngReg (d : Dev) (f : Fuse) (off : Nat) : Word :=
  let r := d.rng
  if off = 0x040 then
    put 24 r.state.toNat ||| (if r.state == 0 then 0 else put 20 (popCount r.sha) ||| put 16 (popCount r.pairs)
      ||| put 8 (sourceMask d 2) ||| put 0 d.nv.deadSrc.toNat)
  else if 0x044 ≤ off && off ≤ 0x058 then
    let s := getSource d ((off - 0x044) / 4)
    put 29 s.sstate.toNat ||| put 16 s.alarms.toNat ||| put 0 s.lastAlarm.toNat
  else if off = 0x05C then lowOf r.delivered.toNat
  else if off = 0x060 then put 16 r.mismatch.toNat ||| highOf r.delivered.toNat
  else if off = 0x064 then put 16 r.unavailable.toNat ||| put 0 ((d.jobs.filter waitsRng).length % 65536)
  else if off = 0x068 then put 0 r.instsel.toNat
  else if off = 0x06C then
    if 257 < r.instsel.toNat then 0
    else
      let x := getInst d r.instsel.toNat
      put 29 x.istate.toNat ||| flag 28 x.spare.isSome ||| put 25 x.src.toNat ||| put 0 x.count
  else if off = 0x070 then flag 31 r.rawEn ||| flag 30 (r.rawEn && decide (32 ≤ r.rawBuf.length)) ||| put 0 r.rawSrc.toNat
  else if off = 0x074 then (rawRead d f []).1
  else 0

/-- The lowest seal version in the cellar; the running version of an empty cellar. -/
def lowestSeal (d : Dev) : Nat :=
  match d.nv.cellar.map (·.sealVer.toNat) with
  | [] => d.keys.svn.toNat
  | v :: r => r.foldl min v

/-- The seal unit knows the cellar once a start of the keeper world has scanned it (R242, 10 R310). -/
def cellarKnown (d : Dev) : Bool := d.acl.keeper == 2 || d.acl.kReadyDue

/-- The KEY page. What the scan of the cellar finds reads 0 until a start of the keeper world has made it (log entry 68). -/
def keyReg (d : Dev) (off : Nat) : Word :=
  if off = 0x040 then
    flag 31 d.bat.zeroized ||| flag 30 d.keys.sweeping ||| flag 29 d.keys.reseal ||| flag 28 (!d.keys.purge.isEmpty)
  else if off = 0x050 then d.keys.sweeps
  else if !cellarKnown d then 0
  else if off = 0x044 then put 16 (placesFree d.nv) ||| put 0 d.nv.cellar.length
  else if off = 0x048 then put 0 (anchorTable d).length
  else if off = 0x04C then put 16 d.keys.svn.toNat ||| put 0 (lowestSeal d)
  else if off = 0x054 then loWord d.nv.planSeq else if off = 0x058 then hiWord d.nv.planSeq
  else 0

/-! ### Life cycle, tamper, cards (12 R350, 13 R374, 11 R334) -/

def lcsReg (d : Dev) (f : Fuse) (off : Nat) : Word :=
  let l := d.lcs
  if off = 0x040 then
    flag 31 (l.trans.isSome || l.erasing || l.due) ||| flag 30 (entryDone f) ||| flag 29 l.completed ||| flag 28 (wordSet f.mDrs)
      ||| flag 27 (f.tProd != 0) ||| flag 26 (f.tEol != 0) ||| flag 25 (f.tDbg != 0) ||| flag 24 l.gdfail ||| put 0 (lcState f).toNat
  else if off = 0x044 then put 8 l.debugFails.toNat ||| put 0 l.tokenFails.toNat
  else if off = 0x048 then flag 31 l.active ||| put 0 l.scope.toNat
  else if off = 0x04C then lowOf l.dbgEnd.toNat
  else if 0x050 ≤ off && off < 0x060 then BitVec.ofNat 32 (l.nonce.toNat >>> (32 * ((off - 0x050) / 4)))
  else if off = 0x060 then put 0 l.fuseIdx.toNat
  else if off = 0x064 then l.fuseData
  else if off = 0x06C then fuseRead f l.fuseIdx.toNat
  else 0

def tmpReg (d : Dev) (f : Fuse) (off : Nat) : Word :=
  let b := d.bat
  if off = 0x040 then
    flag 31 b.locked ||| flag 30 b.zeroized ||| flag 29 b.full ||| flag 28 b.lowa ||| flag 27 b.lowb ||| put 16 b.batovf.toNat
      ||| put 0 b.pcount.toNat
  else if off = 0x044 then put 0 b.alarm.toNat
  else if off = 0x048 then put 0 d.tmp.cond.toNat
  else if off = 0x04C then (List.range 12).foldl (fun (w : Word) n => w ||| flag n (fusedOff f n)) 0
  else if off = 0x050 then put 16 (counterTop f - tamperCount f) ||| put 0 (tamperCount f)
  else if off = 0x054 then b.vbat
  else if off = 0x05C then d.tmp.logicAddr
  else if 0x060 ≤ off && off ≤ 0x0B8 then put 0 (tamperResp d ((off - 0x060) / 4)).toNat
  else if off = 0x0C0 then guardVal d (regAddr tmpPage 0x0C0) &&& 0xFF
  else 0

def crdReg (d : Dev) (i off : Nat) : Word :=
  let x := getSlot d (BitVec.ofNat 2 i)
  if off = 0x040 then put 0 x.clsSel.toNat
  else if off = 0x044 then
    flag 31 x.present ||| put 28 x.state.toNat ||| put 26 x.cls.toNat ||| flag 25 x.busy ||| flag 24 x.clkstop ||| put 0 x.err.toNat
  else if off = 0x048 then put 21 x.fi.toNat ||| put 16 x.di.toNat ||| put 8 x.ifsc.toNat ||| put 4 x.bwi.toNat ||| put 0 x.cwi.toNat
  else if off = 0x04C then put 8 x.stopInd.toNat ||| put 0 x.tc1.toNat
  else if off = 0x050 then put 0 x.bufpg.toNat
  else if off = 0x058 then flag 31 x.rspDone ||| flag 30 x.rspErr ||| put 0 x.rspLen.toNat
  else if off = 0x05C then put 0 x.atrLen.toNat
  else if off = 0x060 then put 0 x.idleMs.toNat
  else 0

/-! ### Power, clocks, reset (14 R377, R401-R403) -/

/-- PG_VOTE of a domain; AON and BAT read 0. -/
def voteReg (d : Dev) (n : Nat) : Word :=
  let x := getDom d n
  if n < 2 then 0 else flag 4 x.hw ||| flag 3 x.boot ||| flag 2 x.host ||| flag 1 x.porter ||| flag 0 x.keeper

def pwrReg (d : Dev) (n off : Nat) : Word :=
  if n < 20 then
    let x := getDom d n
    if off = 0x040 then put 29 x.state.toNat ||| flag 28 (decide (n < 2) || heldDomains.contains n)
    else if off = 0x044 then put 0 x.idle.toNat
    else if off = 0x048 then put 0 x.ups.toNat
    else 0
  else
    let p := d.pwr
    if off = 0x040 then put 29 p.sysstate.toNat ||| put 0 p.refuse.toNat
    else if off = 0x048 then put 0 p.pvote.toNat
    else if off = 0x04C then lowOf d.bat.rtc.toNat else if off = 0x050 then highOf d.bat.rtc.toNat
    else if off = 0x054 then lowOf p.alm.toNat
    else if off = 0x058 then flag 31 p.almEn ||| highOf p.alm.toNat
    else if off = 0x05C then flag 31 p.pfLevel ||| put 28 p.pfState.toNat ||| put 0 p.pfCount.toNat
    else 0

/-- Power domains whose clock each clock domain is: it runs while one of them is ON (14 R375, R383). -/
def clkDomains (c : Nat) : List Nat :=
  match c with
  | 1 => [5, 6] | 2 => [7] | 3 => [8] | 4 => [2] | 5 => [3] | 6 => [12] | 7 => [13] | 8 => [14] | 9 => [11] | 10 => [10]
  | 14 => [16] | 15 => [15] | 17 => [18] | _ => [0]

/-- Source and frequency in kHz of a clock domain. Where the spec gives no number or no code, both are free (log entry 27). -/
def clkSource (d : Dev) (c : Nat) : Word :=
  let cclk := put 28 d.pwr.src.toNat ||| put 0 (if d.pwr.src == 0 then 400000 else oppKhz d.pwr.point)
  if c ≤ 5 || c = 10 then cclk
  else if c = 8 then put 28 4 ||| put 0 390625
  else if c = 9 then (if d.pwr.sysPll then put 28 3 ||| put 0 250000 else put 0 200000)
  else if c = 16 then (if d.pwr.sysPll then put 28 3 ||| put 0 200000 else put 0 200000)
  else if c = 11 || c = 15 then put 28 5 ||| put 0 25000
  else Config.clkOpen c &&& 0x7FFFFFFF

def clkReg (d : Dev) (c off : Nat) : Word :=
  let p := d.pwr
  let g (m : Word) : Word := guardVal d (regAddr (clkPage 0) off) &&& m
  if off = 0x040 then flag 31 ((clkDomains c).any fun n => domOn d n) ||| clkSource d c
  else if c != 0 then 0
  else if off = 0x044 then g 1
  else if off = 0x048 then put 24 p.opHost.toNat ||| put 16 p.opPorter.toNat ||| put 8 p.opKeeper.toNat
  else if off = 0x04C then g 3
  else if off = 0x050 then flag 31 p.busy ||| flag 30 p.vfail ||| put 8 p.target.toNat ||| put 0 p.point.toNat
  else if 0x054 ≤ off && off ≤ 0x060 then g 0x3FF
  else if off = 0x064 then put 0 p.settle.toNat
  else if off = 0x068 then g 0xF
  else 0

def rstReg (d : Dev) (off : Nat) : Word :=
  if off = 0x040 then put 0 d.pwr.cause.toNat
  else if off = 0x048 then d.nv.pcycles
  else if off = 0x04C then put 16 (getPort d true).resets.toNat ||| put 0 (getPort d false).resets.toNat
  else 0

/-! ### Service, twin (15 R422, 16 R444) -/

/-- SVC_INVk: total, active, spares and dead units of a kind (15 R404). -/
def svcInv (d : Dev) (k : Nat) : Word :=
  let inv (t a s x : Nat) : Word := put 24 t ||| put 16 a ||| put 8 s ||| put 0 x
  let wing (w : Wing) : Word :=
    let st := (wingShelves w).map fun u => (getUnit d u).state
    inv st.length (st.filter (· == 0)).length (st.filter (· == 1)).length (st.filter (· == 6)).length
  let dead (lo w : Nat) : Nat := ((List.range w).filter fun i => d.nv.deadCores.getLsbD (lo + i)).length
  match k with
  | 0 => wing .pk | 1 => wing .sym | 2 => wing .hsh
  | 3 => let a := popCount d.svc.kCores; inv 6 a (6 - a - dead 0 6) (dead 0 6)
  | 4 => let a := popCount d.svc.pCores; inv 10 a (10 - a - dead 6 10) (dead 6 10)
  | 5 => inv 6 (((List.range 6).filter fun i => (getSource d i).sstate == 2).length) 0 (popCount d.nv.deadSrc)
  | 6 => inv 2 (popCount d.rng.sha) 0 (popCount d.nv.deadSha)
  | _ => inv 4 (popCount d.rng.pairs) 0 (popCount d.nv.deadPair)

def svcReg (d : Dev) (off : Nat) : Word :=
  let s := d.svc
  if 0x040 ≤ off && off ≤ 0x05C then svcInv d ((off - 0x040) / 4)
  else if off = 0x060 then put 30 (svcLevel d) ||| put 0 d.nv.causes.toNat
  else if off = 0x068 then svcCtl d &&& 0x3FFFF
  else if off = 0x06C then svcThr d &&& 0xFFFFFF
  else if off = 0x070 then d.nv.hours
  else if off = 0x074 then put 16 d.nv.tpeak.toNat ||| put 0 d.nv.tavg.toNat
  else if off = 0x078 then put 8 s.marginIdx.toNat ||| put 0 s.margin.toNat
  else if off = 0x07C then put 16 s.corrected.toNat ||| put 0 s.uncorr.toNat
  else if off = 0x080 then d.nv.mramW
  else if off = 0x084 then put 0 d.nv.mremap.toNat
  else if off = 0x088 then put 16 s.rotDone.toNat ||| put 0 s.nospare.toNat
  else 0

def twnReg (d : Dev) (off : Nat) : Word :=
  let t := d.twn
  let n := d.nv.twin
  if off = 0x040 then twnStatWord d
  else if off = 0x044 then put 29 t.width.toNat ||| put 16 t.retrains.toNat ||| put 0 t.resent.toNat
  else if off = 0x04C then put 0 t.grRes.toNat
  else if off = 0x050 then loWord n.grSeq else if off = 0x054 then hiWord n.grSeq
  else if off = 0x058 then loWord n.mSeq else if off = 0x05C then hiWord n.mSeq
  else if off = 0x060 then put 16 n.outbox.length ||| put 0 n.doubt.length
  else if off = 0x064 then
    put 30 t.peerLevel.toNat ||| flag 29 t.peerLocked ||| flag 28 t.peerZero ||| put 26 t.peerLc.toNat ||| flag 25 t.peerParked
      ||| flag 24 t.peerReleased
  else if off = 0x068 || off = 0x06C then guardVal d (regAddr twnPage off) &&& 0xFFFF
  else if off = 0x070 then put 0 t.syncIvl.toNat
  else if 0x400 ≤ off && off < 0x4E0 then tabGet t.grantBuf ((off - 0x400) / 4) 0
  else 0

/-! ### Recorder, monitors (17 R454, R461) -/

/-- The snapshot window that an offset lies in. -/
def winOf (off : Nat) : Option (BitVec 2 × Nat) :=
  if 0x100 ≤ off && off < 0x300 && (off - 0x100) % 0x80 < 0x50 then some (BitVec.ofNat 2 ((off - 0x100) / 0x80), (off - 0x100) % 0x80)
  else none

def evrReg (d : Dev) (i : Ini) (off : Nat) : Word :=
  let e := d.evr
  if off = 0x040 then flag 31 e.flushing ||| flag 30 e.started ||| put 16 (e.buf.length % 1024)
  else if off = 0x044 then loWord d.nv.evNext else if off = 0x048 then hiWord d.nv.evNext
  else if off = 0x04C then loWord (evrOld d) else if off = 0x050 then hiWord (evrOld d)
  else if off = 0x054 then loWord (evrDurable d) else if off = 0x058 then hiWord (evrDurable d)
  else if off = 0x060 then put 0 e.rateIdx.toNat
  else if off = 0x064 then (getRate d e.rateIdx.toNat).reg
  else if off = 0x068 then put 16 e.drops.toNat ||| put 0 e.suppressed.toNat
  else
    match winOf off with
    | some (w, o) =>
      let x := getWin d w
      if !winOwner w i then 0
      else if o = 0 then loWord x.seq else if o = 4 then hiWord x.seq
      else if o = 0x0C then flag 31 x.busy ||| put 0 x.result.toNat
      else if 0x10 ≤ o then lowOf (leAt x.data (o - 0x10) 4)
      else 0
    | none => 0

def pmcReg (d : Dev) (m off : Nat) : Word :=
  let x := getMon d m
  if off = 0x040 then flag 31 x.en
  else if off = 0x044 then x.bind else if off = 0x048 then x.filt
  else if off = 0x04C then x.pfirst else if off = 0x050 then x.plast
  else if off = 0x054 then x.fsel else if off = 0x058 then x.ev0 else if off = 0x05C then x.ev1
  else if off = 0x060 then put 0 x.wrap.toNat
  else if off = 0x064 then x.ltick
  else if off = 0x068 then loWord x.lcyc else if off = 0x06C then hiWord x.lcyc
  else if 0x070 ≤ off && off < 0x0B0 then
    let v := (tabGet x.lcnt ((off - 0x070) / 8) 0).toNat
    if off % 8 = 0 then lowOf v else highOf v
  else 0

/-! ### The whole map -/

/-- PG_OWNER: the world of the page, and the function of its FUNC, QUE and dump pages. -/
def pageOwner (d : Dev) (p : Nat) : Word :=
  flag 31 (keeperPage d p) ||| put 0 (match pageKind p with | .func f => f | .que f => f | .dump f => f | _ => 0xFFFF)

/-- PG_CAP. -/
def pageCap (d : Dev) (p : Nat) : Word :=
  let q (f : Nat) : Word := put 8 (getFn d f).qpairs
  match pageKind p with
  | .unit u => unitCap d u
  | .func f => if (getFn d f).state == 0 then 0 else flag 31 (getFn d f).priv ||| put 16 (getFn d f).vectors ||| q f
  | .que f => if (getFn d f).state == 0 then 0 else q f
  | _ => 0

/-- The common header (18 R467). -/
def headReg (d : Dev) (p off : Nat) : Word :=
  let h := getPage d p
  let m := evtMask p
  if off = 0x000 then put 16 (pageId p).1 ||| put 0 (pageId p).2
  else if off = 0x004 then 0x01000000
  else if off = 0x008 then pageCap d p
  else if off = 0x00C then (match pageKind p with | .unit u => put 0 (unitChild u) | _ => 0)
  else if off = 0x010 then (match pageKind p with | .unit u => put 0 (unitSibling u) | _ => 0)
  else if off = 0x014 then pageOwner d p
  else if off = 0x01C then
    (match pageKind p with | .unit u => put 0 (unitState d u).toNat | .func f => put 0 (getFn d f).state.toNat | _ => 0)
  else if off = 0x020 then h.evt &&& m
  else if off = 0x024 then h.en &&& m
  else if off = 0x02C then (match pageKind p with | .pwr n => if n < 20 then voteReg d n else 0 | _ => 0)
  else if off = 0x030 then flag 0 h.lock
  else 0

/-- The register at an offset from 0x040 to 0x7FC, or anywhere in a page without a header. -/
def bodyReg (d : Dev) (f : Fuse) (i : Ini) (p off : Nat) : Word :=
  match pageKind p with
  | .func k => funcReg d k off
  | .que k => queReg d k (off / 0x100) (off % 0x100)
  | .hatch _ => 0
  | .msixTab k => msixReg d k off
  | .pba k => pbaReg d k off
  | .dump k => dumpReg d k off
  | .unit u => unitReg d u off
  | .info => infoReg d off
  | .route k => routeReg d k off
  | .mbox => mboxReg d i off
  | .i3c => i3cReg d off
  | .acl => aclReg d off
  | .pot => potReg d off
  | .rng => rngReg d f off
  | .lcs => lcsReg d f off
  | .evr => evrReg d i off
  | .svc => svcReg d off
  | .twn => twnReg d off
  | .pmc m => pmcReg d m off
  | .pwr n => pwrReg d n off
  | .clk c => clkReg d c off
  | .rst => rstReg d off
  | .key => keyReg d off
  | .crd k => crdReg d k off
  | .tmp => tmpReg d f off
  | .none => 0

/-- QUE pages carry windows through the whole page. -/
def isQue (p : Nat) : Bool := match pageKind p with | .que _ => true | _ => false

/-- What a 4-byte register reads: a shadow reads its register's committed value (13 R369). -/
def regRead (d : Dev) (f : Fuse) (i : Ini) (p off : Nat) : Word :=
  if headless p || (isQue p && decide (0x40 ≤ off)) then bodyReg d f i p off
  else if off < 0x040 then headReg d p off
  else if off < 0x800 then bodyReg d f i p off
  else if isGuarded (regAddr p (off - 0x800)) then bodyReg d f i p (off - 0x800)
  else 0

/-- Bytes of registers, from an offset of a page (18 R463). -/
def regBytes (d : Dev) (f : Fuse) (i : Ini) (p off len : Nat) : List Byte :=
  let first := off / 4
  let n := (off + len + 3) / 4 - first
  let ws := (List.range n).flatMap fun k => leBytes 4 (regRead d f i p (4 * (first + k))).toNat
  (ws.drop (off % 4)).take len

/-- What a read changes: RNG_RAWDATA takes its samples out of the buffer, and a PF's read of the other PF's mailbox is recorded
(09 R286, 18 R477). -/
def regReadEffect (d : Dev) (f : Fuse) (i : Ini) (p off len : Nat) : Dev :=
  match pageKind p with
  | .rng => if off ≤ 0x074 && 0x074 < off + len then (rawRead d f []).2 else d
  | .mbox =>
    if (List.range ((off + len + 3) / 4 - off / 4)).any fun k => mboxForeign i (4 * (off / 4 + k)) then
      violate d i (regAddr p off) (max 1 len) .read false 0x404
    else d
  | _ => d

end Sys2Proof.Machine
end

