-- ==== Sys2Proof/Machine/Access.lean ====
section
/-! DEFINITION. The access table and the page owner table: commits, applies and page wipes (10 R294-R302, R306). -/

namespace Sys2Proof.Machine

/-! ### Access table commits (10 R299, R302) -/

/-- Make one section of the next table current. -/
def aclSection (a : Acl) (keeper : Bool) : Acl :=
  let here (k : Nat) : Bool := decide (768 ≤ k) == keeper
  let kept := a.cur.filter fun (e : Nat × AclEnt) => !here e.1
  let new := a.next.filter fun (e : Nat × AclEnt) => here e.1
  { a with cur := new.foldr (fun e (t : Tab AclEnt) => tabPut t e.1 e.2) kept }

/-- A commit takes effect in one cycle: transactions that wait were checked under the old rules. -/
def aclCommit (d : Dev) (keeper : Bool) : Dev :=
  let a := aclSection d.acl keeper
  { d with acl := { a with drained := a.stalled.isEmpty, stalled := a.stalled.map fun (x : Stalled) => { x with oldAcl := true } } }

def aclCommitK (d : Dev) (i : Ini) : Dev := if keeperOnly i then aclCommit d true else ignored d i (regAddr aclPage 0x048)
def aclCommitP (d : Dev) (i : Ini) : Dev := if coreOnly i then aclCommit d false else ignored d i (regAddr aclPage 0x048)

/-! ### The page owner table (10 R294-R297, R302) -/

/-- An entry as a table takes it: the bad bit is the page's own, and the reserved bits read zero. -/
def potValue (old v : Word) : Word := (v &&& 0xF3FF0000) ||| (old &&& 0x08000000)

/-- The pages of an apply: none for a count of 0 or a range past page 8,191. -/
def potRange (first count : Nat) : List Nat :=
  if count = 0 || 8192 < first + count then [] else (List.range count).map (first + ·)

/-- The staging pages that the boot loader assigned stay as they are until the next cold reset: no apply changes them. -/
def potFixed (p : Pot) (k : Nat) (v : Word) : Bool := decide (k < 0x400) && potValue (potGet p.next k) v != potGet p.next k

/-- Write a value to every page of a range in the next table. -/
def potWrite (t : Tab Word) (ks : List Nat) (v : Word) : Tab Word :=
  ks.foldl (fun (t : Tab Word) k => tabPut t k (potValue (potGet t k) v)) t

/-- An apply through the keeper window, or through the porter window: from world 0 to world 0 in both tables. -/
def potApply (d : Dev) (i : Ini) (keeper : Bool) : Dev :=
  let p := d.pot
  let a := regAddr potPage (if keeper then 0x054 else 0x064)
  let ks := if keeper then potRange p.kfirst.toNat p.kcount.toNat else potRange p.pfirst.toNat p.pcount.toNat
  let v := if keeper then p.kval else p.pval
  let porterBad (k : Nat) : Bool := potWorld (potGet p.cur k) || potWorld (potGet p.next k) || potWorld v
  if !(if keeper then keeperOnly i else coreOnly i) then ignored d i a
  else if ks.any fun k => potFixed p k v || (!keeper && !keeperOnly i && porterBad k) then ignored d i a
  else
    let p := { p with next := potWrite p.next ks v }
    let add (l : List Nat) : List Nat := l ++ ks.filter fun k => !l.contains k
    { d with pot := if keeper then { p with kTouch := add p.kTouch } else { p with pTouch := add p.pTouch } }

/-- An owner change: another world, kind or init on a page that was not FREE. -/
def potOwnerChange (old new : Word) : Bool :=
  potKind old != 0 && (potWorld old != potWorld new || potKind old != potKind new || bits old 16 10 != bits new 16 10)

/-- Make the applied entries of one window current; pages that change owner await their wipe. -/
def potCommit (d : Dev) (keeper : Bool) : Dev :=
  let p := d.pot
  let ks := if keeper then p.kTouch else p.pTouch
  let changed := ks.filter fun k => potOwnerChange (potGet p.cur k) (potGet p.next k)
  let cur := ks.foldl (fun (t : Tab Word) k => tabPut t k (potGet p.next k)) p.cur
  let d := { d with
    pot := { p with cur := cur, kTouch := if keeper then [] else p.kTouch, pTouch := if keeper then p.pTouch else [],
                    commits := p.commits + 1, drained := d.acl.stalled.isEmpty } }
  wantWipes d changed

def potCommitK (d : Dev) (i : Ini) : Dev := if keeperOnly i then potCommit d true else ignored d i (regAddr potPage 0x044)
def potCommitP (d : Dev) (i : Ini) : Dev := if coreOnly i then potCommit d false else ignored d i (regAddr potPage 0x044)

/-- A page is withdrawn (event 0x0403, cause 9 above 64 pages). -/
def potWithdraw (d : Dev) (k : Nat) : Dev :=
  let mark (t : Tab Word) : Tab Word := tabPut t k (potGet t k ||| 0x08000000)
  let d := { d with pot := { d.pot with cur := mark d.pot.cur, next := mark d.pot.next } }
  let d := evLog d 0x0403 noLine noFn (leBytes 2 k)
  if 64 < potBadPages d.pot then setCause d 9 else d

/-- Poisoned words of a page (15 R414). -/
def pagePoisoned (d : Dev) (k : Nat) : Bool := d.pot.poison.any fun a => a / 4096 == k

/-- The wipe engine is done with a page, for commit `c`: it is zero, or withdrawn for a bad read-back or a poisoned word. -/
def wipePage (d : Dev) (k c : Nat) (ok : Bool) : Dev :=
  let bad := !ok || pagePoisoned d k
  let d := { d with pot := { d.pot with wipes := d.pot.wipes.filter (· != (k, c)), poison := d.pot.poison.filter fun a => a / 4096 != k } }
  if bad then potWithdraw d k else d

/-! ### Violation latch (10 R306) -/

/-- Writing 1 to ACL_VSTAT.fvalid clears the latch. -/
def fvalidClear (d : Dev) (i : Ini) : Dev :=
  if coreOnly i then { d with acl := { d.acl with fvalid := false } } else ignored d i (regAddr aclPage 0x07C)

/-! ### The commands -/

/-- ACL_COMMITK (10 R302). -/
def execAclCommitk (ini : Ini) (s : State) : Host.Outcome State Fault Refusal := act s fun d => aclCommitK d ini

/-- ACL_COMMITP (10 R302). -/
def execAclCommitp (ini : Ini) (s : State) : Host.Outcome State Fault Refusal := act s fun d => aclCommitP d ini

/-- POT_KAPPLY (10 R296, R315). -/
def execPotKapply (ini : Ini) (s : State) : Host.Outcome State Fault Refusal := act s fun d => potApply d ini true

/-- POT_PAPPLY (10 R296, R315). -/
def execPotPapply (ini : Ini) (s : State) : Host.Outcome State Fault Refusal := act s fun d => potApply d ini false

/-- POT_COMMITK (10 R302). -/
def execPotCommitk (ini : Ini) (s : State) : Host.Outcome State Fault Refusal := act s fun d => potCommitK d ini

/-- POT_COMMITP (10 R302). -/
def execPotCommitp (ini : Ini) (s : State) : Host.Outcome State Fault Refusal := act s fun d => potCommitP d ini

/-- FVALID_CLEAR (10 R306). -/
def execFvalidClear (ini : Ini) (s : State) : Host.Outcome State Fault Refusal := act s fun d => fvalidClear d ini

end Sys2Proof.Machine
end

