-- ==== Sys2Proof/Machine/Boot.lean ====
section
/-! DEFINITION. Cold reset and the cold start (14 R396-R399, 13 R366, R371, 12 R345), the start of the two worlds (10 R310, 08 R222,
R242) and of the event recorder (17 R447, R451). -/

namespace Sys2Proof.Machine

/-! ### The event recorder's start (17 R447, R451) -/

/-- A record of the start sequence: late, with the stamps of the moment at which it is numbered. -/
def lateRecord (d : Dev) (r : EvRec) : EvRec :=
  { r with late := true, hours := d.nv.hours, frac := BitVec.ofNat 32 d.nv.frac, pcyc := d.nv.pcycles }

/-- Numbering resumes at the stored high-water value; a GAP record names the numbers below it that hold no durable record. -/
def gapRecord (d : Dev) : Dev :=
  let first := d.nv.evNext.toNat
  let h := d.nv.evHigh.toNat
  if h ≤ first then d
  else
    let d := { d with nv := { d.nv with evNext := d.nv.evHigh } }
    raise (evrCreate d (evStamp d 0x0F02 0xFFFF 0xFFFF false (leBytes 8 first ++ leBytes 8 (h - 1)))) evrPage 2

/-- The battery alarm log is copied in order, then cleared (13 R358). -/
def copyAlarms (d : Dev) : Dev :=
  let d := d.bat.log.foldl (fun d e =>
    evrCreate d (lateRecord d (evStamp d 0x0202 (lineAt tmpPage 0) noFn true
      (leBytes 1 e.source ++ leBytes 1 e.mask.toNat ++ [1, 0] ++ leBytes 6 e.rtc.toNat)))) d
  { d with bat := { d.bat with log := [], batovf := 0 } }

def recorderStart (d : Dev) : Dev :=
  if d.evr.started then d
  else
    let early := d.evr.early
    let d := copyAlarms (gapRecord { d with evr := { d.evr with started := true, early := [] } })
    early.foldl (fun d r => evrCreate d (lateRecord d r)) d

/-! ### What a cold reset finds (13 R366, R371, 12 R345) -/

/-- The BAT domain has lost its state: the canary is set again, BBK goes, the latches and BATLOSS's alarm bit are set, and one
increment is pending. The RTC count starts from a value that the spec does not give. -/
def batLost (d : Dev) : Dev :=
  let w (i : Nat) : Word := Config.freeWord (d.free + i)
  { d with
    bat := { batReset with rtc := (w 1 ++ w 0 : BitVec 64).setWidth 48, locked := true, zeroized := true, full := d.bat.full,
                           alarm := 0x400000, pcount := 1 }
    guards := d.guards.filter fun (g : Nat × Guard) => g.1 / 0x1000 != tmpPage
    free := d.free + 2 }

/-- The tamper-counter step: torn disable words are completed, pending increments are committed. -/
def counterBoot (d : Dev) (f : Fuse) (bad : List Nat) : Dev × Fuse :=
  counterDrain d.bat.pcount.toNat d { f with off := f.off.map burnTorn } bad

/-- Torn state, D and marker words are completed. -/
def burnAll (f : Fuse) : Fuse :=
  { f with wTest := burnTorn f.wTest, wProd := burnTorn f.wProd, wEol := burnTorn f.wEol, dProd := burnTorn f.dProd,
           dEol := burnTorn f.dEol, mDrs := burnTorn f.mDrs }

/-- A transition that a power-up finished or finishes: PG_EVT.moved and event 0x0301. -/
def lcCompleted (d : Dev) (f : Fuse) : Dev :=
  let new := lcState f
  let old := if new == 3 then (if wordSet f.wProd then 2 else 1) else new.toNat - 1
  let d := raise { d with lcs := { d.lcs with completed := true } } lcsPage 0
  evLog d 0x0301 (lineAt lcsPage 0) noFn (leBytes 1 old ++ leBytes 1 new.toNat ++ [1])

/-- The life-cycle step. The entry actions of PRODUCTION are only marked due. -/
def lcBoot (d : Dev) (f : Fuse) : Dev × Fuse :=
  let f' := burnAll f
  let lc := lcState f'
  let dueProd := lc == 2 && !wordSet f'.dProd
  let dueEol := lc == 3 && !wordSet f'.dEol
  let d := { d with lcs := { d.lcs with due := dueProd, dbgKeeper := decide (lc.toNat ≤ 1) } }
  let d := if dueEol || ({ f' with mDrs := f.mDrs } != f && !dueProd) then lcCompleted d f' else d
  (if dueEol then eolActions d else d, f')

/-! ### Images, tables and cores (14 R398, 10 R296, 15 R407, R412) -/

/-- An image's signer and signature kind fit the life-cycle state; `more` is another signer that is accepted. -/
def imageOk (lc : BitVec 2) (i : Image) (more : List Byte) : Bool :=
  if i.testSigned then decide (lc.toNat ≤ 1)
  else decide (1 ≤ lc.toNat) && decide (lc.toNat ≤ 2) && (i.signer == Config.avmievoSigner || (!more.isEmpty && i.signer == more))

/-- The boot loader writes the entries of its boot configuration and commits them; pages 0 to 0x3FF are staging pages. -/
def bootTables (d : Dev) (b : BootIn) : Dev :=
  let put (t : Tab Word) (e : Nat × Nat × Word) : Tab Word := potWrite t (potRange e.1 e.2.1) e.2.2
  let pages := put (b.potEntries.foldl put []) (0, 0x400, 0x20000000)
  let ents := b.aclEntries.foldl (fun (t : Tab AclEnt) (e : Nat × Word × Word × Word × Word) =>
    if e.1 < 1024 then tabPut t e.1 ⟨e.2.1 &&& 0xF80FFFFF, e.2.2.1 &&& 0x0FFFFFFF, e.2.2.2.1 &&& 0x0FFFFFFF, e.2.2.2.2 &&& 7⟩ else t) d.acl.cur
  { d with pot := { d.pot with cur := pages, next := pages }, acl := { d.acl with cur := ents, next := ents } }

/-- The core tests of a cold start (15 R412). -/
def bootCores (d : Dev) (b : BootIn) : Dev := coresTested d (~~~ (b.porterCores ++ b.keeperCores))

/-- The store room without a valid copy: every shelf is a spare, and in pre-order as many as the ordering code allows are marked
ACTIVE; cause 12. -/
def storeLost (gj7716 : Bool) (nv : Nv) : Nv :=
  let some_ (w : Wing) : Tab (BitVec 2) :=
    (wingShelves w).zipIdx.map fun p => (p.1, if p.2 < wingPromised gj7716 w then 1 else 0)
  { nv with roles := some_ .pk ++ some_ .sym ++ some_ .hsh, tested := [], causes := 0, capCause := false }

/-- The images that the scan of a start keeps: of each key number and version the one with the highest commit number (08 R242). -/
def newestImages (rs : List CellarRec) : List CellarRec :=
  rs.filter fun r => !(rs.any fun x => x.img.key == r.img.key && x.img.version == r.img.version && decide (r.commit < x.commit))

/-- MRAM as the start finds it: records that were not durable are lost; of the cellar's places those whose CRC-32 fails are discarded,
and the newest image of each version stays; a custody copy whose HMAC fails goes (11 R326). -/
def bootNv (d : Dev) (b : BootIn) : Nv :=
  let nv := { d.nv with
    evNext := evrDurable d
    cellar := newestImages ((d.nv.cellar ++ d.nv.old).filter fun r => !b.tornPlaces.contains r.place)
    old := []
    custodyA := if b.tornCustody.getLsbD 0 then none else d.nv.custodyA
    custodyB := if b.tornCustody.getLsbD 1 then none else d.nv.custodyB }
  if b.storeRoomOk then nv else storeLost d.gj7716 nv

/-- The keeper world's image is verified and its cores start, or it is FAILED. -/
def bootKeeper (d : Dev) (f : Fuse) (b : BootIn) : Dev :=
  let lc := lcState f
  let ok := imageOk lc b.loader [] && imageOk lc b.ilmel d.nv.imgSigner && decide (2 ≤ coresPass d true)
  let porterOk := b.porterImage.signer == b.porterSigner && decide (2 ≤ coresPass d false)
  { d with
    acl := { d.acl with keeper := if ok then 1 else 4 }
    keys := { d.keys with svn := b.ilmel.svn, signer := b.ilmel.signer }
    mgt := { d.mgt with images := b.loader :: b.ilmel :: (if porterOk then [b.porterImage] else []), extension := b.extension } }

/-! ### Cold reset (14 R396, R397) -/

/-- The wake from STANDBY keeps the registers of AON and resumes TICKNO (14 R391). -/
def wakeKeeps (old d : Dev) : Dev :=
  let p := old.pwr
  let doms := (List.range 20).map fun n =>
    (n, { domainReset n with idle := (getDom old n).idle, ups := if bootDomains.contains n then satInc (getDom old n).ups else (getDom old n).ups })
  let back : BitVec 8 := - (old.tick.setWidth 8)
  let aon := ((List.range 21).map pwrPage) ++ ((List.range 18).map clkPage) ++ [rstPage, i3cPage, lcsPage, svcPage]
  let d := { d with
    tick := old.tick
    ties := { porter := back, comp := back, rng := back, fabric := back, keeper := back, evr := back }
    units := (List.range unitCount).map fun u => (u, { getUnit d u with tie := back })
    pwr := { p with doms := doms, sysstate := 4, busy := false, target := 0, point := 0, phase := .idle, fromFio := false, recal := false,
                    src := 0, sysPll := false, resetPend := none }
    ports := old.ports, lcs := { old.lcs with trans := none, active := false, scope := 0 }, svc := old.svc
    mgt := { d.mgt with i3c := old.mgt.i3c }
    pages := old.pages.filter fun (v : Nat × PageHdr) => aon.contains v.1
    guards := old.guards.filter fun (g : Nat × Guard) =>
      g.1 / 0x1000 == tmpPage || (g.1 / 0x1000 == clkPage 0 && g.1 % 0x1000 != 0x044) || g.1 / 0x1000 == svcPage }
  raise d (pwrPage 20) 2

/-- The level of PERST0_N and PERST1_N and the SRIS straps are the board's; cards stay in their slots. -/
def pinsKept (old d : Dev) : Dev :=
  let port (p : Bool) (x : PortSt) : PortSt := { x with perst := (getPort old p).perst, sris := (getPort old p).sris, link := false }
  let d := setPort (setPort d false (port false (getPort d false))) true (port true (getPort d true))
  { d with crd := { d.crd with s0 := slotCleared old.crd.s0, s1 := slotCleared old.crd.s1, s2 := slotCleared old.crd.s2,
                               s3 := slotCleared old.crd.s3 } }

/-- Steps 1 to 7 of the cold start. -/
def coldStart (old : Dev) (f : Fuse) (b : BootIn) : Dev × Fuse :=
  let wake := old.pwr.sysstate == 4 && old.pwr.resetPend.isNone && !old.bat.onCell
  let nv := bootNv old b
  let tmpGuards := old.guards.filter fun (g : Nat × Guard) => g.1 / 0x1000 == tmpPage
  let d := devCold old.gj7716 old.grade nv { old.bat with onCell := false } tmpGuards
  let d := { d with egress := old.egress, free := old.free, twn := { d.twn with state := twnIdle d false, newId := old.twn.newId },
                    pwr := { d.pwr with cause := old.pwr.resetPend.getD 0 } }
  let d := pinsKept old (if wake then wakeKeeps old d else d)
  let d := if b.canaryOk then d else batLost d
  let (d, f) := counterBoot d f b.badBits
  let (d, f) := lcBoot d f
  let d := if wake then d else { d with nv := { d.nv with pcycles := d.nv.pcycles + 1 } }
  let d := svcPin { d with svc := { d.svc with reqDriven := true } }
  let d := evLog d 0x0101 noLine noFn
    (leBytes 1 d.pwr.cause.toNat ++ leBytes 1 (lcState f).toNat ++ leBytes 2 (tamperCount f) ++ [if wake then 1 else 0])
  let d := rngLeft (if b.storeRoomOk then d else setCause d 12)
  if lcState f == 3 then (recorderStart { d with acl := { d.acl with keeper := 0 } }, f)
  else (bootKeeper (bootCores (bootTables d b) b) f b, f)

/-- A cold reset waits for the flush of RST_CMD and for PWR_FAIL_N to rise. -/
def resetHeld (d : Dev) : Bool :=
  (d.pwr.resetPend == some 1 && d.evr.flushing) || (d.pwr.resetPend.isSome && !d.pwr.pfLevel)

/-! ### Reset requests (14 R396, R403) -/

/-- RST_CMD: keeper-only, confirm 0xC01D; the recorder flushes first. -/
def coldCommand (d : Dev) (i : Ini) (v : Word) : Dev :=
  if !keeperOnly i || bits v 16 16 != 0xC01D then ignored d i (regAddr rstPage 0x044)
  else if bit v 0 then evrFlush { d with pwr := { d.pwr with resetPend := some 1 } }
  else d

/-- The JTAG reset instruction, in BLANK and TEST. -/
def jtagReset (d : Dev) (f : Fuse) : Dev :=
  if (lcState f).toNat ≤ 1 then { d with pwr := { d.pwr with resetPend := some 2 } } else d

/-! ### A world is ready (10 R310, 14 R397 step 8) -/

/-- The BBK that the seal unit uses (12 R336). -/
def sealBbk (d : Dev) (f : Fuse) : Option (BitVec 256) :=
  match (lcState f).toNat with
  | 1 => some 0
  | 2 => d.bat.bbk
  | _ => none

/-- The calibrated voltages are written back (15 R418). -/
def restoreVolts (d : Dev) : Dev :=
  (d.nv.volts.zipIdx).foldl (fun d p =>
    let v : Word := put 0 p.1.toNat
    setGuard d (clkAddr (0x054 + 4 * p.2)) { val := v, shadow := ~~~ v, pend := none }) d

/-- Ilmel's part of the start, before its ready: the PRODUCTION entry actions that are due, the lineage, the debug nonce, the
recorder, and the start of the porter world. -/
def ilmelStart (d : Dev) (f : Fuse) : Option (Dev × Fuse) :=
  let due := lcState f == 2 && !wordSet f.dProd
  let step : Option (Dev × Fuse) :=
    if !due then some (d, f)
    else if !d.pwr.pfLevel then none
    else
      match prodActions d with
      | none => none
      | some d =>
        let f := { f with wProd := 0xFFFFFFFF, dProd := 0xFFFFFFFF }
        let d := { d with lcs := { d.lcs with due := false, trans := none } }
        some (lcCompleted d f, f)
  match step with
  | none => none
  | some (d, f) =>
    let d := newDebugNonce { d with keys := { d.keys with lineage := sealBbk d f, idDrs := f.drs } }
    let d := { d with keys := { d.keys with reseal := d.nv.cellar.any fun r => decide (r.sealVer.toNat < d.keys.svn.toNat) } }
    let d := recorderStart d
    let d := if d.acl.porter != 0 then d
      else { restoreVolts d with acl := { d.acl with porter := if d.mgt.images.length = 3 then 1 else 4 } }
    some ({ d with acl := { d.acl with kReadyDue := true } }, f)

/-- ACL_WCMD.ready, for the world of the core that writes it. -/
def worldReady (d : Dev) (f : Fuse) (i : Ini) : Dev × Fuse :=
  let a := regAddr aclPage 0x098
  if !coreOnly i then (ignored d i a, f)
  else if isPorterCore i.id then
    if d.acl.porter == 1 || d.acl.porter == 3 then ({ d with acl := { d.acl with pReadyDue := true } }, f) else (ignored d i a, f)
  else if d.acl.keeper == 1 || d.acl.keeper == 3 then (ilmelStart d f).getD (d, f)
  else (ignored d i a, f)

/-! ### The commands -/

/-- COLD_RESET (14 R396, R397): shared SRAM loses its content. -/
def execColdReset (b : BootIn) (s : State) : Host.Outcome State Fault Refusal :=
  if resetHeld s.dev then .next s
  else
    let r := coldStart s.dev s.fuse b
    .next { s with dev := r.1, fuse := r.2, mem := memWipe s.mem 0 0x2000000 }

/-- RST_CMD_COLD (14 R403). -/
def execRstCmdCold (ini : Ini) (v : Word) (s : State) : Host.Outcome State Fault Refusal := act s fun d => coldCommand d ini v

/-- JTAG_RESET (14 R396). -/
def execJtagReset (s : State) : Host.Outcome State Fault Refusal := act s fun d => jtagReset d s.fuse

/-- WORLD_READY (10 R310). -/
def execWorldReady (ini : Ini) (s : State) : Host.Outcome State Fault Refusal := actFuse s (worldReady s.dev s.fuse ini)

end Sys2Proof.Machine
end

