-- ==== Sys2Proof/Machine/Service.lean ====
section
/-! DEFINITION. Service life: rotations, strikes and requests of units, operating hours, voltage calibration and the replacement
request (01 R21, 05 R163, 15 R409, R417-R421). -/

namespace Sys2Proof.Machine

/-! ### Requests of units (01 R21) -/

/-- RACK_SVCREQ committed in one command: only the PF of either port writes it. -/
def svcRequest (d : Dev) (i : Ini) (u : Nat) (req : Word) : Dev :=
  let a := regAddr (unitPage u) 0x064
  if !(isPf i.id && i.priv) then ignored d i a
  else
    match asleep d (unitPage u) with
    | some n =>
      let d := stallTxn d ⟨regTxn i a (leBytes 4 req.toNat), n, false, d.pot.commits⟩
      stallTxn d ⟨regTxn i (a + 0x800) (leBytes 4 (~~~ req).toNat), n, false, d.pot.commits⟩
    | none =>
      unlessLocked (touchPage d (unitPage u)) i (unitPage u) 0x064 fun d =>
        requestService (setGuard d a { val := req, shadow := ~~~ req, pend := none }) u req

/-! ### Operating hours and temperatures (15 R417, R420) -/

/-- RTC cycles of an operating hour. -/
def hourCycles : Nat := 117964800

/-- The temperature band of an hour: below 65, 65 to 85, 85 to 100, and above 100 degrees. -/
def tempBand (t : BitVec 16) : Nat := if t.toInt < 650 then 0 else if t.toInt < 850 then 1 else if t.toInt ≤ 1000 then 2 else 3

/-- An operating hour has passed in RUN. -/
def operatingHour (d : Dev) (average peak : BitVec 16) : Dev :=
  if d.nv.frac < hourCycles then d
  else
    let nv := d.nv
    let b := tempBand average
    let nv := { nv with
      hours := nv.hours + 1, frac := nv.frac - hourCycles, tavg := average,
      tpeak := if nv.hours = 0 || nv.tpeak.toInt < peak.toInt then peak else nv.tpeak
      bands := nv.bands.set b (nv.bands.getD b 0 + 1) }
    let d := { d with nv := nv }
    if 350640 ≤ nv.hours.toNat then setCause d 11 else d

/-! ### Calibration (15 R418) -/

/-- Keep the voltages in the store-room state, and set cause 7 when CLK_VOLT0 has reached 830 mV. -/
def keepVolts (d : Dev) : Dev :=
  let v (p : Nat) : BitVec 10 := BitVec.ofNat 10 (bits (guardVal d (clkAddr (0x054 + 4 * p))) 0 10)
  let d := { d with nv := { d.nv with volts := (List.range 4).map v } }
  if 830 ≤ (v 0).toNat then setCause d 7 else d

/-- A calibration step: Ilmel writes CLK_VOLTn or CLK_OPPCAP, which PG_LOCK of their page holds fixed (00 R11). DESIGN CHOICE (log 75): the command stands for the step that is due once every 2^25 ticks, in whatever phase. It acts with the keeper world present and the lowest margin below
30 ps. -/
def calibrate (d : Dev) : Dev :=
  if !keeperPresent d || d.pwr.src == 0 || 30 ≤ d.svc.margin.toNat then d
  else
    let n := d.pwr.point.toNat
    let a := clkAddr (0x054 + 4 * n)
    let v := bits (guardVal d a) 0 10 + 5
    let ilmel : Ini := { id := 266, priv := true }
    if n = 0 && 850 < v then
      unlessLocked d ilmel (clkPage 0) 0x04C fun d =>
      let d := setGuard d (clkAddr 0x04C) { val := 1, shadow := ~~~ 1, pend := none }
      setCapCause (oppKick (raise d svcPage 5))
    else
      unlessLocked d ilmel (clkPage 0) (0x054 + 4 * n) fun d =>
      let w : Word := put 0 v
      keepVolts (voltChanged (raise (setGuard d a { val := w, shadow := ~~~ w, pend := none }) svcPage 5) n)

/-! ### SVC_REQSET (15 R420-R422) -/

def reqsetOk (i : Ini) (v : Word) : Bool := isKeeperCore i.id && bits v 16 16 == 0x4E51

/-- Bit 0 sets cause 14. -/
def reqsetSet (d : Dev) (i : Ini) (v : Word) : Dev :=
  if !reqsetOk i v then ignored d i (regAddr svcPage 0x064) else if bit v 0 then setCause d 14 else d

/-- Bit 1 clears every cause, in TEST. -/
def reqsetClear (d : Dev) (f : Fuse) (i : Ini) (v : Word) : Dev :=
  if !reqsetOk i v then ignored d i (regAddr svcPage 0x064)
  else if !bit v 1 then d
  else if lcState f != 1 then ignored d i (regAddr svcPage 0x064)
  else svcPin { d with nv := { d.nv with causes := 0, capCause := false } }

/-! ### The commands -/

/-- ROTATION_START (15 R409). -/
def execRotationStart (s : State) : Host.Outcome State Fault Refusal := act s fun d => [Wing.pk, .sym, .hsh].foldl rotStart d

/-- STRIKE_EXPIRE (05 R163). -/
def execStrikeExpire (unit : UnitNo) (s : State) : Host.Outcome State Fault Refusal :=
  if unitCount ≤ unit.toNat then .fault .noSuchUnit else act s fun d => strikeEnd d unit.toNat

/-- RACK_SVCREQ_DRAIN (01 R21, R50). -/
def execRackSvcreqDrain (ini : Ini) (unit : UnitNo) (s : State) : Host.Outcome State Fault Refusal :=
  if unitCount ≤ unit.toNat then .fault .noSuchUnit else act s fun d => svcRequest d ini unit.toNat 1

/-- RACK_SVCREQ_RETURN (01 R21, R50). -/
def execRackSvcreqReturn (ini : Ini) (unit : UnitNo) (s : State) : Host.Outcome State Fault Refusal :=
  if unitCount ≤ unit.toNat then .fault .noSuchUnit else act s fun d => svcRequest d ini unit.toNat 2

/-- OPERATING_HOUR (15 R417). -/
def execOperatingHour (average : BitVec 16) (peak : BitVec 16) (s : State) : Host.Outcome State Fault Refusal :=
  act s fun d => operatingHour d average peak

/-- VOLTAGE_CALIBRATION (15 R418). -/
def execVoltageCalibration (s : State) : Host.Outcome State Fault Refusal := act s calibrate

/-- SVC_REQSET_SET (15 R420, R422). -/
def execSvcReqsetSet (ini : Ini) (v : Word) (s : State) : Host.Outcome State Fault Refusal := act s fun d => reqsetSet d ini v

/-- SVC_REQSET_CLEAR (15 R421, R422). -/
def execSvcReqsetClear (ini : Ini) (v : Word) (s : State) : Host.Outcome State Fault Refusal :=
  act s fun d => reqsetClear d s.fuse ini v

end Sys2Proof.Machine
end

