-- ==== Sys2Proof/Machine/MgtCmds.lean ====
section
/-! DEFINITION. Management: the PF mailboxes and the I3C target (18 R477, R478). -/

namespace Sys2Proof.Machine

/-! ### Mailboxes (18 R477) -/

def mboxAddr (k : Bool) (off : Nat) : Nat := regAddr mboxPage ((if k then 0x060 else 0x040) + off)

/-- The PF that a mailbox serves, through its BAR. -/
def mboxPf (i : Ini) (k : Bool) : Bool := i.priv && i.id.toNat == (if k then 128 else 0)

/-- A PF sends its message: 1 to 256 bytes, none already under way. -/
def mboxSend (d : Dev) (i : Ini) (k : Bool) : Dev :=
  let m := getMbox d k
  if !mboxPf i k || m.inbusy || m.inlen.toNat = 0 || 256 < m.inlen.toNat then ignored d i (mboxAddr k 0)
  else raise (setMbox d k { m with inbusy := true, sentLen := m.inlen, stale := false }) mboxPage (if k then 2 else 0)

/-- The PF has read the reply. -/
def mboxAck (d : Dev) (i : Ini) (k : Bool) : Dev :=
  if mboxPf i k then setMbox d k { getMbox d k with outvalid := false } else ignored d i (mboxAddr k 0)

/-- A porter core's reply; one to a message that a reset has dropped is discarded. -/
def mboxReply (d : Dev) (i : Ini) (k : Bool) : Dev :=
  let m := getMbox d k
  if !isPorterCore i.id then ignored d i (mboxAddr k 0xC)
  else if m.stale then d
  else raise (setMbox d k { m with inbusy := false, outvalid := true }) mboxPage (if k then 3 else 1)

/-! ### The I3C target (18 R478) -/

def i3cOn (d : Dev) : Bool := bit d.mgt.i3c.cfg 31
def setI3c (d : Dev) (x : I3c) : Dev := { d with mgt := { d.mgt with i3c := x } }

/-- A direct request that the target answers; it NACKs while it is off or has no address. -/
def i3cAnswer (d : Dev) (bs : List Byte) : Dev :=
  if i3cOn d && d.mgt.i3c.assigned then emit d (.i3c bs) else emit d .i3cNack

/-- A dynamic address is assigned. -/
def i3cAssign (d : Dev) (a : BitVec 7) : Dev := raise (setI3c d { d.mgt.i3c with assigned := true, dyn := a }) i3cPage 1

/-- The 48-bit provisional ID, most significant byte first. -/
def i3cPid (d : Dev) : List Byte :=
  beBytes 6 (Config.mipiId.toNat * 2 ^ 33 + (if d.gj7716 then 0x7716 else 0x7720) * 2 ^ 16 + bits d.mgt.i3c.cfg 16 4)

/-- Target bytes 0x00 to 0x13 as a refresh finds them. -/
def i3cStatus (d : Dev) (f : Fuse) : List Byte :=
  let part := if d.gj7716 then 0x7716 else 0x7720
  let w (a b c e g : Nat) : Byte := BitVec.ofNat 8 (64 * a + 32 * b + 16 * c + 8 * e + g)
  leBytes 2 part ++ [BitVec.ofNat 8 ((if d.grade then 16 else 0) + (lcState f).toNat)]
    ++ [w (svcLevel d) (if d.bat.locked then 1 else 0) (if d.bat.zeroized then 1 else 0) (if d.pwr.pfLevel then 0 else 1) d.twn.state.toNat]
    ++ [d.pwr.sysstate.setWidth 8, BitVec.ofNat 8 (32 * d.acl.keeper.toNat + 4 * d.acl.porter.toNat), d.rng.state.setWidth 8,
        d.pwr.point.setWidth 8]
    ++ leBytes 2 d.svc.hottest.toNat ++ leBytes 4 d.nv.hours.toNat ++ leBytes 6 d.tick.toNat

/-- The refresh of a boundary; a change of byte 0x03 asks for an IBI when IBIs are enabled. -/
def i3cRefresh (d : Dev) (f : Fuse) : Dev :=
  let x := d.mgt.i3c
  let bs := i3cStatus d f
  let t := bs.zipIdx.foldl (fun (t : Tab Byte) p => tabPut t p.2 p.1) []
  let b := bs.getD 3 0
  let d := setI3c d { x with mirror := t }
  if b != tabGet x.mirror 3 0 && x.events.getLsbD 0 && i3cOn d && x.assigned then emit d (.ibi b) else d

/-- A target byte as a private read returns it; byte 0x04 reads 3 in STANDBY. -/
def i3cByte (d : Dev) (k : Nat) : Byte :=
  let x := d.mgt.i3c
  if k = 0x04 && d.pwr.sysstate == 3 then 3
  else if k < 0x40 then tabGet x.mirror k 0
  else if k < 0x80 then tabGet x.post (k - 0x40) 0
  else if 0xC0 ≤ k then tabGet x.inbox (k - 0xC0) 0
  else 0

/-- A byte written at the index; the index rises. -/
def i3cWriteByte (d : Dev) (b : Byte) : Dev :=
  let x := d.mgt.i3c
  let k := x.index.toNat
  let d := setI3c d { x with index := x.index + 1 }
  if k = 0x80 then (if b == 0xA5 && d.pwr.sysstate == 3 then raise (wakeStandby d) i3cPage 2 else d)
  else if k = 0xBF then raise d i3cPage 0
  else if 0xC0 ≤ k then setI3c d { d.mgt.i3c with inbox := tabPut d.mgt.i3c.inbox (k - 0xC0) b }
  else d

/-- A private write: the first byte sets the index. -/
def i3cWrite (d : Dev) (bs : List Byte) : Dev :=
  if !i3cOn d || !d.mgt.i3c.assigned then emit d .i3cNack
  else
    match bs with
    | [] => d
    | k :: r => r.foldl i3cWriteByte (setI3c d { d.mgt.i3c with index := k })

/-- A private read from the index; the index wraps from 0xFF to 0. -/
def i3cRead (d : Dev) (n : Nat) : Dev :=
  if !i3cOn d || !d.mgt.i3c.assigned then emit d .i3cNack
  else
    let x := d.mgt.i3c
    let bs := (List.range n).map fun i => i3cByte d ((x.index.toNat + i) % 256)
    emit (setI3c d { x with index := x.index + BitVec.ofNat 8 n }) (.i3c bs)

/-! ### The commands -/

/-- MGT_MB_SEND (18 R477). -/
def execMgtMbSend (ini : Ini) (box : Bool) (s : State) : Host.Outcome State Fault Refusal := act s fun d => mboxSend d ini box

/-- MGT_MB_ACK (18 R477). -/
def execMgtMbAck (ini : Ini) (box : Bool) (s : State) : Host.Outcome State Fault Refusal := act s fun d => mboxAck d ini box

/-- MGT_MB_REPLY (18 R477). -/
def execMgtMbReply (ini : Ini) (box : Bool) (s : State) : Host.Outcome State Fault Refusal := act s fun d => mboxReply d ini box

/-- ENTDAA (18 R478): a target without an address takes one. -/
def execEntdaa (addr : BitVec 7) (s : State) : Host.Outcome State Fault Refusal :=
  act s fun d => if i3cOn d && !d.mgt.i3c.assigned then i3cAssign d addr else d

/-- SETDASA (18 R478): only while a static address is set, and the one that it names. -/
def execSetdasa (static : BitVec 7) (addr : BitVec 7) (s : State) : Host.Outcome State Fault Refusal :=
  act s fun d =>
    if i3cOn d && static != 0 && bits d.mgt.i3c.cfg 0 7 == static.toNat && !d.mgt.i3c.assigned then i3cAssign d addr
    else emit d .i3cNack

/-- RSTDAA (18 R478). -/
def execRstdaa (s : State) : Host.Outcome State Fault Refusal :=
  act s fun d =>
    if i3cOn d && d.mgt.i3c.assigned then raise (setI3c d { d.mgt.i3c with assigned := false, dyn := 0 }) i3cPage 1 else d

/-- ENEC (18 R478): bit 0 enables IBIs. -/
def execEnec (events : Byte) (s : State) : Host.Outcome State Fault Refusal :=
  act s fun d => if i3cOn d then setI3c d { d.mgt.i3c with events := d.mgt.i3c.events ||| events } else d

/-- DISEC (18 R478). -/
def execDisec (events : Byte) (s : State) : Host.Outcome State Fault Refusal :=
  act s fun d => if i3cOn d then setI3c d { d.mgt.i3c with events := d.mgt.i3c.events &&& ~~~ events } else d

/-- GETPID (18 R478). -/
def execGetpid (s : State) : Host.Outcome State Fault Refusal := act s fun d => i3cAnswer d (i3cPid d)

/-- GETBCR (18 R478). -/
def execGetbcr (s : State) : Host.Outcome State Fault Refusal := act s fun d => i3cAnswer d [0x06]

/-- GETDCR (18 R478). -/
def execGetdcr (s : State) : Host.Outcome State Fault Refusal := act s fun d => i3cAnswer d [0x00]

/-- GETSTATUS (18 R478): two bytes whose content the spec leaves to the MIPI standard, a free value. -/
def execGetstatus (s : State) : Host.Outcome State Fault Refusal :=
  act s fun d =>
    i3cAnswer { d with free := d.free + 1 } (leBytes 2 (Config.freeWord d.free).toNat)

/-- I3C_PRIVATE_WRITE (18 R478). -/
def execI3cPrivateWrite (bytes : List Byte) (s : State) : Host.Outcome State Fault Refusal := act s fun d => i3cWrite d bytes

/-- I3C_PRIVATE_READ (18 R478). -/
def execI3cPrivateRead (count : Nat) (s : State) : Host.Outcome State Fault Refusal := act s fun d => i3cRead d count

end Sys2Proof.Machine
end

