-- ==== Sys2Proof/Machine/Spdm.lean ====
section
/-! DEFINITION. The DOE mailboxes and the SPDM responder of the keeper world (02 R72-R75). -/

namespace Sys2Proof.Machine

/-! ### The mailbox -/

def doeOf (d : Dev) (p : Bool) : Option (List Byte) := (getPort d p).doe.request
def setDoe (d : Dev) (p : Bool) (r : Option (List Byte)) : Dev := modPort d p fun x => { x with doe := { request := r } }

/-- A complete request object of at most 4,096 bytes arrives: PG_EVT doe0 or doe1 (18 R476). -/
def doeArrives (d : Dev) (p : Bool) (obj : List Byte) : Dev :=
  if 4096 < obj.length || !domOn d (12 + portNo p) then d else raise (setDoe d p (some obj)) infoPage (portNo p)

/-- DOE Discovery, answered by hardware at all times: vendor ID, object type and next index of protocols 0 (Discovery) and
1 (CMA-SPDM). -/
def doeDiscover (d : Dev) (p : Bool) (index : Byte) : Dev :=
  if !domOn d (12 + portNo p) then d
  else
    let body : List Byte := if index = 0 then [0x01, 0x00, 0x00, 0x01] else if index = 1 then [0x01, 0x00, 0x01, 0x00] else [0xFF, 0xFF, 0x00, 0x00]
    emit d (.doe p body)

/-! ### Responses (02 R73-R75) -/

/-- SPDM 1.2 response codes. -/
def spdmError (d : Dev) (p : Bool) (code : Byte) : Dev := emit (setDoe d p none) (.spdm p 0x7F [code])

/-- An SPDM request that the mailbox holds: Busy while the keeper world is absent, Unsupported in BLANK and END_OF_LIFE (12 R336). -/
def spdmServe (d : Dev) (f : Fuse) (p : Bool) (k : Dev → Dev) : Dev :=
  if (doeOf d p).isNone then d
  else if lcState f == 0 || lcState f == 3 then spdmError d p 0x07
  else if !keeperPresent d then spdmError d p 0x03
  else k d

/-- A response leaves the mailbox; an object holds at most 4,096 bytes. -/
def spdmAnswer (d : Dev) (p : Bool) (code : Byte) (body : List Byte) : Dev := emit (setDoe d p none) (.spdm p code body)

/-- Slots that hold a certificate chain, as a mask. -/
def slotMask : Byte := (List.range 8).foldl (fun (m : Byte) i => if (Config.chain (BitVec.ofNat 3 i)).isSome then m ||| BitVec.ofNat 8 (2 ^ i) else m) 0

def chainDigests : List Byte := (List.range 8).flatMap fun i => match Config.chain (BitVec.ofNat 3 i) with | some c => sha384 c | none => []

/-- A block of GET_MEASUREMENTS in the DMTF format: index, specification, sizes, and a digest. -/
def measBlock (i : Nat) (digest : List Byte) : List Byte :=
  [BitVec.ofNat 8 i, 0x01] ++ leBytes 2 51 ++ [if i = 5 then 0x03 else if i = 6 then 0x03 else 0x01] ++ leBytes 2 48 ++ fit 48 digest

/-- A signature of the device attestation key over a transcript whose form is the published standard's: its digest is a free value.
None while the keeper instance cannot deliver. -/
def spdmSign (d : Dev) : Option (List Byte × Dev) :=
  match keeperDraw d 304 with
  | none => none
  | some (bs, d) =>
    let e := (List.range 12).flatMap fun i => leBytes 4 (Config.freeWord (d.free + i)).toNat
    let d := { d with free := d.free + 12 }
    match ecdsaSign p384 (attestPair d).1 e (bs.take 48) with
    | .ok s => some (s, d)
    | .bad _ _ => none

/-- A signed response: its body, a nonce of the keeper instance, and the signature. DESIGN CHOICE: while the keeper instance cannot
deliver, the response is ERROR Busy; R73 does not say what is sent then (log entry 73). -/
def spdmSigned (d : Dev) (p : Bool) (code : Byte) (body : List Byte) : Dev :=
  match keeperDraw d 32 with
  | none => spdmError d p 0x03
  | some (n, d) =>
    match spdmSign d with
    | none => spdmError d p 0x03
    | some (s, d) => spdmAnswer d p code (body ++ n ++ zeros 2 ++ s)

/-! ### The commands -/

/-- DOE_REQUEST (02 R72). -/
def execDoeRequest (port : Bool) (obj : List Byte) (s : State) : Host.Outcome State Fault Refusal :=
  act s fun d => doeArrives d port obj

/-- DOE_DISCOVERY (02 R75). -/
def execDoeDiscovery (port : Bool) (index : Byte) (s : State) : Host.Outcome State Fault Refusal :=
  act s fun d => doeDiscover d port index

/-- DOE_ABORT (02 R75). -/
def execDoeAbort (port : Bool) (s : State) : Host.Outcome State Fault Refusal := act s fun d => setDoe d port none

/-- GET_VERSION (02 R73): version 1.2 only. -/
def execGetVersion (port : Bool) (s : State) : Host.Outcome State Fault Refusal :=
  act s fun d => spdmServe d s.fuse port fun d => spdmAnswer d port 0x04 ([0, 1] ++ leBytes 2 0x1200)

/-- GET_CAPABILITIES (02 R73): CERT_CAP, CHAL_CAP, MEAS_CAP with signature; CTExponent 15. -/
def execGetCapabilities (port : Bool) (s : State) : Host.Outcome State Fault Refusal :=
  act s fun d => spdmServe d s.fuse port fun d => spdmAnswer d port 0x61 ([0, 15, 0, 0] ++ leBytes 4 0x16)

/-- NEGOTIATE_ALGORITHMS (02 R73): ECDSA P-384 and SHA-384 for signatures and digests as far as the request offers them, and SHA-384 for
measurements in the DMTF format (MeasurementSpecificationSel, MeasurementHashAlgo). -/
def execNegotiateAlgorithms (port : Bool) (asymP384 : Bool) (hashSha384 : Bool) (s : State) : Host.Outcome State Fault Refusal :=
  act s fun d => spdmServe d s.fuse port fun d =>
    spdmAnswer d port 0x63 (leBytes 4 0x04 ++ leBytes 4 (if asymP384 then 0x80 else 0) ++ leBytes 4 (if hashSha384 then 0x02 else 0))

/-- GET_DIGESTS (02 R73). -/
def execGetDigests (port : Bool) (s : State) : Host.Outcome State Fault Refusal :=
  act s fun d => spdmServe d s.fuse port fun d => spdmAnswer d port 0x01 (slotMask :: chainDigests)

/-- GET_CERTIFICATE (02 R73): a portion of a slot's chain and what remains after it. -/
def execGetCertificate (port : Bool) (slot : BitVec 3) (offset : BitVec 16) (len : BitVec 16) (s : State) :
    Host.Outcome State Fault Refusal :=
  act s fun d => spdmServe d s.fuse port fun d =>
    match Config.chain slot with
    | none => spdmError d port 0x01
    | some c =>
      if c.length ≤ offset.toNat then spdmError d port 0x01
      else
        let n := min (min len.toNat 4032) (c.length - offset.toNat)
        spdmAnswer d port 0x02 (slot.setWidth 8 :: 0 :: leBytes 2 n ++ leBytes 2 (c.length - offset.toNat - n) ++ (c.drop offset.toNat).take n)

/-- CHALLENGE (02 R73). -/
def execChallenge (port : Bool) (slot : BitVec 3) (nonce : List Byte) (s : State) : Host.Outcome State Fault Refusal :=
  let _ := nonce
  act s fun d => spdmServe d s.fuse port fun d =>
    match Config.chain slot with
    | none => spdmError d port 0x01
    | some c =>
      let sum := sha384 ((measureBlocks d s.fuse).zipIdx.flatMap fun b => measBlock (b.2 + 1) b.1)
      spdmSigned d port 0x03 (slot.setWidth 8 :: slotMask :: sha384 c ++ sum)

/-- GET_MEASUREMENTS (02 R74): block 0 asks for the number of blocks, 0xFF for all six, with a signature when asked. -/
def execGetMeasurements (port : Bool) (block : Byte) (sign : Bool) (nonce : List Byte) (s : State) :
    Host.Outcome State Fault Refusal :=
  let _ := nonce
  act s fun d => spdmServe d s.fuse port fun d =>
    let ms := measureBlocks d s.fuse
    let all := ms.zipIdx.flatMap fun b => measBlock (b.2 + 1) b.1
    let body : Option (List Byte) :=
      if block = 0 then some [6, 0]
      else if block = 0xFF then some ([0, 6] ++ all)
      else match ms[block.toNat - 1]? with
        | some m => some ([0, 1] ++ measBlock block.toNat m)
        | none => none
    match body with
    | none => spdmError d port 0x01
    | some b => if sign then spdmSigned d port 0x60 b else spdmAnswer d port 0x60 b

/-- SPDM_UNSUPPORTED_REQUEST (02 R73). -/
def execSpdmUnsupportedRequest (port : Bool) (code : Byte) (s : State) : Host.Outcome State Fault Refusal :=
  let _ := code
  act s fun d => spdmServe d s.fuse port fun d => spdmError d port 0x07

end Sys2Proof.Machine
end

