-- ==== Sys2Proof/Machine/RegWrite.lean ====
section
/-! DEFINITION. Writes of registers (18 R463-R470, 00 R10-R13, 13 R369): who may write what, what a lock holds fixed, and what each
write does. One register is written at a time. A write that a block ignores under its own rules is recorded with rule code 0x404
(10 R305); a write of a reserved, read-only or absent register changes nothing and is not (00 R10, R12). -/

namespace Sys2Proof.Machine

/-! ### Locks (18 R468) -/

/-- Registers with RW fields, by page kind and offset below 0x800. -/
def rwReg (p off : Nat) : Bool :=
  let in_ (lo hi : Nat) : Bool := decide (lo ≤ off) && decide (off ≤ hi)
  match pageKind p with
  | .unit _ => off == 0x064
  | .func _ => in_ 0x040 0x044 || in_ 0x080 0x0FC
  | .que _ => decide (0x40 ≤ off % 0x100) && decide (off % 0x100 ≤ 0x58)
  | .dump _ => in_ 0x040 0x048
  | .route _ => in_ 0x040 0x43C
  | .mbox => [0x048, 0x050, 0x068, 0x070].contains off || in_ 0x100 0x4FC
  | .i3c => off == 0x040 || in_ 0x100 0x13C
  | .acl => [0x040, 0x04C, 0x060, 0x078, 0x09C, 0x0A0, 0x0AC].contains off || in_ 0x050 0x05C || in_ 0x064 0x070
  | .pot => [0x048, 0x04C, 0x050, 0x058, 0x05C, 0x060, 0x068].contains off
  | .rng => off == 0x068 || off == 0x070
  | .lcs => off == 0x060 || off == 0x064
  | .evr => off == 0x060 || off == 0x064 || (match winOf off with | some (_, o) => decide (o < 8) | none => false)
  | .svc => off == 0x068 || off == 0x06C
  | .twn => in_ 0x068 0x070 || in_ 0x400 0x4DC
  | .pmc _ => in_ 0x040 0x05C
  | .pwr n => if n < 20 then off == 0x044 else off == 0x048 || in_ 0x054 0x058
  | .clk c => c == 0 && (in_ 0x044 0x04C || in_ 0x054 0x068)
  | .crd _ => [0x040, 0x050, 0x060].contains off
  | .tmp => in_ 0x060 0x0B8 || off == 0x0C0
  | _ => false

/-! ### Guarded registers (13 R369, 18 R470) -/

/-- The initiators from which a guarded register takes writes. -/
def guardRight (f : Fuse) (i : Ini) (a : Nat) : Bool :=
  let _ := f
  match pageKind (a / 0x1000) with
  | .unit _ => isPf i.id && i.priv
  | .func k => mayCommandFn i k
  | .acl => keeperOnly i
  | .clk _ => isKeeperCore i.id
  | .tmp => keeperOnly i
  | .svc => isKeeperCore i.id
  | .twn => isKeeperCore i.id
  | _ => false

/-- Values that a commit does not take: watchdog and rotation intervals of 0 outside TEST, and CLK_SRC.sel = 0 after the switch
(10 R309, 14 R399, 15 R422). -/
def guardRefused (d : Dev) (f : Fuse) (a : Nat) (v : Word) : Bool :=
  (a == regAddr aclPage 0x09C && bits v 0 16 == 0 && lcState f != 1)
    || (a == regAddr svcPage 0x068 && bits v 0 16 == 0 && lcState f != 1)
    || (a == clkAddr 0x044 && !bit v 0 && (d.pwr.src != 0 || d.pwr.fromFio))

/-- What the commit of a pair does beside the register's value. -/
def guardEffect (d : Dev) (a : Nat) : Dev :=
  let v := guardVal d a
  let off := a % 0x1000
  match pageKind (a / 0x1000) with
  | .unit u => requestService d u v
  | .clk _ =>
    if off = 0x044 then (if bit v 0 && d.pwr.src == 0 && d.pwr.phase == .idle then oppStart d (oppChosen d) true else d)
    else if off = 0x04C then oppKick d
    else if 0x054 ≤ off && off ≤ 0x060 then voltChanged d ((off - 0x054) / 4)
    else d
  | .svc => if off = 0x068 then svcPin d else [Wing.pk, .sym, .hsh].foldl spareCauses d
  | _ => d

/-- A write to X: pending until the shadow commits it. -/
def guardPend (d : Dev) (f : Fuse) (i : Ini) (a : Nat) (v : Word) : Dev :=
  unlessLocked d i (a / 0x1000) (a % 0x1000) fun d => if guardRight f i a then guardWrite d a v else ignored d i a

/-- A write to the shadow of X commits the pair. -/
def guardShadow (d : Dev) (f : Fuse) (i : Ini) (a : Nat) (v : Word) : Dev :=
  unlessLocked d i (a / 0x1000) (a % 0x1000 + 0x800) fun d =>
    let g := getGuard d a
    if !guardRight f i a || guardRefused d f a (g.pend.getD g.val) then
      ignored (setGuard d a { g with pend := if guardRight f i a then none else g.pend }) i (a + 0x800)
    else guardEffect (guardCommit d a v) a

/-! ### Functions, queues, vectors, dumps -/

def funcWrite (d : Dev) (i : Ini) (f off : Nat) (v : Word) : Dev :=
  if off = 0x048 then funcCommand d i f (bits v 0 2)
  else if 0x080 ≤ off && off ≤ 0x0FC then
    modFn d f fun x => { x with coal := tabPut x.coal ((off - 0x080) / 4) (BitVec.ofNat 8 (bits v 0 8)) }
  else d

/-- A window of a QUE page (03 R93): while the queue is enabled only en changes; from en = 0 until `enabled` clears nothing does. -/
def queWrite (d : Dev) (i : Ini) (f q off : Nat) (v : Word) : Dev :=
  let x := getQ d f q
  let a := regAddr (quePage f) (0x100 * q + off)
  if x.disabling then ignored d i a
  else if off < 0x040 || 0x058 < off then d
  else if (getFn d f).qpairs ≤ q then ignored d i a
  else if off = 0x058 then
    if x.en then (if bit v 31 then d else disableQueue d i f q)
    else
      let d := setQ d f q { x with vector := BitVec.ofNat 5 (bits v 16 5), win := BitVec.ofNat 4 (bits v 12 4),
                                   cqsz := BitVec.ofNat 4 (bits v 4 4), sqsz := BitVec.ofNat 4 (bits v 0 4) }
      if bit v 31 then enableQueue d i f q else d
  else if x.en then ignored d i a
  else setQ d f q (
    if off = 0x040 then { x with sqbase := withLo x.sqbase (v &&& 0xFFFFF000) }
    else if off = 0x044 then { x with sqbase := withHi x.sqbase v }
    else if off = 0x048 then { x with cqbase := withLo x.cqbase (v &&& 0xFFFFF000) }
    else if off = 0x04C then { x with cqbase := withHi x.cqbase v }
    else if off = 0x050 then { x with idxbase := withLo x.idxbase (v &&& 0xFFFFFFC0) }
    else { x with idxbase := withHi x.idxbase v })

/-- An MSI-X table entry; entries at or above the function's vectors ignore writes (02 R66). -/
def msixWrite (d : Dev) (i : Ini) (f off : Nat) (v : Word) : Dev :=
  let k := off / 16
  let e := getVec d f k
  if 32 ≤ k then d
  else if (getFn d f).vectors ≤ k then ignored d i (regAddr (msixPage f) off)
  else setVec d f k (
    if off % 16 = 0 then { e with addr := withLo e.addr v }
    else if off % 16 = 4 then { e with addr := withHi e.addr v }
    else if off % 16 = 8 then { e with data := v }
    else { e with mask := bit v 0 })

/-- The dump control page: while en is 1 only en changes; a write of en = 1 starts the dump sequence anew (17 R460, R461). -/
def dumpWrite (d : Dev) (i : Ini) (f off : Nat) (v : Word) : Dev :=
  let x := getFn d f
  let v' := v &&& 0x800F001F
  if off = 0x048 then setFn d f { x with
    dseq := if bit v' 31 then 0 else x.dseq
    dcfg := if bit x.dcfg 31 then (x.dcfg &&& 0x7FFFFFFF) ||| (v' &&& 0x80000000) else v' }
  else if off != 0x040 && off != 0x044 then d
  else if bit x.dcfg 31 then ignored d i (regAddr (dumpPage f) off)
  else setFn d f { x with dbase := if off = 0x040 then withLo x.dbase (v &&& 0xFFFFF000) else withHi x.dbase v }

/-! ### Management -/

/-- Who may set a line's route to what (02 R71). -/
def routeOk (i : Ini) (l : Nat) (r : Route) : Bool :=
  if keeperReserved l && r.kind != 1 then false
  else if isKeeperCore i.id then true
  else if keeperReserved l then false
  else isPorterCore i.id || (isPf i.id && i.priv && (r.kind == 0 || (r.kind == 3 && r.func.toNat / 128 == i.id.toNat / 128)))

def routeWrite (d : Dev) (i : Ini) (k off : Nat) (v : Word) : Dev :=
  match routeLine k off with
  | none => d
  | some l =>
    let r : Route := { kind := BitVec.ofNat 2 (bits v 30 2), func := BitVec.ofNat 8 (bits v 8 8), vector := BitVec.ofNat 5 (bits v 0 5) }
    if routeOk i l r then { d with mgt := { d.mgt with routes := tabPut d.mgt.routes l r } } else ignored d i (regAddr (routePage k) off)

def mboxWrite (d : Dev) (i : Ini) (off : Nat) (v : Word) : Dev :=
  let a := regAddr mboxPage off
  match mboxOf off with
  | none => d
  | some k =>
    let m := getMbox d k
    let o := off - (if k then 0x20 else 0)
    let b := off - (if k then 0x300 else 0x100)
    if mboxForeign i off then ignored d i a
    else if 0x100 ≤ off then
      if b < 0x100 then (if m.inbusy then ignored d i a else setMbox d k { m with inb := tabPut m.inb (b / 4) v })
      else setMbox d k { m with outb := tabPut m.outb ((b - 0x100) / 4) v }
    else if o = 0x040 then
      let d := if bit v 1 then mboxAck d i k else d
      if bit v 0 then mboxSend d i k else d
    else if o = 0x048 then setMbox d k { m with inlen := BitVec.ofNat 9 (bits v 0 9) }
    else if o = 0x04C then (if bit v 0 then mboxReply d i k else d)
    else if o = 0x050 then
      (if isPorterCore i.id then setMbox d k { m with outlen := BitVec.ofNat 9 (bits v 0 9) } else ignored d i a)
    else d

def i3cRegWrite (d : Dev) (i : Ini) (off : Nat) (v : Word) : Dev :=
  let x := d.mgt.i3c
  if off = 0x040 then setI3c d { x with cfg := v &&& 0x800F007F }
  else if 0x100 ≤ off && off < 0x140 then
    if d.acl.claimed && !isKeeperCore i.id then ignored d i (regAddr i3cPage off)
    else setI3c d { x with post := (leBytes 4 v.toNat).zipIdx.foldl (fun (t : Tab Byte) p => tabPut t (off - 0x100 + p.2) p.1) x.post }
  else d

/-! ### Access control (10 R314, R315) -/

def aclSetWord (e : AclEnt) (k : Nat) (v : Word) : AclEnt :=
  match k with
  | 0 => { e with w0 := v &&& 0xF80FFFFF } | 1 => { e with w1 := v &&& 0x0FFFFFFF } | 2 => { e with w2 := v &&& 0x0FFFFFFF }
  | _ => { e with w3 := v &&& 7 }

/-- A word of an entry of the next table. -/
def aclNext (d : Dev) (idx : Word) (k : Nat) (v : Word) : Dev :=
  let n := bits idx 0 10
  { d with acl := { d.acl with next := tabPut d.acl.next n (aclSetWord (aclGet d.acl.next n) k v) } }

def aclWrite (d : Dev) (f : Fuse) (i : Ini) (off : Nat) (v : Word) : Dev × Fuse :=
  let a := d.acl
  let no := (ignored d i (regAddr aclPage off), f)
  let core (k : Dev) : Dev × Fuse := if coreOnly i then (k, f) else no
  let keeper (k : Dev) : Dev × Fuse := if keeperOnly i then (k, f) else no
  if off = 0x048 then
    let d := if bit v 1 then aclCommitK d i else d
    (if bit v 0 then aclCommitP d i else d, f)
  else if off = 0x04C then keeper { d with acl := { a with kidx := v &&& 0x800003FF } }
  else if 0x050 ≤ off && off < 0x060 then keeper (aclNext d a.kidx ((off - 0x050) / 4) v)
  else if off = 0x060 then core { d with acl := { a with pidx := v &&& 0x800003FF } }
  else if 0x064 ≤ off && off < 0x074 then
    if 768 ≤ bits a.pidx 0 10 then no else core (aclNext d a.pidx ((off - 0x064) / 4) v)
  else if off = 0x078 then
    let t : BitVec 5 := BitVec.ofNat 5 (bits v 0 5)
    core { d with acl := { a with vtail := t, vfull := (a.vhead - t).toNat } }
  else if off = 0x07C then (if bit v 31 then (fvalidClear d i, f) else (d, f))
  else if off = 0x098 then
    let d := if bit v 2 then krestartCommand d i else d
    let d := if bit v 1 then prestartCommand d i else d
    if bit v 0 then worldReady d f i else (d, f)
  else if off = 0x0A0 then
    if bits v 0 16 = 0 && lcState f != 1 then no else core { d with acl := { a with pwdog := BitVec.ofNat 16 (bits v 0 16) } }
  else if off = 0x0A4 then (keeperPet d i, f)
  else if off = 0x0A8 then (porterPet d i, f)
  else if off = 0x0AC then keeper { d with acl := { a with pinclaim := bit v 0 } }
  else (d, f)

def potRegWrite (d : Dev) (i : Ini) (off : Nat) (v : Word) : Dev :=
  let p := d.pot
  let no := ignored d i (regAddr potPage off)
  let core (k : Pot) : Dev := if coreOnly i then { d with pot := k } else no
  let keeper (k : Pot) : Dev := if keeperOnly i then { d with pot := k } else no
  if off = 0x044 then
    let d := if bit v 1 then potCommitK d i else d
    if bit v 0 then potCommitP d i else d
  else if off = 0x048 then keeper { p with kfirst := BitVec.ofNat 13 (bits v 0 13) }
  else if off = 0x04C then keeper { p with kcount := BitVec.ofNat 14 (bits v 0 14) }
  else if off = 0x050 then keeper { p with kval := v &&& 0xF3FF0000 }
  else if off = 0x054 then potApply d i true
  else if off = 0x058 then core { p with pfirst := BitVec.ofNat 13 (bits v 0 13) }
  else if off = 0x05C then core { p with pcount := BitVec.ofNat 14 (bits v 0 14) }
  else if off = 0x060 then core { p with pval := v &&& 0xF3FF0000 }
  else if off = 0x064 then potApply d i false
  else if off = 0x068 then { d with pot := { p with rdidx := v &&& 0x80001FFF } }
  else d

/-! ### Random numbers, life cycle, recorder -/

/-- RNG_RAWCTL works in TEST; the buffer starts empty when another source is routed to it (09 R286). -/
def rngWrite (d : Dev) (f : Fuse) (i : Ini) (off : Nat) (v : Word) : Dev :=
  let r := d.rng
  if off = 0x068 then { d with rng := { r with instsel := BitVec.ofNat 9 (bits v 0 9) } }
  else if off = 0x070 then
    if lcState f != 1 then ignored d i (regAddr rngPage off)
    else
      let src : BitVec 3 := BitVec.ofNat 3 (bits v 0 3)
      let same := r.rawEn && bit v 31 && r.rawSrc == src
      { d with rng := { r with rawEn := bit v 31, rawSrc := src, rawBuf := if same || !bit v 31 then r.rawBuf else [] } }
  else d

def lcsWrite (d : Dev) (f : Fuse) (i : Ini) (off : Nat) (v : Word) : Dev × Fuse :=
  let may := keeperOnly i && lcState f == 1
  let no := (ignored d i (regAddr lcsPage off), f)
  if off = 0x060 then (if may then ({ d with lcs := { d.lcs with fuseIdx := BitVec.ofNat 6 (bits v 0 6) } }, f) else no)
  else if off = 0x064 then (if may then ({ d with lcs := { d.lcs with fuseData := v } }, f) else no)
  else if off = 0x068 then
    if bit v 1 then genDrs d f i else if bit v 0 then fuseProgram d f i else (d, f)
  else (d, f)

def evrWrite (d : Dev) (i : Ini) (off : Nat) (v : Word) : Dev :=
  let no := ignored d i (regAddr evrPage off)
  if off = 0x05C then (if bit v 0 then evrFlush d else d)
  else if off = 0x060 then
    if keeperOnly i then { d with evr := { d.evr with rateIdx := BitVec.ofNat 7 (bits v 0 7) } } else no
  else if off = 0x064 then
    let k := d.evr.rateIdx.toNat
    if keeperOnly i then setRate d k { getRate d k with reg := v &&& 0x9FFFFFFF } else no
  else
    match winOf off with
    | none => d
    | some (w, o) =>
      let x := getWin d w
      if o = 0 || o = 4 then
        (if winOwner w i then setWin d w { x with seq := if o = 0 then withLo x.seq v else withHi x.seq v } else no)
      else if o = 8 then (if bit v 0 then snapFetch d i w else d)
      else d

/-! ### Service, twin, monitors -/

def svcWrite (d : Dev) (f : Fuse) (i : Ini) (off : Nat) (v : Word) : Dev :=
  if off != 0x064 then d
  else if !reqsetOk i v then ignored d i (regAddr svcPage 0x064)
  else
    let d := reqsetSet d i v
    reqsetClear d f i v

def twnWrite (d : Dev) (f : Fuse) (i : Ini) (off : Nat) (v : Word) : Dev :=
  let no := ignored d i (regAddr twnPage off)
  if off = 0x048 then
    let d := if bit v 3 then retrainCommand d i else d
    let d := if bit v 2 then parkCommand d i v else d
    let d := if bit v 1 then releaseCommand d i v else d
    if bit v 0 then grantCommand d f i else d
  else if off = 0x070 then
    (if isKeeperCore i.id then { d with twn := { d.twn with syncIvl := BitVec.ofNat 24 (bits v 0 24) } } else no)
  else if 0x400 ≤ off && off < 0x4E0 then
    (if (isPf i.id && i.priv) || isKeeperCore i.id then { d with twn := { d.twn with grantBuf := tabPut d.twn.grantBuf ((off - 0x400) / 4) v } } else no)
  else d

def pmcWrite (d : Dev) (i : Ini) (m off : Nat) (v : Word) : Dev :=
  let x := getMon d m
  if off = 0x040 then monCtl d m (bit v 31) (bit v 0)
  else if off = 0x044 then monBind d i m v
  else if off = 0x048 then setMon d m { x with filt := v &&& 0xF00FFFFF }
  else if off = 0x04C then setMon d m { x with pfirst := v &&& 0x0FFFFFFF }
  else if off = 0x050 then setMon d m { x with plast := v &&& 0x0FFFFFFF }
  else if off = 0x054 then setMon d m { x with fsel := v &&& 0x800000FF }
  else if off = 0x058 then setMon d m { x with ev0 := v }
  else if off = 0x05C then setMon d m { x with ev1 := v }
  else if off = 0x060 then setMon d m { x with wrap := x.wrap &&& ~~~ (v.setWidth 9) }
  else d

/-! ### Power, clocks, reset -/

def pwrWrite (d : Dev) (i : Ini) (n off : Nat) (v : Word) : Dev :=
  if n < 20 then (if off = 0x044 then modDom d n fun x => { x with idle := BitVec.ofNat 16 (bits v 0 16) } else d)
  else
    let no := ignored d i (regAddr (pwrPage 20) off)
    let p := d.pwr
    if off = 0x044 then standbyCommand d i v
    else if off = 0x048 then pvoteWrite d i v
    else if off = 0x054 then
      if keeperOnly i then { d with pwr := { p with alm := BitVec.ofNat 48 (p.alm.toNat / 2 ^ 32 * 2 ^ 32 + v.toNat) } } else no
    else if off = 0x058 then
      if keeperOnly i then { d with pwr := { p with almEn := bit v 31, alm := BitVec.ofNat 48 (bits v 0 16 * 2 ^ 32 + p.alm.toNat % 2 ^ 32) } } else no
    else d

def clkWrite (d : Dev) (i : Ini) (c off : Nat) (v : Word) : Dev :=
  if c != 0 then d
  else if off = 0x048 then oppreqWrite d i v
  else if off = 0x064 then
    if isKeeperCore i.id then { d with pwr := { d.pwr with settle := BitVec.ofNat 16 (bits v 0 16) } } else ignored d i (clkAddr 0x064)
  else d

/-! ### Cards, tamper -/

/-- The APDU that CRD_CMD.send puts on the slot, from the buffer page (11 R334). -/
def crdRaw (d : Dev) (mem : List Host.Cell) (k : BitVec 2) (len : Nat) : Dev :=
  let x := getSlot d k
  slotSend d k 0xFF (memBytes mem (x.bufpg.toNat * 4096) len)

def crdWrite (d : Dev) (mem : List Host.Cell) (i : Ini) (k off : Nat) (v : Word) : Dev :=
  let s : BitVec 2 := BitVec.ofNat 2 k
  let no := ignored d i (regAddr (crdPage k) off)
  if off != 0x040 && off != 0x050 && off != 0x054 && off != 0x060 then d
  else if !isKeeperCore i.id then no
  else if off = 0x040 then
    let d := modSlot d s fun x => { x with clsSel := BitVec.ofNat 2 (bits v 0 2) }
    let d := if bit v 30 then slotDeactivate d s else d
    if bit v 31 then slotActivate d s else d
  else if off = 0x050 then modSlot d s fun x => { x with bufpg := BitVec.ofNat 13 (bits v 0 13) }
  else if off = 0x054 then (if !bit v 31 then d else if slotFree d s 0xFF then crdRaw d mem s (bits v 0 12) else no)
  else modSlot d s fun x => { x with idleMs := BitVec.ofNat 16 (bits v 0 16) }

def tmpWrite (d : Dev) (f : Fuse) (i : Ini) (off : Nat) (v : Word) : Dev × Fuse :=
  if off = 0x044 then (alarmClear d i v, f)
  else if off = 0x058 then fuseOff d f i v
  else (d, f)

/-! ### The header (18 R467-R469) -/

def evtClear (d : Dev) (p : Nat) (v : Word) : Dev := setPage d p { getPage d p with evt := (getPage d p).evt &&& ~~~ v }
def evtEnable (d : Dev) (p : Nat) (v : Word) : Dev := setPage d p { getPage d p with en := v &&& evtMask p }

/-- PG_EVT_SET, in TEST. -/
def evtSet (d : Dev) (f : Fuse) (i : Ini) (p : Nat) (v : Word) : Dev :=
  if evtMask p = 0 then d
  else if lcState f != 1 then ignored d i (regAddr p 0x028)
  else setPage d p { getPage d p with evt := (getPage d p).evt ||| (v &&& evtMask p) }

/-- PG_LOCK: keeper cores and the boot loader; once set it stays. -/
def lockWrite (d : Dev) (i : Ini) (p : Nat) (v : Word) : Dev :=
  if !keeperOnly i then ignored d i (regAddr p 0x030)
  else if (getPage d p).lock then lockHit d i p 0x030
  else setPage d p { getPage d p with lock := bit v 0 }

def headWrite (d : Dev) (f : Fuse) (i : Ini) (p off : Nat) (v : Word) : Dev :=
  if off = 0x020 then evtClear d p v
  else if off = 0x024 then evtEnable d p v
  else if off = 0x028 then evtSet d f i p v
  else if off = 0x02C then (match pageKind p with | .pwr n => if n < 20 then voteWrite d i n v else d | _ => d)
  else if off = 0x030 then lockWrite d i p v
  else d

/-! ### One register -/

/-- A register between 0x040 and 0x7FC, or anywhere in a page without a header. -/
def bodyWrite (d : Dev) (f : Fuse) (mem : List Host.Cell) (i : Ini) (p off : Nat) (v : Word) : Dev × Fuse :=
  match pageKind p with
  | .func k => (funcWrite d i k off v, f)
  | .que k => (queWrite d i k (off / 0x100) (off % 0x100) v, f)
  | .hatch _ => (d, f)
  | .msixTab k => (msixWrite d i k off v, f)
  | .pba _ => (d, f)
  | .dump k => (dumpWrite d i k off v, f)
  | .unit _ => (d, f)
  | .info => (d, f)
  | .route k => (routeWrite d i k off v, f)
  | .mbox => (mboxWrite d i off v, f)
  | .i3c => (i3cRegWrite d i off v, f)
  | .acl => aclWrite d f i off v
  | .pot => (potRegWrite d i off v, f)
  | .rng => (rngWrite d f i off v, f)
  | .lcs => lcsWrite d f i off v
  | .evr => (evrWrite d i off v, f)
  | .svc => (svcWrite d f i off v, f)
  | .twn => (twnWrite d f i off v, f)
  | .pmc m => (pmcWrite d i m off v, f)
  | .pwr n => (pwrWrite d i n off v, f)
  | .clk c => (clkWrite d i c off v, f)
  | .rst => (if off = 0x044 then coldCommand d i v else d, f)
  | .key => (d, f)
  | .crd k => (crdWrite d mem i k off v, f)
  | .tmp => tmpWrite d f i off v
  | .none => (d, f)

/-- Pages that take writes from keeper cores only: KEY and CRD (08 R262, 11 R334); the tamper page takes the boot loader's too. -/
def pageShut (i : Ini) (p : Nat) : Bool :=
  match pageKind p with
  | .key => !isKeeperCore i.id | .crd _ => !isKeeperCore i.id | .tmp => !keeperOnly i
  | _ => false

/-- A write of one whole register. -/
def regWrite (d : Dev) (f : Fuse) (mem : List Host.Cell) (i : Ini) (p off : Nat) (v : Word) : Dev × Fuse :=
  let locked := (getPage d p).lock && decide (off < 0x800) && rwReg p off
  if pageShut i p then (ignored d i (regAddr p off), f)
  else if headless p then bodyWrite d f mem i p off v
  else if off < 0x040 then (headWrite d f i p off v, f)
  else if isQue p then (if locked then (lockHit d i p off, f) else bodyWrite d f mem i p off v)
  else if 0x800 ≤ off then (if isGuarded (regAddr p (off - 0x800)) then (guardShadow d f i (regAddr p (off - 0x800)) v, f) else (d, f))
  else if isGuarded (regAddr p off) then (guardPend d f i (regAddr p off) v, f)
  else if locked then (lockHit d i p off, f)
  else bodyWrite d f mem i p off v

/-! ### A write of bytes (18 R464, 03 R80) -/

/-- The whole registers that a write covers, in ascending order: offset and value. -/
def wholeRegs (off : Nat) (data : List Byte) : List (Nat × Word) :=
  let first := 4 * ((off + 3) / 4)
  let n := (off + data.length - first) / 4
  (List.range n).map fun k => (first + 4 * k, lowOf (leAt data (first + 4 * k - off) 4))

/-- Registers that a write covers only in part. -/
def partRegs (off : Nat) (data : List Byte) : List Nat :=
  let last := off + data.length
  let head := if off % 4 = 0 then [] else [off / 4 * 4]
  let tail := if last % 4 = 0 || (off % 4 != 0 && last / 4 = off / 4) then [] else [last / 4 * 4]
  head ++ tail

/-- Bytes written to a register page. DESIGN CHOICE: a write of more than 8 bytes to a hatch page, which 03 R80 does not speak of, rings no
doorbell (log entry 71). -/
def regBytesWrite (d : Dev) (f : Fuse) (mem : List Host.Cell) (i : Ini) (p off : Nat) (data : List Byte) : Dev × Fuse :=
  let last := off + data.length
  match pageKind p with
  | .hatch k =>
    let qs := (List.range 16).filter fun q => decide (off < 0x40 * q + 4) && decide (0x40 * q < last)
    (if 8 < data.length then d else qs.foldl (fun d q => ringHatch d k q) d, f)
  | .msixTab _ =>
    if (data.length = 4 && off % 4 = 0) || (data.length = 8 && off % 8 = 0) then
      (wholeRegs off data).foldl (fun r w => regWrite r.1 r.2 mem i p w.1 w.2) (d, f)
    else (ignored d i (regAddr p off), f)
  | _ =>
    let holds (o : Nat) : Bool := headless p || isQue p || decide (o < 0x800) || isGuarded (regAddr p (o - 0x800))
    let d := ((partRegs off data).filter holds).foldl (fun d o => ignored d i (regAddr p o)) d
    (wholeRegs off data).foldl (fun r w => regWrite r.1 r.2 mem i p w.1 w.2) (d, f)

/-! ### The commands -/

/-- A command's write of an internal address, which the map and the keeper-page rule decide first: an address without a page, a page
that the function's BAR0 does not show, and a keeper page for the porter world take nothing (10 R291, R293, 18 R466, R472). -/
def writeAt (s : State) (i : Ini) (addr : Nat) (data : List Byte) (k : Dev → Dev × Fuse) : Host.Outcome State Fault Refusal :=
  let p := addr / 0x1000
  if pageKind p = .none || !hostSees i p then .next s
  else if keeperPage s.dev p && !iniKeeper s.dev i.id then .next { s with dev := keeperDenied s.dev i addr }
  else
    match asleep s.dev p with
    | some n => .next { s with dev := stallTxn s.dev ⟨regTxn i addr data, n, false, s.dev.pot.commits⟩ }
    | none => actFuse s (k (touchPage s.dev p))

/-- REGISTER_WRITE (00 R10, 18 R464). -/
def execRegisterWrite (ini : Ini) (addr : BitVec 40) (data : List Byte) (s : State) : Host.Outcome State Fault Refusal :=
  writeAt s ini addr.toNat (data.take (0x1000 - addr.toNat % 0x1000)) fun d =>
    regBytesWrite d s.fuse s.mem ini (addr.toNat / 0x1000) (addr.toNat % 0x1000) (data.take (0x1000 - addr.toNat % 0x1000))

/-- GUARDED_REGISTER_WRITE (13 R369). -/
def execGuardedRegisterWrite (ini : Ini) (addr : BitVec 40) (v : Word) (s : State) : Host.Outcome State Fault Refusal :=
  if isGuarded addr.toNat then writeAt s ini addr.toNat (leBytes 4 v.toNat) fun d => regWrite d s.fuse s.mem ini (addr.toNat / 0x1000) (addr.toNat % 0x1000) v
  else .next s

/-- GUARDED_SHADOW_WRITE (13 R369): the address is that of the shadow. -/
def execGuardedShadowWrite (ini : Ini) (addr : BitVec 40) (v : Word) (s : State) : Host.Outcome State Fault Refusal :=
  if 0x800 ≤ addr.toNat % 0x1000 && isGuarded (addr.toNat - 0x800) then
    writeAt s ini addr.toNat (leBytes 4 v.toNat) fun d => regWrite d s.fuse s.mem ini (addr.toNat / 0x1000) (addr.toNat % 0x1000) v
  else .next s

/-- PG_EVT_SET_WRITE (18 R469, 00 R13). -/
def execPgEvtSetWrite (ini : Ini) (page : BitVec 28) (v : Word) (s : State) : Host.Outcome State Fault Refusal :=
  if headless page.toNat then .next s
  else writeAt s ini (page.toNat * 0x1000 + 0x028) (leBytes 4 v.toNat) fun d => regWrite d s.fuse s.mem ini page.toNat 0x028 v

/-- PG_LOCK_WRITE (18 R468). -/
def execPgLockWrite (ini : Ini) (page : BitVec 28) (v : Word) (s : State) : Host.Outcome State Fault Refusal :=
  if headless page.toNat then .next s
  else writeAt s ini (page.toNat * 0x1000 + 0x030) (leBytes 4 v.toNat) fun d => regWrite d s.fuse s.mem ini page.toNat 0x030 v

end Sys2Proof.Machine
end

