-- ==== Sys2Proof/Machine/Fabric.lean ====
section
/-! DEFINITION. The interconnect: how a transaction is checked, carried out, refused or made to wait (10 R289-R303, 12 R349,
14 R381, R382, 15 R414). -/

namespace Sys2Proof.Machine

/-! ### Attributes and the address map (10 R289, R290) -/

/-- The attributes as hardware sets them: only a core's mode is its own. -/
def txnIni (t : Txn) : Ini :=
  { id := t.ini.id
    priv := if isFnId t.ini.id then t.mmio else if isPorterCore t.ini.id || isKeeperCore t.ini.id then t.ini.priv else true }

/-- The regions of the internal space. -/
inductive Region where
  | sram | regs | keeperOnly | mram | rom | unmapped
deriving DecidableEq, Repr

/-- The region of a page; a page of the register regions that no block takes is unmapped (18 R466). -/
def regionOf (p : Nat) : Region :=
  if p < 0x2000 then .sram
  else if 0x10000 ≤ p && p < 0x19000 then
    (if pageKind p = .none then .unmapped else if p < 0x18000 then .regs else .keeperOnly)
  else if 0x20000 ≤ p && p < 0x21000 then .mram
  else if 0x30000 ≤ p && p < 0x30040 then .rom
  else .unmapped

/-- Keeper pages of the whole map (10 R293). -/
def keeperAddr (d : Dev) (p : Nat) : Bool :=
  match regionOf p with
  | .sram => potWorld (potGet d.pot.cur p)
  | .mram => true
  | .rom => true
  | _ => keeperPage d p

/-! ### The checks (10 R291, R295, R298-R300) -/

/-- Step 3: what the page owner entry admits. -/
def potAdmits (d : Dev) (i : Ini) (k : TxnKind) (p : Nat) : Bool :=
  let e := potGet d.pot.cur p
  let core := isPorterCore i.id || isKeeperCore i.id
  if potBad e || potKind e = 0 then false
  else if potKind e = 1 then
    if potWorld e then isKeeperCore i.id || isBoot i.id || isTwinDma i.id || (isDebug i.id && d.lcs.dbgKeeper)
    else core || isDebug i.id
  else if potKind e = 2 then isFnId i.id && !potWorld e && k != .fetch
  else i.id == BitVec.ofNat 10 (bits e 16 10) && (core || k != .fetch)

/-- An entry matches a transaction; porter-section entries never match the keeper world. -/
def aclMatch (keeper : Bool) (i : Ini) (p n : Nat) (e : AclEnt) : Bool :=
  bit e.w0 31 &&
  (i.id ^^^ BitVec.ofNat 10 (bits e.w0 0 10)) &&& ~~~ (BitVec.ofNat 10 (bits e.w0 10 10)) == 0 &&
  decide (bits e.w1 0 28 ≤ p) && decide (p ≤ bits e.w2 0 28) &&
  admits (bits e.w0 29 2) keeper && admits (bits e.w0 27 2) (!i.priv) &&
  !(keeper && decide (n < 768))

/-- The highest-numbered entry that matches. -/
def aclWinner (d : Dev) (i : Ini) (p : Nat) : Option (Nat × AclEnt) :=
  (d.acl.cur.filter fun (e : Nat × AclEnt) => aclMatch (iniKeeper d i.id) i p e.1 e.2).getLast?

/-- The permission bits of an entry: r, w, x. -/
def permits (r w x : Bool) (k : TxnKind) : Bool :=
  match k with | .read => r | .write => w | .fetch => x | .atomic => r && w

/-- The default map, for privileged transactions. -/
def defaultMap (i : Ini) (p : Nat) (k : TxnKind) : Bool :=
  match regionOf p with
  | .sram => true
  | .regs => permits true true false k
  | .keeperOnly => permits true true false k
  | .mram => keeperOnly i && permits true true false k
  | .rom => keeperOnly i && permits true false true k
  | .unmapped => false

/-- Only keeper cores reach the KEY page (08 R262); a write of another initiator is the page's own to ignore (log entry 68). -/
def keyPageShut (i : Ini) (k : TxnKind) (p : Nat) : Bool := pageKind p = .key && !isKeeperCore i.id && k != .write

/-- The rule code that denies an access to a page, none where it is permitted. -/
def denyRule (d : Dev) (i : Ini) (k : TxnKind) (p : Nat) : Option Nat :=
  if !iniKeeper d i.id && keeperAddr d p then some 0x402
  else if keyPageShut i k p then some 0x400
  else if regionOf p = .sram && !potAdmits d i k p then some 0x403
  else
    match aclWinner d i p with
    | some (n, e) => if permits (bit e.w3 2) (bit e.w3 1) (bit e.w3 0) k then none else some n
    | none => if !i.priv then some 0x401 else if defaultMap i p k then none else some 0x400

/-! ### Carrying a permitted part out -/

/-- Poisoned words of shared SRAM that an access touches (15 R414). -/
def poisonIn (d : Dev) (a n : Nat) : Bool := d.pot.poison.any fun w => decide (w < a + n) && decide (a < w + 8)

/-- Shared SRAM as a read finds it: a poisoned word reads zeros. -/
def sramBytes (s : State) (a n : Nat) : List Byte :=
  (List.range n).map fun k => if s.dev.pot.poison.contains ((a + k) / 8 * 8) then 0 else memGet s.mem (a + k)

/-- What a read of one page returns: success, bytes, and the device after it. -/
def partRead (s : State) (i : Ini) (a n : Nat) : Bool × List Byte × Dev :=
  match regionOf (a / 0x1000) with
  | .sram => (!poisonIn s.dev a n, sramBytes s a n, s.dev)
  | .mram => (true, memBytes s.mem a n, s.dev)
  | .rom => (true, (List.range n).map fun k => Config.maskRom (a + k - 0x30000000), s.dev)
  | .unmapped => (false, zeros n, s.dev)
  | _ => (true, regBytes s.dev s.fuse i (a / 0x1000) (a % 0x1000) n, regReadEffect s.dev s.fuse i (a / 0x1000) (a % 0x1000) n)

/-- What a write of one page does. A word written whole loses its poison. -/
def partWrite (s : State) (i : Ini) (a : Nat) (bs : List Byte) : State :=
  match regionOf (a / 0x1000) with
  | .sram =>
    let whole (w : Nat) : Bool := decide (a ≤ w) && decide (w + 8 ≤ a + bs.length)
    { s with mem := memPutBytes s.mem a bs,
             dev := { s.dev with pot := { s.dev.pot with poison := s.dev.pot.poison.filter fun w => !whole w } } }
  | .mram => { s with mem := memPutBytes s.mem a bs }
  | .rom => s
  | .unmapped => s
  | _ =>
    let r := regBytesWrite s.dev s.fuse s.mem i (a / 0x1000) (a % 0x1000) bs
    { s with dev := r.1, fuse := r.2 }

/-- The read mirror of a page whose domain sleeps: the posted writes that wait for it have landed in its RW fields (14 R382). -/
def mirrorOf (s : State) (p : Nat) : State :=
  s.dev.acl.stalled.foldl (fun (s : State) (x : Stalled) =>
    if x.t.mmio && x.t.kind == .write && x.t.addr.toNat / 0x1000 == p then
      let ws := (wholeRegs (x.t.addr.toNat % 0x1000) x.t.data).filter fun w => rwReg p w.1
      let r := ws.foldl (fun (r : Dev × Fuse) w => regWrite r.1 r.2 s.mem (txnIni x.t) p w.1 w.2) (s.dev, s.fuse)
      { s with dev := r.1, fuse := r.2 }
    else s) s

/-- The page pieces of an access: address, length and the bytes written. -/
def pieces (fuel a n : Nat) (data : List Byte) : List (Nat × Nat × List Byte) :=
  match fuel with
  | 0 => []
  | k + 1 =>
    if n = 0 then []
    else
      let m := min n (0x1000 - a % 0x1000)
      (a, m, data.take m) :: pieces k (a + m) (n - m) (data.drop m)

def txnPieces (t : Txn) : List (Nat × Nat × List Byte) := pieces (t.len / 0x1000 + 2) t.addr.toNat t.len t.data

/-- A write without an error response. -/
def isPosted (t : Txn) : Bool := t.kind == .write && t.buffered

/-- What a piece waits for: its page's wipe for a commit that came before its check (`at_` commits were made then), or its domain;
host reads are answered from the read mirror. -/
def pieceWaits (d : Dev) (t : Txn) (at_ a : Nat) : Option Nat :=
  let p := a / 0x1000
  if p < 0x2000 && d.pot.wipes.any (fun w => w.1 == p && decide (w.2 ≤ at_)) then some 255
  else if t.mmio && t.kind == .read then none
  else asleep d p

/-- One permitted piece: a read's bytes come before a write's effect, so that an atomic returns what was there. -/
def doPiece (t : Txn) (acc : State × Bool × List Byte) (x : Nat × Nat × List Byte) : State × Bool × List Byte :=
  let i := txnIni t
  let s := acc.1
  let p := x.1 / 0x1000
  let mirrored := t.mmio && t.kind == .read && (asleep s.dev p).isSome
  let s := if t.mmio && t.kind == .read then s else { s with dev := touchPage s.dev p }
  let r := if t.kind == .write then (true, [], s.dev)
    else if mirrored then (let m := partRead (mirrorOf s p) i x.1 x.2.1; (m.1, m.2.1, s.dev)) else partRead s i x.1 x.2.1
  let s := { s with dev := r.2.2 }
  let s := if t.kind == .write || t.kind == .atomic then partWrite s i x.1 (fit x.2.1 x.2.2) else s
  let d := if t.kind == .write then s.dev else pmcFabric s.dev 0x13 x.2.1 i p
  let d := if t.kind == .write || t.kind == .atomic then pmcFabric d 0x14 x.2.1 i p else d
  ({ s with dev := d }, acc.2.1 && r.1, acc.2.2 ++ r.2.1)

/-- The response of an access that gets one: a write returns no bytes. -/
def respond (s : State) (t : Txn) (ok : Bool) (bs : List Byte) : State :=
  if isPosted t then s else { s with dev := emit s.dev (.fabric t.ini.id ok bs) }

/-- Carry out an access that the checks permit, or make it wait; `oldAcl` says that a commit of the access
table has followed its check, `potAt` how many commits of the page owner table came before it. -/
def carry (s : State) (t : Txn) (oldAcl : Bool) (potAt : Nat) : State :=
  let ps := txnPieces t
  match ps.findSome? fun x => pieceWaits s.dev t potAt x.1 with
  | some n => { s with dev := stallTxn s.dev ⟨t, n, oldAcl, potAt⟩ }
  | none =>
    let r := ps.foldl (doPiece t) (s, true, [])
    respond r.1 t r.2.1 r.2.2

/-- An access is denied: recorded, and answered with zeros and an error response unless it is a posted write (10 R303). -/
def deny (s : State) (t : Txn) (rule : Nat) : State :=
  let i := txnIni t
  let d := pmcFabric s.dev 0x15 1 i (t.addr.toNat / 0x1000)
  let d := violate d i t.addr.toNat (max 1 t.len) t.kind (!isPosted t) rule
  respond { s with dev := d } t false (if t.kind == .write then [] else zeros t.len)

/-- The pieces of an access are counted as they are checked (17 R457). -/
def countChecked (d : Dev) (t : Txn) : Dev :=
  let i := txnIni t
  (txnPieces t).foldl (fun d x =>
    let p := x.1 / 0x1000
    let d := if t.kind == .read || t.kind == .atomic then pmcFabric d 0x10 1 i p else d
    let d := if t.kind == .write || t.kind == .atomic then pmcFabric d 0x11 1 i p else d
    if t.kind == .fetch then pmcFabric d 0x12 1 i p else d) d

/-- Check an access that is not split, every page before any is touched, and carry it out. -/
def checkOne (s : State) (t : Txn) : State :=
  let s := { s with dev := countChecked s.dev t }
  match (txnPieces t).findSome? fun x => denyRule s.dev (txnIni t) t.kind (x.1 / 0x1000) with
  | some rule => deny s t rule
  | none => carry s t false s.dev.pot.commits

/-- What debug may issue: none, all, or reads (12 R336, R349). -/
def debugScope (d : Dev) (f : Fuse) : BitVec 2 :=
  match (lcState f).toNat with
  | 0 => 2 | 1 => 2
  | 2 => if d.lcs.active && decide (d.tick.toNat < d.lcs.dbgEnd.toNat) then d.lcs.scope else 0
  | _ => 0

/-- A transaction as the BAR decoder hands it on: host MMIO goes to the internal page that its BAR0 offset names (18 R472, R474); none
where BAR0 has no page there. -/
def decoded (t : Txn) : Option Txn :=
  if isFnId t.ini.id && t.mmio then
    (barPage t.ini.id.toNat (t.addr.toNat / 0x1000)).bind fun p =>
      if pageKind p = .none then none else some { t with addr := BitVec.ofNat 40 (regAddr p (t.addr.toNat % 0x1000)) }
  else some t

/-- A transaction on the interconnect. Initiators 275 and above never issue one, and no misaligned atomic reaches the fabric across a page
(10 R289, R292). -/
def onFabric (s : State) (t : Txn) : State :=
  let i := txnIni t
  if 275 ≤ t.ini.id.toNat || s.dev.pwr.sysstate == 3 || t.len = 0 then s
  else if t.kind == .atomic && decide (1 < (txnPieces t).length) then s
  else if isDebug t.ini.id && debugScope s.dev s.fuse == 0 then respond s t false (if t.kind == .write then [] else zeros t.len)
  else if isDebug t.ini.id && debugScope s.dev s.fuse == 1 && t.kind != .read then
    respond { s with dev := violate s.dev i t.addr.toNat t.len t.kind false 0x404 } t false (if t.kind == .write then [] else zeros t.len)
  else if t.burst then
    (txnPieces t).foldl (fun s x => checkOne s { t with addr := BitVec.ofNat 40 x.1, len := x.2.1, data := x.2.2 }) s
  else checkOne s t

/-- A transaction arrives. No host request crosses a 4 KiB page; one to a BAR0 offset without a page completes, reads zeros and writes
nothing (18 R466). -/
def transact (s : State) (t : Txn) : State :=
  if isFnId t.ini.id && t.mmio && (decide (0x1000 < t.addr.toNat % 0x1000 + t.len) || t.len = 0) then s
  else
    match decoded t with
    | some t => onFabric s t
    | none => respond s t true (if t.kind == .write then [] else zeros t.len)

/-! ### What waits goes on (10 R297, R302, 14 R381) -/

/-- The transactions that waited for a wipe or a domain go on, in their order, under the rules they were checked under. -/
def resume (s : State) (code : Nat) : State :=
  let mine := s.dev.acl.stalled.filter fun x => x.domain == code
  let kept := s.dev.acl.stalled.filter fun x => x.domain != code
  let s := { s with dev := { s.dev with acl := { s.dev.acl with stalled := kept } } }
  let s := mine.foldl (fun (s : State) (x : Stalled) => carry s x.t x.oldAcl x.potAt) s
  { s with dev := settleDrained s.dev }

/-- The oldest wipe that a page awaits, once no transaction checked before its own commit is outstanding. -/
def wipeReady (d : Dev) (k : Nat) : Option Nat :=
  match d.pot.wipes.find? fun w => w.1 == k with
  | some w => if d.acl.stalled.any fun x => decide (x.potAt < w.2) then none else some w.2
  | none => none

/-- The wipe engine has zeroed a page and read it back. -/
def pageWiped (s : State) (k : Nat) (ok : Bool) : State :=
  match wipeReady s.dev k with
  | some c => resume { s with mem := memWipe s.mem (0x1000 * k) 0x1000, dev := wipePage s.dev k c ok } 255
  | none => s

/-- Cycles that stalled transactions spent in a tick (17 R457). -/
def stallCycles (d : Dev) : Dev :=
  d.acl.stalled.foldl (fun d (x : Stalled) =>
    if x.domain < 20 then pmcFabric d 0x16 40000 (txnIni x.t) (x.t.addr.toNat / 0x1000) else d) d

/-! ### The commands -/

/-- FABRIC_TRANSACTION (10 R291). -/
def execFabricTransaction (t : Txn) (s : State) : Host.Outcome State Fault Refusal := .next (transact s t)

/-- PAGE_WIPE (10 R297). -/
def execPageWipe (page : BitVec 13) (readbackOk : Bool) (s : State) : Host.Outcome State Fault Refusal :=
  .next (pageWiped s page.toNat readbackOk)

/-- DOMAIN_READY (14 R379, R381). -/
def execDomainReady (domain : BitVec 5) (s : State) : Host.Outcome State Fault Refusal :=
  if badDomain domain then .fault .noSuchDomain
  else if (getDom s.dev domain.toNat).state != 1 then .next s
  else .next (resume { s with dev := domReady s.dev domain.toNat } domain.toNat)

end Sys2Proof.Machine
end

