-- ==== Sys2Proof/Machine/RngCmds.lean ====
section
/-! DEFINITION. The commands of the RNG block (09): raw blocks, health tests, draws and raw samples. -/

namespace Sys2Proof.Machine

/-- A command that names a noise source: there are six (09 R263). -/
def actSource (s : State) (i : BitVec 3) (f : Dev → Dev) : Host.Outcome State Fault Refusal :=
  if 5 < i.toNat then .fault .noSuchSource else act s f

/-- RAW_BLOCK_COMPLETE (09 R268, R269). -/
def execRawBlockComplete (source : BitVec 3) (raw : List Byte) (shaAgree : Bool) (s : State) : Host.Outcome State Fault Refusal :=
  actSource s source fun d => rawBlock d source.toNat raw shaAgree

/-- SOURCE_ALARM (09 R266, R267, R284): the samples of each source up to the one at which a test fires, of more than one source
where the alarms come in one cycle. -/
def execSourceAlarm (alarm : SourceSamples) (others : List SourceSamples) (s : State) : Host.Outcome State Fault Refusal :=
  if (alarm :: others).any fun x => decide (5 < x.source.toNat) then .fault .noSuchSource
  else act s fun d => alarmSources d (alarm :: others)

/-- STARTUP_TEST_DONE (09 R266, R271, R283): the 1,024 samples of the test, and what the known-answer tests of R285 find. -/
def execStartupTestDone (source : BitVec 3) (found : StartupIn) (s : State) : Host.Outcome State Fault Refusal :=
  actSource s source fun d => startupTest d source.toNat found.bits found.kat

/-- PK_DRAW (09 R279). -/
def execPkDraw (job : JobId) (s : State) : Host.Outcome State Fault Refusal := act s fun d => makeDraw d job

/-- RNG_WAIT_TIMEOUT (09 R281). -/
def execRngWaitTimeout (job : JobId) (s : State) : Host.Outcome State Fault Refusal := act s fun d => waitTimeout d job

/-- RNG_RAWDATA_READ (09 R286, R287). -/
def execRngRawdataRead (ini : Ini) (arrived : List Bool) (s : State) : Host.Outcome State Fault Refusal :=
  act s fun d =>
    if !hostSees ini rngPage then d
    else
    let t : Txn := { ini := ini, mmio := isFnId ini.id && ini.priv, kind := .read, burst := false, buffered := false,
                     addr := BitVec.ofNat 40 (regAddr rngPage 0x074), len := 4, data := [] }
    match if t.mmio then none else asleep d rngPage with
    | some n => stallTxn d ⟨t, n, false, d.pot.commits⟩
    | none =>
      let r := rawRead (if t.mmio then d else touchPage d rngPage) s.fuse arrived
      emit r.2 (.regRead ini.id r.1)

end Sys2Proof.Machine
end

