-- ==== Sys2Proof/Machine/Submit.lean ====
section
/-! DEFINITION. Job submission: an entry of each job code is fetched (03 R80-R87, R102), staged and checked (04 R111); what the
job then does happens at later commands (plan cut, boundary, keeper). -/

namespace Sys2Proof.Machine

/-- Fetch one entry of a job code, as long as the conditions of 03 R82 hold; the device half of the index block follows (03 R83). A
function that may issue no request cannot read the entry (03 R99, R102). -/
def fetchJob (d : Dev) (fuse : Fuse) (k : JobKind) (e : Entry) : Dev :=
  let f := e.fn.toNat
  let q := e.q.toNat
  let stop := fetchStop d f q
  if !queueOpen d e.fn e.q then d
  else if stop.win || stop.cq || stop.stage then showStop d f q stop
  else if !(getFn d f).bme then haltFunction d e.fn e.q 0x0E (getQ d f q).sqCons
  else writeIndex (submit (pmcFn (showStop d f q stop) 0x21 f 1) fuse k e) f q

/-- A job's command. -/
def submitJob (s : State) (k : JobKind) (e : Entry) : Host.Outcome State Fault Refusal :=
  actStaged s fun d => fetchJob d s.fuse k e

/-! ### Public-key jobs (04 R112-R115, 05) -/

/-- ECDSA_SIGN_P384: sign a digest with a P-384 private key. -/
def execEcdsaSignP384 (e : Entry) (s : State) : Host.Outcome State Fault Refusal := submitJob s .ecdsaSignP384 e

/-- ECDSA_VERIFY_P384: verify with a public point in the operands. -/
def execEcdsaVerifyP384 (e : Entry) (s : State) : Host.Outcome State Fault Refusal := submitJob s .ecdsaVerifyP384 e

/-- ECDSA_VERIFY_P384_KEY: verify with the point of a key. -/
def execEcdsaVerifyP384Key (e : Entry) (s : State) : Host.Outcome State Fault Refusal := submitJob s .ecdsaVerifyP384Key e

/-- ECDH_P384: agree on a volatile secret. -/
def execEcdhP384 (e : Entry) (s : State) : Host.Outcome State Fault Refusal := submitJob s .ecdhP384 e

/-- KEYGEN_P384: make a volatile pair. -/
def execKeygenP384 (e : Entry) (s : State) : Host.Outcome State Fault Refusal := submitJob s .keygenP384 e

/-- ECDSA_SIGN_P256. -/
def execEcdsaSignP256 (e : Entry) (s : State) : Host.Outcome State Fault Refusal := submitJob s .ecdsaSignP256 e

/-- ECDSA_VERIFY_P256. -/
def execEcdsaVerifyP256 (e : Entry) (s : State) : Host.Outcome State Fault Refusal := submitJob s .ecdsaVerifyP256 e

/-- ECDSA_VERIFY_P256_KEY. -/
def execEcdsaVerifyP256Key (e : Entry) (s : State) : Host.Outcome State Fault Refusal := submitJob s .ecdsaVerifyP256Key e

/-- ECDH_P256. -/
def execEcdhP256 (e : Entry) (s : State) : Host.Outcome State Fault Refusal := submitJob s .ecdhP256 e

/-- KEYGEN_P256. -/
def execKeygenP256 (e : Entry) (s : State) : Host.Outcome State Fault Refusal := submitJob s .keygenP256 e

/-- RSA_VERIFY_PKCS1V15. -/
def execRsaVerifyPkcs1v15 (e : Entry) (s : State) : Host.Outcome State Fault Refusal := submitJob s .rsaVerifyPkcs1v15 e

/-- RSA_VERIFY_PSS. -/
def execRsaVerifyPss (e : Entry) (s : State) : Host.Outcome State Fault Refusal := submitJob s .rsaVerifyPss e

/-! ### Symmetric jobs (04 R116-R119, 06) -/

/-- GCM_ENCRYPT: the device makes the IV. -/
def execGcmEncrypt (e : Entry) (s : State) : Host.Outcome State Fault Refusal := submitJob s .gcmEncrypt e

/-- GCM_DECRYPT. -/
def execGcmDecrypt (e : Entry) (s : State) : Host.Outcome State Fault Refusal := submitJob s .gcmDecrypt e

/-- CCM_ENCRYPT. -/
def execCcmEncrypt (e : Entry) (s : State) : Host.Outcome State Fault Refusal := submitJob s .ccmEncrypt e

/-- CCM_DECRYPT. -/
def execCcmDecrypt (e : Entry) (s : State) : Host.Outcome State Fault Refusal := submitJob s .ccmDecrypt e

/-- CTR_CRYPT. -/
def execCtrCrypt (e : Entry) (s : State) : Host.Outcome State Fault Refusal := submitJob s .ctrCrypt e

/-- CBC_ENCRYPT. -/
def execCbcEncrypt (e : Entry) (s : State) : Host.Outcome State Fault Refusal := submitJob s .cbcEncrypt e

/-- CBC_DECRYPT. -/
def execCbcDecrypt (e : Entry) (s : State) : Host.Outcome State Fault Refusal := submitJob s .cbcDecrypt e

/-- CMAC_GENERATE. -/
def execCmacGenerate (e : Entry) (s : State) : Host.Outcome State Fault Refusal := submitJob s .cmacGenerate e

/-- CMAC_VERIFY. -/
def execCmacVerify (e : Entry) (s : State) : Host.Outcome State Fault Refusal := submitJob s .cmacVerify e

/-- METER_GCM_ENCRYPT: a derivation, then GCM. -/
def execMeterGcmEncrypt (e : Entry) (s : State) : Host.Outcome State Fault Refusal := submitJob s .meterGcmEncrypt e

/-- METER_GCM_DECRYPT. -/
def execMeterGcmDecrypt (e : Entry) (s : State) : Host.Outcome State Fault Refusal := submitJob s .meterGcmDecrypt e

/-! ### Hash and derivation jobs (04 R120, R121, 07) -/

/-- SHA256. -/
def execSha256 (e : Entry) (s : State) : Host.Outcome State Fault Refusal := submitJob s .sha256 e

/-- SHA384. -/
def execSha384 (e : Entry) (s : State) : Host.Outcome State Fault Refusal := submitJob s .sha384 e

/-- SHA512. -/
def execSha512 (e : Entry) (s : State) : Host.Outcome State Fault Refusal := submitJob s .sha512 e

/-- HMAC_GENERATE. -/
def execHmacGenerate (e : Entry) (s : State) : Host.Outcome State Fault Refusal := submitJob s .hmacGenerate e

/-- HMAC_VERIFY. -/
def execHmacVerify (e : Entry) (s : State) : Host.Outcome State Fault Refusal := submitJob s .hmacVerify e

/-- KDF_DERIVE: a volatile key from a secret. -/
def execKdfDerive (e : Entry) (s : State) : Host.Outcome State Fault Refusal := submitJob s .kdfDerive e

/-- IMAGE_DIGEST: SHA-384 with the image prefix. -/
def execImageDigest (e : Entry) (s : State) : Host.Outcome State Fault Refusal := submitJob s .imageDigest e

/-! ### Key management jobs (04 R122, R123, 08 R249-R258) -/

/-- KEY_GENERATE: a new cellar key below a parent. -/
def execKeyGenerate (e : Entry) (s : State) : Host.Outcome State Fault Refusal := submitJob s .keyGenerate e

/-- CRATE_LOAD. -/
def execCrateLoad (e : Entry) (s : State) : Host.Outcome State Fault Refusal := submitJob s .crateLoad e

/-- CRATE_EXPORT. -/
def execCrateExport (e : Entry) (s : State) : Host.Outcome State Fault Refusal := submitJob s .crateExport e

/-- KEY_EVICT. -/
def execKeyEvict (e : Entry) (s : State) : Host.Outcome State Fault Refusal := submitJob s .keyEvict e

/-- KEY_REPLACE_BEGIN. -/
def execKeyReplaceBegin (e : Entry) (s : State) : Host.Outcome State Fault Refusal := submitJob s .keyReplaceBegin e

/-- KEY_REPLACE_COMMIT. -/
def execKeyReplaceCommit (e : Entry) (s : State) : Host.Outcome State Fault Refusal := submitJob s .keyReplaceCommit e

/-- KEY_INVALIDATE. -/
def execKeyInvalidate (e : Entry) (s : State) : Host.Outcome State Fault Refusal := submitJob s .keyInvalidate e

/-- KEY_INFO. -/
def execKeyInfo (e : Entry) (s : State) : Host.Outcome State Fault Refusal := submitJob s .keyInfo e

/-- KEY_PUBLIC. -/
def execKeyPublic (e : Entry) (s : State) : Host.Outcome State Fault Refusal := submitJob s .keyPublic e

/-- TENANT_PLAN_LOAD. -/
def execTenantPlanLoad (e : Entry) (s : State) : Host.Outcome State Fault Refusal := submitJob s .tenantPlanLoad e

/-! ### Random and attestation jobs (04 R124, R125, 08 R259-R261, 09 R276) -/

/-- RANDOM_BYTES. -/
def execRandomBytes (e : Entry) (s : State) : Host.Outcome State Fault Refusal := submitJob s .randomBytes e

/-- DRBG_RESEED. -/
def execDrbgReseed (e : Entry) (s : State) : Host.Outcome State Fault Refusal := submitJob s .drbgReseed e

/-- ATTEST_KEY. -/
def execAttestKey (e : Entry) (s : State) : Host.Outcome State Fault Refusal := submitJob s .attestKey e

/-- ATTEST_DEVICE. -/
def execAttestDevice (e : Entry) (s : State) : Host.Outcome State Fault Refusal := submitJob s .attestDevice e

/-- ATTEST_CHAIN. -/
def execAttestChain (e : Entry) (s : State) : Host.Outcome State Fault Refusal := submitJob s .attestChain e

/-! ### Administration and quorum jobs (04 R126, R127) -/

/-- NOP. -/
def execNop (e : Entry) (s : State) : Host.Outcome State Fault Refusal := submitJob s .nop e

/-- SHARE_BUNDLE_LOAD. -/
def execShareBundleLoad (e : Entry) (s : State) : Host.Outcome State Fault Refusal := submitJob s .shareBundleLoad e

/-- ABORT. -/
def execAbort (e : Entry) (s : State) : Host.Outcome State Fault Refusal := submitJob s .abort e

/-- QUORUM_OPEN. -/
def execQuorumOpen (e : Entry) (s : State) : Host.Outcome State Fault Refusal := submitJob s .quorumOpen e

/-- QUORUM_STATUS. -/
def execQuorumStatus (e : Entry) (s : State) : Host.Outcome State Fault Refusal := submitJob s .quorumStatus e

/-- LIFECYCLE_TRANSITION. -/
def execLifecycleTransition (e : Entry) (s : State) : Host.Outcome State Fault Refusal := submitJob s .lifecycleTransition e

/-- TAMPER_LOCK_CLEAR. -/
def execTamperLockClear (e : Entry) (s : State) : Host.Outcome State Fault Refusal := submitJob s .tamperLockClear e

/-- FIRMWARE_UPDATE. -/
def execFirmwareUpdate (e : Entry) (s : State) : Host.Outcome State Fault Refusal := submitJob s .firmwareUpdate e

/-- DEBUG_AUTHORISE. -/
def execDebugAuthorise (e : Entry) (s : State) : Host.Outcome State Fault Refusal := submitJob s .debugAuthorise e

end Sys2Proof.Machine
end

