-- ==== Sys2Proof/Machine/Tick.lean ====
section
/-! DEFINITION. The plan cut and the tick boundary (01 R16, R22-R25, R32, R41): what counts in the tick that ends, what the world
outside found in it, the results that pass the collector with their effects and records, and what takes effect with the boundary. -/

namespace Sys2Proof.Machine

/-! ### Counting the tick that ends (17 R456, R457) -/

/-- Functions that a test picks out of the queues, each once. -/
def queueFns (d : Dev) (p : QueueSt → Bool) : List Nat :=
  ((d.queues.filter fun (q : Nat × QueueSt) => p q.2).map fun q => q.1 / 16).eraseDups

/-- The cycle counter of an enabled monitor; its wrap sets the ninth sticky bit. -/
def monCycles (m : MonSt) : MonSt :=
  if m.eEn then
    { m with cyc := m.cyc + 40000, wrap := if m.cyc.toNat + 40000 < 2 ^ 64 then m.wrap else m.wrap ||| 0x100 }
  else m

/-- A tick of 40,000 cycles: cycles, ticks, waits on queues and on random numbers, and stalls. -/
def countTick (d : Dev) : Dev :=
  let d := stallCycles (pmcAny (pmcAny d 0x01 40000) 0x02 1)
  let d := (queueFns d fun q => q.cqwait || q.cqSaw).foldl (fun d f => pmcFn d 0x24 f 1) d
  let d := (queueFns d fun q => q.winwait || q.winSaw).foldl (fun d f => pmcFn d 0x25 f 1) d
  let d := (((d.jobs.filter waitsRng).map fun j => j.e.fn.toNat).eraseDups).foldl (fun d f => pmcFn d 0x71 f 1) d
  { d with
    queues := tabMap (fun (q : QueueSt) => { q with cqSaw := false, winSaw := false }) d.queues
    mons := tabMap monCycles d.mons }

/-- A wrap of the cycle counters sets the wrap event of their pages. -/
def cycleWraps (before after : Dev) : Dev :=
  after.mons.foldl (fun d (m : Nat × MonSt) =>
    if m.2.wrap.getLsbD 8 && !(getMon before m.1).wrap.getLsbD 8 then raise d (pmcPage m.1) 0 else d) after

/-- The latch of every monitor, the dumps that are due, and the settings written in the tick that ends (17 R456, R459). -/
def latchMons (d : Dev) : Dev :=
  let d := { d with mons := tabMap (monLatch d.tick) d.mons }
  let d := dumpsMake d d.tick
  { d with mons := tabMap monEffect d.mons }

/-! ### Memory errors and telemetry (15 R413-R418) -/

/-- An uncorrectable error: counted, raised and recorded. The line of MRAM that held a thing is not stated: free (log entry 5). -/
def uncorrected (d : Dev) (mem : Nat) (addr : Option Nat) : Dev :=
  let d := raise { d with svc := { d.svc with uncorr := satInc d.svc.uncorr } } svcPage 3
  match addr with
  | some a => evLog d 0x0902 (lineAt svcPage 3) noFn ([BitVec.ofNat 8 mem, 0, 0, 0] ++ leBytes 4 a)
  | none =>
    evLog { d with free := d.free + 1 } 0x0902 (lineAt svcPage 3) noFn
      ([BitVec.ofNat 8 mem, 0, 0, 0] ++ leBytes 4 (Config.freeWord d.free).toNat)

/-- A line of MRAM moves to the reserve; cause 8 below a quarter of its 16,384 lines. -/
def remapLine (d : Dev) : Dev :=
  let d := raise { d with nv := { d.nv with mremap := if d.nv.mremap.toNat < 16384 then d.nv.mremap + 1 else d.nv.mremap } } svcPage 4
  if 12288 < d.nv.mremap.toNat then setCause d 8 else d

/-- A key-cache slot is lost: the jobs of a cut plan that hold it end with FAULT_DETECTED, and the slot is wiped. -/
def slotLost (d : Dev) (slot : Nat) : Dev :=
  match d.keys.cache.find? fun e => decide (e.k.slot ≤ slot) && decide (slot < e.k.slot + e.slots) with
  | none => { d with keys := { d.keys with uses := tabPut d.keys.uses slot (tabGet d.keys.uses slot 0 + 1) } }
  | some e =>
    let here (k : Option KeyVal) : Bool := match k with | some k => k.slot == e.k.slot | none => false
    let held := d.jobs.filter fun j => jobPlaced j && (here j.key || here j.wkey || here j.ekey)
    let d := held.foldl (fun d (j : Job) =>
      finishJob d j.id ((overridden j).getD { outcome stFault 0 with zero := isPkKind j.kind || isDecrypt j.kind })) d
    wipeKey d e

def memError (d : Dev) (e : MemError) : Dev :=
  match e with
  | .corrected => { d with svc := { d.svc with corrected := satInc d.svc.corrected } }
  | .sram a =>
    let w := a.toNat / 8 * 8
    let d := if d.pot.poison.contains w then d else { d with pot := { d.pot with poison := d.pot.poison ++ [w] } }
    uncorrected d 0 (some a.toNat)
  | .keySlot s => slotLost (uncorrected d 1 (some s.toNat)) s.toNat
  | .mramPlace p =>
    let d := remapLine (uncorrected d 2 none)
    match d.nv.cellar.find? fun r => r.place == p.toNat with
    | some r =>
      { d with nv := { d.nv with cellar := d.nv.cellar.filter fun x => x.place != p.toNat,
                                 lostKeys := d.nv.lostKeys ++ [(r.img.key, r.img.version)] } }
    | none => { d with nv := { d.nv with old := d.nv.old.filter fun x => x.place != p.toNat } }
  | .mramEvent n =>
    let d := remapLine (uncorrected d 2 none)
    { d with nv := { d.nv with evBad := if d.nv.evBad.contains n then d.nv.evBad else d.nv.evBad ++ [n] } }
  | .mramCustody b =>
    let d := remapLine (uncorrected d 2 none)
    { d with nv := if b then { d.nv with custodyB := none } else { d.nv with custodyA := none } }
  | .mramOther => remapLine (uncorrected d 2 none)

/-- Wear in a tick: at most one place moves, and SVC_MRAMW follows the most-written line; past 10^13 writes, cause 8. The spec does
not say which lines the store-room writes, the journal and the recorder use: the count of lines outside the cellar is an operand. -/
def wearTick (d : Dev) (lines : Word) : Dev :=
  let nv := wearMove d.nv
  let top := max (max nv.mramW.toNat lines.toNat) (nv.wear.foldl (fun m e => max m e.2) 0 / 2 ^ 20)
  let d := { d with nv := { nv with mramW := BitVec.ofNat 32 top } }
  if 9536743 < top then setCause d 8 else d

/-- The scrubs advance (15 R414), the wear manager runs (15 R416), and every 2^15 ticks the monitors and sensors are read (15 R417). -/
def background (d : Dev) (b : BoundaryIn) : Dev :=
  let d := wearTick (b.memErrors.foldl memError d) b.telemetry.lineWear
  let s := { d.svc with scrubSram := (d.svc.scrubSram + 4096) % 2 ^ 25, scrubKey := (d.svc.scrubKey + 4096) % 2 ^ 24,
                        scrubMram := (d.svc.scrubMram + 1024) % 2 ^ 24 }
  { d with svc := if d.tick.toNat % 2 ^ 15 = 0 then
      { s with marginIdx := b.telemetry.monitor, margin := b.telemetry.margin, hottest := b.telemetry.hottest } else s }

/-! ### Random numbers at a boundary (09 R279-R281, R285) -/

/-- A RANDOM_BYTES job that ran in the tick that ends. -/
def randomDone (d : Dev) (j : Job) : Dev :=
  if !jobCurrent d j then dropJob d j.id
  else
    match overridden j with
    | some o => finishJob d j.id o
    | none =>
      match (if j.res.status == stOk then instGenerate d j.e.fn.toNat (paramBits j.e 0 17) else none) with
      | some (bs, d) => rngFeed (pmcFn (finishJob d j.id (outcomeOut bs)) 0x70 j.e.fn.toNat 1)
      | none => if j.res.status == stOk then modJob d j.id fun j => { j with stage := .wait } else finishJob d j.id j.res

/-- The RNG block at a boundary: known-answer tests, mismatches of pairs, the jobs that ran, those that run next, and the
count of ticks without service. -/
def rngBoundary (d : Dev) (b : BoundaryIn) : Dev :=
  let d := rngKat d b.kat
  let d := b.pairs.foldl pairMismatch d
  let mine (s : Stage) (j : Job) : Bool := j.kind == .randomBytes && j.stage == s
  let d := (d.jobs.filter (mine .running)).foldl randomDone d
  let served := d.rng.served
  let jobs := d.jobs.map fun (j : Job) =>
    let j := if mine .planned j then { j with stage := .running } else j
    { j with rngWait := if served || !waitsRng j then 0 else j.rngWait + 1 }
  { d with jobs := jobs, rng := { d.rng with served := d.rng.state == 2, blocksTick := d.rng.blocksNext, blocksNext := 0 } }

/-! ### Outcomes that pass the collector (01 R41, 03 R97, 08 R251-R255, 12 R343, R349, 13 R372) -/

/-- The effect that a job's OK has at the boundary at which it passes; an outcome of an older generation has none (02 R62). -/
def passEffect (f : Fuse) (d : Dev) (j : Job) : Dev :=
  if !jobCurrent d j then d
  else if j.kind == .debugAuthorise && j.res.status == stAuth then authFailed d true
  else if j.res.status != stOk then d
  else
    match j.kind with
    | .keyReplaceCommit => match j.key with | some k => switchKey d k.key k.version | none => d
    | .shareBundleLoad => acceptBundle d j
    | .tamperLockClear => if j.res.res0 = 0 then d else settleOutbox (undoMarked (lockClear d j.session (BitVec.ofNat 23 (leNat j.meterKey))))
    | .debugAuthorise => debugGrant d f j
    | _ => d

/-- Invalidations with sel 0 come after the switches: at the same boundary the invalidation wins (08 R256). -/
def passInvalid (d : Dev) (j : Job) : Dev :=
  if j.kind == .keyInvalidate && j.res.status == stOk && selOf j.e.keyref == 0 then
    invalidateKey d (match j.key with | some k => k.key | none => 0)
  else d

/-- A sweep that ran in the tick that ends has marked its entries (08 R255). -/
def sweepEnd (d : Dev) : Dev :=
  if d.keys.sweeping then
    let d := sweepMark d
    { d with keys := { d.keys with sweeping := false, sweeps := satInc d.keys.sweeps } }
  else d

/-- The output and the records of the outcomes that pass, all output before any record (03 R97, R98): functions in cyclic order, queues in ascending order, fetch order within a queue; a job
of an older generation leaves without a record. -/
def completions (d : Dev) : Dev :=
  let js := d.jobs.filter jobEnded
  let live := js.filter (jobCurrent d)
  let gone := js.filter fun j => !jobCurrent d j
  let d := gone.foldl (fun d j => dropJob d j.id) d
  let keys := (live.map fun j => qKey j.e.fn.toNat j.e.q.toNat).eraseDups
  let order := sortBy (fun k => 16 * cyclicKey (blockTie d d.ties.comp) (k / 16) + k % 16) keys
  let d := order.foldl (fun d k => (live.filter fun j => qKey j.e.fn.toNat j.e.q.toNat == k).foldl outputJob d) d
  let due := live.filterMap fun j =>
    match findJob d j.id with
    | some now => if now.res.status == j.res.status then some now else none
    | none => none
  order.foldl (fun d k => completeQueue d due (k / 16) (k % 16)) d

/-- Jobs that complete with DMA_FAULT or RNG_UNAVAILABLE: their function shows it, and the latter are counted (02 R59, 03 R101,
09 R281, R282). -/
def outcomeEvents (d : Dev) : Dev :=
  let d := (d.jobs.filter fun j => jobEnded j && j.res.status == stDma && jobCurrent d j).foldl (fun d j =>
    raise d (funcPage j.e.fn.toNat) 2) d
  (d.jobs.filter fun j => jobEnded j && j.res.status == stRng && jobCurrent d j).foldl (fun d j =>
    raise { d with rng := { d.rng with unavailable := satInc d.rng.unavailable } } (funcPage j.e.fn.toNat) 3) d

/-- What the jobs that left held: stream contexts, unwrapped crate keys and draws. -/
def releaseHeld (d : Dev) : Dev :=
  let here (id : JobId) : Bool := d.jobs.any fun j => j.id == id
  let d := { d with wings := { d.wings with ctxs := d.wings.ctxs.filter fun c => here c.job } }
  let left := d.keys.cache.filter fun e => match e.kind with | .unwrapped id => !here id && !e.dropped | _ => false
  let d := left.foldl dropEntry d
  settleDraws d

/-- A queue being disabled reads enabled until the tick after its last record (03 R93). -/
def queuesDrained (d : Dev) : Dev :=
  { d with queues := d.queues.map fun (q : Nat × QueueSt) =>
      if q.2.disabling && (queueJobs d (q.1 / 16) (q.1 % 16)).isEmpty then (q.1, { q.2 with disabling := false }) else q }

/-- Everything that passes at a boundary; slots that were marked or evicted are wiped once their last holder has passed (08 R255,
R256). -/
def passAll (d : Dev) (f : Fuse) : Dev :=
  let done := d.jobs.filter jobEnded
  let d := done.foldl (passEffect f) (sweepEnd d)
  let d := done.foldl passInvalid d
  let restart := done.any fun j => j.kind == .lifecycleTransition && j.res.status == stOk && opLe j.e 0 1 == 2
  let d := completions (outcomeEvents (queuesDrained d))
  let d := wipeDue (releaseHeld d)
  let d := if restart && lcState f == 2 then keeperRestart d else d
  let d := (d.jobs.filter fun j => j.stage == .wait).foldl (fun d j => startJob d j.id) d
  resealStep (purgeStep d)

/-! ### What takes effect with a boundary -/

/-- Worlds that wrote ready become READY (10 R310, 14 R377, R397); the keeper world takes what waits for it. -/
def worldsReady (d : Dev) : Dev :=
  let d :=
    if d.acl.kReadyDue && (d.acl.keeper == 1 || d.acl.keeper == 3) then
      let sys : BitVec 3 := if d.pwr.sysstate == 0 || d.pwr.sysstate == 4 then 1 else d.pwr.sysstate
      let d := { d with acl := { d.acl with keeper := 2, kReadyDue := false, kPet := d.tick }, pwr := { d.pwr with sysstate := sys } }
      startHandshake (drainInbox d)
    else d
  if d.acl.pReadyDue && (d.acl.porter == 1 || d.acl.porter == 3) then
    let first := !d.acl.pReadySeen
    let d := { d with acl := { d.acl with porter := 2, pReadyDue := false, pReadySeen := true, pPet := d.tick } }
    if first then clearBootVotes d else d
  else d

/-- A rate entry written in the tick that ends takes effect, and its counts restart (17 R452). -/
def rateEffect (d : Dev) (r : RateSt) : RateSt :=
  if r.reg = r.eff then r
  else
    let n := { r with eff := r.reg, seen := 0, dropped := 0 }
    { n with window := d.tick.toNat / rateWindow n }

/-- Registers whose writes take effect at a boundary: coalescing (02 R68), routes (02 R70), bindings shown (08 R230), the pin claim
and the violation mode (10 R302), rate entries (17 R452). -/
def registersEffect (d : Dev) : Dev :=
  { d with
    fns := tabMap (fun (x : FnSt) => { x with coalEff := x.coal, bindShow := x.tenant }) d.fns
    mgt := { d.mgt with routesEff := d.mgt.routes }
    acl := { d.acl with claimed := d.acl.pinclaim, compat := bit (guardVal d (regAddr aclPage 0x040)) 0, vmerge := [] }
    evr := { d.evr with rates := tabMap (rateEffect d) d.evr.rates } }

/-- The blocks that look at every boundary: functions, domains, the operating point, worlds, bundle, guards, recorder, and the I3C
target's mirror. -/
def blocksBoundary (d : Dev) (f : Fuse) : Dev :=
  let d := (d.fns.map fun (x : Nat × FnSt) => x.1).foldl fnBoundary d
  let d := (List.range 20).foldl domBoundary d
  let d := oppBoundary d
  let d := logicCond (registersEffect (worldsReady d))
  let d := if d.tick.toNat % 2 ^ 15 = 0 then evrFlush d else d
  i3cRefresh (twinBoundary d f) f

/-- Time passes: the RTC, and the operating hours while the device is in RUN. -/
def timePasses (d : Dev) (b : BoundaryIn) : Dev :=
  { d with
    tick := d.tick + 1, cyc := 0, cutDone := false
    bat := { d.bat with rtc := d.bat.rtc + BitVec.ofNat 48 b.rtc }
    keys := { d.keys with loaded := 0 }
    nv := { d.nv with frac := if d.pwr.sysstate == 1 then d.nv.frac + b.rtc else d.nv.frac } }

/-- The rate windows that end at a boundary: their summaries come before any record of the new window (17 R452). -/
def rateEnds (d : Dev) : Dev := (d.evr.rates.map fun (x : Nat × RateSt) => x.1).foldl rateClose d

/-- The tick boundary. In STANDBY there is no CCLK and no tick (14 R390). -/
def tickBoundary (d : Dev) (f : Fuse) (b : BoundaryIn) : Dev × Fuse :=
  if d.pwr.sysstate == 3 then (d, f)
  else
    let d := rateEnds (latchMons (cycleWraps { d with records := true } (windowExpire (timePasses (countTick d) b))))
    let d := rngBoundary (startTests (background d b) b.badCores) b
    let d := wingsBoundary (bundleEffect d) b
    let r := genDrsWaits d f
    let r := lcBoundary r.1 r.2
    let d := blocksBoundary (passAll (freeOld r.1) r.2) r.2
    (sendVectors { d with records := false }, r.2)

/-! ### The commands -/

/-- TICK_BOUNDARY (01 R41). -/
def execTickBoundary (b : BoundaryIn) (s : State) : Host.Outcome State Fault Refusal :=
  let r := tickBoundary s.dev s.fuse b
  .next (stageSettle { s with dev := r.1, fuse := r.2 })

/-- PLAN_CUT (01 R32); the outbox of the twin link goes with it (16 R433). -/
def execPlanCut (s : State) : Host.Outcome State Fault Refusal :=
  act s fun d => if d.pwr.sysstate == 3 || d.cutDone then d else settleOutbox (planCut d s.fuse)

end Sys2Proof.Machine
end

