-- ==== Sys2Proof/Machine/Dispatch.lean ====
section
/-! DEFINITION. One arm for every command: a direct call of its meaning. -/

namespace Sys2Proof.Machine

def exec (i : Instr) (s : State) : Host.Outcome State Fault Refusal :=
  match i with
  | .tickBoundary b => Sys2Proof.Machine.execTickBoundary b s
  | .planCut => Sys2Proof.Machine.execPlanCut s
  | .rotationStart => Sys2Proof.Machine.execRotationStart s
  | .strikeExpire unit => Sys2Proof.Machine.execStrikeExpire unit s
  | .rackSvcreqDrain ini unit => Sys2Proof.Machine.execRackSvcreqDrain ini unit s
  | .rackSvcreqReturn ini unit => Sys2Proof.Machine.execRackSvcreqReturn ini unit s
  | .guardedRegisterWrite ini addr v => Sys2Proof.Machine.execGuardedRegisterWrite ini addr v s
  | .guardedShadowWrite ini addr v => Sys2Proof.Machine.execGuardedShadowWrite ini addr v s
  | .guardMismatch addr => Sys2Proof.Machine.execGuardMismatch addr s
  | .registerWrite ini addr data => Sys2Proof.Machine.execRegisterWrite ini addr data s
  | .pgEvtSetWrite ini page v => Sys2Proof.Machine.execPgEvtSetWrite ini page v s
  | .pgLockWrite ini page v => Sys2Proof.Machine.execPgLockWrite ini page v s
  | .funcCreate ini fn => Sys2Proof.Machine.execFuncCreate ini fn s
  | .funcRelease ini fn => Sys2Proof.Machine.execFuncRelease ini fn s
  | .funcReset ini fn => Sys2Proof.Machine.execFuncReset ini fn s
  | .pcieFlr fn => Sys2Proof.Machine.execPcieFlr fn s
  | .portLinkDown port => Sys2Proof.Machine.execPortLinkDown port s
  | .portLinkUp up => Sys2Proof.Machine.execPortLinkUp up s
  | .perstAssert port => Sys2Proof.Machine.execPerstAssert port s
  | .perstDeassert port sris => Sys2Proof.Machine.execPerstDeassert port sris s
  | .vfEnableChange port enable numVfs => Sys2Proof.Machine.execVfEnableChange port enable numVfs s
  | .busMasterEnable fn on => Sys2Proof.Machine.execBusMasterEnable fn on s
  | .msixMaskClear fn vector => Sys2Proof.Machine.execMsixMaskClear fn vector s
  | .doeRequest port obj => Sys2Proof.Machine.execDoeRequest port obj s
  | .doeDiscovery port index => Sys2Proof.Machine.execDoeDiscovery port index s
  | .doeAbort port => Sys2Proof.Machine.execDoeAbort port s
  | .getVersion port => Sys2Proof.Machine.execGetVersion port s
  | .getCapabilities port => Sys2Proof.Machine.execGetCapabilities port s
  | .negotiateAlgorithms port asymP384 hashSha384 => Sys2Proof.Machine.execNegotiateAlgorithms port asymP384 hashSha384 s
  | .getDigests port => Sys2Proof.Machine.execGetDigests port s
  | .getCertificate port slot offset len => Sys2Proof.Machine.execGetCertificate port slot offset len s
  | .challenge port slot nonce => Sys2Proof.Machine.execChallenge port slot nonce s
  | .getMeasurements port block sign nonce => Sys2Proof.Machine.execGetMeasurements port block sign nonce s
  | .spdmUnsupportedRequest port code => Sys2Proof.Machine.execSpdmUnsupportedRequest port code s
  | .hatchRing fn q => Sys2Proof.Machine.execHatchRing fn q s
  | .indexReadReturn fn q res => Sys2Proof.Machine.execIndexReadReturn fn q res s
  | .entryReadReturn fn q res => Sys2Proof.Machine.execEntryReadReturn fn q res s
  | .fetchResume fn q => Sys2Proof.Machine.execFetchResume fn q s
  | .dmaReadCompletion job src res => Sys2Proof.Machine.execDmaReadCompletion job src res s
  | .dmaCompletionTimeout tag => Sys2Proof.Machine.execDmaCompletionTimeout tag s
  | .queueEnable fn q => Sys2Proof.Machine.execQueueEnable fn q s
  | .queueDisable fn q => Sys2Proof.Machine.execQueueDisable fn q s
  | .ecdsaSignP384 e => Sys2Proof.Machine.execEcdsaSignP384 e s
  | .ecdsaVerifyP384 e => Sys2Proof.Machine.execEcdsaVerifyP384 e s
  | .ecdsaVerifyP384Key e => Sys2Proof.Machine.execEcdsaVerifyP384Key e s
  | .ecdhP384 e => Sys2Proof.Machine.execEcdhP384 e s
  | .keygenP384 e => Sys2Proof.Machine.execKeygenP384 e s
  | .ecdsaSignP256 e => Sys2Proof.Machine.execEcdsaSignP256 e s
  | .ecdsaVerifyP256 e => Sys2Proof.Machine.execEcdsaVerifyP256 e s
  | .ecdsaVerifyP256Key e => Sys2Proof.Machine.execEcdsaVerifyP256Key e s
  | .ecdhP256 e => Sys2Proof.Machine.execEcdhP256 e s
  | .keygenP256 e => Sys2Proof.Machine.execKeygenP256 e s
  | .rsaVerifyPkcs1v15 e => Sys2Proof.Machine.execRsaVerifyPkcs1v15 e s
  | .rsaVerifyPss e => Sys2Proof.Machine.execRsaVerifyPss e s
  | .gcmEncrypt e => Sys2Proof.Machine.execGcmEncrypt e s
  | .gcmDecrypt e => Sys2Proof.Machine.execGcmDecrypt e s
  | .ccmEncrypt e => Sys2Proof.Machine.execCcmEncrypt e s
  | .ccmDecrypt e => Sys2Proof.Machine.execCcmDecrypt e s
  | .ctrCrypt e => Sys2Proof.Machine.execCtrCrypt e s
  | .cbcEncrypt e => Sys2Proof.Machine.execCbcEncrypt e s
  | .cbcDecrypt e => Sys2Proof.Machine.execCbcDecrypt e s
  | .cmacGenerate e => Sys2Proof.Machine.execCmacGenerate e s
  | .cmacVerify e => Sys2Proof.Machine.execCmacVerify e s
  | .meterGcmEncrypt e => Sys2Proof.Machine.execMeterGcmEncrypt e s
  | .meterGcmDecrypt e => Sys2Proof.Machine.execMeterGcmDecrypt e s
  | .sha256 e => Sys2Proof.Machine.execSha256 e s
  | .sha384 e => Sys2Proof.Machine.execSha384 e s
  | .sha512 e => Sys2Proof.Machine.execSha512 e s
  | .hmacGenerate e => Sys2Proof.Machine.execHmacGenerate e s
  | .hmacVerify e => Sys2Proof.Machine.execHmacVerify e s
  | .kdfDerive e => Sys2Proof.Machine.execKdfDerive e s
  | .imageDigest e => Sys2Proof.Machine.execImageDigest e s
  | .keyGenerate e => Sys2Proof.Machine.execKeyGenerate e s
  | .crateLoad e => Sys2Proof.Machine.execCrateLoad e s
  | .crateExport e => Sys2Proof.Machine.execCrateExport e s
  | .keyEvict e => Sys2Proof.Machine.execKeyEvict e s
  | .keyReplaceBegin e => Sys2Proof.Machine.execKeyReplaceBegin e s
  | .keyReplaceCommit e => Sys2Proof.Machine.execKeyReplaceCommit e s
  | .keyInvalidate e => Sys2Proof.Machine.execKeyInvalidate e s
  | .keyInfo e => Sys2Proof.Machine.execKeyInfo e s
  | .keyPublic e => Sys2Proof.Machine.execKeyPublic e s
  | .tenantPlanLoad e => Sys2Proof.Machine.execTenantPlanLoad e s
  | .randomBytes e => Sys2Proof.Machine.execRandomBytes e s
  | .drbgReseed e => Sys2Proof.Machine.execDrbgReseed e s
  | .attestKey e => Sys2Proof.Machine.execAttestKey e s
  | .attestDevice e => Sys2Proof.Machine.execAttestDevice e s
  | .attestChain e => Sys2Proof.Machine.execAttestChain e s
  | .nop e => Sys2Proof.Machine.execNop e s
  | .shareBundleLoad e => Sys2Proof.Machine.execShareBundleLoad e s
  | .abort e => Sys2Proof.Machine.execAbort e s
  | .quorumOpen e => Sys2Proof.Machine.execQuorumOpen e s
  | .quorumStatus e => Sys2Proof.Machine.execQuorumStatus e s
  | .lifecycleTransition e => Sys2Proof.Machine.execLifecycleTransition e s
  | .tamperLockClear e => Sys2Proof.Machine.execTamperLockClear e s
  | .firmwareUpdate e => Sys2Proof.Machine.execFirmwareUpdate e s
  | .debugAuthorise e => Sys2Proof.Machine.execDebugAuthorise e s
  | .kprKeeperDone job => Sys2Proof.Machine.execKprKeeperDone job s
  | .cellarLoadDone key version => Sys2Proof.Machine.execCellarLoadDone key version s
  | .nonceReserveCommit record twin => Sys2Proof.Machine.execNonceReserveCommit record twin s
  | .rawBlockComplete source raw shaAgree => Sys2Proof.Machine.execRawBlockComplete source raw shaAgree s
  | .sourceAlarm alarm others => Sys2Proof.Machine.execSourceAlarm alarm others s
  | .startupTestDone source found => Sys2Proof.Machine.execStartupTestDone source found s
  | .pkDraw job => Sys2Proof.Machine.execPkDraw job s
  | .rngWaitTimeout job => Sys2Proof.Machine.execRngWaitTimeout job s
  | .rngRawdataRead ini arrived => Sys2Proof.Machine.execRngRawdataRead ini arrived s
  | .fabricTransaction t => Sys2Proof.Machine.execFabricTransaction t s
  | .aclCommitk ini => Sys2Proof.Machine.execAclCommitk ini s
  | .aclCommitp ini => Sys2Proof.Machine.execAclCommitp ini s
  | .potKapply ini => Sys2Proof.Machine.execPotKapply ini s
  | .potPapply ini => Sys2Proof.Machine.execPotPapply ini s
  | .potCommitk ini => Sys2Proof.Machine.execPotCommitk ini s
  | .potCommitp ini => Sys2Proof.Machine.execPotCommitp ini s
  | .pageWipe page readbackOk => Sys2Proof.Machine.execPageWipe page readbackOk s
  | .fvalidClear ini => Sys2Proof.Machine.execFvalidClear ini s
  | .aclKpet ini => Sys2Proof.Machine.execAclKpet ini s
  | .aclPpet ini => Sys2Proof.Machine.execAclPpet ini s
  | .keeperWatchdogExpire => Sys2Proof.Machine.execKeeperWatchdogExpire s
  | .porterWatchdogExpire => Sys2Proof.Machine.execPorterWatchdogExpire s
  | .krestart ini => Sys2Proof.Machine.execKrestart ini s
  | .prestart ini => Sys2Proof.Machine.execPrestart ini s
  | .worldReady ini => Sys2Proof.Machine.execWorldReady ini s
  | .cardDebounceEnd slot => Sys2Proof.Machine.execCardDebounceEnd slot s
  | .atrTimeout slot => Sys2Proof.Machine.execAtrTimeout slot s
  | .cardClassBRetry slot => Sys2Proof.Machine.execCardClassBRetry slot s
  | .cardRemove slot => Sys2Proof.Machine.execCardRemove slot s
  | .crdAct ini slot cls => Sys2Proof.Machine.execCrdAct ini slot cls s
  | .crdDeact ini slot => Sys2Proof.Machine.execCrdDeact ini slot s
  | .wake slot => Sys2Proof.Machine.execWake slot s
  | .identify slot => Sys2Proof.Machine.execIdentify slot s
  | .openChannel slot => Sys2Proof.Machine.execOpenChannel slot s
  | .shareRelease slot => Sys2Proof.Machine.execShareRelease slot s
  | .shareWrite slot => Sys2Proof.Machine.execShareWrite slot s
  | .close slot => Sys2Proof.Machine.execClose slot s
  | .apduResponse slot data sw => Sys2Proof.Machine.execApduResponse slot data sw s
  | .cardBusyTimeout slot => Sys2Proof.Machine.execCardBusyTimeout slot s
  | .cardClockStop slot => Sys2Proof.Machine.execCardClockStop slot s
  | .quorumWindowExpire => Sys2Proof.Machine.execQuorumWindowExpire s
  | .lcsFuseProgram ini => Sys2Proof.Machine.execLcsFuseProgram ini s
  | .lcsGendrs ini => Sys2Proof.Machine.execLcsGendrs ini s
  | .debugSessionEnd => Sys2Proof.Machine.execDebugSessionEnd s
  | .tamperSample levels => Sys2Proof.Machine.execTamperSample levels s
  | .batteryBurst b => Sys2Proof.Machine.execBatteryBurst b s
  | .tamperAlarm sources => Sys2Proof.Machine.execTamperAlarm sources s
  | .tmpAlarmClear ini v => Sys2Proof.Machine.execTmpAlarmClear ini v s
  | .tmpFuseoff ini v => Sys2Proof.Machine.execTmpFuseoff ini v s
  | .batterySourceChange vddAon cellA cellB => Sys2Proof.Machine.execBatterySourceChange vddAon cellA cellB s
  | .pgVoteWrite ini domain v => Sys2Proof.Machine.execPgVoteWrite ini domain v s
  | .pwrPvoteWrite ini v => Sys2Proof.Machine.execPwrPvoteWrite ini v s
  | .domainReady domain => Sys2Proof.Machine.execDomainReady domain s
  | .hwVoteExpire domain => Sys2Proof.Machine.execHwVoteExpire domain s
  | .clkOppreqWrite ini v => Sys2Proof.Machine.execClkOppreqWrite ini v s
  | .clkOppcapWrite ini v => Sys2Proof.Machine.execClkOppcapWrite ini v s
  | .pllLock => Sys2Proof.Machine.execPllLock s
  | .avsVdone => Sys2Proof.Machine.execAvsVdone s
  | .avsSettleTimeout => Sys2Proof.Machine.execAvsSettleTimeout s
  | .clkSrcSwitch ini => Sys2Proof.Machine.execClkSrcSwitch ini s
  | .pwrSyscmdStandby ini v => Sys2Proof.Machine.execPwrSyscmdStandby ini v s
  | .rtcAlarm => Sys2Proof.Machine.execRtcAlarm s
  | .pwrFailNFall => Sys2Proof.Machine.execPwrFailNFall s
  | .pwrFailNRise => Sys2Proof.Machine.execPwrFailNRise s
  | .coldReset b => Sys2Proof.Machine.execColdReset b s
  | .rstCmdCold ini v => Sys2Proof.Machine.execRstCmdCold ini v s
  | .jtagReset => Sys2Proof.Machine.execJtagReset s
  | .operatingHour average peak => Sys2Proof.Machine.execOperatingHour average peak s
  | .voltageCalibration => Sys2Proof.Machine.execVoltageCalibration s
  | .svcReqsetSet ini v => Sys2Proof.Machine.execSvcReqsetSet ini v s
  | .svcReqsetClear ini v => Sys2Proof.Machine.execSvcReqsetClear ini v s
  | .linkTrained locked => Sys2Proof.Machine.execLinkTrained locked s
  | .linkRetrain => Sys2Proof.Machine.execLinkRetrain s
  | .twinLostTimeout => Sys2Proof.Machine.execTwinLostTimeout s
  | .hello f m => Sys2Proof.Machine.execHello f m s
  | .signed f sig => Sys2Proof.Machine.execSigned f sig s
  | .idle f => Sys2Proof.Machine.execIdle f s
  | .nak f expected => Sys2Proof.Machine.execNak f expected s
  | .status f m => Sys2Proof.Machine.execStatus f m s
  | .change f id m objs => Sys2Proof.Machine.execChange f id m objs s
  | .changeAck f id m => Sys2Proof.Machine.execChangeAck f id m s
  | .changeNak f id st => Sys2Proof.Machine.execChangeNak f id st s
  | .final f id => Sys2Proof.Machine.execFinal f id s
  | .undo f id => Sys2Proof.Machine.execUndo f id s
  | .reserve f j => Sys2Proof.Machine.execReserve f j s
  | .reserveAck f j => Sys2Proof.Machine.execReserveAck f j s
  | .fill f objs heads => Sys2Proof.Machine.execFill f objs heads s
  | .fillEnd f => Sys2Proof.Machine.execFillEnd f s
  | .park f mSeq => Sys2Proof.Machine.execPark f mSeq s
  | .release f heads => Sys2Proof.Machine.execRelease f heads s
  | .releaseAck f => Sys2Proof.Machine.execReleaseAck f s
  | .frameResendTimeout => Sys2Proof.Machine.execFrameResendTimeout s
  | .idleSendTimer => Sys2Proof.Machine.execIdleSendTimer s
  | .statusSendTimer => Sys2Proof.Machine.execStatusSendTimer s
  | .handshakeRetry => Sys2Proof.Machine.execHandshakeRetry s
  | .linkRekey => Sys2Proof.Machine.execLinkRekey s
  | .twnCmdGrant ini => Sys2Proof.Machine.execTwnCmdGrant ini s
  | .twnCmdRelease ini v => Sys2Proof.Machine.execTwnCmdRelease ini v s
  | .twnCmdPark ini v => Sys2Proof.Machine.execTwnCmdPark ini v s
  | .twnCmdRetrain ini => Sys2Proof.Machine.execTwnCmdRetrain ini s
  | .evrFlush ini => Sys2Proof.Machine.execEvrFlush ini s
  | .evrFlushDone => Sys2Proof.Machine.execEvrFlushDone s
  | .rateWindowEnd entry => Sys2Proof.Machine.execRateWindowEnd entry s
  | .evrSnapcmdFetch ini window => Sys2Proof.Machine.execEvrSnapcmdFetch ini window s
  | .snapFetchDone window readable => Sys2Proof.Machine.execSnapFetchDone window readable s
  | .pmcClr ini monitor => Sys2Proof.Machine.execPmcClr ini monitor s
  | .pmcBindWrite ini monitor v => Sys2Proof.Machine.execPmcBindWrite ini monitor v s
  | .pmcDump => Sys2Proof.Machine.execPmcDump s
  | .mgtMbSend ini box => Sys2Proof.Machine.execMgtMbSend ini box s
  | .mgtMbAck ini box => Sys2Proof.Machine.execMgtMbAck ini box s
  | .mgtMbReply ini box => Sys2Proof.Machine.execMgtMbReply ini box s
  | .entdaa addr => Sys2Proof.Machine.execEntdaa addr s
  | .setdasa static addr => Sys2Proof.Machine.execSetdasa static addr s
  | .rstdaa => Sys2Proof.Machine.execRstdaa s
  | .enec events => Sys2Proof.Machine.execEnec events s
  | .disec events => Sys2Proof.Machine.execDisec events s
  | .getpid => Sys2Proof.Machine.execGetpid s
  | .getbcr => Sys2Proof.Machine.execGetbcr s
  | .getdcr => Sys2Proof.Machine.execGetdcr s
  | .getstatus => Sys2Proof.Machine.execGetstatus s
  | .i3cPrivateWrite bytes => Sys2Proof.Machine.execI3cPrivateWrite bytes s
  | .i3cPrivateRead count => Sys2Proof.Machine.execI3cPrivateRead count s
  | .cardDetectClose slot => Sys2Proof.Machine.execCardDetectClose slot s
  | .atrReceived slot atr => Sys2Proof.Machine.execAtrReceived slot atr s
  | .cardIoLow slot => Sys2Proof.Machine.execCardIoLow slot s
  | .cardIoRise slot => Sys2Proof.Machine.execCardIoRise slot s
  | .blockWaitingTimeExpire slot => Sys2Proof.Machine.execBlockWaitingTimeExpire slot s
  | .worldStartFail world => Sys2Proof.Machine.execWorldStartFail world s
  | .eraseEngineDone => Sys2Proof.Machine.execEraseEngineDone s
  | .trainingRestart => Sys2Proof.Machine.execTrainingRestart s

end Sys2Proof.Machine
end

