-- ==== Sys2Proof/WellFormed.lean ====
section
/-! DEFINITION. Well-formed commands: operands within what the spec gives them. The meanings are total; an ill-formed command is one
that the device's surroundings cannot send. -/

namespace Sys2Proof

/-- A submission entry's shape (03 R85, R86): at most 254 descriptors and 4,096 bytes in all. -/
def Entry.wf (e : Entry) : Bool :=
  decide (e.descs.length ≤ 254) && decide (32 + 16 * e.descs.length + e.operands.length ≤ 4096)

/-- A 32-bit register stands on a multiple of 4 (18 R463). -/
def wordAddr (a : BitVec 40) : Bool := a.toNat % 4 == 0

/-- A transaction (10 R289, R292): an initiator that is assigned, data as long as a write is, a single access of at most 16 bytes,
and no atomic that is misaligned or split. -/
def Txn.wf (t : Txn) : Bool :=
  decide (t.ini.id.toNat < 275) && decide (0 < t.len) && decide (t.addr.toNat + t.len ≤ 2 ^ 40) &&
  (t.burst || decide (t.len ≤ 16)) &&
  ((t.kind == .read || t.kind == .fetch) || t.data.length == t.len) &&
  (t.kind != .atomic || (!t.burst && t.addr.toNat % t.len == 0)) &&
  (!t.buffered || t.kind == .write)

/-- The operands of a command: units, domains and sources that exist, lengths that the spec fixes, entries and transactions of the
right shape. -/
def Instr.wf : Instr → Bool
  | .rackSvcreqDrain _ u | .rackSvcreqReturn _ u | .strikeExpire u => decide (u.toNat < 233)
  | .pgVoteWrite _ n _ | .domainReady n | .hwVoteExpire n => decide (n.toNat < 20)
  | .rawBlockComplete i raw _ => decide (i.toNat < 6) && raw.length == 256
  | .sourceAlarm x l => (x :: l).all fun x => decide (x.source.toNat < 6) && decide (x.bits.length ≤ 2048)
  | .startupTestDone i t => decide (i.toNat < 6) && decide (t.bits.length ≤ 1024)
  | .fabricTransaction t => t.wf
  | .guardedRegisterWrite _ a _ | .guardedShadowWrite _ a _ => wordAddr a
  | .registerWrite _ a data => decide (0 < data.length) && decide (a.toNat % 0x1000 + data.length ≤ 0x1000)
  | .challenge _ _ nonce | .getMeasurements _ _ _ nonce => nonce.length == 32
  | .atrReceived _ atr => decide (2 ≤ atr.length) && decide (atr.length ≤ 33)
  | .apduResponse _ data _ => decide (data.length ≤ 256)
  | .signed _ sig => sig.length == 96
  | .tickBoundary b => b.faults.all fun f => decide (f.unit.toNat < 233)
  | .vfEnableChange _ _ n => decide (n.toNat < 128)
  | .ecdsaSignP384 e | .ecdsaVerifyP384 e | .ecdsaVerifyP384Key e | .ecdhP384 e | .keygenP384 e | .ecdsaSignP256 e
  | .ecdsaVerifyP256 e | .ecdsaVerifyP256Key e | .ecdhP256 e | .keygenP256 e | .rsaVerifyPkcs1v15 e | .rsaVerifyPss e
  | .gcmEncrypt e | .gcmDecrypt e | .ccmEncrypt e | .ccmDecrypt e | .ctrCrypt e | .cbcEncrypt e | .cbcDecrypt e
  | .cmacGenerate e | .cmacVerify e | .meterGcmEncrypt e | .meterGcmDecrypt e | .sha256 e | .sha384 e | .sha512 e
  | .hmacGenerate e | .hmacVerify e | .kdfDerive e | .imageDigest e | .keyGenerate e | .crateLoad e | .crateExport e
  | .keyEvict e | .keyReplaceBegin e | .keyReplaceCommit e | .keyInvalidate e | .keyInfo e | .keyPublic e
  | .tenantPlanLoad e | .randomBytes e | .drbgReseed e | .attestKey e | .attestDevice e | .attestChain e | .nop e
  | .shareBundleLoad e | .abort e | .quorumOpen e | .quorumStatus e | .lifecycleTransition e | .tamperLockClear e
  | .firmwareUpdate e | .debugAuthorise e => e.wf
  | _ => true

end Sys2Proof
end

