-- ==== Sys2Proof/Safety.lean ====
section
/-! DEFINITION. What a safe state and a safe step are, in the terms that statements use. -/

namespace Sys2Proof.Machine

/-- Bits of `f` stay in `g`: an OTP bit that is 1 stays 1 (12 R337). -/
def keeps {w : Nat} (f g : BitVec w) : Prop := f &&& g = f

/-- No fuse goes back from 1 to 0. -/
def Fuse.onlyBurns (f g : Fuse) : Prop :=
  keeps f.wTest g.wTest ∧ keeps f.wProd g.wProd ∧ keeps f.wEol g.wEol ∧ keeps f.dProd g.dProd ∧ keeps f.dEol g.dEol ∧
  keeps f.drs g.drs ∧ keeps f.mDrs g.mDrs ∧ keeps f.tProd g.tProd ∧ keeps f.tEol g.tEol ∧ keeps f.tDbg g.tDbg ∧
  keeps f.product g.product ∧ keeps f.counter g.counter ∧ ∀ k, keeps (f.off.getD k 0) (g.off.getD k 0)

/-- A state whose byte memory is in its canonical form. -/
def State.canonical (s : State) : Prop := Memory.wf s.mem = true

/-- A command names a unit, a power domain or a noise source that does not exist. -/
def namesAbsent : Instr → Bool
  | .rackSvcreqDrain _ u | .rackSvcreqReturn _ u | .strikeExpire u => decide (unitCount ≤ u.toNat)
  | .pgVoteWrite _ n _ | .domainReady n | .hwVoteExpire n => badDomain n
  | .rawBlockComplete i _ _ | .startupTestDone i _ => decide (5 < i.toNat)
  | .sourceAlarm x l => (x :: l).any fun x => decide (5 < x.source.toNat)
  | _ => false

/-- A command answers a next state, and that state is as said. -/
def Completes (c : Instr) (s : State) (p : State → Prop) : Prop := ∃ t, exec c s = .next t ∧ p t

/-- Everything outside the device is as it was: the queue of commands, memory and the fuses. -/
def State.sameOutside (s t : State) : Prop := t.pending = s.pending ∧ t.mem = s.mem ∧ t.fuse = s.fuse

/-- The staging area is pages 0x00000 to 0x003FF of shared SRAM (10 R295). A command that stages or releases material of jobs may wipe
pages of it (03 R84, log entry 69); everything else outside the device is as it was. -/
def State.besideStage (s t : State) : Prop :=
  t.pending = s.pending ∧ t.fuse = s.fuse ∧ ∀ a, 0x400000 ≤ a → memGet t.mem a = memGet s.mem a

/-- A device with the record of its staging pages put aside. -/
def Dev.unstaged (d : Dev) : Dev := { d with pot := { d.pot with stage := [] } }

/-- A device with its event reporting put aside: page headers, MSI-X vectors, monitors and what was put on the ports. Every block may
change these when an event bit is latched. -/
def Dev.quiet (d : Dev) : Dev := { d with pages := [], msix := [], mons := [], egress := [] }

/-- A device with the event recorder and its numbers put aside as well. -/
def Dev.silent (d : Dev) : Dev :=
  { d.quiet with evr := devReset.evr, nv := { d.nv with evNext := 0, evHigh := 0 } }

/-- A device with the violation log put aside as well. -/
def Dev.unlogged (d : Dev) : Dev :=
  { d.silent with acl := { d.acl with vlog := [], vmerge := [], vhead := 0, vfull := 0, lost := 0, missed := 0, vfirst := 0, fvalid := false } }

/-- Bit `b` of PG_EVT of an internal page. -/
def Dev.event (d : Dev) (p b : Nat) : Bool := (getPage d p).evt.getLsbD b

/-- The state with a command's queue put aside and its device changed. -/
def State.withDev (s : State) (d : Dev) : State := { s with dev := d }

/-- The job and the entry of a command that fetches a job. -/
def jobRow : Instr → Option (JobKind × Entry)
  | .ecdsaSignP384 e => some (.ecdsaSignP384, e)
  | .ecdsaVerifyP384 e => some (.ecdsaVerifyP384, e)
  | .ecdsaVerifyP384Key e => some (.ecdsaVerifyP384Key, e)
  | .ecdhP384 e => some (.ecdhP384, e)
  | .keygenP384 e => some (.keygenP384, e)
  | .ecdsaSignP256 e => some (.ecdsaSignP256, e)
  | .ecdsaVerifyP256 e => some (.ecdsaVerifyP256, e)
  | .ecdsaVerifyP256Key e => some (.ecdsaVerifyP256Key, e)
  | .ecdhP256 e => some (.ecdhP256, e)
  | .keygenP256 e => some (.keygenP256, e)
  | .rsaVerifyPkcs1v15 e => some (.rsaVerifyPkcs1v15, e)
  | .rsaVerifyPss e => some (.rsaVerifyPss, e)
  | .gcmEncrypt e => some (.gcmEncrypt, e)
  | .gcmDecrypt e => some (.gcmDecrypt, e)
  | .ccmEncrypt e => some (.ccmEncrypt, e)
  | .ccmDecrypt e => some (.ccmDecrypt, e)
  | .ctrCrypt e => some (.ctrCrypt, e)
  | .cbcEncrypt e => some (.cbcEncrypt, e)
  | .cbcDecrypt e => some (.cbcDecrypt, e)
  | .cmacGenerate e => some (.cmacGenerate, e)
  | .cmacVerify e => some (.cmacVerify, e)
  | .meterGcmEncrypt e => some (.meterGcmEncrypt, e)
  | .meterGcmDecrypt e => some (.meterGcmDecrypt, e)
  | .sha256 e => some (.sha256, e)
  | .sha384 e => some (.sha384, e)
  | .sha512 e => some (.sha512, e)
  | .hmacGenerate e => some (.hmacGenerate, e)
  | .hmacVerify e => some (.hmacVerify, e)
  | .kdfDerive e => some (.kdfDerive, e)
  | .imageDigest e => some (.imageDigest, e)
  | .keyGenerate e => some (.keyGenerate, e)
  | .crateLoad e => some (.crateLoad, e)
  | .crateExport e => some (.crateExport, e)
  | .keyEvict e => some (.keyEvict, e)
  | .keyReplaceBegin e => some (.keyReplaceBegin, e)
  | .keyReplaceCommit e => some (.keyReplaceCommit, e)
  | .keyInvalidate e => some (.keyInvalidate, e)
  | .keyInfo e => some (.keyInfo, e)
  | .keyPublic e => some (.keyPublic, e)
  | .tenantPlanLoad e => some (.tenantPlanLoad, e)
  | .randomBytes e => some (.randomBytes, e)
  | .drbgReseed e => some (.drbgReseed, e)
  | .attestKey e => some (.attestKey, e)
  | .attestDevice e => some (.attestDevice, e)
  | .attestChain e => some (.attestChain, e)
  | .nop e => some (.nop, e)
  | .shareBundleLoad e => some (.shareBundleLoad, e)
  | .abort e => some (.abort, e)
  | .quorumOpen e => some (.quorumOpen, e)
  | .quorumStatus e => some (.quorumStatus, e)
  | .lifecycleTransition e => some (.lifecycleTransition, e)
  | .tamperLockClear e => some (.tamperLockClear, e)
  | .firmwareUpdate e => some (.firmwareUpdate, e)
  | .debugAuthorise e => some (.debugAuthorise, e)
  | _ => none

/-- What a job keeps from its submission to its record. -/
def Job.stem (j : Job) : JobId × JobKind × Entry × Word × BitVec 16 × BitVec 48 := (j.id, j.kind, j.e, j.sqpos, j.gen, j.tick)

/-- What the submission of a job leaves as it was: everything but jobs, queues, the key cache, its pad states, random numbers, the quorum
session, the verification slots of the plan cut, the staging pages and event reporting. -/
def Dev.besideJobs (d : Dev) : BitVec 48 × Tab UnitSt × Wings × Tab FnSt × Tab PortSt × Acl × Pot × Lcs × Tmp × Bat × Tab Guard × Pwr × Svc ×
    Twn × Mgt × Nv × Evr :=
  (d.tick, d.units, { d.wings with planNext := [], pads := [] }, d.fns, d.ports, d.acl, d.unstaged.pot, d.lcs, d.tmp, d.bat, d.guards, d.pwr, d.svc, d.twn,
    d.mgt, d.nv, d.evr)

/-- A write of a page's registers reaches them: the page exists and has registers, a host's BAR shows it, the keeper-page rule admits the
initiator, the page takes the initiator's writes, and its domain is awake. -/
def writeReaches (d : Dev) (i : Ini) (p : Nat) : Bool :=
  !headless p && hostSees i p && !(keeperPage d p && !iniKeeper d i.id) && !pageShut i p && (asleep d p).isNone

/-- The device side of a mailbox can answer: a request is held, the life cycle answers, and the keeper world is present. -/
def spdmReady (s : State) (port : Bool) : Prop :=
  (doeOf s.dev port).isSome = true ∧ (lcState s.fuse = 1 ∨ lcState s.fuse = 2) ∧ keeperPresent s.dev = true

/-- A command answers one SPDM message, empties the mailbox, and does nothing else. -/
def spdmReplies (s : State) (port : Bool) (c : Instr) (code : Byte) (body : List Byte) : Prop :=
  exec c s = .next (s.withDev (emit (setDoe s.dev port none) (.spdm port code body)))

/-- What a signed SPDM response puts on the mailbox: the body, a nonce of the keeper instance, no opaque data, and the signature; ERROR Busy
while the keeper instance cannot deliver (log entry 73). -/
def spdmSignedReply (d : Dev) (port : Bool) (code : Byte) (body : List Byte) : Egress :=
  match keeperDraw d 32 with
  | none => .spdm port 0x7F [0x03]
  | some (n, e) =>
    match spdmSign e with
    | none => .spdm port 0x7F [0x03]
    | some (sig, _) => .spdm port code (body ++ n ++ zeros 2 ++ sig)

/-- A transaction of an initiator that exists, outside STANDBY, to one page of shared SRAM that is not being wiped; a host reaches shared
SRAM by no MMIO (18 R472), only by DMA. -/
def sramAccess (s : State) (t : Txn) : Prop :=
  t.ini.id.toNat < 275 ∧ isDebug t.ini.id = false ∧ (isFnId t.ini.id = true → t.mmio = false) ∧ s.dev.pwr.sysstate ≠ 3 ∧ 0 < t.len ∧
  t.addr.toNat % 0x1000 + t.len ≤ 0x1000 ∧ t.addr.toNat / 0x1000 < 0x2000 ∧ t.addr.toNat / 0x1000 ∉ (s.dev.pot.wipes.map (·.1))

/-- One card slot and what the device puts out on its ports may change, and nothing else. -/
def State.oneSlot (s t : State) (i : BitVec 2) : Prop :=
  s.sameOutside t ∧ t.dev = { s.dev with crd := t.dev.crd, egress := t.dev.egress } ∧
  (∀ j, j ≠ i → getSlot t.dev j = getSlot s.dev j) ∧ t.dev.crd.session = s.dev.crd.session ∧ t.dev.crd.before = s.dev.crd.before

/-- One card slot may change and an event be reported, and nothing else. -/
def State.oneSlotLoud (s t : State) (i : BitVec 2) : Prop :=
  s.sameOutside t ∧ t.dev.quiet = { s.dev with crd := t.dev.crd }.quiet ∧
  (∀ j, j ≠ i → getSlot t.dev j = getSlot s.dev j) ∧ t.dev.crd.session = s.dev.crd.session ∧ t.dev.crd.before = s.dev.crd.before

/-- One card slot may change, an event be reported and recorded, and nothing else. -/
def State.oneSlotLogged (s t : State) (i : BitVec 2) : Prop :=
  s.sameOutside t ∧ t.dev.silent = { s.dev with crd := t.dev.crd }.silent ∧
  (∀ j, j ≠ i → getSlot t.dev j = getSlot s.dev j) ∧ t.dev.crd.session = s.dev.crd.session ∧ t.dev.crd.before = s.dev.crd.before

/-- The transmission factors that TA1 may ask for, as TA1, Fi and Di (11 R316). -/
def cardFactors : List (Byte × BitVec 11 × BitVec 5) :=
  [(0x11, 372, 1), (0x12, 372, 2), (0x13, 372, 4), (0x14, 372, 8), (0x15, 372, 16),
   (0x91, 512, 1), (0x92, 512, 2), (0x93, 512, 4), (0x94, 512, 8), (0x95, 512, 16)]

/-- The device after it has taken a frame: the next sequence number is expected, and what the frame acknowledges leaves the replay
buffer (16 R426). -/
def frameTaken (d : Dev) (h : FrameHdr) : Dev :=
  { d with twn := { d.twn with rxSeq := d.twn.rxSeq + 1, replay := d.twn.replay.filter fun r => decide (h.ack.toNat < r.1.toNat) } }

/-- A frame that the device takes: the link is up, the frame is intact and the next one expected, a secured frame has its tag, and
neither a fill nor a release of this device waits for acknowledgements. -/
def frameGood (s : State) (h : FrameHdr) (secure : Bool) : Prop :=
  s.dev.twn.width ≠ 0 ∧ domOn s.dev 14 = true ∧ h.crcOk = true ∧ h.seq = s.dev.twn.rxSeq ∧
  (secure = true → s.dev.twn.keys ≠ none ∧ h.tagOk = true) ∧ s.dev.twn.filling.getLsbD 0 = false ∧ s.dev.twn.releasing = false

/-- The commands that may store to byte memory: accesses through the fabric, a domain that wakes (the accesses that waited for it), a
page wipe, a cold reset, and what a card answers. -/
def storesBytes : Instr → Bool
  | .fabricTransaction _ | .domainReady _ | .pageWipe _ _ | .coldReset _ | .atrReceived _ _ | .apduResponse _ _ _ => true
  | _ => false

/-- The commands that stage or release material of jobs: they may wipe pages of the staging area, and store nowhere else. -/
def settlesStage : Instr → Bool
  | .tickBoundary _ | .entryReadReturn _ _ _ | .dmaReadCompletion _ _ _ => true
  | c => (jobRow c).isSome

/-- The commands that may program fuses: register writes (LCS and TMP), accesses through the fabric and what lets waiting ones go on,
the life cycle's own commands, the keeper's start and its jobs, a tick boundary, a cold reset, and what may count on the tamper counter. -/
def burnsFuses : Instr → Bool
  | .fabricTransaction _ | .domainReady _ | .pageWipe _ _ | .coldReset _ | .registerWrite _ _ _ | .guardedRegisterWrite _ _ _
  | .guardedShadowWrite _ _ _ | .pgEvtSetWrite _ _ _ | .pgLockWrite _ _ _ | .lcsFuseProgram _ | .lcsGendrs _ | .tmpFuseoff _ _
  | .eraseEngineDone | .worldReady _ | .kprKeeperDone _ | .tickBoundary _ | .tamperAlarm _ | .tamperSample _ | .guardMismatch _
  | .pwrFailNRise => true
  | _ => false

/-- The commands that bring PWR_FAIL_N, or the whole device, back up. -/
def restoresPower : Instr → Bool
  | .pwrFailNRise | .coldReset _ => true
  | _ => false

end Sys2Proof.Machine
end

