-- ==== Sys2Proof/Certificates/Slice0/Obligations.lean ====
section
/-! DEFINITION. The statements for the provers. -/

open Sys2Proof Sys2Proof.Machine

/-- For every command c and state s, step of s with c at the front of its queue is exec of c on s with the queue's rest; on an empty queue the step
answers the same state. The idle step is the model's choice (log entry 2). (R6) -/
def Obligations.StepRunsFront : Prop :=
  (∀ c s, step { s with pending := c :: s.pending } = exec c s) ∧ (∀ s, s.pending = [] → step s = .next s)

/-- Every command answers a next state with the queue of waiting commands unchanged, unless it names a unit, a power domain or a noise source that does
not exist; then it faults. No command is ever refused. That an absent name faults is the model's choice (log entry 1). (R1, R6) -/
def Obligations.CommandsComplete : Prop :=
  (∀ c s, namesAbsent c = false → Completes c s fun t => t.pending = s.pending) ∧
  (∀ c s, namesAbsent c = true → ∃ f, exec c s = .fault f) ∧
  (∀ c s r, exec c s ≠ .refused r)

/-- A command outside the six that store and those that stage or release material of jobs leaves byte memory as it was; one that stages or releases may
wipe pages of the staging area (shared SRAM pages 0 to 0x3FF) and stores nowhere else; a command outside those that program OTP leaves every fuse word
as it was. What staging pages hold is the model's choice (log entry 69). (R291, R297, R338) -/
def Obligations.StoreFrame : Prop :=
  (∀ c s t, storesBytes c = false → settlesStage c = false → exec c s = .next t → t.mem = s.mem) ∧
  (∀ c s t, settlesStage c = true → exec c s = .next t → s.besideStage { t with fuse := s.fuse }) ∧
  (∀ c s t, burnsFuses c = false → exec c s = .next t → t.fuse = s.fuse)

/-- State.reset lists no memory and is canonical; TICKNO and the cycle are 0, no job is held, every function is ABSENT, every queue is disabled, the
keeper world is STARTING, the RNG is in STARTUP, the device is in COLD_START, PWR_FAIL_N is high, no rotation runs, and CLK_VOLT0 to 3 hold 780, 720,
640 and 600 mV. The life-cycle state PRODUCTION is the model's choice (log entry 4). (R6, R396, R388, R270) -/
def Obligations.ResetState : Prop :=
  State.reset.canonical ∧ State.reset.mem = [] ∧ State.reset.pending = [] ∧ State.reset.dev.tick = 0 ∧ State.reset.dev.cyc = 0 ∧
  State.reset.dev.jobs = [] ∧ (∀ f, (getFn State.reset.dev f).state = 0) ∧ (∀ f q, (getQ State.reset.dev f q).en = false) ∧
  State.reset.dev.acl.keeper = 1 ∧ State.reset.dev.rng.state = 1 ∧ State.reset.dev.pwr.sysstate = 0 ∧ State.reset.dev.pwr.pfLevel = true ∧
  lcState State.reset.fuse = 2 ∧ rotationOf State.reset.dev .pk = none ∧
  (List.range 4).map (fun n => bits (guardVal State.reset.dev (clkAddr (0x054 + 4 * n))) 0 10) = [780, 720, 640, 600]

/-- From every state whose byte memory is in canonical form, a step that answers a next state answers one whose byte memory is in canonical form:
addresses strictly rising, no zero listed. The canonical form is the model's own (log entry 6). (R291, R295, R297, R396) -/
def Obligations.MemoryCanonical : Prop :=
  ∀ s t, s.canonical → step s = .next t → t.canonical

/-- In every step from every state, each bit of every OTP word (state words, D words, DRS, marker, token digests, product word, tamper counter, source
words) that was 1 is still 1. (R338, R364) -/
def Obligations.FusesOnlyBurn : Prop :=
  ∀ s t, step s = .next t → s.fuse.onlyBurns t.fuse

/-- In every step from every state, the decoded life-cycle state (BLANK 0, TEST 1, PRODUCTION 2, END_OF_LIFE 3) does not fall. (R338, R340) -/
def Obligations.LifeCycleForward : Prop :=
  ∀ s t, step s = .next t → (lcState s.fuse).toNat ≤ (lcState t.fuse).toNat

/-- From a state in which PWR_FAIL_N is low, every command other than its rise and a cold reset leaves all fuses as they were. (R339, R392) -/
def Obligations.NoPulseWhileLow : Prop :=
  ∀ c s t, s.dev.pwr.pfLevel = false → restoresPower c = false → exec c s = .next t → t.fuse = s.fuse

/-- In TEST or PRODUCTION, a well-formed entry of a job marked PF only, fetched from an open queue of a function other than PF 0 and PF 128, becomes a job
whose outcome is LIFECYCLE_DENIED (0x0E) with detail 0x01; jobs before it are unchanged. (R107) -/
def Obligations.PfOnlyDenied : Prop :=
  ∀ s c k e, jobRow c = some (k, e) → queueOpen s.dev e.fn e.q = true → entryMalformed (jobInfo k) e = none →
    (getFn s.dev e.fn.toNat).bme = true → fetchStop s.dev e.fn.toNat e.q.toNat = { win := false, cq := false, stage := false } →
    (jobInfo k).pf = true → e.fn ≠ 0 → e.fn ≠ 128 → lcState s.fuse = 1 ∨ lcState s.fuse = 2 →
    Completes c s fun t => s.besideStage t ∧ ∃ x, t.dev.jobs = s.dev.jobs ++ [x] ∧ x.kind = k ∧ x.e = e ∧ x.stage = .done ∧
      x.res = outcome 0x0E 0x01

/-- In TEST, a LIFECYCLE_TRANSITION to PRODUCTION submitted by a PF while any other function is in a state other than ABSENT has the outcome
LIFECYCLE_DENIED (0x0E) with detail 0x02. (R342) -/
def Obligations.ProductionDenied : Prop :=
  ∀ s e f, queueOpen s.dev e.fn e.q = true → entryMalformed (jobInfo .lifecycleTransition) e = none → e.fn = 0 ∨ e.fn = 128 →
    (getFn s.dev e.fn.toNat).bme = true → fetchStop s.dev e.fn.toNat e.q.toNat = { win := false, cq := false, stage := false } →
    lcState s.fuse = 1 → opLe e 0 1 = 2 → f ≠ e.fn.toNat → (getFn s.dev f).state ≠ 0 →
    Completes (.lifecycleTransition e) s fun t => s.besideStage t ∧ ∃ x, t.dev.jobs = s.dev.jobs ++ [x] ∧ x.kind = .lifecycleTransition ∧
      x.e = e ∧ x.stage = .done ∧ x.res = outcome 0x0E 0x02

/-- Outside TEST a write of PG_EVT_SET that reaches its page changes nothing but event reporting, the violation log and the domain's last use: no event
bit falls, and no event bit rises but those of the event recorder and the monitors that record the ignored write. (R13) -/
def Obligations.EventSetIgnored : Prop :=
  ∀ s ini (page : BitVec 28) v, writeReaches s.dev ini page.toNat = true → lcState s.fuse ≠ 1 →
    Completes (.pgEvtSetWrite ini page v) s fun t => s.sameOutside t ∧ t.dev.unlogged = (touchPage s.dev page.toNat).unlogged ∧
      (∀ p b, s.dev.event p b = true → t.dev.event p b = true) ∧
      ∀ p b, t.dev.event p b = true → s.dev.event p b = true ∨ (p = evrPage ∧ b ∈ [0, 1, 3]) ∨ (b = 0 ∧ ∃ m, p = pmcPage m)

/-- Outside STANDBY a tick boundary completes: TICKNO rises by one, the cycle is 0, the cut is open again, the RTC advances by the environment's count,
the plan moves on, memory outside the staging area and the queue stay, fuses only burn. The plan cut completes at cycle 38,976, marks the cut, and
leaves TICKNO, functions, queues, tables, domains, guards, the store room and the set of jobs as they were (shown with an empty outbox). In STANDBY
both change nothing. (R6, R16, R22, R390) -/
def Obligations.Ticks : Prop :=
  (∀ s b, s.dev.pwr.sysstate ≠ 3 → Completes (.tickBoundary b) s fun t => t.pending = s.pending ∧
    (∀ a, 0x400000 ≤ a → memGet t.mem a = memGet s.mem a) ∧ s.fuse.onlyBurns t.fuse ∧ t.dev.tick = s.dev.tick + 1 ∧ t.dev.cyc = 0 ∧ t.dev.cutDone = false ∧
    t.dev.bat.rtc = s.dev.bat.rtc + BitVec.ofNat 48 b.rtc ∧ t.dev.wings.planNext = []) ∧
  (∀ s b, s.dev.pwr.sysstate = 3 → exec (.tickBoundary b) s = .next s) ∧
  (∀ s, s.dev.pwr.sysstate ≠ 3 → s.dev.cutDone = false → s.dev.nv.twin.outbox = [] → Completes .planCut s fun t => s.sameOutside t ∧
    t.dev.cyc = 38976 ∧ t.dev.cutDone = true ∧ t.dev.tick = s.dev.tick ∧ t.dev.fns = s.dev.fns ∧ t.dev.queues = s.dev.queues ∧
    t.dev.acl = s.dev.acl ∧ t.dev.pot = s.dev.pot ∧ t.dev.bat = s.dev.bat ∧ t.dev.lcs = s.dev.lcs ∧ t.dev.guards = s.dev.guards ∧
    t.dev.pwr = s.dev.pwr ∧ t.dev.nv = s.dev.nv ∧ t.dev.jobs.map (·.id) = s.dev.jobs.map (·.id)) ∧
  (∀ s, s.dev.pwr.sysstate = 3 → exec .planCut s = .next s)

/-- In a wing with an ACTIVE shelf and no rotation, with a nonzero interval, ROTATION_START either takes the ACTIVE shelf with the smallest last test and
a SPARE of the wing in a powered domain, or starts none because no spare stands in a powered domain. (R409) -/
def Obligations.RotationStart : Prop :=
  ∀ s w u0, rotationOf s.dev w = none → bits (guardVal s.dev (regAddr svcPage 0x068)) 0 16 ≠ 0 → u0 ∈ wingShelves w →
    (getUnit s.dev u0).state = 0 →
    Completes .rotationStart s fun t => s.sameOutside t ∧
      t.dev = { s.dev with wings := t.dev.wings, svc := { s.dev.svc with nospare := t.dev.svc.nospare } } ∧
      ((∃ due spare, rotationOf t.dev w = some { phase := 0, due := BitVec.ofNat 16 due, spare := BitVec.ofNat 16 spare } ∧
          due ∈ wingShelves w ∧ (getUnit s.dev due).state = 0 ∧
          (∀ k ∈ wingShelves w, (getUnit s.dev k).state = 0 → (getUnit s.dev due).lastTest.toNat ≤ (getUnit s.dev k).lastTest.toNat) ∧
          spare ∈ wingShelves w ∧ (getUnit s.dev spare).state = 1 ∧ domOn s.dev (unitDomain spare) = true ∧
          (shelfRack spare = shelfRack due ∨ ∀ k ∈ wingShelves w, shelfRack k = shelfRack due → (getUnit s.dev k).state = 1 →
            domOn s.dev (unitDomain k) = false)) ∨
       (rotationOf t.dev w = none ∧
          ∀ k ∈ wingShelves w, (getUnit s.dev k).state = 1 → domOn s.dev (unitDomain k) = false))

/-- A privileged PF's DRAIN or RETURN request on an unlocked awake unit page completes: the guarded request register holds it, every shelf at or below the
unit carries the request, no other shelf changes. A strike lapses 2^20 ticks after it and not before. (R20, R21, R50, R163) -/
def Obligations.UnitService : Prop :=
  (∀ s ini unit, unit.toNat < unitCount → isPf ini.id = true → ini.priv = true → asleep s.dev (unitPage unit.toNat) = none →
    (getPage s.dev (unitPage unit.toNat)).lock = false →
    Completes (.rackSvcreqDrain ini unit) s fun t => s.sameOutside t ∧
      t.dev = { s.dev with units := t.dev.units, guards := t.dev.guards, pwr := t.dev.pwr } ∧
      getGuard t.dev (regAddr (unitPage unit.toNat) 0x064) = { val := 1, shadow := ~~~1, pend := none } ∧
      ∀ k, getUnit t.dev k =
        if (shelvesBelow unit.toNat).contains k then { getUnit s.dev k with request := 1 } else getUnit s.dev k) ∧
  (∀ s ini unit, unit.toNat < unitCount → isPf ini.id = true → ini.priv = true → asleep s.dev (unitPage unit.toNat) = none →
    (getPage s.dev (unitPage unit.toNat)).lock = false →
    Completes (.rackSvcreqReturn ini unit) s fun t => s.sameOutside t ∧
      t.dev = { s.dev with units := t.dev.units, guards := t.dev.guards, pwr := t.dev.pwr } ∧
      getGuard t.dev (regAddr (unitPage unit.toNat) 0x064) = { val := 2, shadow := ~~~2, pend := none } ∧
      ∀ k, getUnit t.dev k =
        if (shelvesBelow unit.toNat).contains k then { getUnit s.dev k with request := 2 } else getUnit s.dev k) ∧
  (∀ s unit b, unit.toNat < unitCount → (getUnit s.dev unit.toNat).strike = some b → b.toNat + 2 ^ 20 ≤ s.dev.tick.toNat →
    exec (.strikeExpire unit) s =
      .next (s.withDev (setUnit s.dev unit.toNat { getUnit s.dev unit.toNat with strike := none }))) ∧
  (∀ s unit, unit.toNat < unitCount → (∀ b, (getUnit s.dev unit.toNat).strike = some b → s.dev.tick.toNat < b.toNat + 2 ^ 20) →
    exec (.strikeExpire unit) s = .next s)

/-- An operating hour counts one hour, records the temperature and its band, and raises the wear cause at its limit. A voltage calibration with low
margin, on an unlocked clock page, raises the voltage of the point in force by 5 mV and reports it. SVC_REQSET sets and clears causes as allowed by
the life cycle; outside TEST a clear is ignored and recorded. (R417, R418, R420, R421, R422) -/
def Obligations.StoreRoom : Prop :=
  (∀ s average peak, hourCycles ≤ s.dev.nv.frac →
    Completes (.operatingHour average peak) s fun t => s.sameOutside t ∧
      t.dev.nv.hours = s.dev.nv.hours + 1 ∧ t.dev.nv.frac = s.dev.nv.frac - hourCycles ∧ t.dev.nv.tavg = average ∧
      t.dev.nv.bands = s.dev.nv.bands.set (tempBand average) (s.dev.nv.bands.getD (tempBand average) 0 + 1) ∧
      (350640 ≤ (s.dev.nv.hours + 1).toNat → t.dev.nv.causes.getLsbD 11 = true) ∧
      t.dev.jobs = s.dev.jobs ∧ t.dev.units = s.dev.units ∧ t.dev.guards = s.dev.guards) ∧
  (∀ s, s.dev.acl.keeper = 2 → s.dev.pwr.src ≠ 0 → s.dev.svc.margin.toNat < 30 →
    (s.dev.pwr.point = 0 → bits (guardVal s.dev (clkAddr 0x054)) 0 10 + 5 ≤ 850) → (getPage s.dev (clkPage 0)).lock = false →
    Completes .voltageCalibration s fun t => s.sameOutside t ∧
      guardVal t.dev (clkAddr (0x054 + 4 * s.dev.pwr.point.toNat)) =
        put 0 (bits (guardVal s.dev (clkAddr (0x054 + 4 * s.dev.pwr.point.toNat))) 0 10 + 5) ∧
      t.dev.event svcPage 5 = true ∧
      (∀ a, a ≠ clkAddr (0x054 + 4 * s.dev.pwr.point.toNat) → guardVal t.dev a = guardVal s.dev a) ∧
      t.dev.jobs = s.dev.jobs ∧ t.dev.units = s.dev.units) ∧
  (∀ s ini v, reqsetOk ini v = true → bit v 0 = true →
    Completes (.svcReqsetSet ini v) s fun t => s.sameOutside t ∧ t.dev.nv.causes = s.dev.nv.causes ||| 0x4000 ∧
      (s.dev.nv.causes.getLsbD 14 = true → t = s)) ∧
  (∀ s ini v, reqsetOk ini v = true → bit v 1 = true → lcState s.fuse = 1 →
    Completes (.svcReqsetClear ini v) s fun t => s.sameOutside t ∧
      t.dev = { s.dev with nv := { s.dev.nv with causes := 0, capCause := false }, svc := t.dev.svc, egress := t.dev.egress }) ∧
  (∀ s ini v, reqsetOk ini v = true → bit v 1 = true → lcState s.fuse ≠ 1 →
    Completes (.svcReqsetClear ini v) s fun t => s.sameOutside t ∧ t.dev.unlogged = s.dev.unlogged)

/-- A write of a guarded register waits as pending; the write of its shadow commits the pending value and stores the shadow; other guarded registers stay.
On a locked page nothing but the lock violation's record changes. (R369, R11, R470) -/
def Obligations.GuardedPair : Prop :=
  (∀ s ini addr v, isGuarded addr.toNat = true → writeReaches s.dev ini (addr.toNat / 0x1000) = true →
    (getPage s.dev (addr.toNat / 0x1000)).lock = false → guardRight s.fuse ini addr.toNat = true →
    exec (.guardedRegisterWrite ini addr v) s =
      .next (s.withDev (setGuard (touchPage s.dev (addr.toNat / 0x1000)) addr.toNat
        { getGuard s.dev addr.toNat with pend := some v }))) ∧
  (∀ s ini addr v, isGuarded (addr.toNat - 0x800) = true → 0x800 ≤ addr.toNat % 0x1000 →
    writeReaches s.dev ini (addr.toNat / 0x1000) = true →
    (getPage s.dev (addr.toNat / 0x1000)).lock = false → guardRight s.fuse ini (addr.toNat - 0x800) = true →
    guardRefused s.dev s.fuse (addr.toNat - 0x800)
      ((getGuard s.dev (addr.toNat - 0x800)).pend.getD (guardVal s.dev (addr.toNat - 0x800))) = false →
    Completes (.guardedShadowWrite ini addr v) s fun t => s.sameOutside t ∧
      getGuard t.dev (addr.toNat - 0x800) =
        { val := (getGuard s.dev (addr.toNat - 0x800)).pend.getD (guardVal s.dev (addr.toNat - 0x800)), shadow := v, pend := none } ∧
      ∀ b, b ≠ addr.toNat - 0x800 → getGuard t.dev b = getGuard s.dev b) ∧
  (∀ s ini addr v, isGuarded addr.toNat = true → writeReaches s.dev ini (addr.toNat / 0x1000) = true →
    (getPage s.dev (addr.toNat / 0x1000)).lock = true →
    Completes (.guardedRegisterWrite ini addr v) s fun t => s.sameOutside t ∧ t.dev.silent = (touchPage s.dev (addr.toNat / 0x1000)).silent)

/-- In TEST PG_EVT_SET sets the implemented bits that are written and clears none; elsewhere it is ignored and recorded. The keeper side sets PG_LOCK on
an unlocked page; once set it stays, and other initiators' writes are ignored and recorded. (R11, R13, R468, R469) -/
def Obligations.HeaderWrites : Prop :=
  (∀ s ini (page : BitVec 28) v, writeReaches s.dev ini page.toNat = true → lcState s.fuse = 1 →
    Completes (.pgEvtSetWrite ini page v) s fun t => s.sameOutside t ∧
      t.dev.quiet = (touchPage s.dev page.toNat).quiet ∧
      (∀ p b, s.dev.event p b = true → t.dev.event p b = true) ∧
      (∀ b, v.getLsbD b = true → (evtMask page.toNat).getLsbD b = true → t.dev.event page.toNat b = true) ∧
      ∀ p b, t.dev.event p b = true → s.dev.event p b = true ∨
        (p = page.toNat ∧ v.getLsbD b = true ∧ (evtMask page.toNat).getLsbD b = true) ∨ (b = 0 ∧ ∃ m, p = pmcPage m)) ∧
  (∀ s ini (page : BitVec 28) v, writeReaches s.dev ini page.toNat = true → lcState s.fuse ≠ 1 →
    Completes (.pgEvtSetWrite ini page v) s fun t => s.sameOutside t ∧
      t.dev.unlogged = (touchPage s.dev page.toNat).unlogged) ∧
  (∀ s ini (page : BitVec 28) v, writeReaches s.dev ini page.toNat = true → keeperOnly ini = true →
    (getPage s.dev page.toNat).lock = false →
    exec (.pgLockWrite ini page v) s = .next (s.withDev { touchPage s.dev page.toNat with
      pages := tabPut s.dev.pages page.toNat { getPage s.dev page.toNat with lock := bit v 0 } })) ∧
  (∀ s ini (page : BitVec 28) v, writeReaches s.dev ini page.toNat = true → keeperOnly ini = true →
    (getPage s.dev page.toNat).lock = true →
    Completes (.pgLockWrite ini page v) s fun t => s.sameOutside t ∧ t.dev.silent = (touchPage s.dev page.toNat).silent) ∧
  (∀ s ini (page : BitVec 28) v, writeReaches s.dev ini page.toNat = true → keeperOnly ini = false →
    Completes (.pgLockWrite ini page v) s fun t => s.sameOutside t ∧ t.dev.unlogged = (touchPage s.dev page.toNat).unlogged)

/-- An aligned word write of FUNC_COALn that reaches an unlocked page stores its interval; on a locked page it leaves the field and is recorded; a single
byte write to it is ignored and recorded. (R11, R12, R67, R305) -/
def Obligations.RegisterWrites : Prop :=
  (∀ s ini (f : FnNo) (k : Nat) (v : Word), k < 32 → hostSees ini (funcPage f.toNat) = true → (getPage s.dev (funcPage f.toNat)).lock = false →
    exec (.registerWrite ini (BitVec.ofNat 40 (regAddr (funcPage f.toNat) (0x080 + 4 * k))) (leBytes 4 v.toNat)) s =
      .next (s.withDev (setFn s.dev f.toNat
        { getFn s.dev f.toNat with coal := tabPut (getFn s.dev f.toNat).coal k (v.setWidth 8) }))) ∧
  (∀ s ini (f : FnNo) (k : Nat) (v : Word), k < 32 → hostSees ini (funcPage f.toNat) = true → (getPage s.dev (funcPage f.toNat)).lock = true →
    Completes (.registerWrite ini (BitVec.ofNat 40 (regAddr (funcPage f.toNat) (0x080 + 4 * k))) (leBytes 4 v.toNat)) s fun t =>
      s.sameOutside t ∧ t.dev.silent = s.dev.silent) ∧
  (∀ s ini (f : FnNo) (k : Nat) (b : Byte), k < 128 → hostSees ini (funcPage f.toNat) = true →
    Completes (.registerWrite ini (BitVec.ofNat 40 (regAddr (funcPage f.toNat) (0x080 + k))) [b]) s fun t =>
      s.sameOutside t ∧ t.dev.unlogged = s.dev.unlogged)

/-- CREATE by an initiator that may command the function, with all checks passed, makes it READY with the resources that the guarded FUNC_ALLOC and
FUNC_KCQUOTA name. RELEASE, RESET and FLR of a READY or HALTED function raise FUNC_GEN, enter RELEASING or RESETTING, and set the boundary at which it
ends; no other function changes. (R55, R56, R57, R60, R61, R62, R63, R64) -/
def Obligations.FunctionCommands : Prop :=
  (∀ s ini fn, mayCommandFn ini fn.toNat = true → (getFn s.dev fn.toNat).busy = false → createCheck s.dev fn.toNat = 0 →
    Completes (.funcCreate ini fn) s fun t => s.sameOutside t ∧
      getFn t.dev fn.toNat = { getFn s.dev fn.toNat with
        state := 1, result := 0, readyAt := none, wiped := false,
        priv := bit (guardVal s.dev (regAddr (funcPage fn.toNat) 0x040)) 31 && fn.toNat != 0 && fn.toNat != 128,
        vectors := bits (guardVal s.dev (regAddr (funcPage fn.toNat) 0x040)) 16 6,
        qpairs := bits (guardVal s.dev (regAddr (funcPage fn.toNat) 0x040)) 8 5,
        kcUnits := bits (guardVal s.dev (regAddr (funcPage fn.toNat) 0x044)) 0 9 } ∧
      ∀ g, g ≠ fn.toNat → getFn t.dev g = getFn s.dev g) ∧
  (∀ s ini fn, mayCommandFn ini fn.toNat = true → (getFn s.dev fn.toNat).busy = false →
    (getFn s.dev fn.toNat).state = 1 ∨ (getFn s.dev fn.toNat).state = 3 →
    Completes (.funcRelease ini fn) s fun t => s.sameOutside t ∧
      getFn t.dev fn.toNat = { getFn s.dev fn.toNat with
        dbase := 0, dcfg := 0, dlost := 0, dwritten := 0, dseq := 0, dumps := [],
        state := 4, busy := true, result := 0, gen := (getFn s.dev fn.toNat).gen + 1, wiped := false,
        readyAt := some (s.dev.tick + (if s.dev.cutDone then 3 else 2)) } ∧
      ∀ g, g ≠ fn.toNat → getFn t.dev g = getFn s.dev g) ∧
  (∀ s ini fn, mayCommandFn ini fn.toNat = true → (getFn s.dev fn.toNat).busy = false →
    (getFn s.dev fn.toNat).state = 1 ∨ (getFn s.dev fn.toNat).state = 3 →
    Completes (.funcReset ini fn) s fun t => s.sameOutside t ∧
      getFn t.dev fn.toNat = { getFn s.dev fn.toNat with
        dbase := 0, dcfg := 0, dlost := 0, dwritten := 0, dseq := 0, dumps := [],
        state := 2, busy := true, result := 0, gen := (getFn s.dev fn.toNat).gen + 1, wiped := false,
        readyAt := some (s.dev.tick + (if s.dev.cutDone then 3 else 2)) } ∧
      ∀ g, g ≠ fn.toNat → getFn t.dev g = getFn s.dev g) ∧
  (∀ s fn, fn.toNat ≠ 0 → fn.toNat ≠ 128 → (getFn s.dev fn.toNat).state = 1 ∨ (getFn s.dev fn.toNat).state = 3 →
    Completes (.pcieFlr fn) s fun t => s.sameOutside t ∧
      getFn t.dev fn.toNat = { getFn s.dev fn.toNat with
        dbase := 0, dcfg := 0, dlost := 0, dwritten := 0, dseq := 0, dumps := [],
        state := 2, gen := (getFn s.dev fn.toNat).gen + 1, wiped := false, bme := false, fnMask := false,
        readyAt := some (s.dev.tick + (if s.dev.cutDone then 3 else 2)) } ∧
      ∀ g, g ≠ fn.toNat → getFn t.dev g = getFn s.dev g)

/-- Each resets every READY or HALTED function of its port, its VFs for a VF Enable change, clears the configuration space as said, and leaves the other
port and its functions as they were. That configuration resets clear VF Enable is the model's reading (log entry 40). (R53, R60, R75) -/
def Obligations.PortResets : Prop :=
  (∀ s port, Completes (.portLinkDown port) s fun t => s.sameOutside t ∧
    getPort t.dev port = { getPort s.dev port with
      link := false, resets := satInc (getPort s.dev port).resets, vfEnable := false, numVfs := 0, doe := { request := none } } ∧
    getPort t.dev (!port) = getPort s.dev (!port) ∧
    (∀ g, g / 128 = portNo port → g < 256 → (getFn s.dev g).state = 1 ∨ (getFn s.dev g).state = 3 →
      (getFn t.dev g).state = 2 ∧ (getFn t.dev g).gen = (getFn s.dev g).gen + 1 ∧ (getFn t.dev g).bme = false) ∧
    (∀ g, g / 128 ≠ portNo port → getFn t.dev g = getFn s.dev g)) ∧
  (∀ s port, Completes (.perstAssert port) s fun t => s.sameOutside t ∧
    getPort t.dev port = { getPort s.dev port with
      perst := false, link := false, resets := satInc (getPort s.dev port).resets, vfEnable := false, numVfs := 0, doe := { request := none } } ∧
    getPort t.dev (!port) = getPort s.dev (!port) ∧
    (∀ g, g / 128 = portNo port → g < 256 → (getFn s.dev g).state = 1 ∨ (getFn s.dev g).state = 3 →
      (getFn t.dev g).state = 2 ∧ (getFn t.dev g).gen = (getFn s.dev g).gen + 1 ∧ (getFn t.dev g).bme = false) ∧
    (∀ g, g / 128 ≠ portNo port → getFn t.dev g = getFn s.dev g)) ∧
  (∀ s fn port, fn.toNat = 128 * portNo port → Completes (.pcieFlr fn) s fun t => s.sameOutside t ∧
    getPort t.dev port = { getPort s.dev port with vfEnable := false, numVfs := 0, doe := { request := none } } ∧
    getPort t.dev (!port) = getPort s.dev (!port) ∧
    (∀ g, g / 128 = portNo port → g < 256 → (getFn s.dev g).state = 1 ∨ (getFn s.dev g).state = 3 →
      (getFn t.dev g).state = 2 ∧ (getFn t.dev g).gen = (getFn s.dev g).gen + 1 ∧ (getFn t.dev g).bme = false) ∧
    (∀ g, g / 128 ≠ portNo port → getFn t.dev g = getFn s.dev g)) ∧
  (∀ s port enable (n : BitVec 7), (getPort s.dev port).vfEnable = true ∧ enable = false ∨ (getPort s.dev port).numVfs ≠ n →
    Completes (.vfEnableChange port enable n) s fun t => s.sameOutside t ∧
    getPort t.dev port = { getPort s.dev port with vfEnable := enable, numVfs := n } ∧
    (∀ g, g / 128 = portNo port → g < 256 → g % 128 ≠ 0 → (getFn s.dev g).state = 1 ∨ (getFn s.dev g).state = 3 →
      (getFn t.dev g).state = 2 ∧ (getFn t.dev g).gen = (getFn s.dev g).gen + 1) ∧
    (∀ g, g / 128 ≠ portNo port ∨ g % 128 = 0 → getFn t.dev g = getFn s.dev g)) ∧
  (∀ s port enable (n : BitVec 7), ¬((getPort s.dev port).vfEnable = true ∧ enable = false) → (getPort s.dev port).numVfs = n →
    exec (.vfEnableChange port enable n) s = .next (s.withDev (setPort s.dev port { getPort s.dev port with vfEnable := enable, numVfs := n })))

/-- BUS_MASTER_ENABLE sets the bit; a mask cleared within the function's vectors is cleared, one at or above its count is ignored; link-up with PERST high
and the domain on sets the link with its configuration, and otherwise does nothing. (R66, R68, R53) -/
def Obligations.FunctionSwitches : Prop :=
  (∀ s fn on, exec (.busMasterEnable fn on) s = .next (s.withDev (setFn s.dev fn.toNat { getFn s.dev fn.toNat with bme := on }))) ∧
  (∀ s fn (v : BitVec 5), (getFn s.dev fn.toNat).state ≠ 0 → v.toNat < (getFn s.dev fn.toNat).vectors →
    exec (.msixMaskClear fn v) s =
      .next (s.withDev (setVec s.dev fn.toNat v.toNat { getVec s.dev fn.toNat v.toNat with mask := false }))) ∧
  (∀ s fn (v : BitVec 5), (getFn s.dev fn.toNat).state = 0 ∨ (getFn s.dev fn.toNat).vectors ≤ v.toNat →
    exec (.msixMaskClear fn v) s = .next s) ∧
  (∀ s port cfg, domOn s.dev (12 + portNo port) = true → (getPort s.dev port).perst = true →
    exec (.portLinkUp ⟨port, cfg⟩) s = .next (s.withDev (setPort s.dev port { getPort s.dev port with link := true, cfg := cfg }))) ∧
  (∀ s port cfg, domOn s.dev (12 + portNo port) = false ∨ (getPort s.dev port).perst = false → exec (.portLinkUp ⟨port, cfg⟩) s = .next s)

/-- A request of at most 4,096 bytes is held and reported; a longer one, or one in a domain that is off, is dropped; an abort empties the mailbox;
discovery answers the two protocols. (R72, R73, R75) -/
def Obligations.DoeMailbox : Prop :=
  (∀ s port obj, obj.length ≤ 4096 → domOn s.dev (12 + portNo port) = true →
    Completes (.doeRequest port obj) s fun t => s.sameOutside t ∧ doeOf t.dev port = some obj ∧ t.dev.event infoPage (portNo port) = true ∧
      t.dev.quiet = (setDoe s.dev port (some obj)).quiet) ∧
  (∀ s port, exec (.doeAbort port) s = .next (s.withDev (setDoe s.dev port none))) ∧
  (∀ s port, domOn s.dev (12 + portNo port) = true →
    exec (.doeDiscovery port 0) s = .next (s.withDev (emit s.dev (.doe port [0x01, 0x00, 0x00, 0x01])))) ∧
  (∀ s port, domOn s.dev (12 + portNo port) = true →
    exec (.doeDiscovery port 1) s = .next (s.withDev (emit s.dev (.doe port [0x01, 0x00, 0x01, 0x00])))) ∧
  (∀ s port obj, 4096 < obj.length ∨ domOn s.dev (12 + portNo port) = false → exec (.doeRequest port obj) s = .next s)

/-- With a request held, the life cycle TEST or PRODUCTION and the keeper world present, each SPDM request has the response of the spec's table: version,
capabilities, algorithms, digests, certificates, measurements, challenge; an unsupported request has error 0x07. With the keeper world absent the
answer is error 0x03 (busy). (R73, R74) -/
def Obligations.SpdmResponses : Prop :=
  (∀ s port, spdmReady s port → spdmReplies s port (.getVersion port) 0x04 [0x00, 0x01, 0x00, 0x12]) ∧
  (∀ s port, spdmReady s port → spdmReplies s port (.getCapabilities port) 0x61 [0, 15, 0, 0, 0x16, 0, 0, 0]) ∧
  (∀ s port a h, spdmReady s port → spdmReplies s port (.negotiateAlgorithms port a h) 0x63
    [0x04, 0, 0, 0, if a then 0x80 else 0, 0, 0, 0, if h then 0x02 else 0, 0, 0, 0]) ∧
  (∀ s port, spdmReady s port → spdmReplies s port (.getDigests port) 0x01 (slotMask :: chainDigests)) ∧
  (∀ s port code, spdmReady s port → spdmReplies s port (.spdmUnsupportedRequest port code) 0x7F [0x07]) ∧
  (∀ s port slot offset len, spdmReady s port →
    match Config.chain slot with
    | none => spdmReplies s port (.getCertificate port slot offset len) 0x7F [0x01]
    | some c =>
      if c.length ≤ offset.toNat then spdmReplies s port (.getCertificate port slot offset len) 0x7F [0x01]
      else ∃ n, n ≤ len.toNat ∧ n ≤ 4032 ∧ offset.toNat + n ≤ c.length ∧
        spdmReplies s port (.getCertificate port slot offset len) 0x02
          ([slot.setWidth 8, 0] ++ leBytes 2 n ++ leBytes 2 (c.length - offset.toNat - n) ++ (c.drop offset.toNat).take n)) ∧
  (∀ s port block nonce (i : Fin 6), spdmReady s port → block.toNat = i.val + 1 →
    spdmReplies s port (.getMeasurements port block false nonce) 0x60
      ([0, 1] ++ measBlock (i.val + 1) ((measureBlocks s.dev s.fuse).getD i.val []))) ∧
  (∀ s port slot nonce, spdmReady s port →
    match Config.chain slot with
    | none => spdmReplies s port (.challenge port slot nonce) 0x7F [0x01]
    | some c => Completes (.challenge port slot nonce) s fun t => s.sameOutside t ∧ doeOf t.dev port = none ∧
        t.dev.egress = s.dev.egress ++ [spdmSignedReply s.dev port 0x03 ([slot.setWidth 8, slotMask] ++ sha384 c ++
          sha384 ((measureBlocks s.dev s.fuse).zipIdx.flatMap fun b => measBlock (b.2 + 1) b.1))]) ∧
  (∀ s port nonce, spdmReady s port → spdmReplies s port (.getMeasurements port 0 false nonce) 0x60 [6, 0]) ∧
  (∀ s port nonce, spdmReady s port → spdmReplies s port (.getMeasurements port 0xFF false nonce) 0x60
    ([0, 6] ++ (measureBlocks s.dev s.fuse).zipIdx.flatMap fun b => measBlock (b.2 + 1) b.1)) ∧
  (∀ s port nonce, spdmReady s port → Completes (.getMeasurements port 0xFF true nonce) s fun t => s.sameOutside t ∧
    doeOf t.dev port = none ∧ t.dev.egress = s.dev.egress ++ [spdmSignedReply s.dev port 0x60
      ([0, 6] ++ (measureBlocks s.dev s.fuse).zipIdx.flatMap fun b => measBlock (b.2 + 1) b.1)]) ∧
  (∀ s port (block : Byte) sign nonce, spdmReady s port → 6 < block.toNat → block ≠ 0xFF →
    spdmReplies s port (.getMeasurements port block sign nonce) 0x7F [0x01]) ∧
  (∀ s port c, (doeOf s.dev port).isSome = true → lcState s.fuse = 0 ∨ lcState s.fuse = 3 →
    c ∈ [Instr.getVersion port, .getCapabilities port, .getDigests port, .negotiateAlgorithms port true true] →
    spdmReplies s port c 0x7F [0x07]) ∧
  (∀ s port c, (doeOf s.dev port).isSome = true → lcState s.fuse = 1 ∨ lcState s.fuse = 2 → keeperPresent s.dev = false →
    c ∈ [Instr.getVersion port, .getCapabilities port, .getDigests port, .negotiateAlgorithms port true true] →
    spdmReplies s port c 0x7F [0x03])

/-- A ring of an open queue issues one index read, or marks one more while one is out; its return sets sq_prod and cq_cons; a queue with entries, window,
completion room and staging room fetches its next entries; without room it fetches none and shows what it waits for; enabling zeroes the consumed
indices and writes the device half; disabling waits for the queue's jobs; a ring of a closed queue does nothing. (R79, R80, R81, R82, R90, R102) -/
def Obligations.QueueCommands : Prop :=
  (∀ s (fn : FnNo) (q : QNo), queueOpen s.dev fn q = true → (getQ s.dev fn.toNat q.toNat).idxOut = false →
    (getFn s.dev fn.toNat).bme = true →
    Completes (.hatchRing fn q) s fun t => s.sameOutside t ∧
      t.dev.quiet = (setQ s.dev fn.toNat q.toNat { getQ s.dev fn.toNat q.toNat with idxOut := true }).quiet ∧
      t.dev.egress.getLast? = some (.indexRead fn q (getQ s.dev fn.toNat q.toNat).idxbase)) ∧
  (∀ s (fn : FnNo) (q : QNo), queueOpen s.dev fn q = true → (getQ s.dev fn.toNat q.toNat).idxOut = true →
    Completes (.hatchRing fn q) s fun t => s.sameOutside t ∧
      t.dev.quiet = (setQ s.dev fn.toNat q.toNat { getQ s.dev fn.toNat q.toNat with reread := true }).quiet) ∧
  (∀ s (fn : FnNo) (q : QNo), queueOpen s.dev fn q = false → exec (.hatchRing fn q) s = .next s) ∧
  (∀ s (fn : FnNo) (q : QNo) prod cons, queueOpen s.dev fn q = true → (getQ s.dev fn.toNat q.toNat).idxOut = true →
    (getFn s.dev fn.toNat).bme = true →
    (prod - (getQ s.dev fn.toNat q.toNat).sqCons).toNat ≤ ringUnits (getQ s.dev fn.toNat q.toNat).sqsz →
    ((getQ s.dev fn.toNat q.toNat).cqProd - cons).toNat ≤ ringUnits (getQ s.dev fn.toNat q.toNat).cqsz →
    Completes (.indexReadReturn fn q (some (prod, cons))) s fun t => s.sameOutside t ∧ t.dev.jobs = s.dev.jobs ∧ t.dev.fns = s.dev.fns ∧
      (getQ t.dev fn.toNat q.toNat).sqProd = prod ∧ (getQ t.dev fn.toNat q.toNat).cqCons = cons ∧
      (getQ t.dev fn.toNat q.toNat).idxOut = (getQ s.dev fn.toNat q.toNat).reread ∧
      (getQ t.dev fn.toNat q.toNat).reread = false ∧
      (getQ t.dev fn.toNat q.toNat).sqCons = (getQ s.dev fn.toNat q.toNat).sqCons) ∧
  (∀ s (fn : FnNo) (q : QNo), queueOpen s.dev fn q = true → (getQ s.dev fn.toNat q.toNat).entryOut = false →
    (getFn s.dev fn.toNat).bme = true → 0 < ((getQ s.dev fn.toNat q.toNat).sqProd - (getQ s.dev fn.toNat q.toNat).sqCons).toNat →
    fetchStop s.dev fn.toNat q.toNat = { win := false, cq := false, stage := false } → (getQ s.dev fn.toNat q.toNat).stwait = false →
    Completes (.fetchResume fn q) s fun t => s.sameOutside t ∧
      t.dev.quiet = (setQ s.dev fn.toNat q.toNat
        { getQ s.dev fn.toNat q.toNat with entryOut := true, cqwait := false, winwait := false, stwait := false }).quiet ∧
      ∃ len more, 0 < len ∧ t.dev.egress = s.dev.egress ++ .entryRead fn q ((getQ s.dev fn.toNat q.toNat).sqbase +
        BitVec.ofNat 64 (32 * ((getQ s.dev fn.toNat q.toNat).sqCons.toNat % ringUnits (getQ s.dev fn.toNat q.toNat).sqsz))) len :: more) ∧
  (∀ s (fn : FnNo) (q : QNo) x, queueOpen s.dev fn q = true → (getQ s.dev fn.toNat q.toNat).entryOut = false →
    0 < ((getQ s.dev fn.toNat q.toNat).sqProd - (getQ s.dev fn.toNat q.toNat).sqCons).toNat →
    fetchStop s.dev fn.toNat q.toNat = x → x.win || x.cq || x.stage → (getQ s.dev fn.toNat q.toNat).stwait = false →
    exec (.fetchResume fn q) s = .next (s.withDev (setQ s.dev fn.toNat q.toNat { getQ s.dev fn.toNat q.toNat with
      winwait := x.win, cqwait := x.cq, stwait := x.stage, winSaw := (getQ s.dev fn.toNat q.toNat).winSaw || x.win,
      cqSaw := (getQ s.dev fn.toNat q.toNat).cqSaw || x.cq }))) ∧
  (∀ s (fn : FnNo) (q : QNo), (getPage s.dev (quePage fn.toNat)).lock = false → (getQ s.dev fn.toNat q.toNat).disabling = false →
    (getQ s.dev fn.toNat q.toNat).en = false → q.toNat < (getFn s.dev fn.toNat).qpairs → (getFn s.dev fn.toNat).state = 1 →
    (getFn s.dev fn.toNat).bme = true →
    Completes (.queueEnable fn q) s fun t => s.sameOutside t ∧
      t.dev.quiet = (setQ s.dev fn.toNat q.toNat { getQ s.dev fn.toNat q.toNat with
        en := true, sqCons := 0, cqProd := 0, sqProd := 0, cqCons := 0, cqwait := false, winwait := false, stwait := false, dead := false }).quiet ∧
      .indexWrite fn q ((getQ s.dev fn.toNat q.toNat).idxbase + 32) 0 0 ∈ t.dev.egress) ∧
  (∀ s (fn : FnNo) (q : QNo), (getPage s.dev (quePage fn.toNat)).lock = false → (getQ s.dev fn.toNat q.toNat).disabling = false →
    (getQ s.dev fn.toNat q.toNat).en = true →
    exec (.queueDisable fn q) s = .next (s.withDev (setQ s.dev fn.toNat q.toNat { getQ s.dev fn.toNat q.toNat with
      en := false, disabling := !(queueJobs s.dev fn.toNat q.toNat).isEmpty, cqwait := false, winwait := false, stwait := false, reread := false })))

/-- An entry that returns well-formed becomes a job with its place; operand bytes are staged; a timed-out operand ends its unplaced job with DMA_FAULT and
the descriptor's number; a timed-out index or entry read halts the function with code 0x0E. Outside the device only staging pages may change (log
entry 69). (R82, R83, R85, R99, R101, R102) -/
def Obligations.QueueReads : Prop :=
  (∀ s (fn : FnNo) (q : QNo) bs i e n, queueOpen s.dev fn q = true → (getQ s.dev fn.toNat q.toNat).entryOut = true →
    (getFn s.dev fn.toNat).bme = true →
    bytesMalformed fn q ((getQ s.dev fn.toNat q.toNat).sqProd - (getQ s.dev fn.toNat q.toNat).sqCons).toNat bs = .inr (i, e, n) →
    Completes (.entryReadReturn fn q (some bs)) s fun t => s.besideStage t ∧
      (getQ t.dev fn.toNat q.toNat).sqCons = (getQ s.dev fn.toNat q.toNat).sqCons + BitVec.ofNat 32 n ∧
      t.dev.nextJob = s.dev.nextJob + 1 ∧
      ∃ j ∈ t.dev.jobs, j.id = s.dev.nextJob ∧ j.kind = i.kind ∧ j.e = e ∧ j.sqpos = (getQ s.dev fn.toNat q.toNat).sqCons ∧
        j.gen = (getFn s.dev fn.toNat).gen) ∧
  (∀ s job k bs j x, findJob s.dev job = some j → jobEnded j = false → j.e.descs[k]? = some x → x.dir = false →
    tabFind j.got k = none →
    Completes (.dmaReadCompletion job (.desc k) (some bs)) s fun t => s.besideStage t ∧
      (∃ y, findJob t.dev job = some y ∧ tabFind y.got k = some (fit x.blen.toNat bs) ∧ y.stem = j.stem ∧ y.stage = j.stage ∧ y.res = j.res) ∧
      (j.kind ≠ .tenantPlanLoad → j.kind ≠ .firmwareUpdate →
        t.dev.unstaged.quiet = (modJob s.dev job fun j => { j with got := tabPut j.got k (fit x.blen.toNat bs) }).unstaged.quiet)) ∧
  (∀ s job k j x, findJob s.dev job = some j → jobEnded j = false → j.e.descs[k]? = some x → x.dir = false → jobPlaced j = false →
    Completes (.dmaCompletionTimeout (.data job (.desc k))) s fun t => s.sameOutside t ∧
      .aer j.e.fn ∈ t.dev.egress ∧ ∃ y, findJob t.dev job = some y ∧ y.stage = .done ∧ y.res.status = 0x12 ∧ y.res.detail = BitVec.ofNat 8 k) ∧
  (∀ s (fn : FnNo) (q : QNo), queueOpen s.dev fn q = true → (getQ s.dev fn.toNat q.toNat).idxOut = true →
    Completes (.dmaCompletionTimeout (.index fn q)) s fun t => s.sameOutside t ∧ (getFn t.dev fn.toNat).state = 3 ∧
      (getFn t.dev fn.toNat).haltCode = 0x0E ∧ (getFn t.dev fn.toNat).haltQ = q ∧ t.dev.event (funcPage fn.toNat) 0 = true) ∧
  (∀ s (fn : FnNo) (q : QNo), queueOpen s.dev fn q = true → (getQ s.dev fn.toNat q.toNat).entryOut = true →
    Completes (.dmaCompletionTimeout (.entry fn q)) s fun t => s.sameOutside t ∧ (getFn t.dev fn.toNat).state = 3 ∧
      (getFn t.dev fn.toNat).haltCode = 0x0E ∧ (getFn t.dev fn.toNat).haltQ = q ∧ t.dev.event (funcPage fn.toNat) 0 = true)

/-- For every job command of the catalogue: a well-formed entry of an open queue whose function has Bus Master Enable and room for it appends one job with
the next number, its kind, entry, position, generation and tick; sq_cons passes it by the entry's units; every other queue, and everything but jobs,
keys, random numbers, the quorum session and the staging area, is as it was. (R82, R83, R84, R111) -/
def Obligations.JobSubmission : Prop :=
  ∀ s c k e, jobRow c = some (k, e) → queueOpen s.dev e.fn e.q = true → entryMalformed (jobInfo k) e = none →
    (getFn s.dev e.fn.toNat).bme = true → fetchStop s.dev e.fn.toNat e.q.toNat = { win := false, cq := false, stage := false } →
    Completes c s fun t => s.besideStage t ∧ t.dev.besideJobs = s.dev.besideJobs ∧ t.dev.nextJob = s.dev.nextJob + 1 ∧
      (∃ j : Job, j.id = s.dev.nextJob ∧ j.kind = k ∧ j.e = e ∧ j.sqpos = (getQ s.dev e.fn.toNat e.q.toNat).sqCons ∧
        j.gen = (getFn s.dev e.fn.toNat).gen ∧ j.tick = s.dev.tick ∧
        t.dev.jobs.map Job.stem = s.dev.jobs.map Job.stem ++ [j.stem]) ∧
      (getQ t.dev e.fn.toNat e.q.toNat).sqCons = (getQ s.dev e.fn.toNat e.q.toNat).sqCons + BitVec.ofNat 32 (entryUnits e) ∧
      ∀ f q, qKey f q ≠ qKey e.fn.toNat e.q.toNat → getQ t.dev f q = getQ s.dev f q

/-- For every job command on an open queue: a malformed entry halts its function with the malformation's code and the queue's number, reports it, stages
no job, and leaves every other function as it was; without Bus Master Enable its fetch halts the function with code 0x0E; without window, completion
or staging room no entry is taken and the queue shows what it waits for; on a closed queue nothing but the record of the staging pages changes. (R65,
R102, R103) -/
def Obligations.MalformedEntry : Prop :=
  (∀ s c k e m, jobRow c = some (k, e) → queueOpen s.dev e.fn e.q = true → entryMalformed (jobInfo k) e = some m →
    (getFn s.dev e.fn.toNat).bme = true → fetchStop s.dev e.fn.toNat e.q.toNat = { win := false, cq := false, stage := false } →
    Completes c s fun t => s.besideStage t ∧ (getFn t.dev e.fn.toNat).state = 3 ∧ (getFn t.dev e.fn.toNat).haltCode = m ∧
      (getFn t.dev e.fn.toNat).haltQ = e.q ∧ t.dev.event (funcPage e.fn.toNat) 0 = true ∧ t.dev.nextJob = s.dev.nextJob ∧
      (∀ f, f ≠ e.fn.toNat → getFn t.dev f = getFn s.dev f)) ∧
  (∀ s c k e, jobRow c = some (k, e) → queueOpen s.dev e.fn e.q = true → (getFn s.dev e.fn.toNat).bme = false →
    fetchStop s.dev e.fn.toNat e.q.toNat = { win := false, cq := false, stage := false } →
    Completes c s fun t => s.besideStage t ∧ (getFn t.dev e.fn.toNat).state = 3 ∧ (getFn t.dev e.fn.toNat).haltCode = 0x0E ∧
      (getFn t.dev e.fn.toNat).haltQ = e.q ∧ t.dev.event (funcPage e.fn.toNat) 0 = true ∧ t.dev.nextJob = s.dev.nextJob) ∧
  (∀ s c k e x, jobRow c = some (k, e) → queueOpen s.dev e.fn e.q = true → fetchStop s.dev e.fn.toNat e.q.toNat = x →
    x.win || x.cq || x.stage →
    Completes c s fun t => s.besideStage t ∧ t.dev.unstaged = (showStop s.dev e.fn.toNat e.q.toNat x).unstaged) ∧
  (∀ s c k e, jobRow c = some (k, e) → queueOpen s.dev e.fn e.q = false →
    Completes c s fun t => s.besideStage t ∧ t.dev.unstaged = s.dev.unstaged)

/-- A nonce reservation's commit raises next_free of its record alone and frees the counter when the peer is done too; the end of a due cellar load puts
the record's key in the cache with its nonce account and takes it from the loads; one that is not due does nothing; QUORUM_OPEN opens the next
session; QUORUM_STATUS answers it and changes nothing else. (R190, R191, R243, R244, R327, R328, R504) -/
def Obligations.KeeperWorld : Prop :=
  (∀ s record twin n j, s.dev.pwr.pfLevel = true → nonceOf s.dev record twin = some n → n.wait = some j →
    nextFree s.dev.nv record twin ≤ j → j < 2 ^ 32 →
    Completes (.nonceReserveCommit record twin) s fun t => s.sameOutside t ∧ nextFree t.dev.nv record twin = j + 1 ∧
      (∀ r w, (r, w) ≠ (record, twin) → nextFree t.dev.nv r w = nextFree s.dev.nv r w) ∧
      t.dev.jobs = s.dev.jobs ∧
      nonceOf t.dev record twin = some (
        if n.peerDone then
          { n with ownDone := true, wait := none, nextFree := j + 1, limit := 65536 * (j + 1), next := if n.limit ≤ n.next then 65536 * j else n.next }
        else { n with ownDone := true })) ∧
  (∀ s key version l r, keeperPresent s.dev = true →
    ((loadsDue s.dev).find? fun l => l.1 == key && l.2.1 == version) = some l →
    recByVersion s.dev.nv key version = some r → r.img.state ≠ 4 → readable s.dev r = true → lineLive s.dev.nv key = true →
    (anchorTable s.dev ++ (ancestorsOf s.dev.nv key)).eraseDups.length ≤ 4096 → (cacheHit s.dev key version).isNone = true →
    (freeRun s.dev 0 16384 (typeSlots r.img.ktype)).isSome = true → (∀ j ∈ s.dev.jobs, (key, version) ∉ j.loads) →
    Completes (.cellarLoadDone key version) s fun t => s.sameOutside t ∧
      (∃ e, cacheHit t.dev key version = some e ∧ e.k.value = r.img.value ∧ e.k.attr = r.img.attr ∧ e.k.ktype = r.img.ktype) ∧
      (nonceOf t.dev r.img.record t.dev.nv.twin.index).isSome = true ∧
      t.dev.keys.loads = (s.dev.keys.loads.filter fun x => !(x.1 == key && x.2.1 == version)) ∧
      t.dev.keys.loaded = s.dev.keys.loaded + 1 ∧ t.dev.nv = s.dev.nv ∧ t.dev.jobs = s.dev.jobs) ∧
  (∀ s key version, ((loadsDue s.dev).find? fun l => l.1 == key && l.2.1 == version) = none →
    exec (.cellarLoadDone key version) s = .next s) ∧
  (∀ s job j, findJob s.dev job = some j → j.stage = .keeper → jobPart j = .keeper → keeperPresent s.dev = true → readsDone j = true →
    s.dev.pwr.pfLevel = true → j.kind = .quorumOpen → custodyOf s.dev.nv ≠ none →
    Completes (.kprKeeperDone job) s fun t => s.sameOutside t ∧ t.dev.nv = { s.dev.nv with sessionNext := s.dev.nv.sessionNext + 1 } ∧
      t.dev.crd.before = s.dev.crd.session ∧
      t.dev.crd.session = some {
        number := s.dev.nv.sessionNext, fn := j.e.fn, code := BitVec.ofNat 16 (opLe j.e 0 2),
        digest := opAt j.e 2 48, state := 0, windowEnd := s.dev.bat.rtc.toNat + window120, counted := [], qs := 0, coeffs := [], written := [] } ∧
      ∃ y, findJob t.dev job = some y ∧ y.stage = .done ∧ y.res = outcomeRes s.dev.nv.sessionNext) ∧
  (∀ s job j, findJob s.dev job = some j → j.stage = .keeper → jobPart j = .keeper → keeperPresent s.dev = true → readsDone j = true →
    j.kind = .quorumStatus →
    Completes (.kprKeeperDone job) s fun t => s.sameOutside t ∧
      ∃ y, findJob t.dev job = some y ∧ y.stage = .done ∧ y.res = sessionStatus s.dev (BitVec.ofNat 64 (opLe j.e 0 8)) ∧
        t.dev = { s.dev with jobs := t.dev.jobs })

/-- A raw block that passes the health tests, of an agreeing SHA pair, becomes one seed with the next order; of disagreeing units it is counted and gives
none; with 16 seeds held it is discarded; samples whose tests fire isolate a source, a second time within 2^24 samples or a failed start-up test kills
it, empties the seeds and restarts or ends service; samples that fire no test raise no alarm; a start-up test that passes qualifies its source. (R263,
R265, R266, R267, R271, R282, R284) -/
def Obligations.NoiseSources : Prop :=
  (∀ s (i : BitVec 3) raw, i.toNat < 6 → (getSource s.dev i.toNat).sstate = 2 → s.dev.rng.state = 2 → s.dev.rng.sha ≠ 0 →
    routed s.dev i.toNat = false → (healthRun i.toNat (getSource s.dev i.toNat).health 0 (rawBits (fit 256 raw))).2.2 = none →
    s.dev.rng.seeds.length < 16 →
    Completes (.rawBlockComplete i raw false) s fun t => s.sameOutside t ∧
      t.dev = { setSource s.dev i.toNat (getSource t.dev i.toNat) with rng := t.dev.rng } ∧
      t.dev.rng.mismatch = satInc s.dev.rng.mismatch ∧ t.dev.rng.seeds = s.dev.rng.seeds ∧
      (getSource t.dev i.toNat).blocks = (getSource s.dev i.toNat).blocks + 1 ∧
      (getSource t.dev i.toNat).samples = (getSource s.dev i.toNat).samples + 2048) ∧
  (∀ s (i : BitVec 3) raw, i.toNat < 6 → (getSource s.dev i.toNat).sstate = 2 → s.dev.rng.state = 2 → s.dev.rng.sha ≠ 0 →
    routed s.dev i.toNat = false → (healthRun i.toNat (getSource s.dev i.toNat).health 0 (rawBits (fit 256 raw))).2.2 = none →
    s.dev.rng.seeds.length < 16 → seedTakers s.dev = [] →
    Completes (.rawBlockComplete i raw true) s fun t => s.sameOutside t ∧
      t.dev.rng.seeds = s.dev.rng.seeds ++
        [{ bytes := seedOf i.toNat (getSource s.dev i.toNat).blocks.toNat (fit 256 raw), source := i, order := s.dev.rng.order }] ∧
      t.dev.rng.order = s.dev.rng.order + 1 ∧ (getSource t.dev i.toNat).blocks = (getSource s.dev i.toNat).blocks + 1) ∧
  (∀ s (i : BitVec 3) raw agree, i.toNat < 6 → (getSource s.dev i.toNat).sstate = 2 → s.dev.rng.state = 2 →
    routed s.dev i.toNat = false → (healthRun i.toNat (getSource s.dev i.toNat).health 0 (rawBits (fit 256 raw))).2.2 = none →
    s.dev.rng.seeds.length = 16 → s.dev.rng.prs = [] →
    Completes (.rawBlockComplete i raw agree) s fun t => s.sameOutside t ∧ t.dev.rng.seeds = s.dev.rng.seeds ∧
      t.dev.rng.mismatch = s.dev.rng.mismatch ∧ (getSource t.dev i.toNat).blocks = (getSource s.dev i.toNat).blocks + 1) ∧
  (∀ s (i : BitVec 3) bits p, i.toNat < 6 → (getSource s.dev i.toNat).sstate = 2 →
    (healthRun i.toNat (getSource s.dev i.toNat).health 0 bits).2.2 = some p →
    (∀ n, (getSource s.dev i.toNat).lastSample = some n → n.toNat + 2 ^ 24 ≤ ((getSource s.dev i.toNat).samples +
      BitVec.ofNat 64 (healthRun i.toNat (getSource s.dev i.toNat).health 0 bits).2.1).toNat) →
    Completes (.sourceAlarm ⟨i, bits⟩ []) s fun t => s.sameOutside t ∧
      getSource t.dev i.toNat = { getSource s.dev i.toNat with
        alarms := satInc (getSource s.dev i.toNat).alarms, lastAlarm := s.dev.tick.setWidth 16, sstate := 3, health := healthReset,
        samples := (getSource s.dev i.toNat).samples +
          BitVec.ofNat 64 (healthRun i.toNat (getSource s.dev i.toNat).health 0 bits).2.1,
        lastSample := some ((getSource s.dev i.toNat).samples +
          BitVec.ofNat 64 (healthRun i.toNat (getSource s.dev i.toNat).health 0 bits).2.1) } ∧
      t.dev.silent = (setSource s.dev i.toNat (getSource t.dev i.toNat)).silent) ∧
  (∀ s (i : BitVec 3) bits p n, i.toNat < 6 → (getSource s.dev i.toNat).sstate = 2 →
    (healthRun i.toNat (getSource s.dev i.toNat).health 0 bits).2.2 = some p → (getSource s.dev i.toNat).lastSample = some n →
    ((getSource s.dev i.toNat).samples +
      BitVec.ofNat 64 (healthRun i.toNat (getSource s.dev i.toNat).health 0 bits).2.1).toNat < n.toNat + 2 ^ 24 →
    Completes (.sourceAlarm ⟨i, bits⟩ []) s fun t => s.sameOutside t ∧ (getSource t.dev i.toNat).sstate = 4 ∧
      t.dev.nv.deadSrc.getLsbD i.toNat = true ∧ (t.dev.rng.state = 3 ∨ t.dev.rng.state = 4) ∧ t.dev.rng.seeds = [] ∧
      t.dev.event rngPage 0 = true) ∧
  (∀ s (i : BitVec 3) bits, i.toNat < 6 → (getSource s.dev i.toNat).sstate = 2 →
    (healthRun i.toNat (getSource s.dev i.toNat).health 0 bits).2.2 = none → exec (.sourceAlarm ⟨i, bits⟩ []) s = .next s) ∧
  (∀ s (i : BitVec 3) bits (k : KatIn), i.toNat < 6 → (getSource s.dev i.toNat).sstate = 1 ∨ (getSource s.dev i.toNat).sstate = 3 →
    s.dev.rng.state ≠ 0 → bits.length = 1024 → startupFails i.toNat bits = false →
    s.dev.rng.katDone = true ∨ k.sha = 0 ∧ k.pair = 0 →
    Completes (.startupTestDone i ⟨bits, k⟩) s fun t => s.sameOutside t ∧
      getSource t.dev i.toNat = { getSource s.dev i.toNat with
        sstate := 2, samples := (getSource s.dev i.toNat).samples + 1024, health := healthReset } ∧
      (∀ k, k ≠ i.toNat → getSource t.dev k = getSource s.dev k) ∧ t.dev.nv = s.dev.nv) ∧
  (∀ s (i : BitVec 3) bits (k : KatIn), i.toNat < 6 → (getSource s.dev i.toNat).sstate = 1 ∨ (getSource s.dev i.toNat).sstate = 3 →
    s.dev.rng.state ≠ 0 → startupFails i.toNat bits = true →
    Completes (.startupTestDone i ⟨bits, k⟩) s fun t => s.sameOutside t ∧ (getSource t.dev i.toNat).sstate = 4 ∧
      t.dev.nv.deadSrc.getLsbD i.toNat = true ∧ (t.dev.rng.state = 3 ∨ t.dev.rng.state = 4) ∧ t.dev.rng.seeds = [])

/-- A job's draw is one generate request of its instance and adds to the tick's bytes; a job that waited its full time ends with RNG_UNAVAILABLE;
RNG_RAWDATA reads zero outside TEST with RAWCTL on, and 32 samples, oldest first, otherwise; a host whose BAR does not show the page reads nothing.
(R144, R278, R281, R286) -/
def Obligations.RandomDraws : Prop :=
  (∀ s job j, findJob s.dev job = some j → j.stage = .wait → 0 < jobDraw j → j.draw = none → prWaits s.dev job = false →
    s.dev.rng.drawBytes + jobDraw j ≤ 131072 → hasBlocks s.dev (jobDraw j) = true → canDeliver s.dev (jobInst j) = true →
    Completes (.pkDraw job) s fun t => s.sameOutside t ∧ t.dev.rng.drawBytes = s.dev.rng.drawBytes + jobDraw j ∧
      ∃ y bs d, findJob t.dev job = some y ∧ instGenerate s.dev (jobInst j) (jobDraw j) = some (bs, d) ∧ y.draw = some bs ∧
        y.stem = j.stem) ∧
  (∀ s job j, findJob s.dev job = some j → jobEnded j = false → waitsRng j = true → 63 ≤ j.rngWait → s.dev.rng.served = false →
    Completes (.rngWaitTimeout job) s fun t => s.sameOutside t ∧
      (∃ y, findJob t.dev job = some y ∧ y.stage = .done ∧ y.res = outcome 0x07 0 ∧ y.stem = j.stem) ∧
      t.dev = { s.dev with jobs := t.dev.jobs, rng := t.dev.rng }) ∧
  (∀ s (ini : Ini) arrived, lcState s.fuse ≠ 1 ∨ s.dev.rng.rawEn = false → isFnId ini.id = true → ini.priv = true →
    hostSees ini rngPage = true →
    exec (.rngRawdataRead ini arrived) s = .next (s.withDev (emit s.dev (.regRead ini.id 0)))) ∧
  (∀ s (ini : Ini) arrived, lcState s.fuse = 1 → s.dev.rng.rawEn = true → isFnId ini.id = true → ini.priv = true →
    hostSees ini rngPage = true → 32 ≤ (s.dev.rng.rawBuf ++ arrived).length →
    ((getSource s.dev s.dev.rng.rawSrc.toNat).sstate = 2 →
      (healthRun s.dev.rng.rawSrc.toNat (getSource s.dev s.dev.rng.rawSrc.toNat).health 0 arrived).2.2 = none) →
    Completes (.rngRawdataRead ini arrived) s fun t => s.sameOutside t ∧
      t.dev.rng.rawBuf = ((s.dev.rng.rawBuf ++ arrived).take 1024).drop 32 ∧
      ∃ v : Word, t.dev.egress = s.dev.egress ++ [.regRead ini.id v] ∧
        ∀ k, k < 32 → v.getLsbD k = (s.dev.rng.rawBuf ++ arrived).getD k false) ∧
  (∀ s (ini : Ini) arrived, hostSees ini rngPage = false → exec (.rngRawdataRead ini arrived) s = .next s)

/-- A permitted single write stores its bytes and no other byte; a permitted read returns the stored bytes and changes nothing; a denied access stores
nothing, returns zeros with an error, and is recorded against the rule that denied it. Host MMIO to a BAR0 offset without a page reads zeros without
an error and writes nothing. (R291, R292, R295, R303) -/
def Obligations.SharedSram : Prop :=
  (∀ s t, sramAccess s t → t.burst = false → t.kind = .write → denyRule s.dev (txnIni t) .write (t.addr.toNat / 0x1000) = none →
    Memory.wf s.mem = true →
    Completes (.fabricTransaction t) s fun u => u.pending = s.pending ∧ u.fuse = s.fuse ∧
      (∀ k, k < t.len → memGet u.mem (t.addr.toNat + k) = t.data.getD k 0) ∧
      (∀ a, a < t.addr.toNat ∨ t.addr.toNat + t.len ≤ a → memGet u.mem a = memGet s.mem a) ∧
      u.dev.quiet = { s.dev with pot := { s.dev.pot with poison := u.dev.pot.poison } }.quiet) ∧
  (∀ s t, sramAccess s t → t.burst = false → t.kind = .read → denyRule s.dev (txnIni t) .read (t.addr.toNat / 0x1000) = none →
    Completes (.fabricTransaction t) s fun u => s.sameOutside u ∧ u.dev.quiet = s.dev.quiet ∧
      u.dev.egress.getLast? = some (.fabric t.ini.id (!poisonIn s.dev t.addr.toNat t.len) (sramBytes s t.addr.toNat t.len))) ∧
  (∀ s t r, sramAccess s t → t.burst = false → denyRule s.dev (txnIni t) t.kind (t.addr.toNat / 0x1000) = some r → isPosted t = false →
    Completes (.fabricTransaction t) s fun u => s.sameOutside u ∧ u.dev.unlogged = s.dev.unlogged ∧
      u.dev.egress.getLast? = some (.fabric t.ini.id false (if t.kind = .write then [] else zeros t.len)) ∧
      (s.dev.acl.compat = false → u.dev.acl.vhead = s.dev.acl.vhead + 1 ∧
        tabGet u.dev.acl.vlog s.dev.acl.vhead.toNat 0 = violRecord s.dev (txnIni t) t.addr.toNat t.len t.kind true r 0)) ∧
  (∀ s t, isFnId t.ini.id = true → t.mmio = true → 0 < t.len → t.addr.toNat % 0x1000 + t.len ≤ 0x1000 →
    barPage t.ini.id.toNat (t.addr.toNat / 0x1000) = none →
    exec (.fabricTransaction t) s = .next (if isPosted t then s
      else s.withDev (emit s.dev (.fabric t.ini.id true (if t.kind = .write then [] else zeros t.len)))))

/-- A keeper page denies other initiators with rule 0x402; reads of the KEY page by initiators other than keeper cores are denied with 0x400 (the code is
the model's choice, log entry 68); then a shared page its table does not admit, with 0x403; then the winning table entry decides; without one an
unprivileged access is denied with 0x401 and a privileged one by the default map with 0x400. A keeper initiator's winner lies in the keeper section.
(R291, R293, R295, R299, R300) -/
def Obligations.AccessCheck : Prop :=
  (∀ d i k p, iniKeeper d i.id = false → keeperAddr d p = true → denyRule d i k p = some 0x402) ∧
  (∀ d i k p, (iniKeeper d i.id = true ∨ keeperAddr d p = false) → keyPageShut i k p = true → denyRule d i k p = some 0x400) ∧
  (∀ d i k p, (iniKeeper d i.id = true ∨ keeperAddr d p = false) → regionOf p = .sram → potAdmits d i k p = false →
    denyRule d i k p = some 0x403) ∧
  (∀ d i k p n e, (iniKeeper d i.id = true ∨ keeperAddr d p = false) → keyPageShut i k p = false →
    (regionOf p = .sram → potAdmits d i k p = true) → aclWinner d i p = some (n, e) →
    denyRule d i k p = if permits (bit e.w3 2) (bit e.w3 1) (bit e.w3 0) k then none else some n) ∧
  (∀ d i k p, (iniKeeper d i.id = true ∨ keeperAddr d p = false) → keyPageShut i k p = false →
    (regionOf p = .sram → potAdmits d i k p = true) → aclWinner d i p = none → i.priv = false → denyRule d i k p = some 0x401) ∧
  (∀ d i k p, (iniKeeper d i.id = true ∨ keeperAddr d p = false) → keyPageShut i k p = false →
    (regionOf p = .sram → potAdmits d i k p = true) → aclWinner d i p = none → i.priv = true →
    denyRule d i k p = if defaultMap i p k then none else some 0x400) ∧
  (∀ d i p n e, aclWinner d i p = some (n, e) → iniKeeper d i.id = true → 768 ≤ n)

/-- A commit takes the keeper's or the porter's part of the next access table and leaves the other part; POT apply changes the pages of its range in the
next table only, and nothing where it would change a page that the boot loader fixed; a POT commit takes them and queues a wipe of every page whose
owner changes; a wipe whose earlier transactions are done zeroes its page and no other byte. (R296, R297, R299, R302, R314, R315) -/
def Obligations.TableCommits : Prop :=
  (∀ s ini, keeperOnly ini = true → Completes (.aclCommitk ini) s fun t => s.sameOutside t ∧
    (∀ n, 768 ≤ n → aclGet t.dev.acl.cur n = aclGet s.dev.acl.next n) ∧
    (∀ n, n < 768 → aclGet t.dev.acl.cur n = aclGet s.dev.acl.cur n) ∧
    t.dev = { s.dev with acl := { s.dev.acl with cur := t.dev.acl.cur, drained := s.dev.acl.stalled.isEmpty,
                                                 stalled := t.dev.acl.stalled } }) ∧
  (∀ s ini, coreOnly ini = true → Completes (.aclCommitp ini) s fun t => s.sameOutside t ∧
    (∀ n, n < 768 → aclGet t.dev.acl.cur n = aclGet s.dev.acl.next n) ∧
    (∀ n, 768 ≤ n → aclGet t.dev.acl.cur n = aclGet s.dev.acl.cur n) ∧
    t.dev = { s.dev with acl := { s.dev.acl with cur := t.dev.acl.cur, drained := s.dev.acl.stalled.isEmpty,
                                                 stalled := t.dev.acl.stalled } }) ∧
  (∀ s ini, keeperOnly ini = true →
    (∀ p ∈ potRange s.dev.pot.kfirst.toNat s.dev.pot.kcount.toNat, potFixed s.dev.pot p s.dev.pot.kval = false) →
    Completes (.potKapply ini) s fun t => s.sameOutside t ∧
    (∀ p, potGet t.dev.pot.next p = if (potRange s.dev.pot.kfirst.toNat s.dev.pot.kcount.toNat).contains p then
      potValue (potGet s.dev.pot.next p) s.dev.pot.kval else potGet s.dev.pot.next p) ∧
    t.dev.pot.cur = s.dev.pot.cur ∧ t.dev = { s.dev with pot := t.dev.pot }) ∧
  (∀ s ini, coreOnly ini = true → keeperOnly ini = false →
    (∀ p ∈ potRange s.dev.pot.pfirst.toNat s.dev.pot.pcount.toNat, potFixed s.dev.pot p s.dev.pot.pval = false ∧
      potWorld (potGet s.dev.pot.cur p) = false ∧ potWorld (potGet s.dev.pot.next p) = false) →
    potWorld s.dev.pot.pval = false →
    Completes (.potPapply ini) s fun t => s.sameOutside t ∧
    (∀ p, potGet t.dev.pot.next p = if (potRange s.dev.pot.pfirst.toNat s.dev.pot.pcount.toNat).contains p then
      potValue (potGet s.dev.pot.next p) s.dev.pot.pval else potGet s.dev.pot.next p) ∧
    t.dev.pot.cur = s.dev.pot.cur ∧ t.dev = { s.dev with pot := t.dev.pot }) ∧
  (∀ s ini p, p ∈ potRange s.dev.pot.kfirst.toNat s.dev.pot.kcount.toNat → potFixed s.dev.pot p s.dev.pot.kval = true →
    Completes (.potKapply ini) s fun t => s.sameOutside t ∧ t.dev.pot = s.dev.pot) ∧
  (∀ s ini, keeperOnly ini = true → Completes (.potCommitk ini) s fun t => s.sameOutside t ∧
    (∀ p, potGet t.dev.pot.cur p = if s.dev.pot.kTouch.contains p then potGet s.dev.pot.next p else potGet s.dev.pot.cur p) ∧
    (∀ p ∈ s.dev.pot.kTouch, potOwnerChange (potGet s.dev.pot.cur p) (potGet s.dev.pot.next p) = true →
      (p, s.dev.pot.commits + 1) ∈ t.dev.pot.wipes) ∧
    t.dev.pot.kTouch = [] ∧ t.dev.pot.next = s.dev.pot.next ∧ t.dev = { s.dev with pot := t.dev.pot }) ∧
  (∀ s ini, coreOnly ini = true → Completes (.potCommitp ini) s fun t => s.sameOutside t ∧
    (∀ p, potGet t.dev.pot.cur p = if s.dev.pot.pTouch.contains p then potGet s.dev.pot.next p else potGet s.dev.pot.cur p) ∧
    (∀ p ∈ s.dev.pot.pTouch, potOwnerChange (potGet s.dev.pot.cur p) (potGet s.dev.pot.next p) = true →
      (p, s.dev.pot.commits + 1) ∈ t.dev.pot.wipes) ∧
    t.dev.pot.pTouch = [] ∧ t.dev.pot.next = s.dev.pot.next ∧ t.dev = { s.dev with pot := t.dev.pot }) ∧
  (∀ s ini, coreOnly ini = true → exec (.fvalidClear ini) s = .next (s.withDev { s.dev with acl := { s.dev.acl with fvalid := false } })) ∧
  (∀ s (page : BitVec 13) c, wipeReady s.dev page.toNat = some c → (∀ x ∈ s.dev.acl.stalled, x.domain ≠ 255) →
    Completes (.pageWipe page true) s fun t => t.pending = s.pending ∧ t.fuse = s.fuse ∧
      (∀ a, memGet t.mem a = if a / 0x1000 = page.toNat then 0 else memGet s.mem a) ∧ (page.toNat, c) ∉ t.dev.pot.wipes)

/-- Petting stores the tick; an expired watchdog restarts its world and one not expired does nothing; KRESTART in STARTING or READY ends the keeper's jobs
with KEEPER_ABSENT, drops the lineage and the loads, queues the keeper's pages for wiping and takes the image that an update left; PRESTART queues the
porter's pages for wiping; a failed start FAILS the world. (R309, R310, R311, R312, R313, R314) -/
def Obligations.Worlds : Prop :=
  (∀ s ini, keeperOnly ini = true → exec (.aclKpet ini) s = .next (s.withDev { s.dev with acl := { s.dev.acl with kPet := s.dev.tick } })) ∧
  (∀ s ini, isPorterCore ini.id = true → exec (.aclPpet ini) s = .next (s.withDev { s.dev with acl := { s.dev.acl with pPet := s.dev.tick } })) ∧
  (∀ s ini, keeperOnly ini = true → s.dev.acl.keeper = 1 ∨ s.dev.acl.keeper = 2 → Completes (.krestart ini) s fun t => s.sameOutside t ∧
    t.dev.acl.keeper = 3 ∧ t.dev.acl.krestarts = satInc s.dev.acl.krestarts ∧ t.dev.acl.porter = s.dev.acl.porter ∧
    t.dev.keys.lineage = none ∧ t.dev.keys.loads = [] ∧ t.dev.keys.cache = s.dev.keys.cache ∧
    t.dev.acl.cur = s.dev.acl.cur ∧ t.dev.acl.next = s.dev.acl.next ∧
    (∀ i, s.dev.mgt.nextIlmel = some i → t.dev.keys.svn = i.svn ∧ t.dev.keys.signer = i.signer) ∧
    (∀ p ∈ worldPages s.dev true, (p, s.dev.pot.commits) ∈ t.dev.pot.wipes) ∧
    t.dev.nv = { s.dev.nv with evNext := t.dev.nv.evNext, evHigh := t.dev.nv.evHigh, old := [] } ∧ t.dev.fns = s.dev.fns ∧
    t.dev.wings.pk = s.dev.wings.pk ∧
    ∀ id j, findJob s.dev id = some j → keeperWork j = true →
      (inPlans s.dev j = false → ∃ y, findJob t.dev id = some y ∧ y.stage = .done ∧ y.res.status = 0x08) ∧
      ((∃ p ∈ s.dev.wings.planCur, p.job = id ∧ p.kind ≠ .empty) → ∃ y, findJob t.dev id = some y ∧ y.absent = true)) ∧
  (∀ s ini, coreOnly ini = true → s.dev.acl.porter = 1 ∨ s.dev.acl.porter = 2 ∨ s.dev.acl.porter = 3 →
    Completes (.prestart ini) s fun t => s.sameOutside t ∧
    t.dev.acl = { s.dev.acl with porter := 3, prestarts := satInc s.dev.acl.prestarts, pReadyDue := false, drained := t.dev.acl.drained,
                                 stalled := s.dev.acl.stalled.filter fun x => !isPorterCore x.t.ini.id } ∧
    t.dev = { s.dev with acl := t.dev.acl, pot := { s.dev.pot with wipes := t.dev.pot.wipes, drained := t.dev.pot.drained } } ∧
    ∀ p ∈ worldPages s.dev false, (p, s.dev.pot.commits) ∈ t.dev.pot.wipes) ∧
  (∀ s, s.dev.acl.keeper = 2 → kwdogTicks s.dev ≠ 0 → s.dev.acl.kPet.toNat + kwdogTicks s.dev ≤ s.dev.tick.toNat →
    Completes .keeperWatchdogExpire s fun t => s.sameOutside t ∧ t.dev.acl.keeper = 3) ∧
  (∀ s, s.dev.tick.toNat < s.dev.acl.kPet.toNat + kwdogTicks s.dev → exec .keeperWatchdogExpire s = .next s) ∧
  (∀ s, s.dev.acl.porter = 2 → pwdogTicks s.dev ≠ 0 → s.dev.acl.pPet.toNat + pwdogTicks s.dev ≤ s.dev.tick.toNat →
    Completes .porterWatchdogExpire s fun t => s.sameOutside t ∧ t.dev.acl.porter = 3) ∧
  (∀ s, s.dev.tick.toNat < s.dev.acl.pPet.toNat + pwdogTicks s.dev → exec .porterWatchdogExpire s = .next s) ∧
  (∀ s w, (match w with | .keeper => s.dev.acl.keeper | .porter => s.dev.acl.porter) = 1 ∨
      (match w with | .keeper => s.dev.acl.keeper | .porter => s.dev.acl.porter) = 3 →
    exec (.worldStartFail w) s = .next (s.withDev { s.dev with acl :=
      match w with | .keeper => { s.dev.acl with keeper := 4 } | .porter => { s.dev.acl with porter := 4 } })) ∧
  (∀ s ini, isPorterCore ini.id = true → ini.priv = true → s.dev.acl.porter = 1 ∨ s.dev.acl.porter = 3 →
    Completes (.worldReady ini) s fun t => s.sameOutside t ∧ t.dev = { s.dev with acl := { s.dev.acl with pReadyDue := true } })

/-- Insertion, the end of debouncing, class selection and its retry, activation and deactivation by the keeper, and removal change one slot as said and
report as said; other initiators are ignored. That deactivation leaves the slot INSERTED is the model's choice (log 41). (R316, R317, R318, R334) -/
def Obligations.CardInsertion : Prop :=
  (∀ s i, (getSlot s.dev i).present = false → Completes (.cardDetectClose i) s fun t => s.oneSlot t i ∧
    getSlot t.dev i = { getSlot s.dev i with present := true, debounced := false, state := 1, err := 0 } ∧ t.dev.egress = s.dev.egress) ∧
  (∀ s i, (getSlot s.dev i).present = true → (getSlot s.dev i).debounced = true → exec (.cardDebounceEnd i) s = .next s) ∧
  (∀ s i, (getSlot s.dev i).present = true → (getSlot s.dev i).debounced = false → (getSlot s.dev i).state = 1 → domOn s.dev 15 = true →
    Completes (.cardDebounceEnd i) s fun t => s.oneSlotLoud t i ∧ t.dev.event (crdPage i.toNat) 0 = true ∧
      (getSlot t.dev i).state = 2 ∧ (getSlot t.dev i).present = true ∧
      (getSlot t.dev i).cls = (if (getSlot s.dev i).clsSel = 2 then 2 else 1) ∧
      t.dev.egress.getLast? = some (.cardPins i true)) ∧
  (∀ s i, (getSlot s.dev i).state = 2 → (getSlot s.dev i).retryB = false → (getSlot s.dev i).cls = 1 → (getSlot s.dev i).clsSel ≠ 1 →
    Completes (.atrTimeout i) s fun t => s.oneSlot t i ∧ (getSlot t.dev i).state = 2 ∧ (getSlot t.dev i).retryB = true ∧
      (getSlot t.dev i).cls = 0 ∧ t.dev.egress = s.dev.egress ++ [.cardPins i false]) ∧
  (∀ s i, (getSlot s.dev i).state = 2 → (getSlot s.dev i).retryB = false → ((getSlot s.dev i).cls ≠ 1 ∨ (getSlot s.dev i).clsSel = 1) →
    Completes (.atrTimeout i) s fun t => s.oneSlotLoud t i ∧ (getSlot t.dev i).state = 7 ∧ (getSlot t.dev i).err = 1 ∧
      (getSlot t.dev i).cls = 0 ∧ t.dev.event (crdPage i.toNat) 2 = true) ∧
  (∀ s i, (getSlot s.dev i).state = 2 → (getSlot s.dev i).retryB = true →
    Completes (.cardClassBRetry i) s fun t => s.oneSlot t i ∧
      getSlot t.dev i = { getSlot s.dev i with retryB := false, cls := 2 } ∧ t.dev.egress = s.dev.egress ++ [.cardPins i true]) ∧
  (∀ s i, (getSlot s.dev i).present = true → Completes (.cardRemove i) s fun t => s.oneSlotLogged t i ∧
    (getSlot t.dev i).present = false ∧ (getSlot t.dev i).state = 0 ∧ (getSlot t.dev i).cls = 0 ∧ (getSlot t.dev i).chan = false ∧
    (getSlot t.dev i).err = (if (getSlot s.dev i).ins = 0 then (getSlot s.dev i).err else 5) ∧
    t.dev.event (crdPage i.toNat) 1 = true) ∧
  (∀ s ini i cls, isKeeperCore ini.id = true → asleep s.dev (crdPage i.toNat) = none → (getPage s.dev (crdPage i.toNat)).lock = false →
    (getSlot s.dev i).present = true → (getSlot s.dev i).debounced = true → (getSlot s.dev i).state = 1 → domOn s.dev 15 = true →
    Completes (.crdAct ini i cls) s fun t => s.sameOutside t ∧
      t.dev = { s.dev with crd := t.dev.crd, pwr := (touchPage s.dev (crdPage i.toNat)).pwr, egress := s.dev.egress ++ [.cardPins i true] } ∧
      (∀ j, j ≠ i → getSlot t.dev j = getSlot s.dev j) ∧
      (getSlot t.dev i).state = 2 ∧ (getSlot t.dev i).clsSel = cls ∧ (getSlot t.dev i).cls = (if cls = 2 then 2 else 1)) ∧
  (∀ s ini i, isKeeperCore ini.id = true → asleep s.dev (crdPage i.toNat) = none → (getPage s.dev (crdPage i.toNat)).lock = false →
    2 ≤ (getSlot s.dev i).state.toNat → (getSlot s.dev i).state.toNat ≤ 6 →
    Completes (.crdDeact ini i) s fun t => s.sameOutside t ∧
      t.dev = { s.dev with crd := t.dev.crd, pwr := (touchPage s.dev (crdPage i.toNat)).pwr, egress := s.dev.egress ++ [.cardPins i false] } ∧
      (∀ j, j ≠ i → getSlot t.dev j = getSlot s.dev j) ∧
      (getSlot t.dev i).state = 1 ∧ (getSlot t.dev i).cls = 0 ∧ (getSlot t.dev i).chan = false) ∧
  (∀ s ini i cls, isKeeperCore ini.id = true → asleep s.dev (crdPage i.toNat) = none → (getPage s.dev (crdPage i.toNat)).lock = false →
    (getSlot s.dev i).debounced = false → Completes (.crdAct ini i cls) s fun t => s.sameOutside t ∧
      getSlot t.dev i = { getSlot s.dev i with clsSel := cls } ∧ t.dev.egress = s.dev.egress) ∧
  (∀ s ini i cls, isKeeperCore ini.id = false → Completes (.crdAct ini i cls) s fun t => s.sameOutside t ∧ t.dev.unlogged = s.dev.unlogged)

/-- An ATR whose TA1 asks for one of the ten supported factors sets it and readies the slot; an ATR with no T=1 offer is refused with error 2; the ATR's
bytes stand in the slot's buffer. (R316, R317) -/
def Obligations.AtrParameters : Prop :=
  (∀ s i (k : Byte) (hist : List Byte) ta fi di, (getSlot s.dev i).state = 2 → (getSlot s.dev i).retryB = false → (ta, fi, di) ∈ cardFactors →
    k.toNat < 16 →
    Completes (.atrReceived i (0x3B :: (0x90 ||| k) :: ta :: 0x01 :: hist)) s fun t => t.pending = s.pending ∧ t.fuse = s.fuse ∧
      t.dev = { s.dev with crd := t.dev.crd } ∧ (∀ j, j ≠ i → getSlot t.dev j = getSlot s.dev j) ∧
      (getSlot t.dev i).state = 3 ∧ (getSlot t.dev i).fi = fi ∧ (getSlot t.dev i).di = di ∧ (getSlot t.dev i).ifsc = 32 ∧
      (getSlot t.dev i).err = 0 ∧ (getSlot t.dev i).cls = (getSlot s.dev i).cls ∧
      t.mem = cardBuffer s i 0xFC0 ((0x3B :: (0x90 ||| k) :: ta :: 0x01 :: hist).take 33)) ∧
  (∀ s i (k : Byte) (hist : List Byte), (getSlot s.dev i).state = 2 → (getSlot s.dev i).retryB = false → k.toNat < 16 →
    Completes (.atrReceived i (0x3B :: k :: hist)) s fun t => t.pending = s.pending ∧ t.fuse = s.fuse ∧
      t.dev.quiet = { s.dev with crd := t.dev.crd }.quiet ∧ (∀ j, j ≠ i → getSlot t.dev j = getSlot s.dev j) ∧
      (getSlot t.dev i).state = 7 ∧ (getSlot t.dev i).err = 2 ∧ (getSlot t.dev i).cls = 0 ∧ t.dev.event (crdPage i.toNat) 2 = true)

/-- Each of WAKE, IDENTIFY, OPEN_CHANNEL, SHARE_RELEASE, SHARE_WRITE and CLOSE sends its APDU from a free slot with the payload of the spec's table;
programming holds, its timeout, block waiting time and clock stop change the slot as said. That a WAKE carries the slot's counter is the model's
reading (log entry 41). (R318, R319, R320, R321, R322, R323) -/
def Obligations.CardCommands : Prop :=
  (∀ s i, slotFree s.dev i 0x02 = true → (getSlot s.dev i).chan = false → Completes (.wake i) s fun t => s.oneSlot t i ∧
    (getSlot t.dev i).state = 4 ∧ (getSlot t.dev i).ins = 0x02 ∧ (getSlot t.dev i).clkstop = false ∧
    t.dev.egress = s.dev.egress ++ [.apdu i 0x02 (beBytes 4 (getSlot s.dev i).ctr)]) ∧
  (∀ s i, slotFree s.dev i 0x10 = true → Completes (.identify i) s fun t => s.oneSlot t i ∧
    (getSlot t.dev i).state = 4 ∧ (getSlot t.dev i).ins = 0x10 ∧ t.dev.egress = s.dev.egress ++ [.apdu i 0x10 []]) ∧
  (∀ s i bs d, slotFree s.dev i 0x20 = true → cardKey s.dev (getSlot s.dev i) ≠ none → keeperDraw s.dev 56 = some (bs, d) →
    Completes (.openChannel i) s fun t => s.sameOutside t ∧
      t.dev = { d with crd := t.dev.crd, egress := d.egress ++ [.apdu i 0x20
        (pointBytes p256 (ecMul p256 (scalarOf p256 (bs.take 40)) (ecBase p256)) ++ bs.drop 40)] } ∧
      (∀ j, j ≠ i → getSlot t.dev j = getSlot s.dev j) ∧
      (getSlot t.dev i).state = 4 ∧ (getSlot t.dev i).ins = 0x20 ∧ (getSlot t.dev i).devNonce = bs.drop 40 ∧
      (getSlot t.dev i).ephD = beBytes 32 (scalarOf p256 (bs.take 40))) ∧
  (∀ s i c, custodyOf s.dev.nv = some c → slotFree s.dev i 0x30 = true → (getSlot s.dev i).chan = true →
    Completes (.shareRelease i) s fun t => s.oneSlot t i ∧
      (getSlot t.dev i).state = 4 ∧ (getSlot t.dev i).ins = 0x30 ∧ (getSlot t.dev i).ctr = (getSlot s.dev i).ctr + 1 ∧
      t.dev.egress = s.dev.egress ++ [.apdu i 0x30
        (gcmCrypt (getSlot s.dev i).kd (beBytes 12 (getSlot s.dev i).ctr) (beBytes 4 c.version.toNat) ++
          gcmTag (getSlot s.dev i).kd (beBytes 12 (getSlot s.dev i).ctr) []
            (gcmCrypt (getSlot s.dev i).kd (beBytes 12 (getSlot s.dev i).ctr) (beBytes 4 c.version.toNat)))]) ∧
  (∀ s i se, s.dev.crd.session = some se → se.state = 5 → slotFree s.dev i 0x40 = true → (getSlot s.dev i).chan = true →
    enrolIndex se (getSlot s.dev i).cardId ≤ custodyN se.code →
    Completes (.shareWrite i) s fun t => s.oneSlot t i ∧
      (getSlot t.dev i).state = 4 ∧ (getSlot t.dev i).ins = 0x40 ∧ (getSlot t.dev i).wIndex = enrolIndex se (getSlot s.dev i).cardId ∧
      ∃ ct tag, t.dev.egress = s.dev.egress ++ [.apdu i 0x40 (ct ++ tag)] ∧
        ct = gcmCrypt (getSlot s.dev i).kd (beBytes 12 (getSlot s.dev i).ctr)
          (beBytes 4 (nextVersion s.dev.nv) ++ beBytes 4 (nextVersion s.dev.nv - 1) ++ beBytes 1 (enrolIndex se (getSlot s.dev i).cardId) ++
            beBytes 32 (sharePoly se.qs se.coeffs (enrolIndex se (getSlot s.dev i).cardId))) ∧
        tag = gcmTag (getSlot s.dev i).kd (beBytes 12 (getSlot s.dev i).ctr) [] ct) ∧
  (∀ s i, slotFree s.dev i 0x60 = true → Completes (.close i) s fun t => s.oneSlot t i ∧
    (getSlot t.dev i).state = 4 ∧ (getSlot t.dev i).ins = 0x60 ∧ t.dev.egress = s.dev.egress ++ [.apdu i 0x60 []]) ∧
  (∀ s i, (getSlot s.dev i).state = 4 → (getSlot s.dev i).ins = 0x40 → Completes (.cardIoLow i) s fun t => s.oneSlot t i ∧
    getSlot t.dev i = { getSlot s.dev i with state := 5, busy := true } ∧ t.dev.egress = s.dev.egress) ∧
  (∀ s i, (getSlot s.dev i).state = 5 → Completes (.cardIoRise i) s fun t => s.oneSlot t i ∧
    getSlot t.dev i = { getSlot s.dev i with state := 4, busy := false } ∧ t.dev.egress = s.dev.egress) ∧
  (∀ s i, (getSlot s.dev i).state = 5 → Completes (.cardBusyTimeout i) s fun t => s.oneSlotLoud t i ∧
    (getSlot t.dev i).state = 7 ∧ (getSlot t.dev i).err = 4 ∧ (getSlot t.dev i).busy = false ∧ (getSlot t.dev i).chan = false ∧
    t.dev.event (crdPage i.toNat) 4 = true) ∧
  (∀ s i, (getSlot s.dev i).state = 4 → Completes (.blockWaitingTimeExpire i) s fun t => s.oneSlot t i ∧
    ((getSlot s.dev i).resynced = false → (getSlot s.dev i).tries < 3 →
      getSlot t.dev i = { getSlot s.dev i with tries := (getSlot s.dev i).tries + 1 }) ∧
    ((getSlot s.dev i).resynced = false → 3 ≤ (getSlot s.dev i).tries → getSlot t.dev i = { getSlot s.dev i with resynced := true }) ∧
    ((getSlot s.dev i).resynced = true → (getSlot t.dev i).state = 7 ∧ (getSlot t.dev i).err = 3)) ∧
  (∀ s i, (getSlot s.dev i).state = 3 → (getSlot s.dev i).stopInd ≠ 0 → (getSlot s.dev i).idleMs ≠ 0 →
    Completes (.cardClockStop i) s fun t => s.oneSlot t i ∧
      getSlot t.dev i = { getSlot s.dev i with state := 6, clkstop := true, wakeDue := true } ∧ t.dev.egress = s.dev.egress) ∧
  (∀ s i, (getSlot s.dev i).stopInd = 0 → exec (.cardClockStop i) s = .next s)

/-- IDENTIFY's response gives the card's identity and key; CLOSE's ends the channel; a response with another status is shown as an error; a response no
command waits for changes nothing; a session's window ends it at its end and not before. (R322, R323, R328) -/
def Obligations.CardResponses : Prop :=
  (∀ s i data, (getSlot s.dev i).state = 4 → (getSlot s.dev i).ins = 0x10 → Completes (.apduResponse i data 0x9000) s fun t =>
    t.pending = s.pending ∧ t.fuse = s.fuse ∧ t.mem = cardBuffer s i 0x800 (data ++ [0x90, 0x00]) ∧
    t.dev.quiet = { s.dev with crd := t.dev.crd }.quiet ∧ (∀ j, j ≠ i → getSlot t.dev j = getSlot s.dev j) ∧
    t.dev.event (crdPage i.toNat) 3 = true ∧
    (getSlot t.dev i).state = 3 ∧ (getSlot t.dev i).rspDone = true ∧ (getSlot t.dev i).rspErr = false ∧
    (getSlot t.dev i).rspLen = BitVec.ofNat 12 (data.length + 2) ∧
    (getSlot t.dev i).cardId = slice data 0 16 ∧ (getSlot t.dev i).cardPub = slice data 16 64) ∧
  (∀ s i data, (getSlot s.dev i).state = 4 → (getSlot s.dev i).ins = 0x60 → Completes (.apduResponse i data 0x9000) s fun t =>
    t.pending = s.pending ∧ t.fuse = s.fuse ∧ t.dev.quiet = { s.dev with crd := t.dev.crd }.quiet ∧
    (∀ j, j ≠ i → getSlot t.dev j = getSlot s.dev j) ∧
    (getSlot t.dev i).state = 3 ∧ (getSlot t.dev i).chan = false ∧ (getSlot t.dev i).kd = [] ∧ (getSlot t.dev i).km = []) ∧
  (∀ s i data sw, (getSlot s.dev i).state = 4 → (getSlot s.dev i).ins ≠ 0x02 → sw ≠ 0x9000 →
    Completes (.apduResponse i data sw) s fun t =>
      t.pending = s.pending ∧ t.fuse = s.fuse ∧ t.dev.silent = { s.dev with crd := t.dev.crd }.silent ∧
      t.dev.crd.session = s.dev.crd.session ∧ (∀ j, j ≠ i → getSlot t.dev j = getSlot s.dev j) ∧
      (getSlot t.dev i).state = 3 ∧ (getSlot t.dev i).rspDone = true ∧ (getSlot t.dev i).rspErr = true ∧
      t.dev.event (crdPage i.toNat) 3 = true) ∧
  (∀ s i data sw, (getSlot s.dev i).state ≠ 4 → exec (.apduResponse i data sw) s = .next s) ∧
  (∀ s se, s.dev.crd.session = some se → se.state = 0 ∨ se.state = 1 ∨ se.state = 5 → se.windowEnd ≤ s.dev.bat.rtc.toNat →
    exec .quorumWindowExpire s = .next (s.withDev { s.dev with crd := { s.dev.crd with session := some { sessionWiped se with state := 3 } } })) ∧
  (∀ s se, s.dev.crd.session = some se → s.dev.bat.rtc.toNat < se.windowEnd → exec .quorumWindowExpire s = .next s)

/-- A share of a custodian card that checks is counted once; the m-th distinct share that joins to the custody digest satisfies the session and starts its
window; a card outside the custody record counts for nothing. (R329, R330) -/
def Obligations.ShareCounting : Prop :=
  (∀ d i pt c se e, custodyOf d.nv = some c → d.crd.session = some se → se.state = 0 → d.bat.rtc.toNat < se.windowEnd →
    custodyCard c (getSlot d i).cardId = some e → e.index = leAt pt 0 1 → shareCheck c.version.toNat e.index (slice pt 1 32) = e.check →
    (∀ k ∈ se.counted, k.1 ≠ (getSlot d i).cardId) → se.counted.length + 1 < c.m →
    countShare d i pt = { d with crd := { d.crd with session := some {
        se with counted := se.counted ++ [((getSlot d i).cardId, e.index, slice pt 1 32)] } } }) ∧
  (∀ d i pt c se e, custodyOf d.nv = some c → d.crd.session = some se → se.state = 0 → d.bat.rtc.toNat < se.windowEnd →
    custodyCard c (getSlot d i).cardId = some e → e.index = leAt pt 0 1 → shareCheck c.version.toNat e.index (slice pt 1 32) = e.check →
    (∃ k ∈ se.counted, k.1 = (getSlot d i).cardId) → countShare d i pt = d) ∧
  (∀ d i pt c se e, custodyOf d.nv = some c → d.crd.session = some se → se.state = 0 → d.bat.rtc.toNat < se.windowEnd →
    custodyCard c (getSlot d i).cardId = some e → e.index = leAt pt 0 1 → shareCheck c.version.toNat e.index (slice pt 1 32) = e.check →
    (∀ k ∈ se.counted, k.1 ≠ (getSlot d i).cardId) → c.m ≤ se.counted.length + 1 → se.code.toNat < 0x1000 →
    quorumDigest c.version.toNat (shareJoin (((se.counted ++ [((getSlot d i).cardId, e.index, slice pt 1 32)]).take c.m).map
      fun k => (k.2.1, beNat k.2.2))) = c.digest →
    countShare d i pt = { d with crd := { d.crd with session := some {
        sessionWiped { se with counted := se.counted ++ [((getSlot d i).cardId, e.index, slice pt 1 32)] } with state := 1, windowEnd := d.bat.rtc.toNat + 3932160 } } }) ∧
  (∀ d i pt c se, custodyOf d.nv = some c → d.crd.session = some se → custodyCard c (getSlot d i).cardId = none →
    (countShare d i pt).silent = d.silent)

/-- In TEST the keeper programs an unprogrammed word of LCS_FUSEIDX and no other; a programmed one stays. LCS_GENDRS draws and programs DRS once. The
erase engine empties the stores and commits END_OF_LIFE. A debug session ends at its end and not before. (R344, R346, R349, R351) -/
def Obligations.Provisioning : Prop :=
  (∀ s ini, keeperOnly ini = true → lcState s.fuse = 1 → 22 ≤ s.dev.lcs.fuseIdx.toNat → fuseRead s.fuse s.dev.lcs.fuseIdx.toNat = 0 →
    s.dev.pwr.pfLevel = true →
    Completes (.lcsFuseProgram ini) s fun t => t.pending = s.pending ∧ t.mem = s.mem ∧ t.dev = s.dev ∧
      fuseRead t.fuse s.dev.lcs.fuseIdx.toNat = s.dev.lcs.fuseData ∧
      (∀ k, k ≠ s.dev.lcs.fuseIdx.toNat → fuseRead t.fuse k = fuseRead s.fuse k) ∧
      t.fuse.drs = s.fuse.drs ∧ t.fuse.counter = s.fuse.counter ∧ t.fuse.off = s.fuse.off) ∧
  (∀ s ini, keeperOnly ini = true → lcState s.fuse = 1 → 22 ≤ s.dev.lcs.fuseIdx.toNat → fuseRead s.fuse s.dev.lcs.fuseIdx.toNat ≠ 0 →
    Completes (.lcsFuseProgram ini) s fun t => s.sameOutside t ∧ t.dev.unlogged = s.dev.unlogged) ∧
  (∀ s ini bs d, keeperOnly ini = true → lcState s.fuse = 1 → s.fuse.drs = 0 → s.fuse.mDrs = 0 → s.dev.pwr.pfLevel = true →
    keeperDraw s.dev 64 = some (bs, d) →
    exec (.lcsGendrs ini) s = .next { s with dev := { d with lcs := { d.lcs with gdDue := false } }, fuse := { s.fuse with drs := BitVec.ofNat 512 (beNat bs), mDrs := 0xFFFFFFFF } }) ∧
  (∀ s ini, keeperOnly ini = true → lcState s.fuse = 1 → s.fuse.drs = 0 → s.fuse.mDrs = 0 →
    s.dev.pwr.pfLevel = false ∨ keeperDraw s.dev 64 = none →
    exec (.lcsGendrs ini) s = .next (s.withDev { s.dev with lcs := { s.dev.lcs with gdDue := true } })) ∧
  (∀ s ini, keeperOnly ini = true → lcState s.fuse = 1 → s.fuse.drs ≠ 0 ∨ s.fuse.mDrs ≠ 0 →
    exec (.lcsGendrs ini) s = .next (s.withDev { s.dev with lcs := { s.dev.lcs with gdfail := true } })) ∧
  (∀ s, s.dev.lcs.active = true → s.dev.lcs.dbgEnd.toNat ≤ s.dev.tick.toNat →
    Completes .debugSessionEnd s fun t => s.sameOutside t ∧ t.dev.event lcsPage 3 = true ∧
      t.dev.silent = { s.dev with lcs := { s.dev.lcs with active := false, scope := 0, dbgKeeper := false } }.silent) ∧
  (∀ s, s.dev.tick.toNat < s.dev.lcs.dbgEnd.toNat → exec .debugSessionEnd s = .next s) ∧
  (∀ s, s.dev.lcs.erasing = true → s.dev.pwr.pfLevel = true →
    Completes .eraseEngineDone s fun t => t.pending = s.pending ∧ t.mem = s.mem ∧
      t.fuse = { s.fuse with wEol := 0xFFFFFFFF, dEol := 0xFFFFFFFF } ∧
      t.dev.nv = { s.dev.nv with cellar := [], old := [], tenants := [], journal := [], custodyA := none, custodyB := none, lostKeys := [] } ∧
      t.dev.lcs = { s.dev.lcs with trans := none, erasing := false } ∧
      t.dev = { s.dev with nv := t.dev.nv, lcs := t.dev.lcs, jobs := t.dev.jobs } ∧
      ∀ tr id j, s.dev.lcs.trans = some tr → tr.job = some id → findJob s.dev id = some j → jobEnded j = false →
        ∃ y, findJob t.dev id = some y ∧ y.stage = .done ∧ y.res = outcome stOk 0)

/-- A transition that does not exist ends with INPUT_INVALID 0x0C; a wrong token counts and ends with AUTH_FAIL 0x04; the right token commits the new
state's word with its first pulse and leaves the job waiting. (R340, R341, R343, R351) -/
def Obligations.LifeCycleCommit : Prop :=
  (∀ s job j, findJob s.dev job = some j → j.stage = .keeper → jobPart j = .keeper → keeperPresent s.dev = true → readsDone j = true →
    j.kind = .lifecycleTransition → s.dev.bat.locked = false → s.dev.lcs.trans = none → lcAllowed (lcState s.fuse) (opLe j.e 0 1) = false →
    Completes (.kprKeeperDone job) s fun t => s.sameOutside t ∧
      ∃ y, findJob t.dev job = some y ∧ y.stage = .done ∧ y.res = outcome 0x01 0x0C) ∧
  (∀ s job j, findJob s.dev job = some j → j.stage = .keeper → jobPart j = .keeper → keeperPresent s.dev = true → readsDone j = true →
    j.kind = .lifecycleTransition → s.dev.bat.locked = false → s.dev.lcs.trans = none → lcAllowed (lcState s.fuse) (opLe j.e 0 1) = true →
    allZero (tokenDigest s.fuse (opLe j.e 0 1)) = false → s.dev.lcs.tokenFails.toNat < 16 →
    sha384 ([0x47, 0x4A, 0x2D, 0x4C, 0x43, 0x54, 0x00, BitVec.ofNat 8 (opLe j.e 0 1)] ++ opAt j.e 32 32) ≠ tokenDigest s.fuse (opLe j.e 0 1) →
    Completes (.kprKeeperDone job) s fun t => s.sameOutside t ∧ t.dev.lcs.tokenFails = satInc s.dev.lcs.tokenFails ∧
      t.dev.event lcsPage 1 = true ∧ ∃ y, findJob t.dev job = some y ∧ y.stage = .done ∧ y.res = outcome 0x05 0x04) ∧
  (∀ s job j, findJob s.dev job = some j → j.stage = .keeper → jobPart j = .keeper → keeperPresent s.dev = true → readsDone j = true →
    j.kind = .lifecycleTransition → s.dev.bat.locked = false → s.dev.lcs.trans = none → lcAllowed (lcState s.fuse) (opLe j.e 0 1) = true → opLe j.e 0 1 ≠ 3 →
    allZero (tokenDigest s.fuse (opLe j.e 0 1)) = false → s.dev.lcs.tokenFails.toNat < 16 → s.dev.pwr.pfLevel = true →
    sha384 ([0x47, 0x4A, 0x2D, 0x4C, 0x43, 0x54, 0x00, BitVec.ofNat 8 (opLe j.e 0 1)] ++ opAt j.e 32 32) = tokenDigest s.fuse (opLe j.e 0 1) →
    Completes (.kprKeeperDone job) s fun t => t.pending = s.pending ∧ t.mem = s.mem ∧ lcState t.fuse = BitVec.ofNat 2 (opLe j.e 0 1) ∧
      s.fuse.onlyBurns t.fuse ∧ t.dev.event lcsPage 0 = true ∧ t.dev.jobs = s.dev.jobs ∧
      t.dev.lcs.trans = some { target := BitVec.ofNat 2 (opLe j.e 0 1), job := some job, pulses := 1, actions := false })

/-- A live source's alarm latches its bit and condition; a new alarm of a ZEROIZE_ALL source erases BBK, empties the key cache and stops the keeper; of a
LOCK source locks the device; disabled or latched sources run no new response; a guard mismatch is alarm 21. On battery only the BAT domain's sources
alarm. (R352, R353, R354, R359, R363, R365) -/
def Obligations.TamperAlarms : Prop :=
  (∀ s sources, s.dev.bat.onCell = false → Completes (.tamperAlarm sources) s fun t =>
    t.pending = s.pending ∧ t.mem = s.mem ∧ s.fuse.onlyBurns t.fuse ∧
    (∀ n, n ≠ 22 → sources.getLsbD n = true → fusedOff s.fuse n = false → (n = 17 → s.dev.tmp.refArmed = true) →
      t.dev.bat.alarm.getLsbD n = true ∧ t.dev.tmp.cond.getLsbD n = true) ∧
    (∀ n, s.dev.bat.alarm.getLsbD n = true → t.dev.bat.alarm.getLsbD n = true) ∧
    (∀ n, n ≠ 22 → sources.getLsbD n = true → fusedOff s.fuse n = false → (n = 17 → s.dev.tmp.refArmed = true) →
      s.dev.bat.alarm.getLsbD n = false →
      t.dev.event tmpPage 0 = true ∧
      ((tamperResp s.dev n).getLsbD 3 = true → t.dev.bat.bbk = none ∧ t.dev.bat.zeroized = true ∧ t.dev.keys.cache = [] ∧
        t.dev.wings.ctxs = [] ∧ t.dev.acl.keeper ≠ 2 ∧ t.dev.event tmpPage 1 = true) ∧
      ((tamperResp s.dev n).getLsbD 2 = true → t.dev.bat.locked = true ∧ t.dev.lcs.active = false ∧ t.dev.event tmpPage 2 = true))) ∧
  (∀ s sources, s.dev.bat.onCell = true → Completes (.tamperAlarm sources) s fun t => s.sameOutside t ∧
    t.dev.jobs = s.dev.jobs ∧ t.dev.keys = s.dev.keys ∧ t.dev.acl = s.dev.acl ∧
    (∀ n, n < 14 ∨ n = 15 ∨ n = 18 ∨ n = 19 ∨ n = 21 → sources.getLsbD n = true → fusedOff s.fuse n = false →
      t.dev.bat.alarm.getLsbD n = true ∧
      (s.dev.bat.alarm.getLsbD n = false →
        ((tamperResp s.dev n).getLsbD 3 = true → t.dev.bat.bbk = none ∧ t.dev.bat.zeroized = true) ∧
        ((tamperResp s.dev n).getLsbD 2 = true → t.dev.bat.locked = true))) ∧
    (∀ n, n = 14 ∨ n = 16 ∨ n = 17 ∨ n = 20 ∨ n = 22 → t.dev.bat.alarm.getLsbD n = s.dev.bat.alarm.getLsbD n)) ∧
  (∀ s sources, (∀ n, n < 23 → sources.getLsbD n = true → fusedOff s.fuse n = true ∨ s.dev.bat.alarm.getLsbD n = true) →
    Completes (.tamperAlarm sources) s fun t => s.sameOutside t ∧ t.dev = { s.dev with tmp := { s.dev.tmp with cond := t.dev.tmp.cond } }) ∧
  (∀ s levels n, s.dev.bat.onCell = false → n < 23 → (sampledCond s.dev s.fuse levels false).getLsbD n = true →
    Completes (.tamperSample levels) s fun t => t.pending = s.pending ∧ t.mem = s.mem ∧
      t.dev.bat.alarm.getLsbD n = true ∧ t.dev.tmp.cond.getLsbD n = true) ∧
  (∀ s levels, s.dev.bat.onCell = false → sampledCond s.dev s.fuse levels false = 0 →
    exec (.tamperSample levels) s = .next (s.withDev { s.dev with tmp := { s.dev.tmp with cond := s.dev.tmp.cond &&& ~~~ 0x043FFF } })) ∧
  (∀ s levels, s.dev.bat.onCell = true → exec (.tamperSample levels) s = .next s) ∧
  (∀ s (addr : BitVec 40), s.dev.bat.onCell = false → isGuarded addr.toNat = true →
    guardVal s.dev addr.toNat ≠ ~~~ (getGuard s.dev addr.toNat).shadow →
    Completes (.guardMismatch addr) s fun t => t.pending = s.pending ∧ t.mem = s.mem ∧
      t.dev.bat.alarm.getLsbD 21 = true ∧ t.dev.tmp.cond.getLsbD 21 = true ∧
      (s.dev.bat.alarm.getLsbD 21 = false → t.dev.tmp.logicAddr = BitVec.ofNat 32 addr.toNat)) ∧
  (∀ s (addr : BitVec 40), s.dev.bat.onCell = true ∨ guardVal s.dev addr.toNat = ~~~ (getGuard s.dev addr.toNat).shadow →
    exec (.guardMismatch addr) s = .next s)

/-- Bursts run on battery only. A quiet burst changes nothing but its record of it; a burst that finds a source latches it; the source of supply is taken
as given; TMP_ALARM clears written bits whose condition is gone, for the keeper and unlocked only. (R355, R356, R358, R362, R365) -/
def Obligations.BatteryDomain : Prop :=
  (∀ s b, s.dev.bat.onCell = false → exec (.batteryBurst b) s = .next s) ∧
  (∀ s b, s.dev.bat.onCell = true → sampledCond s.dev s.fuse b.levels true = 0 → (b.mismatch && s.dev.bat.burstMiss) = false → b.vbat = none →
    exec (.batteryBurst b) s = .next (s.withDev { s.dev with
      bat := { s.dev.bat with rtc := s.dev.bat.rtc + 262, burstMiss := b.mismatch }
      tmp := { s.dev.tmp with cond := s.dev.tmp.cond &&& ~~~ 0x0C3FFF } })) ∧
  (∀ s b n, s.dev.bat.onCell = true → n < 23 → (sampledCond s.dev s.fuse b.levels true).getLsbD n = true → s.dev.bat.alarm.getLsbD n = false →
    Completes (.batteryBurst b) s fun t => s.sameOutside t ∧ t.dev.bat.rtc = s.dev.bat.rtc + 262 ∧ t.dev.bat.alarm.getLsbD n = true ∧
      ((tamperResp s.dev n).getLsbD 3 = true → t.dev.bat.bbk = none ∧ t.dev.bat.zeroized = true) ∧
      ((tamperResp s.dev n).getLsbD 2 = true → t.dev.bat.locked = true) ∧
      ((tamperResp s.dev n).getLsbD 3 = true ∨ (tamperResp s.dev n).getLsbD 2 = true → t.dev.bat.pcount = satInc s.dev.bat.pcount) ∧
      t.dev.bat.log.take s.dev.bat.log.length = s.dev.bat.log ∧ t.dev.jobs = s.dev.jobs ∧ t.dev.keys = s.dev.keys) ∧
  (∀ s vddAon cellA cellB, exec (.batterySourceChange vddAon cellA cellB) s =
    .next (s.withDev { s.dev with bat := { s.dev.bat with onCell := !vddAon, cellA := cellA, cellB := cellB } })) ∧
  (∀ s ini v, keeperOnly ini = true → s.dev.bat.locked = false → Completes (.tmpAlarmClear ini v) s fun t => s.sameOutside t ∧
    t.dev = { s.dev with bat := { s.dev.bat with alarm := t.dev.bat.alarm } } ∧
    ∀ n, n < 23 → t.dev.bat.alarm.getLsbD n =
      (s.dev.bat.alarm.getLsbD n && !(v.getLsbD n && !s.dev.tmp.cond.getLsbD n))) ∧
  (∀ s ini v, keeperOnly ini = true → s.dev.bat.locked = true → exec (.tmpAlarmClear ini v) s = .next s) ∧
  (∀ s ini v, keeperOnly ini = false → Completes (.tmpAlarmClear ini v) s fun t => s.sameOutside t ∧ t.dev.unlogged = s.dev.unlogged)

/-- With the key, in TEST or PRODUCTION and with power good, the keeper burns the word of one source 0 to 11 and clears its alarm and condition; any other
write is ignored and recorded. (R368) -/
def Obligations.SourceFuses : Prop :=
  (∀ s ini v, isKeeperCore ini.id = true → s.dev.pwr.pfLevel = true → bits v 16 16 = 0x7A3C → bits v 0 5 ≤ 11 →
    lcState s.fuse = 1 ∨ lcState s.fuse = 2 → s.fuse.off.length = 12 →
    Completes (.tmpFuseoff ini v) s fun t => t.pending = s.pending ∧ t.mem = s.mem ∧
      t.fuse = { s.fuse with off := s.fuse.off.set (bits v 0 5) 0xFFFFFFFF } ∧
      (∀ n, fusedOff t.fuse n = if n = bits v 0 5 then true else fusedOff s.fuse n) ∧
      t.dev = { s.dev with bat := { s.dev.bat with alarm := t.dev.bat.alarm }, tmp := { s.dev.tmp with cond := t.dev.tmp.cond } } ∧
      (∀ n, n < 23 → t.dev.bat.alarm.getLsbD n = (s.dev.bat.alarm.getLsbD n && n != bits v 0 5) ∧
        t.dev.tmp.cond.getLsbD n = (s.dev.tmp.cond.getLsbD n && n != bits v 0 5))) ∧
  (∀ s ini v, isKeeperCore ini.id = false ∨ s.dev.pwr.pfLevel = false ∨ bits v 16 16 ≠ 0x7A3C ∨ 11 < bits v 0 5 ∨
      lcState s.fuse = 0 ∨ lcState s.fuse = 3 →
    Completes (.tmpFuseoff ini v) s fun t => s.sameOutside t ∧ t.dev.unlogged = s.dev.unlogged)

/-- Each step burns the lowest bit above the highest set one, skipping bits that fail; with none left the counter is full and the device is locked; fewer
than 256 left raises countlow. (R364, R365, R367) -/
def Obligations.TamperCounter : Prop :=
  (∀ f k, f.counter.getLsbD k = true → k < counterTop f) ∧
  (∀ d f, counterTop f < 8192 →
    (counterStep d f []).2 = { f with counter := f.counter ||| BitVec.ofNat 8192 (1 <<< counterTop f) } ∧
    popCount (counterStep d f []).2.counter = popCount f.counter + 1 ∧ counterTop (counterStep d f []).2 = counterTop f + 1) ∧
  (∀ d f bad k, counterTop f ≤ k → k < 8192 → k ∉ bad → (∀ j, counterTop f ≤ j → j < k → j ∈ bad) →
    (counterStep d f bad).2 = { f with counter := f.counter ||| BitVec.ofNat 8192 (1 <<< k) }) ∧
  (∀ d f bad, (∀ k, counterTop f ≤ k → k < 8192 → k ∈ bad) →
    (counterStep d f bad).2 = f ∧ (counterStep d f bad).1.bat.full = true ∧ (counterStep d f bad).1.bat.locked = true) ∧
  (∀ d f, 8192 - counterTop f ≤ 256 → counterTop f < 8192 → (counterStep d f []).1.event tmpPage 4 = true)

/-- A client's vote changes its own vote of that domain alone; a voted domain wakes from OFF; an unvoted wing domain drains for two ticks and its shelves
are asked to drain, an unvoted other domain is off at once; others' votes are ignored and recorded. (R376, R377, R378, R379, R380) -/
def Obligations.DomainVotes : Prop :=
  (∀ s ini (n : BitVec 5) v c, voteClient ini = some c → (c = 0 ∨ n.toNat ∉ keeperDomains) → 2 ≤ n.toNat → n.toNat < 20 →
    n.toNat ∉ heldDomains → (getDom s.dev n.toNat).state ≠ 3 →
    Completes (.pgVoteWrite ini n v) s fun t => s.sameOutside t ∧
      (∀ k, k ≠ n.toNat → getDom t.dev k = getDom s.dev k) ∧
      (getDom t.dev n.toNat).keeper = (if c = 0 then bit v 0 else (getDom s.dev n.toNat).keeper) ∧
      (getDom t.dev n.toNat).porter = (if c = 1 then bit v 1 else (getDom s.dev n.toNat).porter) ∧
      (getDom t.dev n.toNat).host = (if c = 2 then bit v 2 else (getDom s.dev n.toNat).host) ∧
      (getDom t.dev n.toNat).boot = (getDom s.dev n.toNat).boot ∧
      (domVoted (getDom t.dev n.toNat) = true → (getDom t.dev n.toNat).state =
        if (getDom s.dev n.toNat).state = 0 then 1 else (getDom s.dev n.toNat).state) ∧
      (domVoted (getDom t.dev n.toNat) = false → 9 ≤ n.toNat → (getDom t.dev n.toNat).state = 0) ∧
      (domVoted (getDom t.dev n.toNat) = false → n.toNat ≤ 8 → (getDom s.dev n.toNat).state = 2 →
        (getDom t.dev n.toNat).state = 3 ∧ (getDom t.dev n.toNat).offAt = some (s.dev.tick + 2) ∧
        ∀ u ∈ domShelves n.toNat, (getUnit t.dev u).request = 1)) ∧
  (∀ s ini (n : BitVec 5) v, n.toNat < 20 → n.toNat ∉ keeperDomains → voteClient ini = none →
    Completes (.pgVoteWrite ini n v) s fun t => s.sameOutside t ∧ t.dev.unlogged = s.dev.unlogged) ∧
  (∀ s ini (n : BitVec 5) v, n.toNat < 2 → isKeeperCore ini.id = true → exec (.pgVoteWrite ini n v) s = .next s) ∧
  (∀ s ini v c, voteClient ini = some c → c ≠ 0 → (getPage s.dev (pwrPage 20)).lock = false →
    Completes (.pwrPvoteWrite ini v) s fun t => s.sameOutside t ∧
      (∀ n ∈ keeperDomains, n ≠ 1 → (getDom t.dev n).porter = bit v n ∧ t.dev.pwr.pvote.getLsbD n = bit v n ∧
        (getDom t.dev n).keeper = (getDom s.dev n).keeper ∧ (getDom t.dev n).host = (getDom s.dev n).host) ∧
      ∀ n, n ∉ keeperDomains ∨ n = 1 → getDom t.dev n = getDom s.dev n ∧ (n < 20 → t.dev.pwr.pvote.getLsbD n = false))

/-- A hardware vote ends after its idle time and not before; a waking domain becomes ON, its shelves come back drained and asked to return. (R379, R381) -/
def Obligations.DomainPower : Prop :=
  (∀ s (n : BitVec 5), n.toNat < 20 → (getDom s.dev n.toNat).hw = true → (getDom s.dev n.toNat).state = 2 →
    (getDom s.dev n.toNat).last.toNat + (getDom s.dev n.toNat).idle.toNat ≤ s.dev.tick.toNat →
    (getDom s.dev n.toNat).boot = true ∨ (getDom s.dev n.toNat).host = true ∨ (getDom s.dev n.toNat).porter = true ∨
      (getDom s.dev n.toNat).keeper = true →
    exec (.hwVoteExpire n) s = .next (s.withDev (setDom s.dev n.toNat { getDom s.dev n.toNat with hw := false }))) ∧
  (∀ s (n : BitVec 5), n.toNat < 20 → s.dev.tick.toNat < (getDom s.dev n.toNat).last.toNat + (getDom s.dev n.toNat).idle.toNat →
    exec (.hwVoteExpire n) s = .next s) ∧
  (∀ s (n : BitVec 5), n.toNat < 20 → (getDom s.dev n.toNat).state = 1 → (∀ x ∈ s.dev.acl.stalled, x.domain ≠ n.toNat) →
    Completes (.domainReady n) s fun t => s.sameOutside t ∧
      getDom t.dev n.toNat = { getDom s.dev n.toNat with state := 2, ups := satInc (getDom s.dev n.toNat).ups, last := s.dev.tick } ∧
      (∀ k, k ≠ n.toNat → getDom t.dev k = getDom s.dev k) ∧
      (∀ u ∈ domShelves n.toNat, tabGet s.dev.nv.roles u 1 ≠ 2 →
        (getUnit t.dev u).state = 5 ∧ (getUnit t.dev u).request = 2) ∧
      t.dev.jobs = s.dev.jobs) ∧
  (∀ s (n : BitVec 5), n.toNat < 20 → (getDom s.dev n.toNat).state ≠ 1 → exec (.domainReady n) s = .next s)

/-- A request takes its client's field, others' are ignored and recorded; it starts a change when the chosen point differs; a rise asks for voltage first,
a fall locks first; a busy change is not restarted; a cap holds at once; VDONE, lock and the settle timeout move the change on. (R383, R384, R385,
R386, R387, R397) -/
def Obligations.OperatingPoint : Prop :=
  (∀ s ini v, isKeeperCore ini.id = true → (getPage s.dev (clkPage 0)).lock = false → s.dev.pwr.phase = .idle → s.dev.pwr.src ≠ 0 →
    Completes (.clkOppreqWrite ini v) s fun t => s.sameOutside t ∧
      t.dev.pwr.opKeeper = BitVec.ofNat 3 (bits v 8 3) ∧ t.dev.pwr.opPorter = s.dev.pwr.opPorter ∧ t.dev.pwr.opHost = s.dev.pwr.opHost ∧
      t.dev.pwr.point = s.dev.pwr.point ∧
      (oppChosen t.dev = s.dev.pwr.point → t.dev.pwr.busy = s.dev.pwr.busy ∧ t.dev.egress = s.dev.egress) ∧
      (oppChosen t.dev ≠ s.dev.pwr.point → t.dev.pwr.busy = true ∧ t.dev.pwr.target = oppChosen t.dev) ∧
      ((oppChosen t.dev).toNat < s.dev.pwr.point.toNat → t.dev.pwr.phase = .upWait false false ∧
        t.dev.egress = s.dev.egress ++ [.avs (BitVec.ofNat 4 (bits (guardVal s.dev (clkAddr 0x068)) 0 4)) (oppVolt s.dev (oppChosen t.dev))]) ∧
      (s.dev.pwr.point.toNat < (oppChosen t.dev).toNat → t.dev.pwr.phase = .downLock ∧ t.dev.egress = s.dev.egress)) ∧
  (∀ s ini v c, voteClient ini = some c → (getPage s.dev (clkPage 0)).lock = false →
    Completes (.clkOppreqWrite ini v) s fun t => s.sameOutside t ∧ t.dev = { s.dev with pwr := t.dev.pwr, egress := t.dev.egress } ∧
      t.dev.pwr.opKeeper = (if c = 0 then BitVec.ofNat 3 (bits v 8 3) else s.dev.pwr.opKeeper) ∧
      t.dev.pwr.opPorter = (if c = 1 then BitVec.ofNat 3 (bits v 16 3) else s.dev.pwr.opPorter) ∧
      t.dev.pwr.opHost = (if c = 2 then BitVec.ofNat 3 (bits v 24 3) else s.dev.pwr.opHost)) ∧
  (∀ s ini v, voteClient ini = none → (getPage s.dev (clkPage 0)).lock = false →
    Completes (.clkOppreqWrite ini v) s fun t => s.sameOutside t ∧ t.dev.unlogged = s.dev.unlogged) ∧
  (∀ s ini v, isPorterCore ini.id = true → (getPage s.dev (clkPage 0)).lock = false → s.dev.pwr.phase ≠ .idle →
    exec (.clkOppreqWrite ini v) s =
      .next (s.withDev { s.dev with pwr := { s.dev.pwr with opPorter := BitVec.ofNat 3 (bits v 16 3) } })) ∧
  (∀ s ini v, isPf ini.id = true → ini.priv = true → (getPage s.dev (clkPage 0)).lock = false → s.dev.pwr.phase ≠ .idle →
    exec (.clkOppreqWrite ini v) s =
      .next (s.withDev { s.dev with pwr := { s.dev.pwr with opHost := BitVec.ofNat 3 (bits v 24 3) } })) ∧
  (∀ s ini v, isKeeperCore ini.id = true → (getPage s.dev (clkPage 0)).lock = false →
    Completes (.clkOppcapWrite ini v) s fun t => s.sameOutside t ∧ guardVal t.dev (clkAddr 0x04C) = v &&& 3 ∧
      (∀ a, a ≠ clkAddr 0x04C → getGuard t.dev a = getGuard s.dev a) ∧ bits (v &&& 3) 0 2 ≤ (oppChosen t.dev).toNat ∧
      t.dev = { s.dev with guards := t.dev.guards, pwr := t.dev.pwr, egress := t.dev.egress }) ∧
  (∀ s ini v, isKeeperCore ini.id = false → (getPage s.dev (clkPage 0)).lock = false →
    Completes (.clkOppcapWrite ini v) s fun t => s.sameOutside t ∧ t.dev.unlogged = s.dev.unlogged) ∧
  (∀ s, s.dev.pwr.phase = .upWait false true → exec .pllLock s = .next (s.withDev { s.dev with pwr := { s.dev.pwr with phase := .switchDue true } })) ∧
  (∀ s, s.dev.pwr.phase = .upWait false false → exec .pllLock s = .next (s.withDev { s.dev with pwr := { s.dev.pwr with phase := .upWait true false } })) ∧
  (∀ s, s.dev.pwr.phase = .downLock → exec .pllLock s = .next (s.withDev { s.dev with pwr := { s.dev.pwr with phase := .switchDue false } })) ∧
  (∀ s, s.dev.pwr.phase = .upWait true false → exec .avsVdone s = .next (s.withDev { s.dev with pwr := { s.dev.pwr with phase := .switchDue true } })) ∧
  (∀ s, s.dev.pwr.phase = .upWait false false → exec .avsVdone s = .next (s.withDev { s.dev with pwr := { s.dev.pwr with phase := .upWait false true } })) ∧
  (∀ s, s.dev.pwr.phase = .downVolt → s.dev.pwr.recal = false → s.dev.pwr.src ≠ 0 → oppChosen s.dev = s.dev.pwr.point →
    Completes .avsVdone s fun t => s.sameOutside t ∧ t.dev.event (clkPage 0) 0 = true ∧
      t.dev.quiet = { s.dev with pwr := { s.dev.pwr with busy := false, vfail := false, phase := .idle } }.quiet) ∧
  (∀ s p, s.dev.pwr.phase = .upWait p false ∨ s.dev.pwr.phase = .downVolt → s.dev.pwr.recal = false → oppChosen s.dev = s.dev.pwr.target →
    Completes .avsSettleTimeout s fun t => s.sameOutside t ∧ t.dev.event (clkPage 0) 1 = true ∧
      t.dev.silent = { s.dev with pwr := { s.dev.pwr with busy := false, vfail := true, phase := .idle, fromFio := false } }.silent) ∧
  (∀ d u, d.pwr.phase = .switchDue u → (oppBoundary d).pwr.point = d.pwr.target ∧
    (oppBoundary d).pwr.src = if d.pwr.src = 1 then 2 else 1) ∧
  (∀ s ini, isKeeperCore ini.id = true → (getPage s.dev (clkPage 0)).lock = false → s.dev.pwr.src = 0 → s.dev.pwr.phase = .idle →
    Completes (.clkSrcSwitch ini) s fun t => s.sameOutside t ∧ guardVal t.dev (clkAddr 0x044) = 1 ∧ t.dev.pwr.busy = true ∧
      t.dev.pwr.fromFio = true ∧ t.dev.pwr.target = oppChosen s.dev ∧ t.dev.pwr.src = 0 ∧
      t.dev = { s.dev with guards := t.dev.guards, pwr := t.dev.pwr, egress := t.dev.egress })

/-- STANDBY is entered when no function, session or debug session stands and power is good, else it is refused with its reason; the RTC alarm and PERST
wake the device. (R390, R391) -/
def Obligations.StandbyWake : Prop :=
  (∀ s ini v, keeperOnly ini = true → bits v 16 16 = 0x5B3D → bit v 0 = true → s.dev.pwr.sysstate = 1 →
    (∀ p ∈ s.dev.fns, p.2.state = 0) → s.dev.crd.session = none → s.dev.lcs.active = false → s.dev.pwr.pfLevel = true →
    s.dev.lcs.trans = none → s.dev.lcs.erasing = false → s.dev.lcs.due = false →
    Completes (.pwrSyscmdStandby ini v) s fun t => s.sameOutside t ∧ t.dev.evr.flushing = true ∧
      t.dev.silent = { s.dev with pwr := { s.dev.pwr with sysstate := 2, refuse := 0 } }.silent) ∧
  (∀ s ini v p, keeperOnly ini = true → bits v 16 16 = 0x5B3D → bit v 0 = true → s.dev.pwr.sysstate = 1 →
    p ∈ s.dev.fns → p.2.state ≠ 0 →
    Completes (.pwrSyscmdStandby ini v) s fun t => s.sameOutside t ∧ t.dev.event (pwrPage 20) 3 = true ∧
      t.dev.quiet = { s.dev with pwr := { s.dev.pwr with refuse := 1 } }.quiet) ∧
  (∀ s ini v, keeperOnly ini = true → bits v 16 16 = 0x5B3D → bit v 0 = true → s.dev.pwr.sysstate = 1 →
    (∀ p ∈ s.dev.fns, p.2.state = 0) → s.dev.crd.session = none → s.dev.lcs.active = false → s.dev.pwr.pfLevel = false →
    Completes (.pwrSyscmdStandby ini v) s fun t => s.sameOutside t ∧ t.dev.pwr = { s.dev.pwr with refuse := 3 }) ∧
  (∀ s ini v, keeperOnly ini = true → bits v 16 16 = 0x5B3D → bit v 0 = true → s.dev.pwr.sysstate = 1 →
    (∀ p ∈ s.dev.fns, p.2.state = 0) → sessionOpen s.dev = true ∨ s.dev.lcs.active = true →
    Completes (.pwrSyscmdStandby ini v) s fun t => s.sameOutside t ∧ t.dev.pwr = { s.dev.pwr with refuse := 2 }) ∧
  (∀ s ini v, keeperOnly ini = true → bits v 16 16 = 0x5B3D → bit v 0 = true → s.dev.pwr.sysstate = 1 →
    (∀ p ∈ s.dev.fns, p.2.state = 0) → sessionOpen s.dev = false → s.dev.lcs.active = false → s.dev.pwr.pfLevel = true →
    s.dev.lcs.trans ≠ none ∨ s.dev.lcs.erasing = true ∨ s.dev.lcs.due = true →
    Completes (.pwrSyscmdStandby ini v) s fun t => s.sameOutside t ∧ t.dev.pwr = { s.dev.pwr with refuse := 4 }) ∧
  (∀ s, s.dev.pwr.almEn = true → s.dev.pwr.sysstate = 3 → s.dev.pwr.alm.toNat ≤ s.dev.bat.rtc.toNat →
    exec .rtcAlarm s = .next (s.withDev { s.dev with pwr := { s.dev.pwr with sysstate := 4 } })) ∧
  (∀ s, s.dev.pwr.almEn = true → s.dev.pwr.sysstate = 3 → s.dev.bat.rtc.toNat < s.dev.pwr.alm.toNat →
    exec .rtcAlarm s = .next (s.withDev { s.dev with
      pwr := { s.dev.pwr with sysstate := 4 }
      bat := { s.dev.bat with rtc := s.dev.pwr.alm } })) ∧
  (∀ s, s.dev.pwr.almEn = false → exec .rtcAlarm s = .next s) ∧
  (∀ s port sris, s.dev.pwr.sysstate = 3 → Completes (.perstDeassert port sris) s fun t => s.sameOutside t ∧ t.dev.pwr.sysstate = 4 ∧
    getPort t.dev port = { getPort s.dev port with perst := true, sris := sris } ∧ getPort t.dev (!port) = getPort s.dev (!port) ∧
    t.dev = { s.dev with ports := t.dev.ports, pwr := { s.dev.pwr with sysstate := 4 } }) ∧
  (∀ s port sris, s.dev.pwr.sysstate ≠ 3 → Completes (.perstDeassert port sris) s fun t => s.sameOutside t ∧
    getPort t.dev port = { getPort s.dev port with perst := true, sris := sris } ∧ getPort t.dev (!port) = getPort s.dev (!port) ∧
    t.dev = { s.dev with ports := t.dev.ports })

/-- A fall flushes the recorder, counts and reports; a rise returns to NORMAL and commits every pending tamper-counter increment. (R392, R394, R364) -/
def Obligations.PowerFail : Prop :=
  (∀ s, s.dev.pwr.pfLevel = true → Completes .pwrFailNFall s fun t => s.sameOutside t ∧ t.dev.evr.flushing = true ∧
    t.dev.event (pwrPage 20) 0 = true ∧
    t.dev.silent = { s.dev with pwr := { s.dev.pwr with pfLevel := false, pfState := 1, pfCount := satInc s.dev.pwr.pfCount } }.silent) ∧
  (∀ s, s.dev.pwr.pfLevel = false → exec .pwrFailNFall s = .next s) ∧
  (∀ s, s.dev.pwr.pfLevel = false → s.dev.bat.pcount = 0 → Completes .pwrFailNRise s fun t => s.sameOutside t ∧
    t.dev.event (pwrPage 20) 1 = true ∧
    t.dev.silent = { s.dev with
      pwr := { s.dev.pwr with pfLevel := true, pfState := 0 }
      bat := { s.dev.bat with pidx := none } }.silent) ∧
  (∀ s, s.dev.pwr.pfLevel = false → Completes .pwrFailNRise s fun t => t.pending = s.pending ∧ t.mem = s.mem ∧
    s.fuse.onlyBurns t.fuse ∧ t.dev.bat.pcount = 0 ∧ t.dev.bat.pidx = none ∧ t.dev.pwr.pfLevel = true ∧ t.dev.pwr.pfState = 0 ∧
    (s.dev.bat.pcount.toNat + counterTop s.fuse ≤ 8192 → popCount t.fuse.counter = popCount s.fuse.counter + s.dev.bat.pcount.toNat)) ∧
  (∀ s, s.dev.pwr.pfLevel = true → exec .pwrFailNRise s = .next s)

/-- The keeper's keyed write arms a cold reset; JTAG resets only outside PRODUCTION and END_OF_LIFE; the reset zeroes shared SRAM, drops jobs, queues,
functions, key cache and session, keeps BBK and memory beyond, counts a power cycle, and resumes TICKNO only after STANDBY with VDD_AON never lost.
(R396, R397, R403) -/
def Obligations.ColdReset : Prop :=
  (∀ s ini v, keeperOnly ini = true → bits v 16 16 = 0xC01D → bit v 0 = true →
    exec (.rstCmdCold ini v) s = .next (s.withDev { s.dev with
      evr := { s.dev.evr with flushing := true }
      pwr := { s.dev.pwr with resetPend := some 1 } })) ∧
  (∀ s ini v, keeperOnly ini = false ∨ bits v 16 16 ≠ 0xC01D →
    Completes (.rstCmdCold ini v) s fun t => s.sameOutside t ∧ t.dev.unlogged = s.dev.unlogged) ∧
  (∀ s, lcState s.fuse = 0 ∨ lcState s.fuse = 1 →
    exec .jtagReset s = .next (s.withDev { s.dev with pwr := { s.dev.pwr with resetPend := some 2 } })) ∧
  (∀ s, lcState s.fuse = 2 ∨ lcState s.fuse = 3 → exec .jtagReset s = .next s) ∧
  (∀ s b, b.canaryOk = true → b.storeRoomOk = true → s.dev.pwr.resetPend = none ∨ (s.dev.pwr.pfLevel = true ∧ s.dev.evr.flushing = false) →
    Completes (.coldReset b) s fun t => t.pending = s.pending ∧ s.fuse.onlyBurns t.fuse ∧
      (∀ a, memGet t.mem a = if a < 0x2000000 then 0 else memGet s.mem a) ∧
      t.dev.jobs = [] ∧ t.dev.queues = [] ∧ t.dev.fns = [] ∧ t.dev.keys.cache = [] ∧ t.dev.crd.session = none ∧
      t.dev.pwr.resetPend = none ∧
      (lcState t.fuse ≠ 3 → t.dev.bat.bbk = s.dev.bat.bbk) ∧
      (s.dev.pwr.sysstate ≠ 4 ∨ s.dev.pwr.resetPend ≠ none ∨ s.dev.bat.onCell = true →
        t.dev.tick = 0 ∧ t.dev.nv.pcycles = s.dev.nv.pcycles + 1 ∧ t.dev.pwr.cause = s.dev.pwr.resetPend.getD 0) ∧
      (s.dev.pwr.sysstate = 4 → s.dev.pwr.resetPend = none → s.dev.bat.onCell = false →
        t.dev.tick = s.dev.tick ∧ t.dev.nv.pcycles = s.dev.nv.pcycles ∧ t.dev.event (pwrPage 20) 2 = true)) ∧
  (∀ s b, s.dev.pwr.resetPend ≠ none → s.dev.pwr.pfLevel = false → exec (.coldReset b) s = .next s)

/-- Training sets the width, narrower than the cap only by falling back, resends with keys held and starts a handshake without; a retrain keeps keys; a
link lost past its time ends the pairing with LOST; the timers send the replay buffer, an IDLE and a STATUS frame while the link is up and nothing
while it is down. (R424, R425, R426, R438) -/
def Obligations.TwinLink : Prop :=
  (∀ s l, domOn s.dev 14 = true → s.dev.twn.width = 0 → lanesWidth l ≠ 0 → s.dev.twn.keys ≠ none →
    Completes (.linkTrained l) s fun t => s.sameOutside t ∧
      t.dev.twn.width = (if s.dev.twn.wide = true ∨ (lanesWidth l).toNat ≤ s.dev.twn.cap.toNat then lanesWidth l else s.dev.twn.cap) ∧
      t.dev.twn.keys = s.dev.twn.keys ∧ t.dev.twn.lostFrom = none ∧ t.dev.egress = s.dev.egress ++ s.dev.twn.replay.map (·.2.2) ∧
      t.dev = { s.dev with twn := t.dev.twn, egress := t.dev.egress }) ∧
  (∀ s l, domOn s.dev 14 = true → s.dev.twn.width = 0 → lanesWidth l ≠ 0 → s.dev.twn.keys = none → s.dev.nv.twin.grant = none →
    Completes (.linkTrained l) s fun t => s.sameOutside t ∧
      t.dev.twn.width = (if s.dev.twn.wide = true ∨ (lanesWidth l).toNat ≤ s.dev.twn.cap.toNat then lanesWidth l else s.dev.twn.cap) ∧
      t.dev = { s.dev with twn := { s.dev.twn with width := t.dev.twn.width, cap := t.dev.twn.width, wide := false, lostFrom := none } }) ∧
  (∀ s l w, domOn s.dev 14 = true → s.dev.twn.width = 0 → lanesWidth l ≠ 0 → s.dev.twn.cap ≠ 0 → s.dev.twn.keys = none →
    s.dev.nv.twin.grant ≠ none → keeperPresent s.dev = true → s.dev.twn.state ≠ 6 →
    w = (if s.dev.twn.wide = true ∨ (lanesWidth l).toNat ≤ s.dev.twn.cap.toNat then lanesWidth l else s.dev.twn.cap) →
    Completes (.linkTrained l) s fun t => s.sameOutside t ∧ t.dev.twn.width = w ∧
      match keeperDraw { s.dev with twn := { s.dev.twn with width := w, cap := w, wide := false, lostFrom := none } } 88 with
      | none => t.dev.twn.retryAt = some (s.dev.tick + 0x100000) ∧ t.dev.twn.state = s.dev.twn.state
      | some (bs, _) => t.dev.twn.state = (if s.dev.twn.state = 5 then 5 else 2) ∧ t.dev.twn.nonce = bs.drop 56 ∧
          t.dev.egress.getLast? = some (.bytesFrame s.dev.twn.txSeq 0x01 t.dev.twn.hello)) ∧
  (∀ s ks, s.dev.twn.width ≠ 0 → s.dev.twn.keys = some ks →
    exec .linkRetrain s = .next (s.withDev { s.dev with twn := { s.dev.twn with
      width := 0, retrains := satInc s.dev.twn.retrains, lostFrom := some (s.dev.twn.lostFrom.getD s.dev.tick) } })) ∧
  (∀ s, s.dev.twn.width ≠ 0 → s.dev.twn.keys = none →
    Completes .linkRetrain s fun t => s.sameOutside t ∧ t.dev.twn.width = 0 ∧ t.dev.twn.keys = none ∧
      t.dev.twn.retrains = satInc s.dev.twn.retrains ∧ t.dev.twn.lostFrom = some (s.dev.twn.lostFrom.getD s.dev.tick) ∧
      t.dev.twn.state = (if s.dev.twn.state = 5 then 5 else if s.dev.nv.twin.grant.isNone then 7 else 1) ∧
      t.dev.silent = { s.dev with twn := t.dev.twn }.silent) ∧
  (∀ s t0, s.dev.twn.lostFrom = some t0 → t0.toNat + bits (guardVal s.dev (regAddr twnPage 0x068)) 0 16 ≤ s.dev.tick.toNat →
    s.dev.nv.twin.grant ≠ none → s.dev.twn.state ≠ 6 → s.dev.twn.peerParked = false →
    Completes .twinLostTimeout s fun t => s.sameOutside t ∧ t.dev.twn.state = 5 ∧ t.dev.twn.keys = none ∧ t.dev.twn.replay = [] ∧
      (s.dev.twn.state ≠ 5 → t.dev.event twnPage 1 = true) ∧
      t.dev.silent = { s.dev with twn := t.dev.twn }.silent) ∧
  (∀ s t0, s.dev.twn.lostFrom = some t0 → s.dev.tick.toNat < t0.toNat + bits (guardVal s.dev (regAddr twnPage 0x068)) 0 16 →
    exec .twinLostTimeout s = .next s) ∧
  (∀ s, domOn s.dev 14 = true → exec .trainingRestart s = .next (s.withDev { s.dev with twn := { s.dev.twn with width := 0 } })) ∧
  (∀ s, s.dev.twn.width ≠ 0 → Completes .frameResendTimeout s fun t => s.sameOutside t ∧
    t.dev = { s.dev with
      twn := { s.dev.twn with resent := satAdd s.dev.twn.resent s.dev.twn.replay.length }
      egress := s.dev.egress ++ s.dev.twn.replay.map (·.2.2) }) ∧
  (∀ s, s.dev.twn.width ≠ 0 → exec .idleSendTimer s = .next (s.withDev (twnSendBytes s.dev 0x03 []))) ∧
  (∀ s, s.dev.twn.width ≠ 0 → s.dev.twn.keys ≠ none →
    Completes .statusSendTimer s fun t => s.sameOutside t ∧
      t.dev = { twnSendBytes s.dev 0x10 [BitVec.ofNat 8 (svcLevel s.dev),
          (if s.dev.bat.locked then 1 else 0) + (if s.dev.bat.zeroized then 2 else 0), (lcState s.fuse).setWidth 8] with twn := t.dev.twn } ∧
      t.dev.twn.txSeq = s.dev.twn.txSeq + 1 ∧ t.dev.twn.rxSeq = s.dev.twn.rxSeq ∧ t.dev.twn.keys = s.dev.twn.keys) ∧
  (∀ s, s.dev.twn.width = 0 → exec .idleSendTimer s = .next s ∧ exec .statusSendTimer s = .next s ∧ exec .frameResendTimeout s = .next s)

/-- A retry or rekey draws and sends a HELLO; a received HELLO is checked in order with its error number and answered with SIGNED; a SIGNED that verifies
is taken, another fails; two signed HELLOs give both directions' keys from the shared secret. (R429, R431, R430) -/
def Obligations.TwinHandshake : Prop :=
  (∀ s t0, s.dev.twn.retryAt = some t0 → t0.toNat ≤ s.dev.tick.toNat → keeperPresent s.dev = true → s.dev.nv.twin.grant ≠ none →
    s.dev.twn.width ≠ 0 → s.dev.twn.state ≠ 6 →
    Completes .handshakeRetry s fun t => s.sameOutside t ∧
      match keeperDraw s.dev 88 with
      | none => t.dev.twn.retryAt = some (s.dev.tick + 0x100000) ∧ t.dev.twn.state = s.dev.twn.state
      | some (bs, _) => t.dev.twn.state = (if s.dev.twn.state = 5 then 5 else 2) ∧ t.dev.twn.keys = none ∧ t.dev.twn.nonce = bs.drop 56 ∧
          t.dev.twn.sentSigned = false ∧ t.dev.egress.getLast? = some (.bytesFrame s.dev.twn.txSeq 0x01 t.dev.twn.hello)) ∧
  (∀ s, s.dev.twn.state = 4 → keeperPresent s.dev = true → s.dev.nv.twin.grant ≠ none → s.dev.twn.width ≠ 0 →
    Completes .linkRekey s fun t => s.sameOutside t ∧
      match keeperDraw s.dev 88 with
      | none => t.dev.twn.retryAt = some (s.dev.tick + 0x100000)
      | some (bs, _) => t.dev.twn.state = 2 ∧ t.dev.twn.keys = none ∧ t.dev.twn.nonce = bs.drop 56 ∧
          t.dev.egress.getLast? = some (.bytesFrame s.dev.twn.txSeq 0x01 t.dev.twn.hello)) ∧
  (∀ s h m, frameGood s h false → s.dev.twn.hello ≠ [] → keeperPresent s.dev = true → s.dev.twn.gotSigned = false →
    Completes (.hello h m) s fun t => s.sameOutside t ∧
      if m.chainOk = false then t.dev.twn.herr = 1 ∧ t.dev.twn.retryAt = some (s.dev.tick + 0x100000) ∧ t.dev.event twnPage 3 = true
      else if sha384 m.attestKey ≠ peerDigest s.dev then t.dev.twn.herr = 2 ∧ t.dev.event twnPage 3 = true
      else if m.grSeq ≠ s.dev.nv.twin.grSeq then t.dev.twn.herr = 3 ∧ t.dev.event twnPage 3 = true
      else if m.released = true ∨ m.endOfLife = true then t.dev.twn.herr = 8 ∧ t.dev.event twnPage 3 = true
      else match keeperDraw (frameTaken s.dev h) 304 with
        | none => t.dev.twn.retryAt = some (s.dev.tick + 0x100000)
        | some (rho, _) =>
          match ecdsaSign p384 (beBytes 48 (attestSecret s.dev)) (signedDigest s.dev m.raw) rho with
          | .ok sig => t.dev.twn.sentSigned = true ∧ t.dev.twn.peer = some m ∧
              t.dev.egress.getLast? = some (.bytesFrame s.dev.twn.txSeq 0x02 sig)
          | .bad _ _ => t.dev.twn.herr = 4) ∧
  (∀ s h sig m, frameGood s h false → s.dev.twn.hello ≠ [] → keeperPresent s.dev = true → s.dev.twn.peer = some m →
    s.dev.twn.sentSigned = false →
    Completes (.signed h sig) s fun t => s.sameOutside t ∧
      if ecdsaVerify p384 (signedDigest s.dev m.raw) (slice sig 0 48) (slice sig 48 48) m.attestKey = .ok [] then
        t.dev = { frameTaken s.dev h with twn := { (frameTaken s.dev h).twn with gotSigned := true } }
      else t.dev.twn.herr = 4 ∧ t.dev.twn.keys = none ∧ t.dev.event twnPage 3 = true) ∧
  (∀ d m, d.twn.sentSigned = true → d.twn.gotSigned = true → twinEmpty d = true → m.isEmpty = true →
    match ecdh p384 d.twn.ephD m.point with
    | .ok z => (finishHandshake d m).twn.state = 4 ∧ (finishHandshake d m).twn.keys =
        some (slice (kdf z [0x47, 0x4A, 0x2D, 0x45, 0x50, 0x41, 0x4C, 0x45]
                (if d.nv.twin.index then m.nonce ++ d.twn.nonce else d.twn.nonce ++ m.nonce) 64) 0 32,
              slice (kdf z [0x47, 0x4A, 0x2D, 0x45, 0x50, 0x41, 0x4C, 0x45]
                (if d.nv.twin.index then m.nonce ++ d.twn.nonce else d.twn.nonce ++ m.nonce) 64) 32 32)
    | .bad _ _ => (finishHandshake d m).twn.herr = 4 ∧ (finishHandshake d m).twn.keys = none)

/-- A good frame raises the expected number and clears what it acknowledges; a bad one is answered with NAK; a bad tag drops the link with error 0x06; NAK
resends; STATUS, FILL (at most 256 records a tick), FILL_END, PARK, RELEASE and RELEASE_ACK act as the spec gives them. (R426, R431, R433, R438, R442) -/
def Obligations.TwinFrames : Prop :=
  (∀ s h, frameGood s h false → exec (.idle h) s = .next (s.withDev (frameTaken s.dev h))) ∧
  (∀ s h, s.dev.twn.width ≠ 0 → domOn s.dev 14 = true → h.crcOk = false ∨ s.dev.twn.rxSeq.toNat < h.seq.toNat →
    exec (.idle h) s = .next (s.withDev (twnSendBytes s.dev 0x04 (leBytes 8 s.dev.twn.rxSeq.toNat)))) ∧
  (∀ s h m, s.dev.twn.width ≠ 0 → domOn s.dev 14 = true → h.crcOk = true → h.seq = s.dev.twn.rxSeq → s.dev.twn.keys ≠ none → h.tagOk = false →
    Completes (.status h m) s fun t => s.sameOutside t ∧ t.dev.twn.herr = 6 ∧ t.dev.twn.keys = none ∧ t.dev.twn.state = 5 ∧
      t.dev.twn.rxSeq = s.dev.twn.rxSeq ∧ t.dev.event twnPage 3 = true) ∧
  (∀ s h expected, frameGood s h false → Completes (.nak h expected) s fun t => s.sameOutside t ∧
    t.dev.egress = s.dev.egress ++ ((frameTaken s.dev h).twn.replay.filter fun r => decide (expected.toNat ≤ r.1.toNat)).map (·.2.2) ∧
    t.dev = { frameTaken s.dev h with twn := { (frameTaken s.dev h).twn with resent := t.dev.twn.resent }, egress := t.dev.egress }) ∧
  (∀ s h m, frameGood s h true → s.dev.nv.twin.outbox = [] → (∀ n ∈ s.dev.keys.nonces, n.wait = none) →
    Completes (.status h m) s fun t => s.sameOutside t ∧
      t.dev.quiet = { frameTaken s.dev h with twn := { (frameTaken s.dev h).twn with
        peerLevel := m.level, peerLocked := m.locked, peerZero := m.zeroized, peerLc := m.lcState } }.quiet ∧
      (s.dev.twn.peerLevel.toNat < m.level.toNat → t.dev.event twnPage 5 = true)) ∧
  (∀ s h objs hs, frameGood s h true → s.dev.pwr.pfLevel = true → s.dev.bat.locked = false → s.dev.twn.filling = 2 → s.dev.bat.bbk ≠ none →
    Completes (.fill h objs hs) s fun t => s.sameOutside t ∧ t.dev.twn.filling = 2 ∧ t.dev.jobs = s.dev.jobs ∧ t.dev.bat = s.dev.bat ∧
      t.dev.twn.fillWait = (splitRecords (256 - s.dev.twn.fillCount) (s.dev.twn.fillWait ++ objs)).2 ∧
      t.dev.twn.filled = s.dev.twn.filled ++ recordKeys (splitRecords (256 - s.dev.twn.fillCount) (s.dev.twn.fillWait ++ objs)).1 ∧
      (∀ j ∈ hs, j.nextFree ≤ 2 ^ 32 → j.nextFree ≤ nextFree t.dev.nv j.record j.twin) ∧
      (∀ r w, nextFree s.dev.nv r w ≤ nextFree t.dev.nv r w) ∧
      (∀ x : TenantRec, s.dev.twn.fillWait = [] → objs = [.tenant x] → x ∈ t.dev.nv.tenants ∧ t.dev.nv.cellar = s.dev.nv.cellar)) ∧
  (∀ s h hs bs d, frameGood s h true → s.dev.pwr.pfLevel = true → s.dev.bat.locked = false → s.dev.twn.filling = 2 → s.dev.bat.bbk = none →
    keeperDraw (frameTaken s.dev h) 32 = some (bs, d) →
    Completes (.fill h [] hs) s fun t => s.sameOutside t ∧ t.dev.bat = { s.dev.bat with bbk := some (BitVec.ofNat 256 (beNat bs)) } ∧
      t.dev.keys.lineage = some (BitVec.ofNat 256 (beNat bs))) ∧
  (∀ s h g, frameGood s h true → s.dev.bat.locked = false → s.dev.twn.filling = 2 → s.dev.twn.fillWait = [] → s.dev.nv.twin.grant = some g →
    g.provisional = false → s.dev.nv.twin.outbox = [] → s.dev.keys.nonces = [] →
    (s.dev.twn.resync = true ∨ s.dev.bat.zeroized = true ∨
      ∀ r ∈ s.dev.nv.cellar, r.img.state ≠ 4 → twinRecord r.img = true → (r.img.key, r.img.version) ∈ s.dev.twn.filled) →
    Completes (.fillEnd h) s fun t => s.sameOutside t ∧ t.dev.twn.state = 4 ∧ t.dev.twn.filling = 0 ∧
      t.dev.bat.zeroized = (s.dev.bat.zeroized && (s.dev.twn.resync || s.dev.bat.bbk.isNone)) ∧ t.dev.nv.cellar = s.dev.nv.cellar ∧
      t.dev.event twnPage 2 = true ∧ (s.dev.twn.state ≠ 4 → t.dev.event twnPage 0 = true)) ∧
  (∀ s h, frameGood s h true → s.dev.bat.locked = false → s.dev.twn.filling = 2 → s.dev.twn.fillWait ≠ [] →
    exec (.fillEnd h) s = .next (s.withDev { frameTaken s.dev h with twn := { (frameTaken s.dev h).twn with fillEnded := true } })) ∧
  (∀ s h m, frameGood s h true → s.dev.nv.twin.outbox = [] → (∀ n ∈ s.dev.keys.nonces, n.wait = none) →
    Completes (.park h m) s fun t => s.sameOutside t ∧ t.dev = { frameTaken s.dev h with twn := { (frameTaken s.dev h).twn with
      peerParked := true, parkSent := heads s.dev.nv s.dev.nv.twin.index } }) ∧
  (∀ s h hs, frameGood s h true → s.dev.bat.locked = true → exec (.release h hs) s = .next (s.withDev (frameTaken s.dev h))) ∧
  (∀ s h hs, frameGood s h true → s.dev.bat.locked = false → Completes (.release h hs) s fun t => s.sameOutside t ∧ t.dev.twn.peerReleased = true ∧
    t.dev.event twnPage 4 = true ∧ t.dev.nv.cellar = s.dev.nv.cellar ∧ (∀ j ∈ hs, j.nextFree ≤ 2 ^ 32 → j.nextFree ≤ nextFree t.dev.nv j.record j.twin) ∧
    ∃ r ∈ t.dev.twn.replay, r = (s.dev.twn.txSeq, 0x52, .frame s.dev.twn.txSeq 0x52 0 0 [] [])) ∧
  (∀ s h, s.dev.twn.width ≠ 0 → domOn s.dev 14 = true → h.crcOk = true → h.seq = s.dev.twn.rxSeq → s.dev.twn.keys ≠ none → h.tagOk = true →
    s.dev.twn.filling.getLsbD 0 = false → s.dev.twn.relSent = true →
    Completes (.releaseAck h) s fun t => s.sameOutside t ∧ t.dev.nv.twin.released = true ∧ t.dev.twn.releasing = false ∧
      t.dev.event twnPage 4 = true)

/-- A CHANGE that passes is committed, held in doubt and acknowledged, else refused with its status; ACK and NAK complete the waiting job; FINAL and UNDO
settle a change in doubt; RESERVE raises the journal and is answered. Nothing is taken while PWR_FAIL_N is low: the model's choice (log entry 30).
(R433, R434, R435, R190) -/
def Obligations.TwinChanges : Prop :=
  (∀ s h id m objs, frameGood s h true → s.dev.pwr.pfLevel = true → s.dev.bat.locked = false → keeperPresent s.dev = true →
    s.dev.nv.twin.inbox = [] → s.dev.nv.twin.doubt = [] → s.dev.twn.state = 4 → changeFails s.dev objs = none →
    Completes (.change h id m objs) s fun t => s.sameOutside t ∧
      ∃ m', m' = (if s.dev.nv.twin.index then m else nextMirror s.dev) ∧ t.dev.nv.twin.inbox = [] ∧
        t.dev.nv.twin.doubt.map (fun c => (c.id, c.m, c.objs)) = [(id, m', objs)] ∧
        t.dev.twn.replay.getLast? = some (s.dev.twn.txSeq, 0x21, .frame s.dev.twn.txSeq 0x21 id m' [] []) ∧
        ∀ q, objs = [.planSeq q] → t.dev.nv.planSeq = q) ∧
  (∀ s h id m objs st, frameGood s h true → s.dev.pwr.pfLevel = true → s.dev.bat.locked = false → keeperPresent s.dev = true →
    s.dev.nv.twin.inbox = [] → s.dev.nv.twin.doubt = [] → s.dev.twn.state = 4 → changeFails s.dev objs = some st →
    exec (.change h id m objs) s = .next (s.withDev (twnSendBytes (frameTaken s.dev h) 0x22 (leBytes 8 id.toNat ++ [st])))) ∧
  (∀ s h id m objs, s.dev.pwr.pfLevel = false → exec (.change h id m objs) s = .next s) ∧
  (∀ s h id m c j, frameGood s h true → s.dev.bat.locked = false → s.dev.twn.state = 4 →
    (s.dev.nv.twin.outbox.find? fun c => c.id == id && c.sent && !c.done) = some c → isCustodyChange c = false →
    findJob s.dev c.job = some j → j.stage = .twin → j.change = c.id →
    Completes (.changeAck h id m) s fun t => s.sameOutside t ∧
      (∃ y, findJob t.dev c.job = some y ∧ y.stage = .done ∧ y.res = j.res) ∧ (∀ x ∈ t.dev.nv.twin.outbox, x.id ≠ id) ∧
      (s.dev.twn.txSeq, (0x23 : Byte), Egress.frame s.dev.twn.txSeq 0x23 id 0 [] []) ∈ t.dev.twn.replay) ∧
  (∀ s h id st c j, frameGood s h true → (s.dev.nv.twin.outbox.find? fun c => c.id == id && c.sent && !c.done) = some c →
    isCustodyChange c = false → findJob s.dev c.job = some j → j.stage = .twin → j.change = c.id →
    Completes (.changeNak h id st) s fun t => s.sameOutside t ∧
      (∃ y, findJob t.dev c.job = some y ∧ y.stage = .done ∧ y.res = outcome st 0) ∧ (∀ x ∈ t.dev.nv.twin.outbox, x.id ≠ id) ∧
      t.dev.nv.cellar = s.dev.nv.cellar ∧ t.dev.nv.planSeq = s.dev.nv.planSeq) ∧
  (∀ s h id, frameGood s h true → s.dev.nv.twin.inbox = [] →
    exec (.final h id) s = .next (s.withDev (setDoubt (frameTaken s.dev h) (s.dev.nv.twin.doubt.filter fun c => c.id != id)))) ∧
  (∀ s h id, frameGood s h true → (∀ c ∈ s.dev.nv.twin.doubt, c.id ≠ id) →
    exec (.undo h id) s = .next (s.withDev (setInbox (frameTaken s.dev h) (s.dev.nv.twin.inbox.filter fun c => c.id != id)))) ∧
  (∀ s h id c q old, frameGood s h true → s.dev.bat.locked = false → s.dev.nv.twin.inbox = [] →
    (s.dev.nv.twin.doubt.find? fun c => c.id == id) = some c → c.objs = [.planSeq q] → c.old = [.planSeq old] →
    Completes (.undo h id) s fun t => s.sameOutside t ∧ t.dev.nv.planSeq = old ∧ (∀ x ∈ t.dev.nv.twin.doubt, x.id ≠ id) ∧
      t.dev.nv.cellar = s.dev.nv.cellar) ∧
  (∀ s h j, frameGood s h true → s.dev.pwr.pfLevel = true → s.dev.bat.locked = false → j.nextFree ≤ 2 ^ 32 →
    Completes (.reserve h j) s fun t => s.sameOutside t ∧
      nextFree t.dev.nv j.record j.twin = max (nextFree s.dev.nv j.record j.twin) j.nextFree ∧
      (∀ r w, (r, w) ≠ (j.record, j.twin) → nextFree t.dev.nv r w = nextFree s.dev.nv r w) ∧
      t.dev.egress = s.dev.egress ++ [.frame s.dev.twn.txSeq 0x31 0 0 [] [j]]) ∧
  (∀ s h j n, frameGood s h true → nonceOf s.dev j.record j.twin = some n → n.wait = some (j.nextFree - 1) → n.ownDone = true →
    Completes (.reserveAck h j) s fun t => s.sameOutside t ∧ t.dev.nv = s.dev.nv ∧ t.dev.jobs = s.dev.jobs ∧
      nonceOf t.dev j.record j.twin = some { n with
        peerDone := true, wait := none, nextFree := j.nextFree - 1 + 1, limit := 65536 * (j.nextFree - 1 + 1),
        next := if n.limit ≤ n.next then 65536 * (j.nextFree - 1) else n.next })

/-- A grant is taken with its result, newer than the last, in PRODUCTION, signed by the right key; RELEASE, PARK and RETRAIN act in their states; from
other initiators, and without the confirm value, they are ignored and recorded. (R427, R428, R439, R440, R442) -/
def Obligations.TwinCommands : Prop :=
  (∀ s ini, (isPf ini.id && ini.priv) || isKeeperCore ini.id = true → asleep s.dev twnPage = none →
    Completes (.twnCmdGrant ini) s fun t => s.sameOutside t ∧
      match checkGrant (touchPage s.dev twnPage) s.fuse with
      | .inl r => t.dev = { touchPage s.dev twnPage with twn := { s.dev.twn with grRes := r } }
      | .inr (g, ix) => t.dev.twn.grRes = 0 ∧ t.dev.nv.twin.grant = some g ∧ t.dev.nv.twin.grSeq = g.seq ∧ t.dev.nv.twin.index = ix ∧
          t.dev.nv.twin.fixed = true ∧ t.dev.nv.twin.solo = !g.pair) ∧
  (∀ s ini v, isKeeperCore ini.id = true → asleep s.dev twnPage = none → bits v 16 16 = 0x7E1A → s.dev.twn.state = 4 →
    s.dev.twn.relSent = false → s.dev.nv.twin.outbox = [] → (∀ n ∈ s.dev.keys.nonces, n.wait = none) →
    Completes (.twnCmdRelease ini v) s fun t => s.sameOutside t ∧ t.dev.twn.releasing = true ∧ t.dev.twn.relSent = true ∧
      t.dev.egress = s.dev.egress ++ [.frame s.dev.twn.txSeq 0x51 0 0 [] (heads s.dev.nv s.dev.nv.twin.index)]) ∧
  (∀ s ini v, isKeeperCore ini.id = true → asleep s.dev twnPage = none → bits v 16 16 = 0x7E1A → s.dev.twn.state ≠ 4 →
    Completes (.twnCmdRelease ini v) s fun t => s.sameOutside t ∧ t.dev.unlogged = (touchPage s.dev twnPage).unlogged) ∧
  (∀ s ini v, isKeeperCore ini.id = true → asleep s.dev twnPage = none → bits v 16 16 = 0x7E1A →
    Completes (.twnCmdPark ini v) s fun t => s.sameOutside t ∧ t.dev.twn.state = 6 ∧ t.dev.nv.twin.parked = true ∧ t.dev.pwr.almEn = true ∧
      t.dev.pwr.alm = s.dev.bat.rtc + BitVec.ofNat 48 (s.dev.twn.syncIvl.toNat * 32768) ∧ t.dev.jobs = s.dev.jobs) ∧
  (∀ s ini ks, isKeeperCore ini.id = true → asleep s.dev twnPage = none → s.dev.twn.width ≠ 0 → s.dev.twn.keys = some ks →
    Completes (.twnCmdRetrain ini) s fun t => s.sameOutside t ∧ t.dev.twn.wide = true ∧ t.dev.twn.width = 0 ∧ t.dev.twn.keys = some ks ∧
      t.dev.twn.state = s.dev.twn.state ∧ t.dev.twn.retrains = satInc s.dev.twn.retrains ∧
      t.dev = { touchPage s.dev twnPage with twn := t.dev.twn }) ∧
  (∀ s ini, (isPf ini.id && ini.priv) || isKeeperCore ini.id = false → hostSees ini twnPage = true → asleep s.dev twnPage = none →
    Completes (.twnCmdGrant ini) s fun t => s.sameOutside t ∧ t.dev.unlogged = (touchPage s.dev twnPage).unlogged) ∧
  (∀ s ini v, isKeeperCore ini.id = false ∨ bits v 16 16 ≠ 0x7E1A → hostSees ini twnPage = true → asleep s.dev twnPage = none →
    Completes (.twnCmdPark ini v) s fun t => s.sameOutside t ∧ t.dev.unlogged = (touchPage s.dev twnPage).unlogged) ∧
  (∀ s ini, isKeeperCore ini.id = false → hostSees ini twnPage = true → asleep s.dev twnPage = none →
    Completes (.twnCmdRetrain ini) s fun t => s.sameOutside t ∧ t.dev.unlogged = (touchPage s.dev twnPage).unlogged) ∧
  (∀ d f, slice (grantBytes d.twn) 0 4 ≠ [0x47, 0x4A, 0x54, 0x47] → checkGrant d f = .inl 0x01) ∧
  (∀ d f g ix, checkGrant d f = .inr (g, ix) → d.nv.twin.grSeq.toNat < g.seq.toNat ∧ d.nv.twin.released = false ∧ d.bat.locked = false ∧
    lcState f = 2 ∧ keeperPresent d = true ∧ (d.nv.twin.fixed = true → ix = d.nv.twin.index) ∧
    (twinEmpty d = false → grantSigned g.raw (signerKey d.nv) = true))

/-- A flush stores the buffer's records and empties it; a rate window's end opens a new one and writes the summary of what it dropped; a snapshot fetch
marks its window busy and is answered with the record, or with the reason there is none. (R449, R450, R452, R453, R454) -/
def Obligations.EventRecorder : Prop :=
  (∀ s ini, exec (.evrFlush ini) s = .next (s.withDev { s.dev with evr := { s.dev.evr with flushing := true } })) ∧
  (∀ s, s.dev.evr.flushing = true → s.dev.evr.started = true → s.dev.evr.holdFrom = none → s.dev.pwr.pfState ≠ 1 → s.dev.pwr.sysstate ≠ 2 →
    Completes .evrFlushDone s fun t => s.sameOutside t ∧ t.dev.evr.flushing = false ∧ t.dev.evr.buf = [] ∧
      (∀ e, s.dev.evr.buf = [e] → e ∈ t.dev.nv.evStore) ∧
      (∀ e ∈ s.dev.nv.evStore, e.1.toNat < 4096 → e ∈ t.dev.nv.evStore) ∧
      t.dev = { s.dev with evr := t.dev.evr, nv := { s.dev.nv with evStore := t.dev.nv.evStore } }) ∧
  (∀ s, s.dev.evr.flushing = true → s.dev.evr.started = true → s.dev.pwr.pfState = 1 → s.dev.pwr.sysstate ≠ 2 →
    Completes .evrFlushDone s fun t => s.sameOutside t ∧ t.dev.evr.flushing = false ∧ t.dev.pwr.pfState = 2 ∧
      t.dev.nv.evHigh = s.dev.nv.evNext + 512) ∧
  (∀ s (k : BitVec 7), s.dev.tick.toNat / rateWindow (getRate s.dev k.toNat) = (getRate s.dev k.toNat).window →
    exec (.rateWindowEnd k) s = .next s) ∧
  (∀ s (k : BitVec 7), s.dev.tick.toNat / rateWindow (getRate s.dev k.toNat) ≠ (getRate s.dev k.toNat).window →
    Completes (.rateWindowEnd k) s fun t => s.sameOutside t ∧ t.dev.silent = s.dev.silent ∧
      getRate t.dev k.toNat = { getRate s.dev k.toNat with
        window := s.dev.tick.toNat / rateWindow (getRate s.dev k.toNat), seen := 0, dropped := 0 } ∧
      (∀ j, j ≠ k.toNat → getRate t.dev j = getRate s.dev j) ∧
      ((getRate s.dev k.toNat).dropped ≠ 0 → s.dev.evr.started = true → s.dev.evr.buf.length < 512 → s.dev.evr.dropRun = 0 →
        t.dev.nv.evNext = s.dev.nv.evNext + 1 ∧ ∃ r : EvRec, t.dev.evr.buf = s.dev.evr.buf ++ [(s.dev.nv.evNext, r)] ∧ r.code = 0x0F01)) ∧
  (∀ s ini w, winOwner w ini = true → (getWin s.dev w).busy = false →
    Completes (.evrSnapcmdFetch ini w) s fun t => s.sameOutside t ∧ getWin t.dev w = { getWin s.dev w with busy := true } ∧
      (∀ x, x ≠ w → getWin t.dev x = getWin s.dev x) ∧ t.dev = { s.dev with evr := t.dev.evr }) ∧
  (∀ s ini w, winOwner w ini = false ∨ (getWin s.dev w).busy = true →
    Completes (.evrSnapcmdFetch ini w) s fun t => s.sameOutside t ∧ t.dev.unlogged = s.dev.unlogged) ∧
  (∀ s w readable, (getWin s.dev w).busy = true → Completes (.snapFetchDone w readable) s fun t => s.sameOutside t ∧
    (getWin t.dev w).busy = false ∧ (getWin t.dev w).seq = (getWin s.dev w).seq ∧ t.dev = { s.dev with evr := t.dev.evr } ∧
    (s.dev.nv.evNext.toNat ≤ (getWin s.dev w).seq.toNat → (getWin t.dev w).result = 1 ∧ (getWin t.dev w).data = zeros 64) ∧
    (∀ r, (getWin s.dev w).seq.toNat < s.dev.nv.evNext.toNat →
      (s.dev.evr.buf.find? fun e => e.1 == (getWin s.dev w).seq) = some ((getWin s.dev w).seq, r) →
      (getWin t.dev w).result = 0 ∧ (getWin t.dev w).data = evBytes (getWin s.dev w).seq r) ∧
    ((getWin s.dev w).seq.toNat < s.dev.nv.evNext.toNat → (s.dev.evr.buf.find? fun e => e.1 == (getWin s.dev w).seq) = none →
      4096 ≤ (getWin s.dev w).seq.toNat → (getWin s.dev w).seq.toNat < (evrOld s.dev).toNat →
      (getWin t.dev w).result = 2 ∧ (getWin t.dev w).data = zeros 64) ∧
    ((getWin s.dev w).seq.toNat < s.dev.nv.evNext.toNat → (s.dev.evr.buf.find? fun e => e.1 == (getWin s.dev w).seq) = none →
      (getWin s.dev w).seq.toNat < 4096 ∨ (evrOld s.dev).toNat ≤ (getWin s.dev w).seq.toNat → s.dev.nv.evBad.contains (getWin s.dev w).seq = false →
      match s.dev.nv.evStore.find? fun e => e.1 == (getWin s.dev w).seq with
      | none => (getWin t.dev w).result = 3 ∧ (getWin t.dev w).data = zeros 64
      | some e => (getWin t.dev w).result = (if readable then 0 else 4) ∧
          (getWin t.dev w).data = if readable then evBytes e.1 e.2 else zeros 64))

/-- PMC_CLR zeroes at the boundary, PMC_BIND is the porter's for the first 28 monitors, a dump goes to the host while the function is READY with Bus
Master Enable and is counted lost otherwise. (R456, R458, R459, R461) -/
def Obligations.Monitors : Prop :=
  (∀ s ini (m : BitVec 5), m.toNat < 28 ∨ iniKeeper s.dev ini.id = true → (getPage s.dev (pmcPage m.toNat)).lock = false →
    exec (.pmcClr ini m) s = .next (s.withDev (setMon s.dev m.toNat { getMon s.dev m.toNat with clr := true }))) ∧
  (∀ m : MonSt, m.clr = true → (monEffect m).cyc = 0 ∧ (monEffect m).cnt = [] ∧ (monEffect m).clr = false) ∧
  (∀ s ini (m : BitVec 5) v, isPorterCore ini.id = true → m.toNat < 28 → (getPage s.dev (pmcPage m.toNat)).lock = false →
    exec (.pmcBindWrite ini m v) s = .next (s.withDev (setMon s.dev m.toNat { getMon s.dev m.toNat with bind := v &&& 0x800000FF }))) ∧
  (∀ s ini (m : BitVec 5) v, isPorterCore ini.id = false → isPf ini.id = false → (getPage s.dev (pmcPage m.toNat)).lock = false →
    Completes (.pmcBindWrite ini m v) s fun t => s.sameOutside t ∧ t.dev.unlogged = s.dev.unlogged) ∧
  (∀ s, Completes .pmcDump s fun t => s.sameOutside t ∧ (∀ f, (getFn t.dev f).dumps = []) ∧
    t.dev.jobs = s.dev.jobs ∧ t.dev.quiet = { s.dev with fns := t.dev.fns }.quiet) ∧
  (∀ d f q bs, (getFn d f).bme = true → (getFn d f).state = 1 →
    (getFn (dumpOne d f (q, bs)) f).dwritten = (getFn d f).dwritten + 1 ∧ (getFn (dumpOne d f (q, bs)) f).dlost = (getFn d f).dlost ∧
    Egress.dump (BitVec.ofNat 8 f) ((getFn d f).dbase + BitVec.ofNat 64 (128 * (q.toNat % dumpRing (getFn d f).dcfg))) bs ∈ (dumpOne d f (q, bs)).egress) ∧
  (∀ d f r, (getFn d f).bme = false ∨ (getFn d f).state ≠ 1 →
    dumpOne d f r = setFn d f { getFn d f with dlost := satInc (getFn d f).dlost })

/-- A PF sends 1 to 256 bytes when its mailbox is free, acknowledges the reply, and the porter replies; others are ignored and recorded. (R477) -/
def Obligations.Mailboxes : Prop :=
  (∀ s ini box, mboxPf ini box = true → (getMbox s.dev box).inbusy = false → (getMbox s.dev box).inlen.toNat ≠ 0 →
    (getMbox s.dev box).inlen.toNat ≤ 256 →
    Completes (.mgtMbSend ini box) s fun t => s.sameOutside t ∧ t.dev.event mboxPage (if box then 2 else 0) = true ∧
      t.dev.quiet = (setMbox s.dev box { getMbox s.dev box with inbusy := true, sentLen := (getMbox s.dev box).inlen, stale := false }).quiet) ∧
  (∀ s ini box, mboxPf ini box = true → (getMbox s.dev box).inbusy = true ∨ (getMbox s.dev box).inlen.toNat = 0 ∨ 256 < (getMbox s.dev box).inlen.toNat →
    Completes (.mgtMbSend ini box) s fun t => s.sameOutside t ∧ t.dev.unlogged = s.dev.unlogged) ∧
  (∀ s ini box, mboxPf ini box = true →
    exec (.mgtMbAck ini box) s = .next (s.withDev (setMbox s.dev box { getMbox s.dev box with outvalid := false }))) ∧
  (∀ s ini box, isPorterCore ini.id = true → (getMbox s.dev box).stale = false →
    Completes (.mgtMbReply ini box) s fun t => s.sameOutside t ∧ t.dev.event mboxPage (if box then 3 else 1) = true ∧
      t.dev.quiet = (setMbox s.dev box { getMbox s.dev box with inbusy := false, outvalid := true }).quiet) ∧
  (∀ s ini box, isPorterCore ini.id = false → Completes (.mgtMbReply ini box) s fun t => s.sameOutside t ∧ t.dev.unlogged = s.dev.unlogged)

/-- Address assignment, event enables, PID, BCR, DCR, status, and private writes and reads of the 256-byte window, with NACK while no address is held and
a wake by the wake byte. GETSTATUS's bytes are free (log entry 5). (R478) -/
def Obligations.I3cTarget : Prop :=
  (∀ s addr, i3cOn s.dev = true → s.dev.mgt.i3c.assigned = false → Completes (.entdaa addr) s fun t => s.sameOutside t ∧
    t.dev.event i3cPage 1 = true ∧ t.dev.quiet = (setI3c s.dev { s.dev.mgt.i3c with assigned := true, dyn := addr }).quiet) ∧
  (∀ s static addr, i3cOn s.dev = true → s.dev.mgt.i3c.assigned = false → static.toNat ≠ 0 → bits s.dev.mgt.i3c.cfg 0 7 = static.toNat →
    Completes (.setdasa static addr) s fun t => s.sameOutside t ∧ t.dev.event i3cPage 1 = true ∧
      t.dev.quiet = (setI3c s.dev { s.dev.mgt.i3c with assigned := true, dyn := addr }).quiet) ∧
  (∀ s, i3cOn s.dev = true → s.dev.mgt.i3c.assigned = true → Completes .rstdaa s fun t => s.sameOutside t ∧ t.dev.event i3cPage 1 = true ∧
    t.dev.quiet = (setI3c s.dev { s.dev.mgt.i3c with assigned := false, dyn := 0 }).quiet) ∧
  (∀ s b, i3cOn s.dev = true → exec (.enec b) s = .next (s.withDev (setI3c s.dev { s.dev.mgt.i3c with events := s.dev.mgt.i3c.events ||| b }))) ∧
  (∀ s b, i3cOn s.dev = true → exec (.disec b) s = .next (s.withDev (setI3c s.dev { s.dev.mgt.i3c with events := s.dev.mgt.i3c.events &&& ~~~ b }))) ∧
  (∀ s, i3cOn s.dev = true → s.dev.mgt.i3c.assigned = true →
    exec .getpid s = .next (s.withDev (emit s.dev (.i3c (beBytes 6 (Config.mipiId.toNat * 2 ^ 33 +
      (if s.dev.gj7716 then 0x7716 else 0x7720) * 2 ^ 16 + bits s.dev.mgt.i3c.cfg 16 4))))) ∧
    exec .getbcr s = .next (s.withDev (emit s.dev (.i3c [0x06]))) ∧ exec .getdcr s = .next (s.withDev (emit s.dev (.i3c [0x00]))) ∧
    Completes .getstatus s fun t => s.sameOutside t ∧ ∃ bs, bs.length = 2 ∧
      t.dev = { s.dev with free := t.dev.free, egress := s.dev.egress ++ [.i3c bs] }) ∧
  (∀ s c, i3cOn s.dev = false ∨ s.dev.mgt.i3c.assigned = false → c ∈ [Instr.getpid, .getbcr, .getdcr] →
    exec c s = .next (s.withDev (emit s.dev .i3cNack))) ∧
  (∀ s k, i3cOn s.dev = true → s.dev.mgt.i3c.assigned = true →
    exec (.i3cPrivateWrite [k]) s = .next (s.withDev (setI3c s.dev { s.dev.mgt.i3c with index := k }))) ∧
  (∀ s (k b : Byte), i3cOn s.dev = true → s.dev.mgt.i3c.assigned = true → 0xC0 ≤ k.toNat →
    Completes (.i3cPrivateWrite [k, b]) s fun t => s.sameOutside t ∧ t.dev.mgt.i3c.index = k + 1 ∧
      tabGet t.dev.mgt.i3c.inbox (k.toNat - 0xC0) 0 = b ∧ (∀ j, j ≠ k.toNat - 0xC0 → tabGet t.dev.mgt.i3c.inbox j 0 = tabGet s.dev.mgt.i3c.inbox j 0) ∧
      t.dev = setI3c s.dev t.dev.mgt.i3c) ∧
  (∀ s, i3cOn s.dev = true → s.dev.mgt.i3c.assigned = true → s.dev.pwr.sysstate = 3 →
    Completes (.i3cPrivateWrite [0x80, 0xA5]) s fun t => s.sameOutside t ∧ t.dev.pwr.sysstate = 4 ∧ t.dev.event i3cPage 2 = true) ∧
  (∀ s n, i3cOn s.dev = true → s.dev.mgt.i3c.assigned = true → Completes (.i3cPrivateRead n) s fun t => s.sameOutside t ∧
    t.dev.mgt.i3c = { s.dev.mgt.i3c with index := s.dev.mgt.i3c.index + BitVec.ofNat 8 n } ∧
    ∃ bs, t.dev = { setI3c s.dev t.dev.mgt.i3c with egress := s.dev.egress ++ [.i3c bs] } ∧ bs.length = n ∧
      ∀ j, j < n → 0x40 ≤ (s.dev.mgt.i3c.index.toNat + j) % 256 → (s.dev.mgt.i3c.index.toNat + j) % 256 < 0x80 →
        bs.getD j 0 = tabGet s.dev.mgt.i3c.post ((s.dev.mgt.i3c.index.toNat + j) % 256 - 0x40) 0)
end

