-- ==== Sys2Proof/Laws/Tables.lean ====
section
/-! SUPPORT. What reading a sparse table gives after it was changed, and the bytes of memory after a write: every memory operation
keeps the canonical form. -/

namespace Sys2Proof.Machine

/-! ### Sparse tables -/

@[simp] theorem tabGet_put_same {α : Type} (t : Tab α) (k : Nat) (v d : α) : tabGet (tabPut t k v) k d = v := by
  induction t with
  | nil => simp [tabPut, tabGet]
  | cons p r ih =>
    obtain ⟨j, w⟩ := p
    simp only [tabPut]
    split
    · simp [tabGet]
    · split
      · simp [tabGet]
      · rename_i h1 h2
        simp [tabGet, ih, Ne.symm h2]

theorem tabGet_put_other {α : Type} (t : Tab α) {k j : Nat} (v d : α) (h : j ≠ k) :
    tabGet (tabPut t k v) j d = tabGet t j d := by
  induction t with
  | nil => simp [tabPut, tabGet, Ne.symm h]
  | cons p r ih =>
    obtain ⟨i, w⟩ := p
    simp only [tabPut]
    split
    · simp [tabGet, Ne.symm h]
    · split
      · rename_i h1 h2
        subst h2
        simp [tabGet, Ne.symm h]
      · simp [tabGet, ih]

/-! ### Memory -/

/-- An address below every listed one. -/
def memAbove (a : Nat) (m : List Host.Cell) : Prop := ∀ c ∈ m, a < c.1

theorem memory_wf_tail {c : Host.Cell} {m : List Host.Cell} (h : Memory.wf (c :: m) = true) : Memory.wf m = true := by
  cases m with
  | nil => rfl
  | cons d r => simp only [Memory.wf, Bool.and_eq_true] at h; exact h.2

theorem memory_wf_above {c : Host.Cell} {m : List Host.Cell} (h : Memory.wf (c :: m) = true) : memAbove c.1 m := by
  induction m generalizing c with
  | nil => intro x hx; cases hx
  | cons d r ih =>
    simp only [Memory.wf, Bool.and_eq_true, decide_eq_true_eq] at h
    intro x hx
    cases hx with
    | head => exact h.1.2
    | tail _ hx => exact Nat.lt_trans h.1.2 (ih h.2 x hx)

theorem memory_wf_head {c : Host.Cell} {m : List Host.Cell} (h : Memory.wf (c :: m) = true) : c.2 ≠ 0 := by
  cases m with
  | nil => simpa [Memory.wf] using h
  | cons d r => simp only [Memory.wf, Bool.and_eq_true, bne_iff_ne] at h; exact h.1.1

theorem memory_wf_cons {c : Host.Cell} {m : List Host.Cell} (hv : c.2 ≠ 0) (ha : memAbove c.1 m)
    (hm : Memory.wf m = true) : Memory.wf (c :: m) = true := by
  cases m with
  | nil => simpa [Memory.wf] using hv
  | cons d r =>
    simp only [Memory.wf, Bool.and_eq_true, decide_eq_true_eq, bne_iff_ne]
    exact ⟨⟨hv, ha d List.mem_cons_self⟩, hm⟩

theorem memPut_above {m : List Host.Cell} {a b : Nat} {v : Byte} (hm : memAbove b m) (h : b < a) :
    memAbove b (memPut m a v) := by
  induction m with
  | nil =>
    simp only [memPut]; split
    · exact hm
    · intro x hx; simp at hx; subst hx; exact h
  | cons c r ih =>
    obtain ⟨j, w⟩ := c
    have hr : memAbove b r := fun x hx => hm x (List.mem_cons_of_mem _ hx)
    have hj : b < j := hm (j, w) List.mem_cons_self
    simp only [memPut]
    repeat' split
    all_goals intro x hx
    · exact hm x hx
    · rcases List.mem_cons.mp hx with rfl | hx
      · exact h
      · exact hm x hx
    · exact hr x hx
    · rcases List.mem_cons.mp hx with rfl | hx
      · exact h
      · exact hr x hx
    · rcases List.mem_cons.mp hx with rfl | hx
      · exact hj
      · exact ih hr x hx

/-- Writing a byte keeps the canonical form. -/
theorem memPut_wf (m : List Host.Cell) (a : Nat) (v : Byte) (h : Memory.wf m = true) : Memory.wf (memPut m a v) = true := by
  induction m with
  | nil =>
    simp only [memPut]; split
    · rfl
    · rename_i hv; simpa [Memory.wf] using hv
  | cons c r ih =>
    obtain ⟨j, w⟩ := c
    have hr := memory_wf_tail h
    have hj := memory_wf_above h
    have hw := memory_wf_head h
    simp only [memPut]
    split
    · rename_i hlt
      split
      · exact h
      · rename_i hv
        refine memory_wf_cons hv ?_ h
        intro x hx
        rcases List.mem_cons.mp hx with rfl | hx
        · exact hlt
        · exact Nat.lt_trans hlt (hj x hx)
    · split
      · rename_i _ he
        split
        · exact hr
        · rename_i hv; subst he; exact memory_wf_cons hv hj hr
      · rename_i h1 h2
        exact memory_wf_cons hw (memPut_above hj (by omega)) (ih hr)

theorem memPutBytes_wf (m : List Host.Cell) (a : Nat) (bs : List Byte) (h : Memory.wf m = true) :
    Memory.wf (memPutBytes m a bs) = true := by
  induction bs generalizing m a with
  | nil => exact h
  | cons b r ih => exact ih _ _ (memPut_wf m a b h)

theorem memWipe_wf (m : List Host.Cell) (a n : Nat) (h : Memory.wf m = true) : Memory.wf (memWipe m a n) = true := by
  induction m with
  | nil => rfl
  | cons c r ih =>
    simp only [memWipe, List.filter_cons]
    split
    · refine memory_wf_cons (memory_wf_head h) ?_ (ih (memory_wf_tail h))
      intro x hx
      exact memory_wf_above h x (List.mem_of_mem_filter hx)
    · exact ih (memory_wf_tail h)

theorem memGet_above {m : List Host.Cell} {a : Nat} (h : memAbove a m) : memGet m a = 0 := by
  induction m with
  | nil => rfl
  | cons c r ih =>
    obtain ⟨j, w⟩ := c
    have hj : a < j := h (j, w) List.mem_cons_self
    have hr : memAbove a r := fun x hx => h x (List.mem_cons_of_mem _ hx)
    simp [memGet, ih hr, (Nat.ne_of_gt hj)]

/-- A byte that was written reads back. -/
theorem memGet_put_same (m : List Host.Cell) (a : Nat) (v : Byte) (h : Memory.wf m = true) :
    memGet (memPut m a v) a = v := by
  induction m with
  | nil => simp only [memPut]; split <;> simp [memGet, *]
  | cons c r ih =>
    obtain ⟨j, w⟩ := c
    have hj := memory_wf_above h
    simp only [memPut]
    split
    · rename_i hlt
      split
      · rename_i hv
        have : memAbove a ((j, w) :: r) := by
          intro x hx
          rcases List.mem_cons.mp hx with rfl | hx
          · exact hlt
          · exact Nat.lt_trans hlt (hj x hx)
        rw [hv, memGet_above this]
      · simp [memGet]
    · split
      · rename_i _ he
        subst he
        split
        · rename_i hv; rw [hv, memGet_above hj]
        · simp [memGet]
      · rename_i h1 h2
        simp [memGet, Ne.symm h2, ih (memory_wf_tail h)]

/-- Every other byte is as it was. -/
theorem memGet_put_other (m : List Host.Cell) {a b : Nat} (v : Byte) (hab : b ≠ a) :
    memGet (memPut m a v) b = memGet m b := by
  induction m with
  | nil => simp only [memPut]; split <;> simp [memGet, Ne.symm hab]
  | cons c r ih =>
    obtain ⟨j, w⟩ := c
    simp only [memPut]
    have ha : ¬ a = b := Ne.symm hab
    split
    · split <;> simp [memGet, ha]
    · split
      · rename_i _ he
        subst he
        split <;> simp [memGet, ha]
      · simp [memGet, ih]

theorem memGet_putBytes_other (m : List Host.Cell) (a b : Nat) (bs : List Byte) (h : b < a ∨ a + bs.length ≤ b) :
    memGet (memPutBytes m a bs) b = memGet m b := by
  induction bs generalizing m a with
  | nil => rfl
  | cons x r ih =>
    simp only [List.length_cons] at h
    rw [memPutBytes, ih _ _ (by omega), memGet_put_other m x (by omega)]

/-- Each byte of a write reads back. -/
theorem memGet_putBytes_same (m : List Host.Cell) (a i : Nat) (bs : List Byte) (h : Memory.wf m = true) (hi : i < bs.length) :
    memGet (memPutBytes m a bs) (a + i) = bs[i] := by
  induction bs generalizing m a i with
  | nil => simp at hi
  | cons x r ih =>
    cases i with
    | zero => simp [memPutBytes, memGet_putBytes_other, memGet_put_same m a x h]
    | succ i =>
      have := ih (memPut m a x) (a + 1) i (memPut_wf m a x h) (by simpa using hi)
      simpa [memPutBytes, Nat.add_assoc, Nat.add_comm 1 i] using this

theorem memGet_filter (m : List Host.Cell) (p : Nat → Bool) (b : Nat) (h : p b = true) :
    memGet (m.filter fun c => p c.1) b = memGet m b := by
  induction m with
  | nil => rfl
  | cons c r ih =>
    obtain ⟨j, w⟩ := c
    simp only [List.filter_cons]
    split
    · simp [memGet, ih]
    · rename_i hp
      have : j ≠ b := by rintro rfl; exact hp h
      simp [memGet, ih, this]

theorem memGet_filter_out (m : List Host.Cell) (p : Nat → Bool) (b : Nat) (h : p b = false) :
    memGet (m.filter fun c => p c.1) b = 0 := by
  induction m with
  | nil => rfl
  | cons c r ih =>
    obtain ⟨j, w⟩ := c
    simp only [List.filter_cons]
    split
    · rename_i hp
      have : j ≠ b := by rintro rfl; simp [h] at hp
      simp [memGet, ih, this]
    · exact ih

/-- A wipe leaves zeros, and every byte outside it as it was. -/
theorem memGet_wipe (m : List Host.Cell) (a n b : Nat) :
    memGet (memWipe m a n) b = if a ≤ b ∧ b < a + n then 0 else memGet m b := by
  have key : memWipe m a n = m.filter fun c => (fun k => decide (k < a) || decide (a + n ≤ k)) c.1 := rfl
  rw [key]
  split
  · exact memGet_filter_out m (fun k => decide (k < a) || decide (a + n ≤ k)) b (by simp; omega)
  · exact memGet_filter m (fun k => decide (k < a) || decide (a + n ≤ k)) b (by simp; omega)

end Sys2Proof.Machine
end

