-- ==== Sys2Proof/Laws/State.lean ====
section
/-! SUPPORT. What each update of the state leaves as it was, field by field, and what a table of the device gives after an update. -/

namespace Sys2Proof.Machine

variable (d : Dev) (s : State)

/-! ### The state -/

@[simp] theorem withDev_pending (e : Dev) : (s.withDev e).pending = s.pending := rfl
@[simp] theorem withDev_mem (e : Dev) : (s.withDev e).mem = s.mem := rfl
@[simp] theorem withDev_fuse (e : Dev) : (s.withDev e).fuse = s.fuse := rfl
@[simp] theorem withDev_dev (e : Dev) : (s.withDev e).dev = e := rfl

/-! ### setUnit -/

@[simp] theorem setUnit_gj7716 (u : Nat) (x : UnitSt) : (setUnit d u x).gj7716 = d.gj7716 := rfl
@[simp] theorem setUnit_grade (u : Nat) (x : UnitSt) : (setUnit d u x).grade = d.grade := rfl
@[simp] theorem setUnit_tick (u : Nat) (x : UnitSt) : (setUnit d u x).tick = d.tick := rfl
@[simp] theorem setUnit_cyc (u : Nat) (x : UnitSt) : (setUnit d u x).cyc = d.cyc := rfl
@[simp] theorem setUnit_cutDone (u : Nat) (x : UnitSt) : (setUnit d u x).cutDone = d.cutDone := rfl
@[simp] theorem setUnit_records (u : Nat) (x : UnitSt) : (setUnit d u x).records = d.records := rfl
@[simp] theorem setUnit_ties (u : Nat) (x : UnitSt) : (setUnit d u x).ties = d.ties := rfl
@[simp] theorem setUnit_wings (u : Nat) (x : UnitSt) : (setUnit d u x).wings = d.wings := rfl
@[simp] theorem setUnit_fns (u : Nat) (x : UnitSt) : (setUnit d u x).fns = d.fns := rfl
@[simp] theorem setUnit_queues (u : Nat) (x : UnitSt) : (setUnit d u x).queues = d.queues := rfl
@[simp] theorem setUnit_msix (u : Nat) (x : UnitSt) : (setUnit d u x).msix = d.msix := rfl
@[simp] theorem setUnit_ports (u : Nat) (x : UnitSt) : (setUnit d u x).ports = d.ports := rfl
@[simp] theorem setUnit_jobs (u : Nat) (x : UnitSt) : (setUnit d u x).jobs = d.jobs := rfl
@[simp] theorem setUnit_nextJob (u : Nat) (x : UnitSt) : (setUnit d u x).nextJob = d.nextJob := rfl
@[simp] theorem setUnit_keys (u : Nat) (x : UnitSt) : (setUnit d u x).keys = d.keys := rfl
@[simp] theorem setUnit_rng (u : Nat) (x : UnitSt) : (setUnit d u x).rng = d.rng := rfl
@[simp] theorem setUnit_acl (u : Nat) (x : UnitSt) : (setUnit d u x).acl = d.acl := rfl
@[simp] theorem setUnit_pot (u : Nat) (x : UnitSt) : (setUnit d u x).pot = d.pot := rfl
@[simp] theorem setUnit_crd (u : Nat) (x : UnitSt) : (setUnit d u x).crd = d.crd := rfl
@[simp] theorem setUnit_lcs (u : Nat) (x : UnitSt) : (setUnit d u x).lcs = d.lcs := rfl
@[simp] theorem setUnit_tmp (u : Nat) (x : UnitSt) : (setUnit d u x).tmp = d.tmp := rfl
@[simp] theorem setUnit_bat (u : Nat) (x : UnitSt) : (setUnit d u x).bat = d.bat := rfl
@[simp] theorem setUnit_guards (u : Nat) (x : UnitSt) : (setUnit d u x).guards = d.guards := rfl
@[simp] theorem setUnit_pwr (u : Nat) (x : UnitSt) : (setUnit d u x).pwr = d.pwr := rfl
@[simp] theorem setUnit_svc (u : Nat) (x : UnitSt) : (setUnit d u x).svc = d.svc := rfl
@[simp] theorem setUnit_twn (u : Nat) (x : UnitSt) : (setUnit d u x).twn = d.twn := rfl
@[simp] theorem setUnit_evr (u : Nat) (x : UnitSt) : (setUnit d u x).evr = d.evr := rfl
@[simp] theorem setUnit_mons (u : Nat) (x : UnitSt) : (setUnit d u x).mons = d.mons := rfl
@[simp] theorem setUnit_mgt (u : Nat) (x : UnitSt) : (setUnit d u x).mgt = d.mgt := rfl
@[simp] theorem setUnit_pages (u : Nat) (x : UnitSt) : (setUnit d u x).pages = d.pages := rfl
@[simp] theorem setUnit_nv (u : Nat) (x : UnitSt) : (setUnit d u x).nv = d.nv := rfl
@[simp] theorem setUnit_egress (u : Nat) (x : UnitSt) : (setUnit d u x).egress = d.egress := rfl
@[simp] theorem setUnit_free (u : Nat) (x : UnitSt) : (setUnit d u x).free = d.free := rfl

/-! ### setFn -/

@[simp] theorem setFn_gj7716 (f : Nat) (x : FnSt) : (setFn d f x).gj7716 = d.gj7716 := rfl
@[simp] theorem setFn_grade (f : Nat) (x : FnSt) : (setFn d f x).grade = d.grade := rfl
@[simp] theorem setFn_tick (f : Nat) (x : FnSt) : (setFn d f x).tick = d.tick := rfl
@[simp] theorem setFn_cyc (f : Nat) (x : FnSt) : (setFn d f x).cyc = d.cyc := rfl
@[simp] theorem setFn_cutDone (f : Nat) (x : FnSt) : (setFn d f x).cutDone = d.cutDone := rfl
@[simp] theorem setFn_records (f : Nat) (x : FnSt) : (setFn d f x).records = d.records := rfl
@[simp] theorem setFn_ties (f : Nat) (x : FnSt) : (setFn d f x).ties = d.ties := rfl
@[simp] theorem setFn_units (f : Nat) (x : FnSt) : (setFn d f x).units = d.units := rfl
@[simp] theorem setFn_wings (f : Nat) (x : FnSt) : (setFn d f x).wings = d.wings := rfl
@[simp] theorem setFn_queues (f : Nat) (x : FnSt) : (setFn d f x).queues = d.queues := rfl
@[simp] theorem setFn_msix (f : Nat) (x : FnSt) : (setFn d f x).msix = d.msix := rfl
@[simp] theorem setFn_ports (f : Nat) (x : FnSt) : (setFn d f x).ports = d.ports := rfl
@[simp] theorem setFn_jobs (f : Nat) (x : FnSt) : (setFn d f x).jobs = d.jobs := rfl
@[simp] theorem setFn_nextJob (f : Nat) (x : FnSt) : (setFn d f x).nextJob = d.nextJob := rfl
@[simp] theorem setFn_keys (f : Nat) (x : FnSt) : (setFn d f x).keys = d.keys := rfl
@[simp] theorem setFn_rng (f : Nat) (x : FnSt) : (setFn d f x).rng = d.rng := rfl
@[simp] theorem setFn_acl (f : Nat) (x : FnSt) : (setFn d f x).acl = d.acl := rfl
@[simp] theorem setFn_pot (f : Nat) (x : FnSt) : (setFn d f x).pot = d.pot := rfl
@[simp] theorem setFn_crd (f : Nat) (x : FnSt) : (setFn d f x).crd = d.crd := rfl
@[simp] theorem setFn_lcs (f : Nat) (x : FnSt) : (setFn d f x).lcs = d.lcs := rfl
@[simp] theorem setFn_tmp (f : Nat) (x : FnSt) : (setFn d f x).tmp = d.tmp := rfl
@[simp] theorem setFn_bat (f : Nat) (x : FnSt) : (setFn d f x).bat = d.bat := rfl
@[simp] theorem setFn_guards (f : Nat) (x : FnSt) : (setFn d f x).guards = d.guards := rfl
@[simp] theorem setFn_pwr (f : Nat) (x : FnSt) : (setFn d f x).pwr = d.pwr := rfl
@[simp] theorem setFn_svc (f : Nat) (x : FnSt) : (setFn d f x).svc = d.svc := rfl
@[simp] theorem setFn_twn (f : Nat) (x : FnSt) : (setFn d f x).twn = d.twn := rfl
@[simp] theorem setFn_evr (f : Nat) (x : FnSt) : (setFn d f x).evr = d.evr := rfl
@[simp] theorem setFn_mons (f : Nat) (x : FnSt) : (setFn d f x).mons = d.mons := rfl
@[simp] theorem setFn_mgt (f : Nat) (x : FnSt) : (setFn d f x).mgt = d.mgt := rfl
@[simp] theorem setFn_pages (f : Nat) (x : FnSt) : (setFn d f x).pages = d.pages := rfl
@[simp] theorem setFn_nv (f : Nat) (x : FnSt) : (setFn d f x).nv = d.nv := rfl
@[simp] theorem setFn_egress (f : Nat) (x : FnSt) : (setFn d f x).egress = d.egress := rfl
@[simp] theorem setFn_free (f : Nat) (x : FnSt) : (setFn d f x).free = d.free := rfl

/-! ### setQ -/

@[simp] theorem setQ_gj7716 (f q : Nat) (x : QueueSt) : (setQ d f q x).gj7716 = d.gj7716 := rfl
@[simp] theorem setQ_grade (f q : Nat) (x : QueueSt) : (setQ d f q x).grade = d.grade := rfl
@[simp] theorem setQ_tick (f q : Nat) (x : QueueSt) : (setQ d f q x).tick = d.tick := rfl
@[simp] theorem setQ_cyc (f q : Nat) (x : QueueSt) : (setQ d f q x).cyc = d.cyc := rfl
@[simp] theorem setQ_cutDone (f q : Nat) (x : QueueSt) : (setQ d f q x).cutDone = d.cutDone := rfl
@[simp] theorem setQ_records (f q : Nat) (x : QueueSt) : (setQ d f q x).records = d.records := rfl
@[simp] theorem setQ_ties (f q : Nat) (x : QueueSt) : (setQ d f q x).ties = d.ties := rfl
@[simp] theorem setQ_units (f q : Nat) (x : QueueSt) : (setQ d f q x).units = d.units := rfl
@[simp] theorem setQ_wings (f q : Nat) (x : QueueSt) : (setQ d f q x).wings = d.wings := rfl
@[simp] theorem setQ_fns (f q : Nat) (x : QueueSt) : (setQ d f q x).fns = d.fns := rfl
@[simp] theorem setQ_msix (f q : Nat) (x : QueueSt) : (setQ d f q x).msix = d.msix := rfl
@[simp] theorem setQ_ports (f q : Nat) (x : QueueSt) : (setQ d f q x).ports = d.ports := rfl
@[simp] theorem setQ_jobs (f q : Nat) (x : QueueSt) : (setQ d f q x).jobs = d.jobs := rfl
@[simp] theorem setQ_nextJob (f q : Nat) (x : QueueSt) : (setQ d f q x).nextJob = d.nextJob := rfl
@[simp] theorem setQ_keys (f q : Nat) (x : QueueSt) : (setQ d f q x).keys = d.keys := rfl
@[simp] theorem setQ_rng (f q : Nat) (x : QueueSt) : (setQ d f q x).rng = d.rng := rfl
@[simp] theorem setQ_acl (f q : Nat) (x : QueueSt) : (setQ d f q x).acl = d.acl := rfl
@[simp] theorem setQ_pot (f q : Nat) (x : QueueSt) : (setQ d f q x).pot = d.pot := rfl
@[simp] theorem setQ_crd (f q : Nat) (x : QueueSt) : (setQ d f q x).crd = d.crd := rfl
@[simp] theorem setQ_lcs (f q : Nat) (x : QueueSt) : (setQ d f q x).lcs = d.lcs := rfl
@[simp] theorem setQ_tmp (f q : Nat) (x : QueueSt) : (setQ d f q x).tmp = d.tmp := rfl
@[simp] theorem setQ_bat (f q : Nat) (x : QueueSt) : (setQ d f q x).bat = d.bat := rfl
@[simp] theorem setQ_guards (f q : Nat) (x : QueueSt) : (setQ d f q x).guards = d.guards := rfl
@[simp] theorem setQ_pwr (f q : Nat) (x : QueueSt) : (setQ d f q x).pwr = d.pwr := rfl
@[simp] theorem setQ_svc (f q : Nat) (x : QueueSt) : (setQ d f q x).svc = d.svc := rfl
@[simp] theorem setQ_twn (f q : Nat) (x : QueueSt) : (setQ d f q x).twn = d.twn := rfl
@[simp] theorem setQ_evr (f q : Nat) (x : QueueSt) : (setQ d f q x).evr = d.evr := rfl
@[simp] theorem setQ_mons (f q : Nat) (x : QueueSt) : (setQ d f q x).mons = d.mons := rfl
@[simp] theorem setQ_mgt (f q : Nat) (x : QueueSt) : (setQ d f q x).mgt = d.mgt := rfl
@[simp] theorem setQ_pages (f q : Nat) (x : QueueSt) : (setQ d f q x).pages = d.pages := rfl
@[simp] theorem setQ_nv (f q : Nat) (x : QueueSt) : (setQ d f q x).nv = d.nv := rfl
@[simp] theorem setQ_egress (f q : Nat) (x : QueueSt) : (setQ d f q x).egress = d.egress := rfl
@[simp] theorem setQ_free (f q : Nat) (x : QueueSt) : (setQ d f q x).free = d.free := rfl

/-! ### setVec -/

@[simp] theorem setVec_gj7716 (f v : Nat) (x : MsixSt) : (setVec d f v x).gj7716 = d.gj7716 := rfl
@[simp] theorem setVec_grade (f v : Nat) (x : MsixSt) : (setVec d f v x).grade = d.grade := rfl
@[simp] theorem setVec_tick (f v : Nat) (x : MsixSt) : (setVec d f v x).tick = d.tick := rfl
@[simp] theorem setVec_cyc (f v : Nat) (x : MsixSt) : (setVec d f v x).cyc = d.cyc := rfl
@[simp] theorem setVec_cutDone (f v : Nat) (x : MsixSt) : (setVec d f v x).cutDone = d.cutDone := rfl
@[simp] theorem setVec_records (f v : Nat) (x : MsixSt) : (setVec d f v x).records = d.records := rfl
@[simp] theorem setVec_ties (f v : Nat) (x : MsixSt) : (setVec d f v x).ties = d.ties := rfl
@[simp] theorem setVec_units (f v : Nat) (x : MsixSt) : (setVec d f v x).units = d.units := rfl
@[simp] theorem setVec_wings (f v : Nat) (x : MsixSt) : (setVec d f v x).wings = d.wings := rfl
@[simp] theorem setVec_fns (f v : Nat) (x : MsixSt) : (setVec d f v x).fns = d.fns := rfl
@[simp] theorem setVec_queues (f v : Nat) (x : MsixSt) : (setVec d f v x).queues = d.queues := rfl
@[simp] theorem setVec_ports (f v : Nat) (x : MsixSt) : (setVec d f v x).ports = d.ports := rfl
@[simp] theorem setVec_jobs (f v : Nat) (x : MsixSt) : (setVec d f v x).jobs = d.jobs := rfl
@[simp] theorem setVec_nextJob (f v : Nat) (x : MsixSt) : (setVec d f v x).nextJob = d.nextJob := rfl
@[simp] theorem setVec_keys (f v : Nat) (x : MsixSt) : (setVec d f v x).keys = d.keys := rfl
@[simp] theorem setVec_rng (f v : Nat) (x : MsixSt) : (setVec d f v x).rng = d.rng := rfl
@[simp] theorem setVec_acl (f v : Nat) (x : MsixSt) : (setVec d f v x).acl = d.acl := rfl
@[simp] theorem setVec_pot (f v : Nat) (x : MsixSt) : (setVec d f v x).pot = d.pot := rfl
@[simp] theorem setVec_crd (f v : Nat) (x : MsixSt) : (setVec d f v x).crd = d.crd := rfl
@[simp] theorem setVec_lcs (f v : Nat) (x : MsixSt) : (setVec d f v x).lcs = d.lcs := rfl
@[simp] theorem setVec_tmp (f v : Nat) (x : MsixSt) : (setVec d f v x).tmp = d.tmp := rfl
@[simp] theorem setVec_bat (f v : Nat) (x : MsixSt) : (setVec d f v x).bat = d.bat := rfl
@[simp] theorem setVec_guards (f v : Nat) (x : MsixSt) : (setVec d f v x).guards = d.guards := rfl
@[simp] theorem setVec_pwr (f v : Nat) (x : MsixSt) : (setVec d f v x).pwr = d.pwr := rfl
@[simp] theorem setVec_svc (f v : Nat) (x : MsixSt) : (setVec d f v x).svc = d.svc := rfl
@[simp] theorem setVec_twn (f v : Nat) (x : MsixSt) : (setVec d f v x).twn = d.twn := rfl
@[simp] theorem setVec_evr (f v : Nat) (x : MsixSt) : (setVec d f v x).evr = d.evr := rfl
@[simp] theorem setVec_mons (f v : Nat) (x : MsixSt) : (setVec d f v x).mons = d.mons := rfl
@[simp] theorem setVec_mgt (f v : Nat) (x : MsixSt) : (setVec d f v x).mgt = d.mgt := rfl
@[simp] theorem setVec_pages (f v : Nat) (x : MsixSt) : (setVec d f v x).pages = d.pages := rfl
@[simp] theorem setVec_nv (f v : Nat) (x : MsixSt) : (setVec d f v x).nv = d.nv := rfl
@[simp] theorem setVec_egress (f v : Nat) (x : MsixSt) : (setVec d f v x).egress = d.egress := rfl
@[simp] theorem setVec_free (f v : Nat) (x : MsixSt) : (setVec d f v x).free = d.free := rfl

/-! ### setPort -/

@[simp] theorem setPort_gj7716 (p : Bool) (x : PortSt) : (setPort d p x).gj7716 = d.gj7716 := rfl
@[simp] theorem setPort_grade (p : Bool) (x : PortSt) : (setPort d p x).grade = d.grade := rfl
@[simp] theorem setPort_tick (p : Bool) (x : PortSt) : (setPort d p x).tick = d.tick := rfl
@[simp] theorem setPort_cyc (p : Bool) (x : PortSt) : (setPort d p x).cyc = d.cyc := rfl
@[simp] theorem setPort_cutDone (p : Bool) (x : PortSt) : (setPort d p x).cutDone = d.cutDone := rfl
@[simp] theorem setPort_records (p : Bool) (x : PortSt) : (setPort d p x).records = d.records := rfl
@[simp] theorem setPort_ties (p : Bool) (x : PortSt) : (setPort d p x).ties = d.ties := rfl
@[simp] theorem setPort_units (p : Bool) (x : PortSt) : (setPort d p x).units = d.units := rfl
@[simp] theorem setPort_wings (p : Bool) (x : PortSt) : (setPort d p x).wings = d.wings := rfl
@[simp] theorem setPort_fns (p : Bool) (x : PortSt) : (setPort d p x).fns = d.fns := rfl
@[simp] theorem setPort_queues (p : Bool) (x : PortSt) : (setPort d p x).queues = d.queues := rfl
@[simp] theorem setPort_msix (p : Bool) (x : PortSt) : (setPort d p x).msix = d.msix := rfl
@[simp] theorem setPort_jobs (p : Bool) (x : PortSt) : (setPort d p x).jobs = d.jobs := rfl
@[simp] theorem setPort_nextJob (p : Bool) (x : PortSt) : (setPort d p x).nextJob = d.nextJob := rfl
@[simp] theorem setPort_keys (p : Bool) (x : PortSt) : (setPort d p x).keys = d.keys := rfl
@[simp] theorem setPort_rng (p : Bool) (x : PortSt) : (setPort d p x).rng = d.rng := rfl
@[simp] theorem setPort_acl (p : Bool) (x : PortSt) : (setPort d p x).acl = d.acl := rfl
@[simp] theorem setPort_pot (p : Bool) (x : PortSt) : (setPort d p x).pot = d.pot := rfl
@[simp] theorem setPort_crd (p : Bool) (x : PortSt) : (setPort d p x).crd = d.crd := rfl
@[simp] theorem setPort_lcs (p : Bool) (x : PortSt) : (setPort d p x).lcs = d.lcs := rfl
@[simp] theorem setPort_tmp (p : Bool) (x : PortSt) : (setPort d p x).tmp = d.tmp := rfl
@[simp] theorem setPort_bat (p : Bool) (x : PortSt) : (setPort d p x).bat = d.bat := rfl
@[simp] theorem setPort_guards (p : Bool) (x : PortSt) : (setPort d p x).guards = d.guards := rfl
@[simp] theorem setPort_pwr (p : Bool) (x : PortSt) : (setPort d p x).pwr = d.pwr := rfl
@[simp] theorem setPort_svc (p : Bool) (x : PortSt) : (setPort d p x).svc = d.svc := rfl
@[simp] theorem setPort_twn (p : Bool) (x : PortSt) : (setPort d p x).twn = d.twn := rfl
@[simp] theorem setPort_evr (p : Bool) (x : PortSt) : (setPort d p x).evr = d.evr := rfl
@[simp] theorem setPort_mons (p : Bool) (x : PortSt) : (setPort d p x).mons = d.mons := rfl
@[simp] theorem setPort_mgt (p : Bool) (x : PortSt) : (setPort d p x).mgt = d.mgt := rfl
@[simp] theorem setPort_pages (p : Bool) (x : PortSt) : (setPort d p x).pages = d.pages := rfl
@[simp] theorem setPort_nv (p : Bool) (x : PortSt) : (setPort d p x).nv = d.nv := rfl
@[simp] theorem setPort_egress (p : Bool) (x : PortSt) : (setPort d p x).egress = d.egress := rfl
@[simp] theorem setPort_free (p : Bool) (x : PortSt) : (setPort d p x).free = d.free := rfl

/-! ### setDom -/

@[simp] theorem setDom_gj7716 (n : Nat) (x : Domain) : (setDom d n x).gj7716 = d.gj7716 := rfl
@[simp] theorem setDom_grade (n : Nat) (x : Domain) : (setDom d n x).grade = d.grade := rfl
@[simp] theorem setDom_tick (n : Nat) (x : Domain) : (setDom d n x).tick = d.tick := rfl
@[simp] theorem setDom_cyc (n : Nat) (x : Domain) : (setDom d n x).cyc = d.cyc := rfl
@[simp] theorem setDom_cutDone (n : Nat) (x : Domain) : (setDom d n x).cutDone = d.cutDone := rfl
@[simp] theorem setDom_records (n : Nat) (x : Domain) : (setDom d n x).records = d.records := rfl
@[simp] theorem setDom_ties (n : Nat) (x : Domain) : (setDom d n x).ties = d.ties := rfl
@[simp] theorem setDom_units (n : Nat) (x : Domain) : (setDom d n x).units = d.units := rfl
@[simp] theorem setDom_wings (n : Nat) (x : Domain) : (setDom d n x).wings = d.wings := rfl
@[simp] theorem setDom_fns (n : Nat) (x : Domain) : (setDom d n x).fns = d.fns := rfl
@[simp] theorem setDom_queues (n : Nat) (x : Domain) : (setDom d n x).queues = d.queues := rfl
@[simp] theorem setDom_msix (n : Nat) (x : Domain) : (setDom d n x).msix = d.msix := rfl
@[simp] theorem setDom_ports (n : Nat) (x : Domain) : (setDom d n x).ports = d.ports := rfl
@[simp] theorem setDom_jobs (n : Nat) (x : Domain) : (setDom d n x).jobs = d.jobs := rfl
@[simp] theorem setDom_nextJob (n : Nat) (x : Domain) : (setDom d n x).nextJob = d.nextJob := rfl
@[simp] theorem setDom_keys (n : Nat) (x : Domain) : (setDom d n x).keys = d.keys := rfl
@[simp] theorem setDom_rng (n : Nat) (x : Domain) : (setDom d n x).rng = d.rng := rfl
@[simp] theorem setDom_acl (n : Nat) (x : Domain) : (setDom d n x).acl = d.acl := rfl
@[simp] theorem setDom_pot (n : Nat) (x : Domain) : (setDom d n x).pot = d.pot := rfl
@[simp] theorem setDom_crd (n : Nat) (x : Domain) : (setDom d n x).crd = d.crd := rfl
@[simp] theorem setDom_lcs (n : Nat) (x : Domain) : (setDom d n x).lcs = d.lcs := rfl
@[simp] theorem setDom_tmp (n : Nat) (x : Domain) : (setDom d n x).tmp = d.tmp := rfl
@[simp] theorem setDom_bat (n : Nat) (x : Domain) : (setDom d n x).bat = d.bat := rfl
@[simp] theorem setDom_guards (n : Nat) (x : Domain) : (setDom d n x).guards = d.guards := rfl
@[simp] theorem setDom_svc (n : Nat) (x : Domain) : (setDom d n x).svc = d.svc := rfl
@[simp] theorem setDom_twn (n : Nat) (x : Domain) : (setDom d n x).twn = d.twn := rfl
@[simp] theorem setDom_evr (n : Nat) (x : Domain) : (setDom d n x).evr = d.evr := rfl
@[simp] theorem setDom_mons (n : Nat) (x : Domain) : (setDom d n x).mons = d.mons := rfl
@[simp] theorem setDom_mgt (n : Nat) (x : Domain) : (setDom d n x).mgt = d.mgt := rfl
@[simp] theorem setDom_pages (n : Nat) (x : Domain) : (setDom d n x).pages = d.pages := rfl
@[simp] theorem setDom_nv (n : Nat) (x : Domain) : (setDom d n x).nv = d.nv := rfl
@[simp] theorem setDom_egress (n : Nat) (x : Domain) : (setDom d n x).egress = d.egress := rfl
@[simp] theorem setDom_free (n : Nat) (x : Domain) : (setDom d n x).free = d.free := rfl

/-! ### setMon -/

@[simp] theorem setMon_gj7716 (m : Nat) (x : MonSt) : (setMon d m x).gj7716 = d.gj7716 := rfl
@[simp] theorem setMon_grade (m : Nat) (x : MonSt) : (setMon d m x).grade = d.grade := rfl
@[simp] theorem setMon_tick (m : Nat) (x : MonSt) : (setMon d m x).tick = d.tick := rfl
@[simp] theorem setMon_cyc (m : Nat) (x : MonSt) : (setMon d m x).cyc = d.cyc := rfl
@[simp] theorem setMon_cutDone (m : Nat) (x : MonSt) : (setMon d m x).cutDone = d.cutDone := rfl
@[simp] theorem setMon_records (m : Nat) (x : MonSt) : (setMon d m x).records = d.records := rfl
@[simp] theorem setMon_ties (m : Nat) (x : MonSt) : (setMon d m x).ties = d.ties := rfl
@[simp] theorem setMon_units (m : Nat) (x : MonSt) : (setMon d m x).units = d.units := rfl
@[simp] theorem setMon_wings (m : Nat) (x : MonSt) : (setMon d m x).wings = d.wings := rfl
@[simp] theorem setMon_fns (m : Nat) (x : MonSt) : (setMon d m x).fns = d.fns := rfl
@[simp] theorem setMon_queues (m : Nat) (x : MonSt) : (setMon d m x).queues = d.queues := rfl
@[simp] theorem setMon_msix (m : Nat) (x : MonSt) : (setMon d m x).msix = d.msix := rfl
@[simp] theorem setMon_ports (m : Nat) (x : MonSt) : (setMon d m x).ports = d.ports := rfl
@[simp] theorem setMon_jobs (m : Nat) (x : MonSt) : (setMon d m x).jobs = d.jobs := rfl
@[simp] theorem setMon_nextJob (m : Nat) (x : MonSt) : (setMon d m x).nextJob = d.nextJob := rfl
@[simp] theorem setMon_keys (m : Nat) (x : MonSt) : (setMon d m x).keys = d.keys := rfl
@[simp] theorem setMon_rng (m : Nat) (x : MonSt) : (setMon d m x).rng = d.rng := rfl
@[simp] theorem setMon_acl (m : Nat) (x : MonSt) : (setMon d m x).acl = d.acl := rfl
@[simp] theorem setMon_pot (m : Nat) (x : MonSt) : (setMon d m x).pot = d.pot := rfl
@[simp] theorem setMon_crd (m : Nat) (x : MonSt) : (setMon d m x).crd = d.crd := rfl
@[simp] theorem setMon_lcs (m : Nat) (x : MonSt) : (setMon d m x).lcs = d.lcs := rfl
@[simp] theorem setMon_tmp (m : Nat) (x : MonSt) : (setMon d m x).tmp = d.tmp := rfl
@[simp] theorem setMon_bat (m : Nat) (x : MonSt) : (setMon d m x).bat = d.bat := rfl
@[simp] theorem setMon_guards (m : Nat) (x : MonSt) : (setMon d m x).guards = d.guards := rfl
@[simp] theorem setMon_pwr (m : Nat) (x : MonSt) : (setMon d m x).pwr = d.pwr := rfl
@[simp] theorem setMon_svc (m : Nat) (x : MonSt) : (setMon d m x).svc = d.svc := rfl
@[simp] theorem setMon_twn (m : Nat) (x : MonSt) : (setMon d m x).twn = d.twn := rfl
@[simp] theorem setMon_evr (m : Nat) (x : MonSt) : (setMon d m x).evr = d.evr := rfl
@[simp] theorem setMon_mgt (m : Nat) (x : MonSt) : (setMon d m x).mgt = d.mgt := rfl
@[simp] theorem setMon_pages (m : Nat) (x : MonSt) : (setMon d m x).pages = d.pages := rfl
@[simp] theorem setMon_nv (m : Nat) (x : MonSt) : (setMon d m x).nv = d.nv := rfl
@[simp] theorem setMon_egress (m : Nat) (x : MonSt) : (setMon d m x).egress = d.egress := rfl
@[simp] theorem setMon_free (m : Nat) (x : MonSt) : (setMon d m x).free = d.free := rfl

/-! ### setSource -/

@[simp] theorem setSource_gj7716 (i : Nat) (x : SourceSt) : (setSource d i x).gj7716 = d.gj7716 := rfl
@[simp] theorem setSource_grade (i : Nat) (x : SourceSt) : (setSource d i x).grade = d.grade := rfl
@[simp] theorem setSource_tick (i : Nat) (x : SourceSt) : (setSource d i x).tick = d.tick := rfl
@[simp] theorem setSource_cyc (i : Nat) (x : SourceSt) : (setSource d i x).cyc = d.cyc := rfl
@[simp] theorem setSource_cutDone (i : Nat) (x : SourceSt) : (setSource d i x).cutDone = d.cutDone := rfl
@[simp] theorem setSource_records (i : Nat) (x : SourceSt) : (setSource d i x).records = d.records := rfl
@[simp] theorem setSource_ties (i : Nat) (x : SourceSt) : (setSource d i x).ties = d.ties := rfl
@[simp] theorem setSource_units (i : Nat) (x : SourceSt) : (setSource d i x).units = d.units := rfl
@[simp] theorem setSource_wings (i : Nat) (x : SourceSt) : (setSource d i x).wings = d.wings := rfl
@[simp] theorem setSource_fns (i : Nat) (x : SourceSt) : (setSource d i x).fns = d.fns := rfl
@[simp] theorem setSource_queues (i : Nat) (x : SourceSt) : (setSource d i x).queues = d.queues := rfl
@[simp] theorem setSource_msix (i : Nat) (x : SourceSt) : (setSource d i x).msix = d.msix := rfl
@[simp] theorem setSource_ports (i : Nat) (x : SourceSt) : (setSource d i x).ports = d.ports := rfl
@[simp] theorem setSource_jobs (i : Nat) (x : SourceSt) : (setSource d i x).jobs = d.jobs := rfl
@[simp] theorem setSource_nextJob (i : Nat) (x : SourceSt) : (setSource d i x).nextJob = d.nextJob := rfl
@[simp] theorem setSource_keys (i : Nat) (x : SourceSt) : (setSource d i x).keys = d.keys := rfl
@[simp] theorem setSource_acl (i : Nat) (x : SourceSt) : (setSource d i x).acl = d.acl := rfl
@[simp] theorem setSource_pot (i : Nat) (x : SourceSt) : (setSource d i x).pot = d.pot := rfl
@[simp] theorem setSource_crd (i : Nat) (x : SourceSt) : (setSource d i x).crd = d.crd := rfl
@[simp] theorem setSource_lcs (i : Nat) (x : SourceSt) : (setSource d i x).lcs = d.lcs := rfl
@[simp] theorem setSource_tmp (i : Nat) (x : SourceSt) : (setSource d i x).tmp = d.tmp := rfl
@[simp] theorem setSource_bat (i : Nat) (x : SourceSt) : (setSource d i x).bat = d.bat := rfl
@[simp] theorem setSource_guards (i : Nat) (x : SourceSt) : (setSource d i x).guards = d.guards := rfl
@[simp] theorem setSource_pwr (i : Nat) (x : SourceSt) : (setSource d i x).pwr = d.pwr := rfl
@[simp] theorem setSource_svc (i : Nat) (x : SourceSt) : (setSource d i x).svc = d.svc := rfl
@[simp] theorem setSource_twn (i : Nat) (x : SourceSt) : (setSource d i x).twn = d.twn := rfl
@[simp] theorem setSource_evr (i : Nat) (x : SourceSt) : (setSource d i x).evr = d.evr := rfl
@[simp] theorem setSource_mons (i : Nat) (x : SourceSt) : (setSource d i x).mons = d.mons := rfl
@[simp] theorem setSource_mgt (i : Nat) (x : SourceSt) : (setSource d i x).mgt = d.mgt := rfl
@[simp] theorem setSource_pages (i : Nat) (x : SourceSt) : (setSource d i x).pages = d.pages := rfl
@[simp] theorem setSource_nv (i : Nat) (x : SourceSt) : (setSource d i x).nv = d.nv := rfl
@[simp] theorem setSource_egress (i : Nat) (x : SourceSt) : (setSource d i x).egress = d.egress := rfl
@[simp] theorem setSource_free (i : Nat) (x : SourceSt) : (setSource d i x).free = d.free := rfl

/-! ### setInst -/

@[simp] theorem setInst_gj7716 (i : Nat) (x : DrbgSt) : (setInst d i x).gj7716 = d.gj7716 := rfl
@[simp] theorem setInst_grade (i : Nat) (x : DrbgSt) : (setInst d i x).grade = d.grade := rfl
@[simp] theorem setInst_tick (i : Nat) (x : DrbgSt) : (setInst d i x).tick = d.tick := rfl
@[simp] theorem setInst_cyc (i : Nat) (x : DrbgSt) : (setInst d i x).cyc = d.cyc := rfl
@[simp] theorem setInst_cutDone (i : Nat) (x : DrbgSt) : (setInst d i x).cutDone = d.cutDone := rfl
@[simp] theorem setInst_records (i : Nat) (x : DrbgSt) : (setInst d i x).records = d.records := rfl
@[simp] theorem setInst_ties (i : Nat) (x : DrbgSt) : (setInst d i x).ties = d.ties := rfl
@[simp] theorem setInst_units (i : Nat) (x : DrbgSt) : (setInst d i x).units = d.units := rfl
@[simp] theorem setInst_wings (i : Nat) (x : DrbgSt) : (setInst d i x).wings = d.wings := rfl
@[simp] theorem setInst_fns (i : Nat) (x : DrbgSt) : (setInst d i x).fns = d.fns := rfl
@[simp] theorem setInst_queues (i : Nat) (x : DrbgSt) : (setInst d i x).queues = d.queues := rfl
@[simp] theorem setInst_msix (i : Nat) (x : DrbgSt) : (setInst d i x).msix = d.msix := rfl
@[simp] theorem setInst_ports (i : Nat) (x : DrbgSt) : (setInst d i x).ports = d.ports := rfl
@[simp] theorem setInst_jobs (i : Nat) (x : DrbgSt) : (setInst d i x).jobs = d.jobs := rfl
@[simp] theorem setInst_nextJob (i : Nat) (x : DrbgSt) : (setInst d i x).nextJob = d.nextJob := rfl
@[simp] theorem setInst_keys (i : Nat) (x : DrbgSt) : (setInst d i x).keys = d.keys := rfl
@[simp] theorem setInst_acl (i : Nat) (x : DrbgSt) : (setInst d i x).acl = d.acl := rfl
@[simp] theorem setInst_pot (i : Nat) (x : DrbgSt) : (setInst d i x).pot = d.pot := rfl
@[simp] theorem setInst_crd (i : Nat) (x : DrbgSt) : (setInst d i x).crd = d.crd := rfl
@[simp] theorem setInst_lcs (i : Nat) (x : DrbgSt) : (setInst d i x).lcs = d.lcs := rfl
@[simp] theorem setInst_tmp (i : Nat) (x : DrbgSt) : (setInst d i x).tmp = d.tmp := rfl
@[simp] theorem setInst_bat (i : Nat) (x : DrbgSt) : (setInst d i x).bat = d.bat := rfl
@[simp] theorem setInst_guards (i : Nat) (x : DrbgSt) : (setInst d i x).guards = d.guards := rfl
@[simp] theorem setInst_pwr (i : Nat) (x : DrbgSt) : (setInst d i x).pwr = d.pwr := rfl
@[simp] theorem setInst_svc (i : Nat) (x : DrbgSt) : (setInst d i x).svc = d.svc := rfl
@[simp] theorem setInst_twn (i : Nat) (x : DrbgSt) : (setInst d i x).twn = d.twn := rfl
@[simp] theorem setInst_evr (i : Nat) (x : DrbgSt) : (setInst d i x).evr = d.evr := rfl
@[simp] theorem setInst_mons (i : Nat) (x : DrbgSt) : (setInst d i x).mons = d.mons := rfl
@[simp] theorem setInst_mgt (i : Nat) (x : DrbgSt) : (setInst d i x).mgt = d.mgt := rfl
@[simp] theorem setInst_pages (i : Nat) (x : DrbgSt) : (setInst d i x).pages = d.pages := rfl
@[simp] theorem setInst_nv (i : Nat) (x : DrbgSt) : (setInst d i x).nv = d.nv := rfl
@[simp] theorem setInst_egress (i : Nat) (x : DrbgSt) : (setInst d i x).egress = d.egress := rfl
@[simp] theorem setInst_free (i : Nat) (x : DrbgSt) : (setInst d i x).free = d.free := rfl

/-! ### emit -/

@[simp] theorem emit_gj7716 (e : Egress) : (emit d e).gj7716 = d.gj7716 := rfl
@[simp] theorem emit_grade (e : Egress) : (emit d e).grade = d.grade := rfl
@[simp] theorem emit_tick (e : Egress) : (emit d e).tick = d.tick := rfl
@[simp] theorem emit_cyc (e : Egress) : (emit d e).cyc = d.cyc := rfl
@[simp] theorem emit_cutDone (e : Egress) : (emit d e).cutDone = d.cutDone := rfl
@[simp] theorem emit_records (e : Egress) : (emit d e).records = d.records := rfl
@[simp] theorem emit_ties (e : Egress) : (emit d e).ties = d.ties := rfl
@[simp] theorem emit_units (e : Egress) : (emit d e).units = d.units := rfl
@[simp] theorem emit_wings (e : Egress) : (emit d e).wings = d.wings := rfl
@[simp] theorem emit_fns (e : Egress) : (emit d e).fns = d.fns := rfl
@[simp] theorem emit_queues (e : Egress) : (emit d e).queues = d.queues := rfl
@[simp] theorem emit_msix (e : Egress) : (emit d e).msix = d.msix := rfl
@[simp] theorem emit_ports (e : Egress) : (emit d e).ports = d.ports := rfl
@[simp] theorem emit_jobs (e : Egress) : (emit d e).jobs = d.jobs := rfl
@[simp] theorem emit_nextJob (e : Egress) : (emit d e).nextJob = d.nextJob := rfl
@[simp] theorem emit_keys (e : Egress) : (emit d e).keys = d.keys := rfl
@[simp] theorem emit_rng (e : Egress) : (emit d e).rng = d.rng := rfl
@[simp] theorem emit_acl (e : Egress) : (emit d e).acl = d.acl := rfl
@[simp] theorem emit_pot (e : Egress) : (emit d e).pot = d.pot := rfl
@[simp] theorem emit_crd (e : Egress) : (emit d e).crd = d.crd := rfl
@[simp] theorem emit_lcs (e : Egress) : (emit d e).lcs = d.lcs := rfl
@[simp] theorem emit_tmp (e : Egress) : (emit d e).tmp = d.tmp := rfl
@[simp] theorem emit_bat (e : Egress) : (emit d e).bat = d.bat := rfl
@[simp] theorem emit_guards (e : Egress) : (emit d e).guards = d.guards := rfl
@[simp] theorem emit_pwr (e : Egress) : (emit d e).pwr = d.pwr := rfl
@[simp] theorem emit_svc (e : Egress) : (emit d e).svc = d.svc := rfl
@[simp] theorem emit_twn (e : Egress) : (emit d e).twn = d.twn := rfl
@[simp] theorem emit_evr (e : Egress) : (emit d e).evr = d.evr := rfl
@[simp] theorem emit_mons (e : Egress) : (emit d e).mons = d.mons := rfl
@[simp] theorem emit_mgt (e : Egress) : (emit d e).mgt = d.mgt := rfl
@[simp] theorem emit_pages (e : Egress) : (emit d e).pages = d.pages := rfl
@[simp] theorem emit_nv (e : Egress) : (emit d e).nv = d.nv := rfl
@[simp] theorem emit_free (e : Egress) : (emit d e).free = d.free := rfl

/-! ### setSlot -/

@[simp] theorem setSlot_gj7716 (i : BitVec 2) (x : CardSlot) : (setSlot d i x).gj7716 = d.gj7716 := by unfold setSlot; split <;> rfl
@[simp] theorem setSlot_grade (i : BitVec 2) (x : CardSlot) : (setSlot d i x).grade = d.grade := by unfold setSlot; split <;> rfl
@[simp] theorem setSlot_tick (i : BitVec 2) (x : CardSlot) : (setSlot d i x).tick = d.tick := by unfold setSlot; split <;> rfl
@[simp] theorem setSlot_cyc (i : BitVec 2) (x : CardSlot) : (setSlot d i x).cyc = d.cyc := by unfold setSlot; split <;> rfl
@[simp] theorem setSlot_cutDone (i : BitVec 2) (x : CardSlot) : (setSlot d i x).cutDone = d.cutDone := by unfold setSlot; split <;> rfl
@[simp] theorem setSlot_records (i : BitVec 2) (x : CardSlot) : (setSlot d i x).records = d.records := by unfold setSlot; split <;> rfl
@[simp] theorem setSlot_ties (i : BitVec 2) (x : CardSlot) : (setSlot d i x).ties = d.ties := by unfold setSlot; split <;> rfl
@[simp] theorem setSlot_units (i : BitVec 2) (x : CardSlot) : (setSlot d i x).units = d.units := by unfold setSlot; split <;> rfl
@[simp] theorem setSlot_wings (i : BitVec 2) (x : CardSlot) : (setSlot d i x).wings = d.wings := by unfold setSlot; split <;> rfl
@[simp] theorem setSlot_fns (i : BitVec 2) (x : CardSlot) : (setSlot d i x).fns = d.fns := by unfold setSlot; split <;> rfl
@[simp] theorem setSlot_queues (i : BitVec 2) (x : CardSlot) : (setSlot d i x).queues = d.queues := by unfold setSlot; split <;> rfl
@[simp] theorem setSlot_msix (i : BitVec 2) (x : CardSlot) : (setSlot d i x).msix = d.msix := by unfold setSlot; split <;> rfl
@[simp] theorem setSlot_ports (i : BitVec 2) (x : CardSlot) : (setSlot d i x).ports = d.ports := by unfold setSlot; split <;> rfl
@[simp] theorem setSlot_jobs (i : BitVec 2) (x : CardSlot) : (setSlot d i x).jobs = d.jobs := by unfold setSlot; split <;> rfl
@[simp] theorem setSlot_nextJob (i : BitVec 2) (x : CardSlot) : (setSlot d i x).nextJob = d.nextJob := by unfold setSlot; split <;> rfl
@[simp] theorem setSlot_keys (i : BitVec 2) (x : CardSlot) : (setSlot d i x).keys = d.keys := by unfold setSlot; split <;> rfl
@[simp] theorem setSlot_rng (i : BitVec 2) (x : CardSlot) : (setSlot d i x).rng = d.rng := by unfold setSlot; split <;> rfl
@[simp] theorem setSlot_acl (i : BitVec 2) (x : CardSlot) : (setSlot d i x).acl = d.acl := by unfold setSlot; split <;> rfl
@[simp] theorem setSlot_pot (i : BitVec 2) (x : CardSlot) : (setSlot d i x).pot = d.pot := by unfold setSlot; split <;> rfl
@[simp] theorem setSlot_lcs (i : BitVec 2) (x : CardSlot) : (setSlot d i x).lcs = d.lcs := by unfold setSlot; split <;> rfl
@[simp] theorem setSlot_tmp (i : BitVec 2) (x : CardSlot) : (setSlot d i x).tmp = d.tmp := by unfold setSlot; split <;> rfl
@[simp] theorem setSlot_bat (i : BitVec 2) (x : CardSlot) : (setSlot d i x).bat = d.bat := by unfold setSlot; split <;> rfl
@[simp] theorem setSlot_guards (i : BitVec 2) (x : CardSlot) : (setSlot d i x).guards = d.guards := by unfold setSlot; split <;> rfl
@[simp] theorem setSlot_pwr (i : BitVec 2) (x : CardSlot) : (setSlot d i x).pwr = d.pwr := by unfold setSlot; split <;> rfl
@[simp] theorem setSlot_svc (i : BitVec 2) (x : CardSlot) : (setSlot d i x).svc = d.svc := by unfold setSlot; split <;> rfl
@[simp] theorem setSlot_twn (i : BitVec 2) (x : CardSlot) : (setSlot d i x).twn = d.twn := by unfold setSlot; split <;> rfl
@[simp] theorem setSlot_evr (i : BitVec 2) (x : CardSlot) : (setSlot d i x).evr = d.evr := by unfold setSlot; split <;> rfl
@[simp] theorem setSlot_mons (i : BitVec 2) (x : CardSlot) : (setSlot d i x).mons = d.mons := by unfold setSlot; split <;> rfl
@[simp] theorem setSlot_mgt (i : BitVec 2) (x : CardSlot) : (setSlot d i x).mgt = d.mgt := by unfold setSlot; split <;> rfl
@[simp] theorem setSlot_pages (i : BitVec 2) (x : CardSlot) : (setSlot d i x).pages = d.pages := by unfold setSlot; split <;> rfl
@[simp] theorem setSlot_nv (i : BitVec 2) (x : CardSlot) : (setSlot d i x).nv = d.nv := by unfold setSlot; split <;> rfl
@[simp] theorem setSlot_egress (i : BitVec 2) (x : CardSlot) : (setSlot d i x).egress = d.egress := by unfold setSlot; split <;> rfl
@[simp] theorem setSlot_free (i : BitVec 2) (x : CardSlot) : (setSlot d i x).free = d.free := by unfold setSlot; split <;> rfl

/-! ### setWing -/

@[simp] theorem setWing_gj7716 (w : Wing) (x : WingTabs) : (setWing d w x).gj7716 = d.gj7716 := by cases w <;> rfl
@[simp] theorem setWing_grade (w : Wing) (x : WingTabs) : (setWing d w x).grade = d.grade := by cases w <;> rfl
@[simp] theorem setWing_tick (w : Wing) (x : WingTabs) : (setWing d w x).tick = d.tick := by cases w <;> rfl
@[simp] theorem setWing_cyc (w : Wing) (x : WingTabs) : (setWing d w x).cyc = d.cyc := by cases w <;> rfl
@[simp] theorem setWing_cutDone (w : Wing) (x : WingTabs) : (setWing d w x).cutDone = d.cutDone := by cases w <;> rfl
@[simp] theorem setWing_records (w : Wing) (x : WingTabs) : (setWing d w x).records = d.records := by cases w <;> rfl
@[simp] theorem setWing_ties (w : Wing) (x : WingTabs) : (setWing d w x).ties = d.ties := by cases w <;> rfl
@[simp] theorem setWing_units (w : Wing) (x : WingTabs) : (setWing d w x).units = d.units := by cases w <;> rfl
@[simp] theorem setWing_fns (w : Wing) (x : WingTabs) : (setWing d w x).fns = d.fns := by cases w <;> rfl
@[simp] theorem setWing_queues (w : Wing) (x : WingTabs) : (setWing d w x).queues = d.queues := by cases w <;> rfl
@[simp] theorem setWing_msix (w : Wing) (x : WingTabs) : (setWing d w x).msix = d.msix := by cases w <;> rfl
@[simp] theorem setWing_ports (w : Wing) (x : WingTabs) : (setWing d w x).ports = d.ports := by cases w <;> rfl
@[simp] theorem setWing_jobs (w : Wing) (x : WingTabs) : (setWing d w x).jobs = d.jobs := by cases w <;> rfl
@[simp] theorem setWing_nextJob (w : Wing) (x : WingTabs) : (setWing d w x).nextJob = d.nextJob := by cases w <;> rfl
@[simp] theorem setWing_keys (w : Wing) (x : WingTabs) : (setWing d w x).keys = d.keys := by cases w <;> rfl
@[simp] theorem setWing_rng (w : Wing) (x : WingTabs) : (setWing d w x).rng = d.rng := by cases w <;> rfl
@[simp] theorem setWing_acl (w : Wing) (x : WingTabs) : (setWing d w x).acl = d.acl := by cases w <;> rfl
@[simp] theorem setWing_pot (w : Wing) (x : WingTabs) : (setWing d w x).pot = d.pot := by cases w <;> rfl
@[simp] theorem setWing_crd (w : Wing) (x : WingTabs) : (setWing d w x).crd = d.crd := by cases w <;> rfl
@[simp] theorem setWing_lcs (w : Wing) (x : WingTabs) : (setWing d w x).lcs = d.lcs := by cases w <;> rfl
@[simp] theorem setWing_tmp (w : Wing) (x : WingTabs) : (setWing d w x).tmp = d.tmp := by cases w <;> rfl
@[simp] theorem setWing_bat (w : Wing) (x : WingTabs) : (setWing d w x).bat = d.bat := by cases w <;> rfl
@[simp] theorem setWing_guards (w : Wing) (x : WingTabs) : (setWing d w x).guards = d.guards := by cases w <;> rfl
@[simp] theorem setWing_pwr (w : Wing) (x : WingTabs) : (setWing d w x).pwr = d.pwr := by cases w <;> rfl
@[simp] theorem setWing_svc (w : Wing) (x : WingTabs) : (setWing d w x).svc = d.svc := by cases w <;> rfl
@[simp] theorem setWing_twn (w : Wing) (x : WingTabs) : (setWing d w x).twn = d.twn := by cases w <;> rfl
@[simp] theorem setWing_evr (w : Wing) (x : WingTabs) : (setWing d w x).evr = d.evr := by cases w <;> rfl
@[simp] theorem setWing_mons (w : Wing) (x : WingTabs) : (setWing d w x).mons = d.mons := by cases w <;> rfl
@[simp] theorem setWing_mgt (w : Wing) (x : WingTabs) : (setWing d w x).mgt = d.mgt := by cases w <;> rfl
@[simp] theorem setWing_pages (w : Wing) (x : WingTabs) : (setWing d w x).pages = d.pages := by cases w <;> rfl
@[simp] theorem setWing_nv (w : Wing) (x : WingTabs) : (setWing d w x).nv = d.nv := by cases w <;> rfl
@[simp] theorem setWing_egress (w : Wing) (x : WingTabs) : (setWing d w x).egress = d.egress := by cases w <;> rfl
@[simp] theorem setWing_free (w : Wing) (x : WingTabs) : (setWing d w x).free = d.free := by cases w <;> rfl

/-! ### Changing one entry is setting it -/

@[simp] theorem modUnit_eq (u : Nat) (g : UnitSt → UnitSt) : modUnit d u g = setUnit d u (g (getUnit d u)) := rfl
@[simp] theorem modFn_eq (f : Nat) (g : FnSt → FnSt) : modFn d f g = setFn d f (g (getFn d f)) := rfl
@[simp] theorem modQ_eq (f q : Nat) (g : QueueSt → QueueSt) : modQ d f q g = setQ d f q (g (getQ d f q)) := rfl
@[simp] theorem modPort_eq (p : Bool) (g : PortSt → PortSt) : modPort d p g = setPort d p (g (getPort d p)) := rfl
@[simp] theorem modDom_eq (n : Nat) (g : Domain → Domain) : modDom d n g = setDom d n (g (getDom d n)) := rfl
@[simp] theorem modSlot_eq (i : BitVec 2) (g : CardSlot → CardSlot) : modSlot d i g = setSlot d i (g (getSlot d i)) := rfl

/-! ### Reading after setting -/

@[simp] theorem getUnit_setUnit (u : Nat) (x : UnitSt) : getUnit (setUnit d u x) u = x := tabGet_put_same _ _ _ _
@[simp] theorem getFn_setFn (f : Nat) (x : FnSt) : getFn (setFn d f x) f = x := tabGet_put_same _ _ _ _
@[simp] theorem getQ_setQ (f q : Nat) (x : QueueSt) : getQ (setQ d f q x) f q = x := tabGet_put_same _ _ _ _
@[simp] theorem getVec_setVec (f v : Nat) (x : MsixSt) : getVec (setVec d f v x) f v = x := tabGet_put_same _ _ _ _
@[simp] theorem getPort_setPort (p : Bool) (x : PortSt) : getPort (setPort d p x) p = x := tabGet_put_same _ _ _ _
@[simp] theorem getDom_setDom (n : Nat) (x : Domain) : getDom (setDom d n x) n = x := tabGet_put_same _ _ _ _
@[simp] theorem getMon_setMon (m : Nat) (x : MonSt) : getMon (setMon d m x) m = x := tabGet_put_same _ _ _ _
@[simp] theorem getSource_setSource (i : Nat) (x : SourceSt) : getSource (setSource d i x) i = x := tabGet_put_same _ _ _ _
@[simp] theorem getInst_setInst (i : Nat) (x : DrbgSt) : getInst (setInst d i x) i = x := tabGet_put_same _ _ _ _
theorem getUnit_setUnit_other {k j : Nat} (x : UnitSt) (h : j ≠ k) : getUnit (setUnit d k x) j = getUnit d j := tabGet_put_other _ _ _ h
theorem getFn_setFn_other {k j : Nat} (x : FnSt) (h : j ≠ k) : getFn (setFn d k x) j = getFn d j := tabGet_put_other _ _ _ h
theorem getDom_setDom_other {k j : Nat} (x : Domain) (h : j ≠ k) : getDom (setDom d k x) j = getDom d j := tabGet_put_other _ _ _ h
theorem getMon_setMon_other {k j : Nat} (x : MonSt) (h : j ≠ k) : getMon (setMon d k x) j = getMon d j := tabGet_put_other _ _ _ h
theorem getSource_setSource_other {k j : Nat} (x : SourceSt) (h : j ≠ k) : getSource (setSource d k x) j = getSource d j := tabGet_put_other _ _ _ h
theorem getInst_setInst_other {k j : Nat} (x : DrbgSt) (h : j ≠ k) : getInst (setInst d k x) j = getInst d j := tabGet_put_other _ _ _ h
theorem getPort_setPort_other {p q : Bool} (x : PortSt) (h : q ≠ p) : getPort (setPort d p x) q = getPort d q :=
  tabGet_put_other _ _ _ (by revert h; cases p <;> cases q <;> decide)
theorem getQ_setQ_other {k j : Nat} {f q : Nat} (x : QueueSt) (h : qKey k j ≠ qKey f q) : getQ (setQ d f q x) k j = getQ d k j :=
  tabGet_put_other _ _ _ h
theorem getVec_setVec_other {k j : Nat} {f v : Nat} (x : MsixSt) (h : vKey k j ≠ vKey f v) :
    getVec (setVec d f v x) k j = getVec d k j := tabGet_put_other _ _ _ h
@[simp] theorem getSlot_setSlot (i : BitVec 2) (x : CardSlot) : getSlot (setSlot d i x) i = x := by
  unfold getSlot setSlot
  rcases h : i.toNat with _ | _ | _ | n <;> simp
theorem getSlot_setSlot_other {i j : BitVec 2} (x : CardSlot) (h : j ≠ i) : getSlot (setSlot d i x) j = getSlot d j := by
  have hn : j.toNat ≠ i.toNat := fun e => h (BitVec.eq_of_toNat_eq e)
  have hi : i.toNat = 0 ∨ i.toNat = 1 ∨ i.toNat = 2 ∨ i.toNat = 3 := by omega
  have hj : j.toNat = 0 ∨ j.toNat = 1 ∨ j.toNat = 2 ∨ j.toNat = 3 := by omega
  unfold getSlot setSlot
  rcases hi with hi | hi | hi | hi <;> rcases hj with hj | hj | hj | hj <;> simp_all
@[simp] theorem getWing_setWing (w : Wing) (x : WingTabs) : getWing (setWing d w x) w = x := by cases w <;> rfl

end Sys2Proof.Machine
end

