-- ==== Sys2Proof/Laws/Events.lean ====
section
/-! SUPPORT. What reporting an event can change: latching an event bit, counting a class and sending a message stay within `Dev.quiet`,
a recorder entry within `Dev.silent`, a recorded violation within `Dev.unlogged`. -/

namespace Sys2Proof.Machine

theorem foldl_same {α β γ : Type} (g : α → γ) (f : α → β → α) (h : ∀ a b, g (f a b) = g a) (l : List β) (a : α) :
    g (l.foldl f a) = g a := by
  induction l generalizing a with
  | nil => rfl
  | cons b r ih => simp only [List.foldl_cons, ih, h]

/-! ### Event bits, messages and counters -/

theorem setVec_quiet (d : Dev) (f v : Nat) (x : MsixSt) : (setVec d f v x).quiet = d.quiet := rfl
theorem emit_quiet (d : Dev) (e : Egress) : (emit d e).quiet = d.quiet := rfl
theorem setMon_quiet (d : Dev) (m : Nat) (x : MonSt) : (setMon d m x).quiet = d.quiet := rfl

theorem pmcWith_quiet {up : Dev → Nat → Nat → Dev} (h : ∀ d p b, (up d p b).quiet = d.quiet) (d : Dev) (c n : Nat)
    (pass : Nat → MonSt → Bool) : (pmcWith up d c n pass).quiet = d.quiet := by
  refine foldl_same Dev.quiet _ ?_ _ _
  intro a e
  dsimp only
  split
  · split
    · rfl
    · rw [h]; rfl
  · rfl

theorem setPageWith_quiet {rises : Dev → Nat → Dev} (h : ∀ d l, (rises d l).quiet = d.quiet) (d : Dev) (p : Nat) (x : PageHdr) :
    (setPageWith rises d p x).quiet = d.quiet := by
  unfold setPageWith
  exact (foldl_same Dev.quiet _ h _ _).trans rfl

theorem lineWork_quiet (d : Dev) (l : Nat) : (lineWork d l).quiet = d.quiet := by
  unfold lineWork; split <;> rfl

theorem raiseLater_quiet (d : Dev) (p b : Nat) : (raiseLater d p b).quiet = d.quiet := setPageWith_quiet lineWork_quiet _ _ _

theorem sendVector_quiet (d : Dev) (f v : Nat) : (sendVector d f v).quiet = d.quiet := by
  simp only [sendVector]
  repeat' split
  all_goals first | rfl | exact (pmcWith_quiet raiseLater_quiet _ _ _ _).trans rfl

theorem lineRises_quiet (d : Dev) (l : Nat) : (lineRises d l).quiet = d.quiet := by
  unfold lineRises
  split
  · dsimp only
    split
    · exact lineWork_quiet _ _
    · rw [sendVector_quiet, lineWork_quiet]
  · rfl

theorem setPage_quiet (d : Dev) (p : Nat) (x : PageHdr) : (setPage d p x).quiet = d.quiet := setPageWith_quiet lineRises_quiet _ _ _

/-- Latching an event bit changes event reporting alone. -/
theorem raise_quiet (d : Dev) (p b : Nat) : (raise d p b).quiet = d.quiet := setPage_quiet _ _ _

theorem pmcIf_quiet (d : Dev) (c n : Nat) (pass : Nat → MonSt → Bool) : (pmcIf d c n pass).quiet = d.quiet :=
  pmcWith_quiet raise_quiet _ _ _ _
theorem pmcFn_quiet (d : Dev) (c f n : Nat) : (pmcFn d c f n).quiet = d.quiet := pmcIf_quiet _ _ _ _
theorem pmcAny_quiet (d : Dev) (c n : Nat) : (pmcAny d c n).quiet = d.quiet := pmcIf_quiet _ _ _ _
theorem pmcFabric_quiet (d : Dev) (c n : Nat) (i : Ini) (p : Nat) : (pmcFabric d c n i p).quiet = d.quiet := pmcIf_quiet _ _ _ _

/-! ### The recorder -/

theorem silent_of_quiet {a b : Dev} (h : a.quiet = b.quiet) : a.silent = b.silent := by
  have h2 : a.quiet.nv = b.quiet.nv := congrArg Dev.nv h
  have h3 : a.nv = b.nv := h2
  unfold Dev.silent
  rw [h, h3]

theorem raise_silent (d : Dev) (p b : Nat) : (raise d p b).silent = d.silent := silent_of_quiet (raise_quiet _ _ _)
theorem pmcAny_silent (d : Dev) (c n : Nat) : (pmcAny d c n).silent = d.silent := silent_of_quiet (pmcAny_quiet _ _ _)

theorem evrNumber_silent (d : Dev) (r : EvRec) : (evrNumber d r).silent = d.silent := by
  unfold evrNumber evrRaiseHigh; split <;> rfl

theorem evrDrop_silent (d : Dev) : (evrDrop d).silent = d.silent := by
  unfold evrDrop; rw [raise_silent]; rfl

theorem evrBits_silent (d : Dev) (r : EvRec) : (evrBits d r).silent = d.silent := by
  unfold evrBits
  dsimp only
  repeat' split
  all_goals simp only [raise_silent, pmcAny_silent]

theorem evr_silent (d : Dev) (e : Evr) : ({ d with evr := e } : Dev).silent = d.silent := rfl

theorem evrPut_silent (d : Dev) (r : EvRec) : (evrPut d r).silent = d.silent := by
  unfold evrPut
  repeat' split
  all_goals simp only [evrBits_silent, evrNumber_silent, evrDrop_silent, evr_silent]

theorem evrOverflow_silent (d : Dev) : (evrOverflow d).silent = d.silent := by
  unfold evrOverflow
  split
  · rfl
  · rw [evrPut_silent, evr_silent]

theorem evrEarly_silent (d : Dev) (r : EvRec) : (evrEarly d r).silent = d.silent := by
  unfold evrEarly
  dsimp only
  repeat' split
  all_goals simp only [evrDrop_silent, evr_silent]

theorem evrCreate_silent (d : Dev) (r : EvRec) : (evrCreate d r).silent = d.silent := by
  unfold evrCreate
  split
  · exact evrEarly_silent _ _
  · rw [evrPut_silent, evrOverflow_silent]

theorem rateClose_silent (d : Dev) (i : Nat) : (rateClose d i).silent = d.silent := by
  unfold rateClose
  dsimp only
  repeat' split
  all_goals first | rfl | exact (evrCreate_silent _ _).trans rfl

/-- An event changes the recorder and event reporting alone. -/
theorem evLog_silent (d : Dev) (c l f : Nat) (x : List Byte) : (evLog d c l f x).silent = d.silent := by
  unfold evLog
  split
  · exact evrCreate_silent _ _
  · dsimp only
    split
    · rw [evrCreate_silent]; exact rateClose_silent _ _
    · rw [pmcAny_silent, evr_silent]; exact rateClose_silent _ _

/-! ### Violations -/

theorem unlogged_of_silent {a b : Dev} (h : a.silent = b.silent) : a.unlogged = b.unlogged := by
  have h2 : a.silent.acl = b.silent.acl := congrArg Dev.acl h
  have h3 : a.acl = b.acl := h2
  unfold Dev.unlogged
  rw [h, h3]

theorem ringPush_unlogged (d : Dev) (r : BitVec 128) : ({ d with acl := ringPush d.acl r } : Dev).unlogged = d.unlogged := rfl
theorem ringMerge_unlogged (d : Dev) (n : Nat) : ({ d with acl := ringMerge d.acl n } : Dev).unlogged = d.unlogged := by
  unfold ringMerge; dsimp only; split <;> rfl

/-- A violation changes the violation log, the recorder and event reporting alone. -/
theorem violate_unlogged (d : Dev) (i : Ini) (a n : Nat) (t : TxnKind) (p : Bool) (r : Nat) :
    (violate d i a n t p r).unlogged = d.unlogged := by
  unfold violate
  dsimp only
  rw [unlogged_of_silent (evLog_silent _ _ _ _ _)]
  repeat' split
  all_goals first | rfl | exact ringMerge_unlogged _ _

theorem ignored_unlogged (d : Dev) (i : Ini) (a : Nat) : (ignored d i a).unlogged = d.unlogged := violate_unlogged _ _ _ _ _ _ _
theorem lockHit_silent (d : Dev) (i : Ini) (p o : Nat) : (lockHit d i p o).silent = d.silent := evLog_silent _ _ _ _ _

end Sys2Proof.Machine
end

