-- ==== Sys2Proof/Laws/Latch.lean ====
section
/-! SUPPORT. An event bit that is latched stays latched through every report: reports set event bits and clear none. -/

namespace Sys2Proof.Machine

/-- Every event bit that is set in `d` is set in `e`. -/
def Dev.latched (d e : Dev) : Prop := ∀ p b, d.event p b = true → e.event p b = true

theorem Dev.latched_refl (d : Dev) : d.latched d := fun _ _ h => h
theorem Dev.latched_trans {a b c : Dev} (h : a.latched b) (k : b.latched c) : a.latched c := fun p x hx => k p x (h p x hx)

theorem latched_of_pages {d e : Dev} (h : e.pages = d.pages) : d.latched e := by
  intro p b hb
  unfold Dev.event getPage at hb ⊢
  rwa [h]

theorem foldl_latched {β : Type} (f : Dev → β → Dev) (h : ∀ (d : Dev) (b : β), d.latched (f d b)) (l : List β) (d : Dev) : d.latched (l.foldl f d) := by
  induction l generalizing d with
  | nil => exact Dev.latched_refl d
  | cons b r ih => exact Dev.latched_trans (h d b) (ih _)

theorem pmcWith_latched {up : Dev → Nat → Nat → Dev} (h : ∀ (d : Dev) (p b : Nat), d.latched (up d p b)) (d : Dev) (c n : Nat)
    (pass : Nat → MonSt → Bool) : d.latched (pmcWith up d c n pass) := by
  refine foldl_latched _ ?_ _ _
  intro a e
  dsimp only
  split
  · split
    · exact latched_of_pages rfl
    · exact Dev.latched_trans (latched_of_pages (by rfl)) (h _ _ _)
  · exact Dev.latched_refl _

/-- A page header put in place of another that it covers. -/
theorem putPage_latched (d : Dev) (p : Nat) (x : PageHdr) (h : ∀ b, d.event p b = true → x.evt.getLsbD b = true) :
    d.latched { d with pages := tabPut d.pages p x } := by
  intro q b hb
  unfold Dev.event getPage
  by_cases hq : q = p
  · subst hq; rw [tabGet_put_same]; exact h b hb
  · rw [tabGet_put_other _ _ _ hq]; exact hb

theorem setPageWith_latched {rises : Dev → Nat → Dev} (hr : ∀ (d : Dev) (l : Nat), d.latched (rises d l)) (d : Dev) (p : Nat) (x : PageHdr)
    (h : ∀ b, d.event p b = true → x.evt.getLsbD b = true) : d.latched (setPageWith rises d p x) := by
  unfold setPageWith
  exact Dev.latched_trans (putPage_latched d p x h) (foldl_latched _ hr _ _)

theorem or_latched (d : Dev) (p b c : Nat) (h : d.event p c = true) : ((getPage d p).evt ||| put b 1).getLsbD c = true := by
  unfold Dev.event at h
  rw [BitVec.getLsbD_or, h, Bool.true_or]

theorem lineWork_latched (d : Dev) (l : Nat) : d.latched (lineWork d l) := by
  unfold lineWork; split
  · exact latched_of_pages rfl
  · exact Dev.latched_refl _

theorem raiseLater_latched (d : Dev) (p b : Nat) : d.latched (raiseLater d p b) :=
  setPageWith_latched lineWork_latched _ _ _ fun c h => or_latched d p b c h

theorem sendVector_latched (d : Dev) (f v : Nat) : d.latched (sendVector d f v) := by
  simp only [sendVector]
  repeat' split
  all_goals first
    | exact Dev.latched_refl _
    | exact latched_of_pages rfl
    | exact Dev.latched_trans (latched_of_pages (by rfl)) (pmcWith_latched raiseLater_latched _ _ _ _)

theorem lineRises_latched (d : Dev) (l : Nat) : d.latched (lineRises d l) := by
  unfold lineRises
  split
  · dsimp only
    split
    · exact lineWork_latched _ _
    · exact Dev.latched_trans (lineWork_latched _ _) (sendVector_latched _ _ _)
  · exact Dev.latched_refl _

/-- Latching an event bit clears no other. -/
theorem raise_latched (d : Dev) (p b : Nat) : d.latched (raise d p b) :=
  setPageWith_latched lineRises_latched _ _ _ fun c h => or_latched d p b c h

theorem put_bit (b : Nat) (hb : b < 32) : (put b 1).getLsbD b = true := by
  unfold put
  simp [BitVec.getLsbD_ofNat, hb, Nat.testBit_shiftLeft]

/-- The event bit that is raised is set. -/
theorem raise_event (d : Dev) (p b : Nat) (hb : b < 32) : (raise d p b).event p b = true := by
  unfold raise setPage setPageWith
  refine foldl_latched _ lineRises_latched _ _ p b ?_
  unfold Dev.event getPage
  rw [tabGet_put_same, BitVec.getLsbD_or, put_bit b hb, Bool.or_true]

theorem pmcIf_latched (d : Dev) (c n : Nat) (pass : Nat → MonSt → Bool) : d.latched (pmcIf d c n pass) :=
  pmcWith_latched raise_latched _ _ _ _
theorem pmcAny_latched (d : Dev) (c n : Nat) : d.latched (pmcAny d c n) := pmcIf_latched _ _ _ _
theorem pmcFn_latched (d : Dev) (c f n : Nat) : d.latched (pmcFn d c f n) := pmcIf_latched _ _ _ _

theorem evrRaiseHigh_pages (d : Dev) : (evrRaiseHigh d).pages = d.pages := by unfold evrRaiseHigh; split <;> rfl
theorem evrNumber_pages (d : Dev) (r : EvRec) : (evrNumber d r).pages = d.pages := evrRaiseHigh_pages d
theorem latched_number {a d : Dev} (h : a.latched d) (r : EvRec) : a.latched (evrNumber d r) :=
  Dev.latched_trans h (latched_of_pages (evrNumber_pages d r))
theorem latched_evr {a d : Dev} (h : a.latched d) (e : Evr) : a.latched { d with evr := e } :=
  Dev.latched_trans h (latched_of_pages rfl)
theorem latched_raise {a d : Dev} (h : a.latched d) (p b : Nat) : a.latched (raise d p b) := Dev.latched_trans h (raise_latched _ _ _)
theorem latched_pmc {a d : Dev} (h : a.latched d) (c n : Nat) : a.latched (pmcAny d c n) := Dev.latched_trans h (pmcAny_latched _ _ _)
theorem latched_drop {a d : Dev} (h : a.latched d) : a.latched (evrDrop d) := by
  unfold evrDrop; exact latched_raise (latched_evr h _) _ _
theorem latched_bits {a d : Dev} (h : a.latched d) (r : EvRec) : a.latched (evrBits d r) := by
  unfold evrBits
  dsimp only
  split
  · exact latched_raise (latched_pmc h _ _) _ _
  · split
    · exact latched_raise (latched_pmc h _ _) _ _
    · exact latched_pmc h _ _
theorem latched_put {a d : Dev} (h : a.latched d) (r : EvRec) : a.latched (evrPut d r) := by
  unfold evrPut
  split
  · exact latched_bits (latched_number h _) _
  · split
    · split
      · exact latched_bits (latched_number (latched_drop (latched_evr h _)) _) _
      · exact latched_bits (latched_number h _) _
    · exact latched_drop h
theorem latched_create {a d : Dev} (h : a.latched d) (r : EvRec) : a.latched (evrCreate d r) := by
  unfold evrCreate
  split
  · unfold evrEarly
    dsimp only
    split
    · exact latched_evr h _
    · split
      · split
        · exact latched_drop (latched_evr h _)
        · exact latched_evr h _
      · exact latched_drop h
  · refine latched_put ?_ _
    unfold evrOverflow
    split
    · exact h
    · exact latched_put (latched_evr h _) _

theorem latched_close {a d : Dev} (h : a.latched d) (i : Nat) : a.latched (rateClose d i) := by
  unfold rateClose
  dsimp only
  split
  · exact h
  · split
    · exact latched_evr h _
    · exact latched_create (latched_evr h _) _

/-- A recorder entry clears no event bit. -/
theorem evLog_latched (d : Dev) (c l f : Nat) (b : List Byte) : d.latched (evLog d c l f b) := by
  unfold evLog
  split
  · exact latched_create (Dev.latched_refl d) _
  · dsimp only
    split
    · exact latched_create (latched_evr (latched_close (Dev.latched_refl d) _) _) _
    · exact latched_pmc (latched_evr (latched_evr (latched_close (Dev.latched_refl d) _) _) _) _ _

theorem violate_latched (d : Dev) (i : Ini) (a n : Nat) (t : TxnKind) (p : Bool) (r : Nat) : d.latched (violate d i a n t p r) := by
  unfold violate
  exact Dev.latched_trans (latched_of_pages (by rfl)) (evLog_latched _ _ _ _ _)

end Sys2Proof.Machine
end

