-- ==== Sys2Proof/Laws/EventFields.lean ====
section
/-! SUPPORT. The fields of the device that event reporting, the recorder and the violation log leave as they were. -/

namespace Sys2Proof.Machine

/-! ### Fields that `Dev.quiet` keeps -/

theorem quiet_gj7716 {a b : Dev} (h : a.quiet = b.quiet) : a.gj7716 = b.gj7716 := by
  have := congrArg Dev.gj7716 h; exact this
theorem quiet_grade {a b : Dev} (h : a.quiet = b.quiet) : a.grade = b.grade := by
  have := congrArg Dev.grade h; exact this
theorem quiet_tick {a b : Dev} (h : a.quiet = b.quiet) : a.tick = b.tick := by
  have := congrArg Dev.tick h; exact this
theorem quiet_cyc {a b : Dev} (h : a.quiet = b.quiet) : a.cyc = b.cyc := by
  have := congrArg Dev.cyc h; exact this
theorem quiet_cutDone {a b : Dev} (h : a.quiet = b.quiet) : a.cutDone = b.cutDone := by
  have := congrArg Dev.cutDone h; exact this
theorem quiet_records {a b : Dev} (h : a.quiet = b.quiet) : a.records = b.records := by
  have := congrArg Dev.records h; exact this
theorem quiet_ties {a b : Dev} (h : a.quiet = b.quiet) : a.ties = b.ties := by
  have := congrArg Dev.ties h; exact this
theorem quiet_units {a b : Dev} (h : a.quiet = b.quiet) : a.units = b.units := by
  have := congrArg Dev.units h; exact this
theorem quiet_wings {a b : Dev} (h : a.quiet = b.quiet) : a.wings = b.wings := by
  have := congrArg Dev.wings h; exact this
theorem quiet_fns {a b : Dev} (h : a.quiet = b.quiet) : a.fns = b.fns := by
  have := congrArg Dev.fns h; exact this
theorem quiet_queues {a b : Dev} (h : a.quiet = b.quiet) : a.queues = b.queues := by
  have := congrArg Dev.queues h; exact this
theorem quiet_ports {a b : Dev} (h : a.quiet = b.quiet) : a.ports = b.ports := by
  have := congrArg Dev.ports h; exact this
theorem quiet_jobs {a b : Dev} (h : a.quiet = b.quiet) : a.jobs = b.jobs := by
  have := congrArg Dev.jobs h; exact this
theorem quiet_nextJob {a b : Dev} (h : a.quiet = b.quiet) : a.nextJob = b.nextJob := by
  have := congrArg Dev.nextJob h; exact this
theorem quiet_keys {a b : Dev} (h : a.quiet = b.quiet) : a.keys = b.keys := by
  have := congrArg Dev.keys h; exact this
theorem quiet_rng {a b : Dev} (h : a.quiet = b.quiet) : a.rng = b.rng := by
  have := congrArg Dev.rng h; exact this
theorem quiet_acl {a b : Dev} (h : a.quiet = b.quiet) : a.acl = b.acl := by
  have := congrArg Dev.acl h; exact this
theorem quiet_pot {a b : Dev} (h : a.quiet = b.quiet) : a.pot = b.pot := by
  have := congrArg Dev.pot h; exact this
theorem quiet_crd {a b : Dev} (h : a.quiet = b.quiet) : a.crd = b.crd := by
  have := congrArg Dev.crd h; exact this
theorem quiet_lcs {a b : Dev} (h : a.quiet = b.quiet) : a.lcs = b.lcs := by
  have := congrArg Dev.lcs h; exact this
theorem quiet_tmp {a b : Dev} (h : a.quiet = b.quiet) : a.tmp = b.tmp := by
  have := congrArg Dev.tmp h; exact this
theorem quiet_bat {a b : Dev} (h : a.quiet = b.quiet) : a.bat = b.bat := by
  have := congrArg Dev.bat h; exact this
theorem quiet_guards {a b : Dev} (h : a.quiet = b.quiet) : a.guards = b.guards := by
  have := congrArg Dev.guards h; exact this
theorem quiet_pwr {a b : Dev} (h : a.quiet = b.quiet) : a.pwr = b.pwr := by
  have := congrArg Dev.pwr h; exact this
theorem quiet_svc {a b : Dev} (h : a.quiet = b.quiet) : a.svc = b.svc := by
  have := congrArg Dev.svc h; exact this
theorem quiet_twn {a b : Dev} (h : a.quiet = b.quiet) : a.twn = b.twn := by
  have := congrArg Dev.twn h; exact this
theorem quiet_evr {a b : Dev} (h : a.quiet = b.quiet) : a.evr = b.evr := by
  have := congrArg Dev.evr h; exact this
theorem quiet_mgt {a b : Dev} (h : a.quiet = b.quiet) : a.mgt = b.mgt := by
  have := congrArg Dev.mgt h; exact this
theorem quiet_nv {a b : Dev} (h : a.quiet = b.quiet) : a.nv = b.nv := by
  have := congrArg Dev.nv h; exact this
theorem quiet_free {a b : Dev} (h : a.quiet = b.quiet) : a.free = b.free := by
  have := congrArg Dev.free h; exact this

/-! ### Fields that `Dev.silent` keeps -/

theorem silent_gj7716 {a b : Dev} (h : a.silent = b.silent) : a.gj7716 = b.gj7716 := by
  have := congrArg Dev.gj7716 h; exact this
theorem silent_grade {a b : Dev} (h : a.silent = b.silent) : a.grade = b.grade := by
  have := congrArg Dev.grade h; exact this
theorem silent_tick {a b : Dev} (h : a.silent = b.silent) : a.tick = b.tick := by
  have := congrArg Dev.tick h; exact this
theorem silent_cyc {a b : Dev} (h : a.silent = b.silent) : a.cyc = b.cyc := by
  have := congrArg Dev.cyc h; exact this
theorem silent_cutDone {a b : Dev} (h : a.silent = b.silent) : a.cutDone = b.cutDone := by
  have := congrArg Dev.cutDone h; exact this
theorem silent_records {a b : Dev} (h : a.silent = b.silent) : a.records = b.records := by
  have := congrArg Dev.records h; exact this
theorem silent_ties {a b : Dev} (h : a.silent = b.silent) : a.ties = b.ties := by
  have := congrArg Dev.ties h; exact this
theorem silent_units {a b : Dev} (h : a.silent = b.silent) : a.units = b.units := by
  have := congrArg Dev.units h; exact this
theorem silent_wings {a b : Dev} (h : a.silent = b.silent) : a.wings = b.wings := by
  have := congrArg Dev.wings h; exact this
theorem silent_fns {a b : Dev} (h : a.silent = b.silent) : a.fns = b.fns := by
  have := congrArg Dev.fns h; exact this
theorem silent_queues {a b : Dev} (h : a.silent = b.silent) : a.queues = b.queues := by
  have := congrArg Dev.queues h; exact this
theorem silent_ports {a b : Dev} (h : a.silent = b.silent) : a.ports = b.ports := by
  have := congrArg Dev.ports h; exact this
theorem silent_jobs {a b : Dev} (h : a.silent = b.silent) : a.jobs = b.jobs := by
  have := congrArg Dev.jobs h; exact this
theorem silent_nextJob {a b : Dev} (h : a.silent = b.silent) : a.nextJob = b.nextJob := by
  have := congrArg Dev.nextJob h; exact this
theorem silent_keys {a b : Dev} (h : a.silent = b.silent) : a.keys = b.keys := by
  have := congrArg Dev.keys h; exact this
theorem silent_rng {a b : Dev} (h : a.silent = b.silent) : a.rng = b.rng := by
  have := congrArg Dev.rng h; exact this
theorem silent_acl {a b : Dev} (h : a.silent = b.silent) : a.acl = b.acl := by
  have := congrArg Dev.acl h; exact this
theorem silent_pot {a b : Dev} (h : a.silent = b.silent) : a.pot = b.pot := by
  have := congrArg Dev.pot h; exact this
theorem silent_crd {a b : Dev} (h : a.silent = b.silent) : a.crd = b.crd := by
  have := congrArg Dev.crd h; exact this
theorem silent_lcs {a b : Dev} (h : a.silent = b.silent) : a.lcs = b.lcs := by
  have := congrArg Dev.lcs h; exact this
theorem silent_tmp {a b : Dev} (h : a.silent = b.silent) : a.tmp = b.tmp := by
  have := congrArg Dev.tmp h; exact this
theorem silent_bat {a b : Dev} (h : a.silent = b.silent) : a.bat = b.bat := by
  have := congrArg Dev.bat h; exact this
theorem silent_guards {a b : Dev} (h : a.silent = b.silent) : a.guards = b.guards := by
  have := congrArg Dev.guards h; exact this
theorem silent_pwr {a b : Dev} (h : a.silent = b.silent) : a.pwr = b.pwr := by
  have := congrArg Dev.pwr h; exact this
theorem silent_svc {a b : Dev} (h : a.silent = b.silent) : a.svc = b.svc := by
  have := congrArg Dev.svc h; exact this
theorem silent_twn {a b : Dev} (h : a.silent = b.silent) : a.twn = b.twn := by
  have := congrArg Dev.twn h; exact this
theorem silent_mgt {a b : Dev} (h : a.silent = b.silent) : a.mgt = b.mgt := by
  have := congrArg Dev.mgt h; exact this
theorem silent_free {a b : Dev} (h : a.silent = b.silent) : a.free = b.free := by
  have := congrArg Dev.free h; exact this

/-! ### Fields that `Dev.unlogged` keeps -/

theorem unlogged_gj7716 {a b : Dev} (h : a.unlogged = b.unlogged) : a.gj7716 = b.gj7716 := by
  have := congrArg Dev.gj7716 h; exact this
theorem unlogged_grade {a b : Dev} (h : a.unlogged = b.unlogged) : a.grade = b.grade := by
  have := congrArg Dev.grade h; exact this
theorem unlogged_tick {a b : Dev} (h : a.unlogged = b.unlogged) : a.tick = b.tick := by
  have := congrArg Dev.tick h; exact this
theorem unlogged_cyc {a b : Dev} (h : a.unlogged = b.unlogged) : a.cyc = b.cyc := by
  have := congrArg Dev.cyc h; exact this
theorem unlogged_cutDone {a b : Dev} (h : a.unlogged = b.unlogged) : a.cutDone = b.cutDone := by
  have := congrArg Dev.cutDone h; exact this
theorem unlogged_records {a b : Dev} (h : a.unlogged = b.unlogged) : a.records = b.records := by
  have := congrArg Dev.records h; exact this
theorem unlogged_ties {a b : Dev} (h : a.unlogged = b.unlogged) : a.ties = b.ties := by
  have := congrArg Dev.ties h; exact this
theorem unlogged_units {a b : Dev} (h : a.unlogged = b.unlogged) : a.units = b.units := by
  have := congrArg Dev.units h; exact this
theorem unlogged_wings {a b : Dev} (h : a.unlogged = b.unlogged) : a.wings = b.wings := by
  have := congrArg Dev.wings h; exact this
theorem unlogged_fns {a b : Dev} (h : a.unlogged = b.unlogged) : a.fns = b.fns := by
  have := congrArg Dev.fns h; exact this
theorem unlogged_queues {a b : Dev} (h : a.unlogged = b.unlogged) : a.queues = b.queues := by
  have := congrArg Dev.queues h; exact this
theorem unlogged_ports {a b : Dev} (h : a.unlogged = b.unlogged) : a.ports = b.ports := by
  have := congrArg Dev.ports h; exact this
theorem unlogged_jobs {a b : Dev} (h : a.unlogged = b.unlogged) : a.jobs = b.jobs := by
  have := congrArg Dev.jobs h; exact this
theorem unlogged_nextJob {a b : Dev} (h : a.unlogged = b.unlogged) : a.nextJob = b.nextJob := by
  have := congrArg Dev.nextJob h; exact this
theorem unlogged_keys {a b : Dev} (h : a.unlogged = b.unlogged) : a.keys = b.keys := by
  have := congrArg Dev.keys h; exact this
theorem unlogged_rng {a b : Dev} (h : a.unlogged = b.unlogged) : a.rng = b.rng := by
  have := congrArg Dev.rng h; exact this
theorem unlogged_pot {a b : Dev} (h : a.unlogged = b.unlogged) : a.pot = b.pot := by
  have := congrArg Dev.pot h; exact this
theorem unlogged_crd {a b : Dev} (h : a.unlogged = b.unlogged) : a.crd = b.crd := by
  have := congrArg Dev.crd h; exact this
theorem unlogged_lcs {a b : Dev} (h : a.unlogged = b.unlogged) : a.lcs = b.lcs := by
  have := congrArg Dev.lcs h; exact this
theorem unlogged_tmp {a b : Dev} (h : a.unlogged = b.unlogged) : a.tmp = b.tmp := by
  have := congrArg Dev.tmp h; exact this
theorem unlogged_bat {a b : Dev} (h : a.unlogged = b.unlogged) : a.bat = b.bat := by
  have := congrArg Dev.bat h; exact this
theorem unlogged_guards {a b : Dev} (h : a.unlogged = b.unlogged) : a.guards = b.guards := by
  have := congrArg Dev.guards h; exact this
theorem unlogged_pwr {a b : Dev} (h : a.unlogged = b.unlogged) : a.pwr = b.pwr := by
  have := congrArg Dev.pwr h; exact this
theorem unlogged_svc {a b : Dev} (h : a.unlogged = b.unlogged) : a.svc = b.svc := by
  have := congrArg Dev.svc h; exact this
theorem unlogged_twn {a b : Dev} (h : a.unlogged = b.unlogged) : a.twn = b.twn := by
  have := congrArg Dev.twn h; exact this
theorem unlogged_mgt {a b : Dev} (h : a.unlogged = b.unlogged) : a.mgt = b.mgt := by
  have := congrArg Dev.mgt h; exact this
theorem unlogged_free {a b : Dev} (h : a.unlogged = b.unlogged) : a.free = b.free := by
  have := congrArg Dev.free h; exact this

/-! ### raise -/

@[simp] theorem raise_gj7716 (d : Dev) (p b : Nat) : (raise d p b).gj7716 = d.gj7716 := quiet_gj7716 (raise_quiet d p b)
@[simp] theorem raise_grade (d : Dev) (p b : Nat) : (raise d p b).grade = d.grade := quiet_grade (raise_quiet d p b)
@[simp] theorem raise_tick (d : Dev) (p b : Nat) : (raise d p b).tick = d.tick := quiet_tick (raise_quiet d p b)
@[simp] theorem raise_cyc (d : Dev) (p b : Nat) : (raise d p b).cyc = d.cyc := quiet_cyc (raise_quiet d p b)
@[simp] theorem raise_cutDone (d : Dev) (p b : Nat) : (raise d p b).cutDone = d.cutDone := quiet_cutDone (raise_quiet d p b)
@[simp] theorem raise_records (d : Dev) (p b : Nat) : (raise d p b).records = d.records := quiet_records (raise_quiet d p b)
@[simp] theorem raise_ties (d : Dev) (p b : Nat) : (raise d p b).ties = d.ties := quiet_ties (raise_quiet d p b)
@[simp] theorem raise_units (d : Dev) (p b : Nat) : (raise d p b).units = d.units := quiet_units (raise_quiet d p b)
@[simp] theorem raise_wings (d : Dev) (p b : Nat) : (raise d p b).wings = d.wings := quiet_wings (raise_quiet d p b)
@[simp] theorem raise_fns (d : Dev) (p b : Nat) : (raise d p b).fns = d.fns := quiet_fns (raise_quiet d p b)
@[simp] theorem raise_queues (d : Dev) (p b : Nat) : (raise d p b).queues = d.queues := quiet_queues (raise_quiet d p b)
@[simp] theorem raise_ports (d : Dev) (p b : Nat) : (raise d p b).ports = d.ports := quiet_ports (raise_quiet d p b)
@[simp] theorem raise_jobs (d : Dev) (p b : Nat) : (raise d p b).jobs = d.jobs := quiet_jobs (raise_quiet d p b)
@[simp] theorem raise_nextJob (d : Dev) (p b : Nat) : (raise d p b).nextJob = d.nextJob := quiet_nextJob (raise_quiet d p b)
@[simp] theorem raise_keys (d : Dev) (p b : Nat) : (raise d p b).keys = d.keys := quiet_keys (raise_quiet d p b)
@[simp] theorem raise_rng (d : Dev) (p b : Nat) : (raise d p b).rng = d.rng := quiet_rng (raise_quiet d p b)
@[simp] theorem raise_acl (d : Dev) (p b : Nat) : (raise d p b).acl = d.acl := quiet_acl (raise_quiet d p b)
@[simp] theorem raise_pot (d : Dev) (p b : Nat) : (raise d p b).pot = d.pot := quiet_pot (raise_quiet d p b)
@[simp] theorem raise_crd (d : Dev) (p b : Nat) : (raise d p b).crd = d.crd := quiet_crd (raise_quiet d p b)
@[simp] theorem raise_lcs (d : Dev) (p b : Nat) : (raise d p b).lcs = d.lcs := quiet_lcs (raise_quiet d p b)
@[simp] theorem raise_tmp (d : Dev) (p b : Nat) : (raise d p b).tmp = d.tmp := quiet_tmp (raise_quiet d p b)
@[simp] theorem raise_bat (d : Dev) (p b : Nat) : (raise d p b).bat = d.bat := quiet_bat (raise_quiet d p b)
@[simp] theorem raise_guards (d : Dev) (p b : Nat) : (raise d p b).guards = d.guards := quiet_guards (raise_quiet d p b)
@[simp] theorem raise_pwr (d : Dev) (p b : Nat) : (raise d p b).pwr = d.pwr := quiet_pwr (raise_quiet d p b)
@[simp] theorem raise_svc (d : Dev) (p b : Nat) : (raise d p b).svc = d.svc := quiet_svc (raise_quiet d p b)
@[simp] theorem raise_twn (d : Dev) (p b : Nat) : (raise d p b).twn = d.twn := quiet_twn (raise_quiet d p b)
@[simp] theorem raise_evr (d : Dev) (p b : Nat) : (raise d p b).evr = d.evr := quiet_evr (raise_quiet d p b)
@[simp] theorem raise_mgt (d : Dev) (p b : Nat) : (raise d p b).mgt = d.mgt := quiet_mgt (raise_quiet d p b)
@[simp] theorem raise_nv (d : Dev) (p b : Nat) : (raise d p b).nv = d.nv := quiet_nv (raise_quiet d p b)
@[simp] theorem raise_free (d : Dev) (p b : Nat) : (raise d p b).free = d.free := quiet_free (raise_quiet d p b)

/-! ### pmcFn -/

@[simp] theorem pmcFn_gj7716 (d : Dev) (c f n : Nat) : (pmcFn d c f n).gj7716 = d.gj7716 := quiet_gj7716 (pmcFn_quiet d c f n)
@[simp] theorem pmcFn_grade (d : Dev) (c f n : Nat) : (pmcFn d c f n).grade = d.grade := quiet_grade (pmcFn_quiet d c f n)
@[simp] theorem pmcFn_tick (d : Dev) (c f n : Nat) : (pmcFn d c f n).tick = d.tick := quiet_tick (pmcFn_quiet d c f n)
@[simp] theorem pmcFn_cyc (d : Dev) (c f n : Nat) : (pmcFn d c f n).cyc = d.cyc := quiet_cyc (pmcFn_quiet d c f n)
@[simp] theorem pmcFn_cutDone (d : Dev) (c f n : Nat) : (pmcFn d c f n).cutDone = d.cutDone := quiet_cutDone (pmcFn_quiet d c f n)
@[simp] theorem pmcFn_records (d : Dev) (c f n : Nat) : (pmcFn d c f n).records = d.records := quiet_records (pmcFn_quiet d c f n)
@[simp] theorem pmcFn_ties (d : Dev) (c f n : Nat) : (pmcFn d c f n).ties = d.ties := quiet_ties (pmcFn_quiet d c f n)
@[simp] theorem pmcFn_units (d : Dev) (c f n : Nat) : (pmcFn d c f n).units = d.units := quiet_units (pmcFn_quiet d c f n)
@[simp] theorem pmcFn_wings (d : Dev) (c f n : Nat) : (pmcFn d c f n).wings = d.wings := quiet_wings (pmcFn_quiet d c f n)
@[simp] theorem pmcFn_fns (d : Dev) (c f n : Nat) : (pmcFn d c f n).fns = d.fns := quiet_fns (pmcFn_quiet d c f n)
@[simp] theorem pmcFn_queues (d : Dev) (c f n : Nat) : (pmcFn d c f n).queues = d.queues := quiet_queues (pmcFn_quiet d c f n)
@[simp] theorem pmcFn_ports (d : Dev) (c f n : Nat) : (pmcFn d c f n).ports = d.ports := quiet_ports (pmcFn_quiet d c f n)
@[simp] theorem pmcFn_jobs (d : Dev) (c f n : Nat) : (pmcFn d c f n).jobs = d.jobs := quiet_jobs (pmcFn_quiet d c f n)
@[simp] theorem pmcFn_nextJob (d : Dev) (c f n : Nat) : (pmcFn d c f n).nextJob = d.nextJob := quiet_nextJob (pmcFn_quiet d c f n)
@[simp] theorem pmcFn_keys (d : Dev) (c f n : Nat) : (pmcFn d c f n).keys = d.keys := quiet_keys (pmcFn_quiet d c f n)
@[simp] theorem pmcFn_rng (d : Dev) (c f n : Nat) : (pmcFn d c f n).rng = d.rng := quiet_rng (pmcFn_quiet d c f n)
@[simp] theorem pmcFn_acl (d : Dev) (c f n : Nat) : (pmcFn d c f n).acl = d.acl := quiet_acl (pmcFn_quiet d c f n)
@[simp] theorem pmcFn_pot (d : Dev) (c f n : Nat) : (pmcFn d c f n).pot = d.pot := quiet_pot (pmcFn_quiet d c f n)
@[simp] theorem pmcFn_crd (d : Dev) (c f n : Nat) : (pmcFn d c f n).crd = d.crd := quiet_crd (pmcFn_quiet d c f n)
@[simp] theorem pmcFn_lcs (d : Dev) (c f n : Nat) : (pmcFn d c f n).lcs = d.lcs := quiet_lcs (pmcFn_quiet d c f n)
@[simp] theorem pmcFn_tmp (d : Dev) (c f n : Nat) : (pmcFn d c f n).tmp = d.tmp := quiet_tmp (pmcFn_quiet d c f n)
@[simp] theorem pmcFn_bat (d : Dev) (c f n : Nat) : (pmcFn d c f n).bat = d.bat := quiet_bat (pmcFn_quiet d c f n)
@[simp] theorem pmcFn_guards (d : Dev) (c f n : Nat) : (pmcFn d c f n).guards = d.guards := quiet_guards (pmcFn_quiet d c f n)
@[simp] theorem pmcFn_pwr (d : Dev) (c f n : Nat) : (pmcFn d c f n).pwr = d.pwr := quiet_pwr (pmcFn_quiet d c f n)
@[simp] theorem pmcFn_svc (d : Dev) (c f n : Nat) : (pmcFn d c f n).svc = d.svc := quiet_svc (pmcFn_quiet d c f n)
@[simp] theorem pmcFn_twn (d : Dev) (c f n : Nat) : (pmcFn d c f n).twn = d.twn := quiet_twn (pmcFn_quiet d c f n)
@[simp] theorem pmcFn_evr (d : Dev) (c f n : Nat) : (pmcFn d c f n).evr = d.evr := quiet_evr (pmcFn_quiet d c f n)
@[simp] theorem pmcFn_mgt (d : Dev) (c f n : Nat) : (pmcFn d c f n).mgt = d.mgt := quiet_mgt (pmcFn_quiet d c f n)
@[simp] theorem pmcFn_nv (d : Dev) (c f n : Nat) : (pmcFn d c f n).nv = d.nv := quiet_nv (pmcFn_quiet d c f n)
@[simp] theorem pmcFn_free (d : Dev) (c f n : Nat) : (pmcFn d c f n).free = d.free := quiet_free (pmcFn_quiet d c f n)

/-! ### pmcAny -/

@[simp] theorem pmcAny_gj7716 (d : Dev) (c n : Nat) : (pmcAny d c n).gj7716 = d.gj7716 := quiet_gj7716 (pmcAny_quiet d c n)
@[simp] theorem pmcAny_grade (d : Dev) (c n : Nat) : (pmcAny d c n).grade = d.grade := quiet_grade (pmcAny_quiet d c n)
@[simp] theorem pmcAny_tick (d : Dev) (c n : Nat) : (pmcAny d c n).tick = d.tick := quiet_tick (pmcAny_quiet d c n)
@[simp] theorem pmcAny_cyc (d : Dev) (c n : Nat) : (pmcAny d c n).cyc = d.cyc := quiet_cyc (pmcAny_quiet d c n)
@[simp] theorem pmcAny_cutDone (d : Dev) (c n : Nat) : (pmcAny d c n).cutDone = d.cutDone := quiet_cutDone (pmcAny_quiet d c n)
@[simp] theorem pmcAny_records (d : Dev) (c n : Nat) : (pmcAny d c n).records = d.records := quiet_records (pmcAny_quiet d c n)
@[simp] theorem pmcAny_ties (d : Dev) (c n : Nat) : (pmcAny d c n).ties = d.ties := quiet_ties (pmcAny_quiet d c n)
@[simp] theorem pmcAny_units (d : Dev) (c n : Nat) : (pmcAny d c n).units = d.units := quiet_units (pmcAny_quiet d c n)
@[simp] theorem pmcAny_wings (d : Dev) (c n : Nat) : (pmcAny d c n).wings = d.wings := quiet_wings (pmcAny_quiet d c n)
@[simp] theorem pmcAny_fns (d : Dev) (c n : Nat) : (pmcAny d c n).fns = d.fns := quiet_fns (pmcAny_quiet d c n)
@[simp] theorem pmcAny_queues (d : Dev) (c n : Nat) : (pmcAny d c n).queues = d.queues := quiet_queues (pmcAny_quiet d c n)
@[simp] theorem pmcAny_ports (d : Dev) (c n : Nat) : (pmcAny d c n).ports = d.ports := quiet_ports (pmcAny_quiet d c n)
@[simp] theorem pmcAny_jobs (d : Dev) (c n : Nat) : (pmcAny d c n).jobs = d.jobs := quiet_jobs (pmcAny_quiet d c n)
@[simp] theorem pmcAny_nextJob (d : Dev) (c n : Nat) : (pmcAny d c n).nextJob = d.nextJob := quiet_nextJob (pmcAny_quiet d c n)
@[simp] theorem pmcAny_keys (d : Dev) (c n : Nat) : (pmcAny d c n).keys = d.keys := quiet_keys (pmcAny_quiet d c n)
@[simp] theorem pmcAny_rng (d : Dev) (c n : Nat) : (pmcAny d c n).rng = d.rng := quiet_rng (pmcAny_quiet d c n)
@[simp] theorem pmcAny_acl (d : Dev) (c n : Nat) : (pmcAny d c n).acl = d.acl := quiet_acl (pmcAny_quiet d c n)
@[simp] theorem pmcAny_pot (d : Dev) (c n : Nat) : (pmcAny d c n).pot = d.pot := quiet_pot (pmcAny_quiet d c n)
@[simp] theorem pmcAny_crd (d : Dev) (c n : Nat) : (pmcAny d c n).crd = d.crd := quiet_crd (pmcAny_quiet d c n)
@[simp] theorem pmcAny_lcs (d : Dev) (c n : Nat) : (pmcAny d c n).lcs = d.lcs := quiet_lcs (pmcAny_quiet d c n)
@[simp] theorem pmcAny_tmp (d : Dev) (c n : Nat) : (pmcAny d c n).tmp = d.tmp := quiet_tmp (pmcAny_quiet d c n)
@[simp] theorem pmcAny_bat (d : Dev) (c n : Nat) : (pmcAny d c n).bat = d.bat := quiet_bat (pmcAny_quiet d c n)
@[simp] theorem pmcAny_guards (d : Dev) (c n : Nat) : (pmcAny d c n).guards = d.guards := quiet_guards (pmcAny_quiet d c n)
@[simp] theorem pmcAny_pwr (d : Dev) (c n : Nat) : (pmcAny d c n).pwr = d.pwr := quiet_pwr (pmcAny_quiet d c n)
@[simp] theorem pmcAny_svc (d : Dev) (c n : Nat) : (pmcAny d c n).svc = d.svc := quiet_svc (pmcAny_quiet d c n)
@[simp] theorem pmcAny_twn (d : Dev) (c n : Nat) : (pmcAny d c n).twn = d.twn := quiet_twn (pmcAny_quiet d c n)
@[simp] theorem pmcAny_evr (d : Dev) (c n : Nat) : (pmcAny d c n).evr = d.evr := quiet_evr (pmcAny_quiet d c n)
@[simp] theorem pmcAny_mgt (d : Dev) (c n : Nat) : (pmcAny d c n).mgt = d.mgt := quiet_mgt (pmcAny_quiet d c n)
@[simp] theorem pmcAny_nv (d : Dev) (c n : Nat) : (pmcAny d c n).nv = d.nv := quiet_nv (pmcAny_quiet d c n)
@[simp] theorem pmcAny_free (d : Dev) (c n : Nat) : (pmcAny d c n).free = d.free := quiet_free (pmcAny_quiet d c n)

/-! ### pmcIf -/

@[simp] theorem pmcIf_gj7716 (d : Dev) (c n : Nat) (x : Nat → MonSt → Bool) : (pmcIf d c n x).gj7716 = d.gj7716 := quiet_gj7716 (pmcIf_quiet d c n x)
@[simp] theorem pmcIf_grade (d : Dev) (c n : Nat) (x : Nat → MonSt → Bool) : (pmcIf d c n x).grade = d.grade := quiet_grade (pmcIf_quiet d c n x)
@[simp] theorem pmcIf_tick (d : Dev) (c n : Nat) (x : Nat → MonSt → Bool) : (pmcIf d c n x).tick = d.tick := quiet_tick (pmcIf_quiet d c n x)
@[simp] theorem pmcIf_cyc (d : Dev) (c n : Nat) (x : Nat → MonSt → Bool) : (pmcIf d c n x).cyc = d.cyc := quiet_cyc (pmcIf_quiet d c n x)
@[simp] theorem pmcIf_cutDone (d : Dev) (c n : Nat) (x : Nat → MonSt → Bool) : (pmcIf d c n x).cutDone = d.cutDone := quiet_cutDone (pmcIf_quiet d c n x)
@[simp] theorem pmcIf_records (d : Dev) (c n : Nat) (x : Nat → MonSt → Bool) : (pmcIf d c n x).records = d.records := quiet_records (pmcIf_quiet d c n x)
@[simp] theorem pmcIf_ties (d : Dev) (c n : Nat) (x : Nat → MonSt → Bool) : (pmcIf d c n x).ties = d.ties := quiet_ties (pmcIf_quiet d c n x)
@[simp] theorem pmcIf_units (d : Dev) (c n : Nat) (x : Nat → MonSt → Bool) : (pmcIf d c n x).units = d.units := quiet_units (pmcIf_quiet d c n x)
@[simp] theorem pmcIf_wings (d : Dev) (c n : Nat) (x : Nat → MonSt → Bool) : (pmcIf d c n x).wings = d.wings := quiet_wings (pmcIf_quiet d c n x)
@[simp] theorem pmcIf_fns (d : Dev) (c n : Nat) (x : Nat → MonSt → Bool) : (pmcIf d c n x).fns = d.fns := quiet_fns (pmcIf_quiet d c n x)
@[simp] theorem pmcIf_queues (d : Dev) (c n : Nat) (x : Nat → MonSt → Bool) : (pmcIf d c n x).queues = d.queues := quiet_queues (pmcIf_quiet d c n x)
@[simp] theorem pmcIf_ports (d : Dev) (c n : Nat) (x : Nat → MonSt → Bool) : (pmcIf d c n x).ports = d.ports := quiet_ports (pmcIf_quiet d c n x)
@[simp] theorem pmcIf_jobs (d : Dev) (c n : Nat) (x : Nat → MonSt → Bool) : (pmcIf d c n x).jobs = d.jobs := quiet_jobs (pmcIf_quiet d c n x)
@[simp] theorem pmcIf_nextJob (d : Dev) (c n : Nat) (x : Nat → MonSt → Bool) : (pmcIf d c n x).nextJob = d.nextJob := quiet_nextJob (pmcIf_quiet d c n x)
@[simp] theorem pmcIf_keys (d : Dev) (c n : Nat) (x : Nat → MonSt → Bool) : (pmcIf d c n x).keys = d.keys := quiet_keys (pmcIf_quiet d c n x)
@[simp] theorem pmcIf_rng (d : Dev) (c n : Nat) (x : Nat → MonSt → Bool) : (pmcIf d c n x).rng = d.rng := quiet_rng (pmcIf_quiet d c n x)
@[simp] theorem pmcIf_acl (d : Dev) (c n : Nat) (x : Nat → MonSt → Bool) : (pmcIf d c n x).acl = d.acl := quiet_acl (pmcIf_quiet d c n x)
@[simp] theorem pmcIf_pot (d : Dev) (c n : Nat) (x : Nat → MonSt → Bool) : (pmcIf d c n x).pot = d.pot := quiet_pot (pmcIf_quiet d c n x)
@[simp] theorem pmcIf_crd (d : Dev) (c n : Nat) (x : Nat → MonSt → Bool) : (pmcIf d c n x).crd = d.crd := quiet_crd (pmcIf_quiet d c n x)
@[simp] theorem pmcIf_lcs (d : Dev) (c n : Nat) (x : Nat → MonSt → Bool) : (pmcIf d c n x).lcs = d.lcs := quiet_lcs (pmcIf_quiet d c n x)
@[simp] theorem pmcIf_tmp (d : Dev) (c n : Nat) (x : Nat → MonSt → Bool) : (pmcIf d c n x).tmp = d.tmp := quiet_tmp (pmcIf_quiet d c n x)
@[simp] theorem pmcIf_bat (d : Dev) (c n : Nat) (x : Nat → MonSt → Bool) : (pmcIf d c n x).bat = d.bat := quiet_bat (pmcIf_quiet d c n x)
@[simp] theorem pmcIf_guards (d : Dev) (c n : Nat) (x : Nat → MonSt → Bool) : (pmcIf d c n x).guards = d.guards := quiet_guards (pmcIf_quiet d c n x)
@[simp] theorem pmcIf_pwr (d : Dev) (c n : Nat) (x : Nat → MonSt → Bool) : (pmcIf d c n x).pwr = d.pwr := quiet_pwr (pmcIf_quiet d c n x)
@[simp] theorem pmcIf_svc (d : Dev) (c n : Nat) (x : Nat → MonSt → Bool) : (pmcIf d c n x).svc = d.svc := quiet_svc (pmcIf_quiet d c n x)
@[simp] theorem pmcIf_twn (d : Dev) (c n : Nat) (x : Nat → MonSt → Bool) : (pmcIf d c n x).twn = d.twn := quiet_twn (pmcIf_quiet d c n x)
@[simp] theorem pmcIf_evr (d : Dev) (c n : Nat) (x : Nat → MonSt → Bool) : (pmcIf d c n x).evr = d.evr := quiet_evr (pmcIf_quiet d c n x)
@[simp] theorem pmcIf_mgt (d : Dev) (c n : Nat) (x : Nat → MonSt → Bool) : (pmcIf d c n x).mgt = d.mgt := quiet_mgt (pmcIf_quiet d c n x)
@[simp] theorem pmcIf_nv (d : Dev) (c n : Nat) (x : Nat → MonSt → Bool) : (pmcIf d c n x).nv = d.nv := quiet_nv (pmcIf_quiet d c n x)
@[simp] theorem pmcIf_free (d : Dev) (c n : Nat) (x : Nat → MonSt → Bool) : (pmcIf d c n x).free = d.free := quiet_free (pmcIf_quiet d c n x)

/-! ### setPage -/

@[simp] theorem setPage_gj7716 (d : Dev) (p : Nat) (x : PageHdr) : (setPage d p x).gj7716 = d.gj7716 := quiet_gj7716 (setPage_quiet d p x)
@[simp] theorem setPage_grade (d : Dev) (p : Nat) (x : PageHdr) : (setPage d p x).grade = d.grade := quiet_grade (setPage_quiet d p x)
@[simp] theorem setPage_tick (d : Dev) (p : Nat) (x : PageHdr) : (setPage d p x).tick = d.tick := quiet_tick (setPage_quiet d p x)
@[simp] theorem setPage_cyc (d : Dev) (p : Nat) (x : PageHdr) : (setPage d p x).cyc = d.cyc := quiet_cyc (setPage_quiet d p x)
@[simp] theorem setPage_cutDone (d : Dev) (p : Nat) (x : PageHdr) : (setPage d p x).cutDone = d.cutDone := quiet_cutDone (setPage_quiet d p x)
@[simp] theorem setPage_records (d : Dev) (p : Nat) (x : PageHdr) : (setPage d p x).records = d.records := quiet_records (setPage_quiet d p x)
@[simp] theorem setPage_ties (d : Dev) (p : Nat) (x : PageHdr) : (setPage d p x).ties = d.ties := quiet_ties (setPage_quiet d p x)
@[simp] theorem setPage_units (d : Dev) (p : Nat) (x : PageHdr) : (setPage d p x).units = d.units := quiet_units (setPage_quiet d p x)
@[simp] theorem setPage_wings (d : Dev) (p : Nat) (x : PageHdr) : (setPage d p x).wings = d.wings := quiet_wings (setPage_quiet d p x)
@[simp] theorem setPage_fns (d : Dev) (p : Nat) (x : PageHdr) : (setPage d p x).fns = d.fns := quiet_fns (setPage_quiet d p x)
@[simp] theorem setPage_queues (d : Dev) (p : Nat) (x : PageHdr) : (setPage d p x).queues = d.queues := quiet_queues (setPage_quiet d p x)
@[simp] theorem setPage_ports (d : Dev) (p : Nat) (x : PageHdr) : (setPage d p x).ports = d.ports := quiet_ports (setPage_quiet d p x)
@[simp] theorem setPage_jobs (d : Dev) (p : Nat) (x : PageHdr) : (setPage d p x).jobs = d.jobs := quiet_jobs (setPage_quiet d p x)
@[simp] theorem setPage_nextJob (d : Dev) (p : Nat) (x : PageHdr) : (setPage d p x).nextJob = d.nextJob := quiet_nextJob (setPage_quiet d p x)
@[simp] theorem setPage_keys (d : Dev) (p : Nat) (x : PageHdr) : (setPage d p x).keys = d.keys := quiet_keys (setPage_quiet d p x)
@[simp] theorem setPage_rng (d : Dev) (p : Nat) (x : PageHdr) : (setPage d p x).rng = d.rng := quiet_rng (setPage_quiet d p x)
@[simp] theorem setPage_acl (d : Dev) (p : Nat) (x : PageHdr) : (setPage d p x).acl = d.acl := quiet_acl (setPage_quiet d p x)
@[simp] theorem setPage_pot (d : Dev) (p : Nat) (x : PageHdr) : (setPage d p x).pot = d.pot := quiet_pot (setPage_quiet d p x)
@[simp] theorem setPage_crd (d : Dev) (p : Nat) (x : PageHdr) : (setPage d p x).crd = d.crd := quiet_crd (setPage_quiet d p x)
@[simp] theorem setPage_lcs (d : Dev) (p : Nat) (x : PageHdr) : (setPage d p x).lcs = d.lcs := quiet_lcs (setPage_quiet d p x)
@[simp] theorem setPage_tmp (d : Dev) (p : Nat) (x : PageHdr) : (setPage d p x).tmp = d.tmp := quiet_tmp (setPage_quiet d p x)
@[simp] theorem setPage_bat (d : Dev) (p : Nat) (x : PageHdr) : (setPage d p x).bat = d.bat := quiet_bat (setPage_quiet d p x)
@[simp] theorem setPage_guards (d : Dev) (p : Nat) (x : PageHdr) : (setPage d p x).guards = d.guards := quiet_guards (setPage_quiet d p x)
@[simp] theorem setPage_pwr (d : Dev) (p : Nat) (x : PageHdr) : (setPage d p x).pwr = d.pwr := quiet_pwr (setPage_quiet d p x)
@[simp] theorem setPage_svc (d : Dev) (p : Nat) (x : PageHdr) : (setPage d p x).svc = d.svc := quiet_svc (setPage_quiet d p x)
@[simp] theorem setPage_twn (d : Dev) (p : Nat) (x : PageHdr) : (setPage d p x).twn = d.twn := quiet_twn (setPage_quiet d p x)
@[simp] theorem setPage_evr (d : Dev) (p : Nat) (x : PageHdr) : (setPage d p x).evr = d.evr := quiet_evr (setPage_quiet d p x)
@[simp] theorem setPage_mgt (d : Dev) (p : Nat) (x : PageHdr) : (setPage d p x).mgt = d.mgt := quiet_mgt (setPage_quiet d p x)
@[simp] theorem setPage_nv (d : Dev) (p : Nat) (x : PageHdr) : (setPage d p x).nv = d.nv := quiet_nv (setPage_quiet d p x)
@[simp] theorem setPage_free (d : Dev) (p : Nat) (x : PageHdr) : (setPage d p x).free = d.free := quiet_free (setPage_quiet d p x)

/-! ### evLog -/

@[simp] theorem evLog_gj7716 (d : Dev) (c l f : Nat) (x : List Byte) : (evLog d c l f x).gj7716 = d.gj7716 := silent_gj7716 (evLog_silent d c l f x)
@[simp] theorem evLog_grade (d : Dev) (c l f : Nat) (x : List Byte) : (evLog d c l f x).grade = d.grade := silent_grade (evLog_silent d c l f x)
@[simp] theorem evLog_tick (d : Dev) (c l f : Nat) (x : List Byte) : (evLog d c l f x).tick = d.tick := silent_tick (evLog_silent d c l f x)
@[simp] theorem evLog_cyc (d : Dev) (c l f : Nat) (x : List Byte) : (evLog d c l f x).cyc = d.cyc := silent_cyc (evLog_silent d c l f x)
@[simp] theorem evLog_cutDone (d : Dev) (c l f : Nat) (x : List Byte) : (evLog d c l f x).cutDone = d.cutDone := silent_cutDone (evLog_silent d c l f x)
@[simp] theorem evLog_records (d : Dev) (c l f : Nat) (x : List Byte) : (evLog d c l f x).records = d.records := silent_records (evLog_silent d c l f x)
@[simp] theorem evLog_ties (d : Dev) (c l f : Nat) (x : List Byte) : (evLog d c l f x).ties = d.ties := silent_ties (evLog_silent d c l f x)
@[simp] theorem evLog_units (d : Dev) (c l f : Nat) (x : List Byte) : (evLog d c l f x).units = d.units := silent_units (evLog_silent d c l f x)
@[simp] theorem evLog_wings (d : Dev) (c l f : Nat) (x : List Byte) : (evLog d c l f x).wings = d.wings := silent_wings (evLog_silent d c l f x)
@[simp] theorem evLog_fns (d : Dev) (c l f : Nat) (x : List Byte) : (evLog d c l f x).fns = d.fns := silent_fns (evLog_silent d c l f x)
@[simp] theorem evLog_queues (d : Dev) (c l f : Nat) (x : List Byte) : (evLog d c l f x).queues = d.queues := silent_queues (evLog_silent d c l f x)
@[simp] theorem evLog_ports (d : Dev) (c l f : Nat) (x : List Byte) : (evLog d c l f x).ports = d.ports := silent_ports (evLog_silent d c l f x)
@[simp] theorem evLog_jobs (d : Dev) (c l f : Nat) (x : List Byte) : (evLog d c l f x).jobs = d.jobs := silent_jobs (evLog_silent d c l f x)
@[simp] theorem evLog_nextJob (d : Dev) (c l f : Nat) (x : List Byte) : (evLog d c l f x).nextJob = d.nextJob := silent_nextJob (evLog_silent d c l f x)
@[simp] theorem evLog_keys (d : Dev) (c l f : Nat) (x : List Byte) : (evLog d c l f x).keys = d.keys := silent_keys (evLog_silent d c l f x)
@[simp] theorem evLog_rng (d : Dev) (c l f : Nat) (x : List Byte) : (evLog d c l f x).rng = d.rng := silent_rng (evLog_silent d c l f x)
@[simp] theorem evLog_acl (d : Dev) (c l f : Nat) (x : List Byte) : (evLog d c l f x).acl = d.acl := silent_acl (evLog_silent d c l f x)
@[simp] theorem evLog_pot (d : Dev) (c l f : Nat) (x : List Byte) : (evLog d c l f x).pot = d.pot := silent_pot (evLog_silent d c l f x)
@[simp] theorem evLog_crd (d : Dev) (c l f : Nat) (x : List Byte) : (evLog d c l f x).crd = d.crd := silent_crd (evLog_silent d c l f x)
@[simp] theorem evLog_lcs (d : Dev) (c l f : Nat) (x : List Byte) : (evLog d c l f x).lcs = d.lcs := silent_lcs (evLog_silent d c l f x)
@[simp] theorem evLog_tmp (d : Dev) (c l f : Nat) (x : List Byte) : (evLog d c l f x).tmp = d.tmp := silent_tmp (evLog_silent d c l f x)
@[simp] theorem evLog_bat (d : Dev) (c l f : Nat) (x : List Byte) : (evLog d c l f x).bat = d.bat := silent_bat (evLog_silent d c l f x)
@[simp] theorem evLog_guards (d : Dev) (c l f : Nat) (x : List Byte) : (evLog d c l f x).guards = d.guards := silent_guards (evLog_silent d c l f x)
@[simp] theorem evLog_pwr (d : Dev) (c l f : Nat) (x : List Byte) : (evLog d c l f x).pwr = d.pwr := silent_pwr (evLog_silent d c l f x)
@[simp] theorem evLog_svc (d : Dev) (c l f : Nat) (x : List Byte) : (evLog d c l f x).svc = d.svc := silent_svc (evLog_silent d c l f x)
@[simp] theorem evLog_twn (d : Dev) (c l f : Nat) (x : List Byte) : (evLog d c l f x).twn = d.twn := silent_twn (evLog_silent d c l f x)
@[simp] theorem evLog_mgt (d : Dev) (c l f : Nat) (x : List Byte) : (evLog d c l f x).mgt = d.mgt := silent_mgt (evLog_silent d c l f x)
@[simp] theorem evLog_free (d : Dev) (c l f : Nat) (x : List Byte) : (evLog d c l f x).free = d.free := silent_free (evLog_silent d c l f x)

/-! ### lockHit -/

@[simp] theorem lockHit_gj7716 (d : Dev) (i : Ini) (p o : Nat) : (lockHit d i p o).gj7716 = d.gj7716 := silent_gj7716 (lockHit_silent d i p o)
@[simp] theorem lockHit_grade (d : Dev) (i : Ini) (p o : Nat) : (lockHit d i p o).grade = d.grade := silent_grade (lockHit_silent d i p o)
@[simp] theorem lockHit_tick (d : Dev) (i : Ini) (p o : Nat) : (lockHit d i p o).tick = d.tick := silent_tick (lockHit_silent d i p o)
@[simp] theorem lockHit_cyc (d : Dev) (i : Ini) (p o : Nat) : (lockHit d i p o).cyc = d.cyc := silent_cyc (lockHit_silent d i p o)
@[simp] theorem lockHit_cutDone (d : Dev) (i : Ini) (p o : Nat) : (lockHit d i p o).cutDone = d.cutDone := silent_cutDone (lockHit_silent d i p o)
@[simp] theorem lockHit_records (d : Dev) (i : Ini) (p o : Nat) : (lockHit d i p o).records = d.records := silent_records (lockHit_silent d i p o)
@[simp] theorem lockHit_ties (d : Dev) (i : Ini) (p o : Nat) : (lockHit d i p o).ties = d.ties := silent_ties (lockHit_silent d i p o)
@[simp] theorem lockHit_units (d : Dev) (i : Ini) (p o : Nat) : (lockHit d i p o).units = d.units := silent_units (lockHit_silent d i p o)
@[simp] theorem lockHit_wings (d : Dev) (i : Ini) (p o : Nat) : (lockHit d i p o).wings = d.wings := silent_wings (lockHit_silent d i p o)
@[simp] theorem lockHit_fns (d : Dev) (i : Ini) (p o : Nat) : (lockHit d i p o).fns = d.fns := silent_fns (lockHit_silent d i p o)
@[simp] theorem lockHit_queues (d : Dev) (i : Ini) (p o : Nat) : (lockHit d i p o).queues = d.queues := silent_queues (lockHit_silent d i p o)
@[simp] theorem lockHit_ports (d : Dev) (i : Ini) (p o : Nat) : (lockHit d i p o).ports = d.ports := silent_ports (lockHit_silent d i p o)
@[simp] theorem lockHit_jobs (d : Dev) (i : Ini) (p o : Nat) : (lockHit d i p o).jobs = d.jobs := silent_jobs (lockHit_silent d i p o)
@[simp] theorem lockHit_nextJob (d : Dev) (i : Ini) (p o : Nat) : (lockHit d i p o).nextJob = d.nextJob := silent_nextJob (lockHit_silent d i p o)
@[simp] theorem lockHit_keys (d : Dev) (i : Ini) (p o : Nat) : (lockHit d i p o).keys = d.keys := silent_keys (lockHit_silent d i p o)
@[simp] theorem lockHit_rng (d : Dev) (i : Ini) (p o : Nat) : (lockHit d i p o).rng = d.rng := silent_rng (lockHit_silent d i p o)
@[simp] theorem lockHit_acl (d : Dev) (i : Ini) (p o : Nat) : (lockHit d i p o).acl = d.acl := silent_acl (lockHit_silent d i p o)
@[simp] theorem lockHit_pot (d : Dev) (i : Ini) (p o : Nat) : (lockHit d i p o).pot = d.pot := silent_pot (lockHit_silent d i p o)
@[simp] theorem lockHit_crd (d : Dev) (i : Ini) (p o : Nat) : (lockHit d i p o).crd = d.crd := silent_crd (lockHit_silent d i p o)
@[simp] theorem lockHit_lcs (d : Dev) (i : Ini) (p o : Nat) : (lockHit d i p o).lcs = d.lcs := silent_lcs (lockHit_silent d i p o)
@[simp] theorem lockHit_tmp (d : Dev) (i : Ini) (p o : Nat) : (lockHit d i p o).tmp = d.tmp := silent_tmp (lockHit_silent d i p o)
@[simp] theorem lockHit_bat (d : Dev) (i : Ini) (p o : Nat) : (lockHit d i p o).bat = d.bat := silent_bat (lockHit_silent d i p o)
@[simp] theorem lockHit_guards (d : Dev) (i : Ini) (p o : Nat) : (lockHit d i p o).guards = d.guards := silent_guards (lockHit_silent d i p o)
@[simp] theorem lockHit_pwr (d : Dev) (i : Ini) (p o : Nat) : (lockHit d i p o).pwr = d.pwr := silent_pwr (lockHit_silent d i p o)
@[simp] theorem lockHit_svc (d : Dev) (i : Ini) (p o : Nat) : (lockHit d i p o).svc = d.svc := silent_svc (lockHit_silent d i p o)
@[simp] theorem lockHit_twn (d : Dev) (i : Ini) (p o : Nat) : (lockHit d i p o).twn = d.twn := silent_twn (lockHit_silent d i p o)
@[simp] theorem lockHit_mgt (d : Dev) (i : Ini) (p o : Nat) : (lockHit d i p o).mgt = d.mgt := silent_mgt (lockHit_silent d i p o)
@[simp] theorem lockHit_free (d : Dev) (i : Ini) (p o : Nat) : (lockHit d i p o).free = d.free := silent_free (lockHit_silent d i p o)

/-! ### violate -/

@[simp] theorem violate_gj7716 (d : Dev) (i : Ini) (a n : Nat) (t : TxnKind) (x : Bool) (r : Nat) : (violate d i a n t x r).gj7716 = d.gj7716 := unlogged_gj7716 (violate_unlogged d i a n t x r)
@[simp] theorem violate_grade (d : Dev) (i : Ini) (a n : Nat) (t : TxnKind) (x : Bool) (r : Nat) : (violate d i a n t x r).grade = d.grade := unlogged_grade (violate_unlogged d i a n t x r)
@[simp] theorem violate_tick (d : Dev) (i : Ini) (a n : Nat) (t : TxnKind) (x : Bool) (r : Nat) : (violate d i a n t x r).tick = d.tick := unlogged_tick (violate_unlogged d i a n t x r)
@[simp] theorem violate_cyc (d : Dev) (i : Ini) (a n : Nat) (t : TxnKind) (x : Bool) (r : Nat) : (violate d i a n t x r).cyc = d.cyc := unlogged_cyc (violate_unlogged d i a n t x r)
@[simp] theorem violate_cutDone (d : Dev) (i : Ini) (a n : Nat) (t : TxnKind) (x : Bool) (r : Nat) : (violate d i a n t x r).cutDone = d.cutDone := unlogged_cutDone (violate_unlogged d i a n t x r)
@[simp] theorem violate_records (d : Dev) (i : Ini) (a n : Nat) (t : TxnKind) (x : Bool) (r : Nat) : (violate d i a n t x r).records = d.records := unlogged_records (violate_unlogged d i a n t x r)
@[simp] theorem violate_ties (d : Dev) (i : Ini) (a n : Nat) (t : TxnKind) (x : Bool) (r : Nat) : (violate d i a n t x r).ties = d.ties := unlogged_ties (violate_unlogged d i a n t x r)
@[simp] theorem violate_units (d : Dev) (i : Ini) (a n : Nat) (t : TxnKind) (x : Bool) (r : Nat) : (violate d i a n t x r).units = d.units := unlogged_units (violate_unlogged d i a n t x r)
@[simp] theorem violate_wings (d : Dev) (i : Ini) (a n : Nat) (t : TxnKind) (x : Bool) (r : Nat) : (violate d i a n t x r).wings = d.wings := unlogged_wings (violate_unlogged d i a n t x r)
@[simp] theorem violate_fns (d : Dev) (i : Ini) (a n : Nat) (t : TxnKind) (x : Bool) (r : Nat) : (violate d i a n t x r).fns = d.fns := unlogged_fns (violate_unlogged d i a n t x r)
@[simp] theorem violate_queues (d : Dev) (i : Ini) (a n : Nat) (t : TxnKind) (x : Bool) (r : Nat) : (violate d i a n t x r).queues = d.queues := unlogged_queues (violate_unlogged d i a n t x r)
@[simp] theorem violate_ports (d : Dev) (i : Ini) (a n : Nat) (t : TxnKind) (x : Bool) (r : Nat) : (violate d i a n t x r).ports = d.ports := unlogged_ports (violate_unlogged d i a n t x r)
@[simp] theorem violate_jobs (d : Dev) (i : Ini) (a n : Nat) (t : TxnKind) (x : Bool) (r : Nat) : (violate d i a n t x r).jobs = d.jobs := unlogged_jobs (violate_unlogged d i a n t x r)
@[simp] theorem violate_nextJob (d : Dev) (i : Ini) (a n : Nat) (t : TxnKind) (x : Bool) (r : Nat) : (violate d i a n t x r).nextJob = d.nextJob := unlogged_nextJob (violate_unlogged d i a n t x r)
@[simp] theorem violate_keys (d : Dev) (i : Ini) (a n : Nat) (t : TxnKind) (x : Bool) (r : Nat) : (violate d i a n t x r).keys = d.keys := unlogged_keys (violate_unlogged d i a n t x r)
@[simp] theorem violate_rng (d : Dev) (i : Ini) (a n : Nat) (t : TxnKind) (x : Bool) (r : Nat) : (violate d i a n t x r).rng = d.rng := unlogged_rng (violate_unlogged d i a n t x r)
@[simp] theorem violate_pot (d : Dev) (i : Ini) (a n : Nat) (t : TxnKind) (x : Bool) (r : Nat) : (violate d i a n t x r).pot = d.pot := unlogged_pot (violate_unlogged d i a n t x r)
@[simp] theorem violate_crd (d : Dev) (i : Ini) (a n : Nat) (t : TxnKind) (x : Bool) (r : Nat) : (violate d i a n t x r).crd = d.crd := unlogged_crd (violate_unlogged d i a n t x r)
@[simp] theorem violate_lcs (d : Dev) (i : Ini) (a n : Nat) (t : TxnKind) (x : Bool) (r : Nat) : (violate d i a n t x r).lcs = d.lcs := unlogged_lcs (violate_unlogged d i a n t x r)
@[simp] theorem violate_tmp (d : Dev) (i : Ini) (a n : Nat) (t : TxnKind) (x : Bool) (r : Nat) : (violate d i a n t x r).tmp = d.tmp := unlogged_tmp (violate_unlogged d i a n t x r)
@[simp] theorem violate_bat (d : Dev) (i : Ini) (a n : Nat) (t : TxnKind) (x : Bool) (r : Nat) : (violate d i a n t x r).bat = d.bat := unlogged_bat (violate_unlogged d i a n t x r)
@[simp] theorem violate_guards (d : Dev) (i : Ini) (a n : Nat) (t : TxnKind) (x : Bool) (r : Nat) : (violate d i a n t x r).guards = d.guards := unlogged_guards (violate_unlogged d i a n t x r)
@[simp] theorem violate_pwr (d : Dev) (i : Ini) (a n : Nat) (t : TxnKind) (x : Bool) (r : Nat) : (violate d i a n t x r).pwr = d.pwr := unlogged_pwr (violate_unlogged d i a n t x r)
@[simp] theorem violate_svc (d : Dev) (i : Ini) (a n : Nat) (t : TxnKind) (x : Bool) (r : Nat) : (violate d i a n t x r).svc = d.svc := unlogged_svc (violate_unlogged d i a n t x r)
@[simp] theorem violate_twn (d : Dev) (i : Ini) (a n : Nat) (t : TxnKind) (x : Bool) (r : Nat) : (violate d i a n t x r).twn = d.twn := unlogged_twn (violate_unlogged d i a n t x r)
@[simp] theorem violate_mgt (d : Dev) (i : Ini) (a n : Nat) (t : TxnKind) (x : Bool) (r : Nat) : (violate d i a n t x r).mgt = d.mgt := unlogged_mgt (violate_unlogged d i a n t x r)
@[simp] theorem violate_free (d : Dev) (i : Ini) (a n : Nat) (t : TxnKind) (x : Bool) (r : Nat) : (violate d i a n t x r).free = d.free := unlogged_free (violate_unlogged d i a n t x r)

/-! ### ignored -/

@[simp] theorem ignored_gj7716 (d : Dev) (i : Ini) (a : Nat) : (ignored d i a).gj7716 = d.gj7716 := unlogged_gj7716 (ignored_unlogged d i a)
@[simp] theorem ignored_grade (d : Dev) (i : Ini) (a : Nat) : (ignored d i a).grade = d.grade := unlogged_grade (ignored_unlogged d i a)
@[simp] theorem ignored_tick (d : Dev) (i : Ini) (a : Nat) : (ignored d i a).tick = d.tick := unlogged_tick (ignored_unlogged d i a)
@[simp] theorem ignored_cyc (d : Dev) (i : Ini) (a : Nat) : (ignored d i a).cyc = d.cyc := unlogged_cyc (ignored_unlogged d i a)
@[simp] theorem ignored_cutDone (d : Dev) (i : Ini) (a : Nat) : (ignored d i a).cutDone = d.cutDone := unlogged_cutDone (ignored_unlogged d i a)
@[simp] theorem ignored_records (d : Dev) (i : Ini) (a : Nat) : (ignored d i a).records = d.records := unlogged_records (ignored_unlogged d i a)
@[simp] theorem ignored_ties (d : Dev) (i : Ini) (a : Nat) : (ignored d i a).ties = d.ties := unlogged_ties (ignored_unlogged d i a)
@[simp] theorem ignored_units (d : Dev) (i : Ini) (a : Nat) : (ignored d i a).units = d.units := unlogged_units (ignored_unlogged d i a)
@[simp] theorem ignored_wings (d : Dev) (i : Ini) (a : Nat) : (ignored d i a).wings = d.wings := unlogged_wings (ignored_unlogged d i a)
@[simp] theorem ignored_fns (d : Dev) (i : Ini) (a : Nat) : (ignored d i a).fns = d.fns := unlogged_fns (ignored_unlogged d i a)
@[simp] theorem ignored_queues (d : Dev) (i : Ini) (a : Nat) : (ignored d i a).queues = d.queues := unlogged_queues (ignored_unlogged d i a)
@[simp] theorem ignored_ports (d : Dev) (i : Ini) (a : Nat) : (ignored d i a).ports = d.ports := unlogged_ports (ignored_unlogged d i a)
@[simp] theorem ignored_jobs (d : Dev) (i : Ini) (a : Nat) : (ignored d i a).jobs = d.jobs := unlogged_jobs (ignored_unlogged d i a)
@[simp] theorem ignored_nextJob (d : Dev) (i : Ini) (a : Nat) : (ignored d i a).nextJob = d.nextJob := unlogged_nextJob (ignored_unlogged d i a)
@[simp] theorem ignored_keys (d : Dev) (i : Ini) (a : Nat) : (ignored d i a).keys = d.keys := unlogged_keys (ignored_unlogged d i a)
@[simp] theorem ignored_rng (d : Dev) (i : Ini) (a : Nat) : (ignored d i a).rng = d.rng := unlogged_rng (ignored_unlogged d i a)
@[simp] theorem ignored_pot (d : Dev) (i : Ini) (a : Nat) : (ignored d i a).pot = d.pot := unlogged_pot (ignored_unlogged d i a)
@[simp] theorem ignored_crd (d : Dev) (i : Ini) (a : Nat) : (ignored d i a).crd = d.crd := unlogged_crd (ignored_unlogged d i a)
@[simp] theorem ignored_lcs (d : Dev) (i : Ini) (a : Nat) : (ignored d i a).lcs = d.lcs := unlogged_lcs (ignored_unlogged d i a)
@[simp] theorem ignored_tmp (d : Dev) (i : Ini) (a : Nat) : (ignored d i a).tmp = d.tmp := unlogged_tmp (ignored_unlogged d i a)
@[simp] theorem ignored_bat (d : Dev) (i : Ini) (a : Nat) : (ignored d i a).bat = d.bat := unlogged_bat (ignored_unlogged d i a)
@[simp] theorem ignored_guards (d : Dev) (i : Ini) (a : Nat) : (ignored d i a).guards = d.guards := unlogged_guards (ignored_unlogged d i a)
@[simp] theorem ignored_pwr (d : Dev) (i : Ini) (a : Nat) : (ignored d i a).pwr = d.pwr := unlogged_pwr (ignored_unlogged d i a)
@[simp] theorem ignored_svc (d : Dev) (i : Ini) (a : Nat) : (ignored d i a).svc = d.svc := unlogged_svc (ignored_unlogged d i a)
@[simp] theorem ignored_twn (d : Dev) (i : Ini) (a : Nat) : (ignored d i a).twn = d.twn := unlogged_twn (ignored_unlogged d i a)
@[simp] theorem ignored_mgt (d : Dev) (i : Ini) (a : Nat) : (ignored d i a).mgt = d.mgt := unlogged_mgt (ignored_unlogged d i a)
@[simp] theorem ignored_free (d : Dev) (i : Ini) (a : Nat) : (ignored d i a).free = d.free := unlogged_free (ignored_unlogged d i a)

/-! ### Fields of the MRAM and of the access control that reports keep -/

theorem silent_nv_cellar {a b : Dev} (h : a.silent = b.silent) : a.nv.cellar = b.nv.cellar := by
  have := congrArg (fun d : Dev => d.nv.cellar) h; exact this
theorem unlogged_nv_cellar {a b : Dev} (h : a.unlogged = b.unlogged) : a.nv.cellar = b.nv.cellar := by
  have := congrArg (fun d : Dev => d.nv.cellar) h; exact this
@[simp] theorem evLog_nv_cellar (d : Dev) (c l f : Nat) (x : List Byte) : (evLog d c l f x).nv.cellar = d.nv.cellar := silent_nv_cellar (evLog_silent d c l f x)
@[simp] theorem violate_nv_cellar (d : Dev) (i : Ini) (a n : Nat) (t : TxnKind) (x : Bool) (r : Nat) : (violate d i a n t x r).nv.cellar = d.nv.cellar := unlogged_nv_cellar (violate_unlogged d i a n t x r)
@[simp] theorem ignored_nv_cellar (d : Dev) (i : Ini) (a : Nat) : (ignored d i a).nv.cellar = d.nv.cellar := unlogged_nv_cellar (ignored_unlogged d i a)
theorem silent_nv_old {a b : Dev} (h : a.silent = b.silent) : a.nv.old = b.nv.old := by
  have := congrArg (fun d : Dev => d.nv.old) h; exact this
theorem unlogged_nv_old {a b : Dev} (h : a.unlogged = b.unlogged) : a.nv.old = b.nv.old := by
  have := congrArg (fun d : Dev => d.nv.old) h; exact this
@[simp] theorem evLog_nv_old (d : Dev) (c l f : Nat) (x : List Byte) : (evLog d c l f x).nv.old = d.nv.old := silent_nv_old (evLog_silent d c l f x)
@[simp] theorem violate_nv_old (d : Dev) (i : Ini) (a n : Nat) (t : TxnKind) (x : Bool) (r : Nat) : (violate d i a n t x r).nv.old = d.nv.old := unlogged_nv_old (violate_unlogged d i a n t x r)
@[simp] theorem ignored_nv_old (d : Dev) (i : Ini) (a : Nat) : (ignored d i a).nv.old = d.nv.old := unlogged_nv_old (ignored_unlogged d i a)
theorem silent_nv_tenants {a b : Dev} (h : a.silent = b.silent) : a.nv.tenants = b.nv.tenants := by
  have := congrArg (fun d : Dev => d.nv.tenants) h; exact this
theorem unlogged_nv_tenants {a b : Dev} (h : a.unlogged = b.unlogged) : a.nv.tenants = b.nv.tenants := by
  have := congrArg (fun d : Dev => d.nv.tenants) h; exact this
@[simp] theorem evLog_nv_tenants (d : Dev) (c l f : Nat) (x : List Byte) : (evLog d c l f x).nv.tenants = d.nv.tenants := silent_nv_tenants (evLog_silent d c l f x)
@[simp] theorem violate_nv_tenants (d : Dev) (i : Ini) (a n : Nat) (t : TxnKind) (x : Bool) (r : Nat) : (violate d i a n t x r).nv.tenants = d.nv.tenants := unlogged_nv_tenants (violate_unlogged d i a n t x r)
@[simp] theorem ignored_nv_tenants (d : Dev) (i : Ini) (a : Nat) : (ignored d i a).nv.tenants = d.nv.tenants := unlogged_nv_tenants (ignored_unlogged d i a)
theorem silent_nv_planSeq {a b : Dev} (h : a.silent = b.silent) : a.nv.planSeq = b.nv.planSeq := by
  have := congrArg (fun d : Dev => d.nv.planSeq) h; exact this
theorem unlogged_nv_planSeq {a b : Dev} (h : a.unlogged = b.unlogged) : a.nv.planSeq = b.nv.planSeq := by
  have := congrArg (fun d : Dev => d.nv.planSeq) h; exact this
@[simp] theorem evLog_nv_planSeq (d : Dev) (c l f : Nat) (x : List Byte) : (evLog d c l f x).nv.planSeq = d.nv.planSeq := silent_nv_planSeq (evLog_silent d c l f x)
@[simp] theorem violate_nv_planSeq (d : Dev) (i : Ini) (a n : Nat) (t : TxnKind) (x : Bool) (r : Nat) : (violate d i a n t x r).nv.planSeq = d.nv.planSeq := unlogged_nv_planSeq (violate_unlogged d i a n t x r)
@[simp] theorem ignored_nv_planSeq (d : Dev) (i : Ini) (a : Nat) : (ignored d i a).nv.planSeq = d.nv.planSeq := unlogged_nv_planSeq (ignored_unlogged d i a)
theorem silent_nv_nextRecord {a b : Dev} (h : a.silent = b.silent) : a.nv.nextRecord = b.nv.nextRecord := by
  have := congrArg (fun d : Dev => d.nv.nextRecord) h; exact this
theorem unlogged_nv_nextRecord {a b : Dev} (h : a.unlogged = b.unlogged) : a.nv.nextRecord = b.nv.nextRecord := by
  have := congrArg (fun d : Dev => d.nv.nextRecord) h; exact this
@[simp] theorem evLog_nv_nextRecord (d : Dev) (c l f : Nat) (x : List Byte) : (evLog d c l f x).nv.nextRecord = d.nv.nextRecord := silent_nv_nextRecord (evLog_silent d c l f x)
@[simp] theorem violate_nv_nextRecord (d : Dev) (i : Ini) (a n : Nat) (t : TxnKind) (x : Bool) (r : Nat) : (violate d i a n t x r).nv.nextRecord = d.nv.nextRecord := unlogged_nv_nextRecord (violate_unlogged d i a n t x r)
@[simp] theorem ignored_nv_nextRecord (d : Dev) (i : Ini) (a : Nat) : (ignored d i a).nv.nextRecord = d.nv.nextRecord := unlogged_nv_nextRecord (ignored_unlogged d i a)
theorem silent_nv_nextKey {a b : Dev} (h : a.silent = b.silent) : a.nv.nextKey = b.nv.nextKey := by
  have := congrArg (fun d : Dev => d.nv.nextKey) h; exact this
theorem unlogged_nv_nextKey {a b : Dev} (h : a.unlogged = b.unlogged) : a.nv.nextKey = b.nv.nextKey := by
  have := congrArg (fun d : Dev => d.nv.nextKey) h; exact this
@[simp] theorem evLog_nv_nextKey (d : Dev) (c l f : Nat) (x : List Byte) : (evLog d c l f x).nv.nextKey = d.nv.nextKey := silent_nv_nextKey (evLog_silent d c l f x)
@[simp] theorem violate_nv_nextKey (d : Dev) (i : Ini) (a n : Nat) (t : TxnKind) (x : Bool) (r : Nat) : (violate d i a n t x r).nv.nextKey = d.nv.nextKey := unlogged_nv_nextKey (violate_unlogged d i a n t x r)
@[simp] theorem ignored_nv_nextKey (d : Dev) (i : Ini) (a : Nat) : (ignored d i a).nv.nextKey = d.nv.nextKey := unlogged_nv_nextKey (ignored_unlogged d i a)
theorem silent_nv_commit {a b : Dev} (h : a.silent = b.silent) : a.nv.commit = b.nv.commit := by
  have := congrArg (fun d : Dev => d.nv.commit) h; exact this
theorem unlogged_nv_commit {a b : Dev} (h : a.unlogged = b.unlogged) : a.nv.commit = b.nv.commit := by
  have := congrArg (fun d : Dev => d.nv.commit) h; exact this
@[simp] theorem evLog_nv_commit (d : Dev) (c l f : Nat) (x : List Byte) : (evLog d c l f x).nv.commit = d.nv.commit := silent_nv_commit (evLog_silent d c l f x)
@[simp] theorem violate_nv_commit (d : Dev) (i : Ini) (a n : Nat) (t : TxnKind) (x : Bool) (r : Nat) : (violate d i a n t x r).nv.commit = d.nv.commit := unlogged_nv_commit (violate_unlogged d i a n t x r)
@[simp] theorem ignored_nv_commit (d : Dev) (i : Ini) (a : Nat) : (ignored d i a).nv.commit = d.nv.commit := unlogged_nv_commit (ignored_unlogged d i a)
theorem silent_nv_custodyA {a b : Dev} (h : a.silent = b.silent) : a.nv.custodyA = b.nv.custodyA := by
  have := congrArg (fun d : Dev => d.nv.custodyA) h; exact this
theorem unlogged_nv_custodyA {a b : Dev} (h : a.unlogged = b.unlogged) : a.nv.custodyA = b.nv.custodyA := by
  have := congrArg (fun d : Dev => d.nv.custodyA) h; exact this
@[simp] theorem evLog_nv_custodyA (d : Dev) (c l f : Nat) (x : List Byte) : (evLog d c l f x).nv.custodyA = d.nv.custodyA := silent_nv_custodyA (evLog_silent d c l f x)
@[simp] theorem violate_nv_custodyA (d : Dev) (i : Ini) (a n : Nat) (t : TxnKind) (x : Bool) (r : Nat) : (violate d i a n t x r).nv.custodyA = d.nv.custodyA := unlogged_nv_custodyA (violate_unlogged d i a n t x r)
@[simp] theorem ignored_nv_custodyA (d : Dev) (i : Ini) (a : Nat) : (ignored d i a).nv.custodyA = d.nv.custodyA := unlogged_nv_custodyA (ignored_unlogged d i a)
theorem silent_nv_custodyB {a b : Dev} (h : a.silent = b.silent) : a.nv.custodyB = b.nv.custodyB := by
  have := congrArg (fun d : Dev => d.nv.custodyB) h; exact this
theorem unlogged_nv_custodyB {a b : Dev} (h : a.unlogged = b.unlogged) : a.nv.custodyB = b.nv.custodyB := by
  have := congrArg (fun d : Dev => d.nv.custodyB) h; exact this
@[simp] theorem evLog_nv_custodyB (d : Dev) (c l f : Nat) (x : List Byte) : (evLog d c l f x).nv.custodyB = d.nv.custodyB := silent_nv_custodyB (evLog_silent d c l f x)
@[simp] theorem violate_nv_custodyB (d : Dev) (i : Ini) (a n : Nat) (t : TxnKind) (x : Bool) (r : Nat) : (violate d i a n t x r).nv.custodyB = d.nv.custodyB := unlogged_nv_custodyB (violate_unlogged d i a n t x r)
@[simp] theorem ignored_nv_custodyB (d : Dev) (i : Ini) (a : Nat) : (ignored d i a).nv.custodyB = d.nv.custodyB := unlogged_nv_custodyB (ignored_unlogged d i a)
theorem silent_nv_sessionNext {a b : Dev} (h : a.silent = b.silent) : a.nv.sessionNext = b.nv.sessionNext := by
  have := congrArg (fun d : Dev => d.nv.sessionNext) h; exact this
theorem unlogged_nv_sessionNext {a b : Dev} (h : a.unlogged = b.unlogged) : a.nv.sessionNext = b.nv.sessionNext := by
  have := congrArg (fun d : Dev => d.nv.sessionNext) h; exact this
@[simp] theorem evLog_nv_sessionNext (d : Dev) (c l f : Nat) (x : List Byte) : (evLog d c l f x).nv.sessionNext = d.nv.sessionNext := silent_nv_sessionNext (evLog_silent d c l f x)
@[simp] theorem violate_nv_sessionNext (d : Dev) (i : Ini) (a n : Nat) (t : TxnKind) (x : Bool) (r : Nat) : (violate d i a n t x r).nv.sessionNext = d.nv.sessionNext := unlogged_nv_sessionNext (violate_unlogged d i a n t x r)
@[simp] theorem ignored_nv_sessionNext (d : Dev) (i : Ini) (a : Nat) : (ignored d i a).nv.sessionNext = d.nv.sessionNext := unlogged_nv_sessionNext (ignored_unlogged d i a)
theorem silent_nv_journal {a b : Dev} (h : a.silent = b.silent) : a.nv.journal = b.nv.journal := by
  have := congrArg (fun d : Dev => d.nv.journal) h; exact this
theorem unlogged_nv_journal {a b : Dev} (h : a.unlogged = b.unlogged) : a.nv.journal = b.nv.journal := by
  have := congrArg (fun d : Dev => d.nv.journal) h; exact this
@[simp] theorem evLog_nv_journal (d : Dev) (c l f : Nat) (x : List Byte) : (evLog d c l f x).nv.journal = d.nv.journal := silent_nv_journal (evLog_silent d c l f x)
@[simp] theorem violate_nv_journal (d : Dev) (i : Ini) (a n : Nat) (t : TxnKind) (x : Bool) (r : Nat) : (violate d i a n t x r).nv.journal = d.nv.journal := unlogged_nv_journal (violate_unlogged d i a n t x r)
@[simp] theorem ignored_nv_journal (d : Dev) (i : Ini) (a : Nat) : (ignored d i a).nv.journal = d.nv.journal := unlogged_nv_journal (ignored_unlogged d i a)
theorem silent_nv_lostKeys {a b : Dev} (h : a.silent = b.silent) : a.nv.lostKeys = b.nv.lostKeys := by
  have := congrArg (fun d : Dev => d.nv.lostKeys) h; exact this
theorem unlogged_nv_lostKeys {a b : Dev} (h : a.unlogged = b.unlogged) : a.nv.lostKeys = b.nv.lostKeys := by
  have := congrArg (fun d : Dev => d.nv.lostKeys) h; exact this
@[simp] theorem evLog_nv_lostKeys (d : Dev) (c l f : Nat) (x : List Byte) : (evLog d c l f x).nv.lostKeys = d.nv.lostKeys := silent_nv_lostKeys (evLog_silent d c l f x)
@[simp] theorem violate_nv_lostKeys (d : Dev) (i : Ini) (a n : Nat) (t : TxnKind) (x : Bool) (r : Nat) : (violate d i a n t x r).nv.lostKeys = d.nv.lostKeys := unlogged_nv_lostKeys (violate_unlogged d i a n t x r)
@[simp] theorem ignored_nv_lostKeys (d : Dev) (i : Ini) (a : Nat) : (ignored d i a).nv.lostKeys = d.nv.lostKeys := unlogged_nv_lostKeys (ignored_unlogged d i a)
theorem silent_nv_imgSigner {a b : Dev} (h : a.silent = b.silent) : a.nv.imgSigner = b.nv.imgSigner := by
  have := congrArg (fun d : Dev => d.nv.imgSigner) h; exact this
theorem unlogged_nv_imgSigner {a b : Dev} (h : a.unlogged = b.unlogged) : a.nv.imgSigner = b.nv.imgSigner := by
  have := congrArg (fun d : Dev => d.nv.imgSigner) h; exact this
@[simp] theorem evLog_nv_imgSigner (d : Dev) (c l f : Nat) (x : List Byte) : (evLog d c l f x).nv.imgSigner = d.nv.imgSigner := silent_nv_imgSigner (evLog_silent d c l f x)
@[simp] theorem violate_nv_imgSigner (d : Dev) (i : Ini) (a n : Nat) (t : TxnKind) (x : Bool) (r : Nat) : (violate d i a n t x r).nv.imgSigner = d.nv.imgSigner := unlogged_nv_imgSigner (violate_unlogged d i a n t x r)
@[simp] theorem ignored_nv_imgSigner (d : Dev) (i : Ini) (a : Nat) : (ignored d i a).nv.imgSigner = d.nv.imgSigner := unlogged_nv_imgSigner (ignored_unlogged d i a)
theorem silent_nv_pcycles {a b : Dev} (h : a.silent = b.silent) : a.nv.pcycles = b.nv.pcycles := by
  have := congrArg (fun d : Dev => d.nv.pcycles) h; exact this
theorem unlogged_nv_pcycles {a b : Dev} (h : a.unlogged = b.unlogged) : a.nv.pcycles = b.nv.pcycles := by
  have := congrArg (fun d : Dev => d.nv.pcycles) h; exact this
@[simp] theorem evLog_nv_pcycles (d : Dev) (c l f : Nat) (x : List Byte) : (evLog d c l f x).nv.pcycles = d.nv.pcycles := silent_nv_pcycles (evLog_silent d c l f x)
@[simp] theorem violate_nv_pcycles (d : Dev) (i : Ini) (a n : Nat) (t : TxnKind) (x : Bool) (r : Nat) : (violate d i a n t x r).nv.pcycles = d.nv.pcycles := unlogged_nv_pcycles (violate_unlogged d i a n t x r)
@[simp] theorem ignored_nv_pcycles (d : Dev) (i : Ini) (a : Nat) : (ignored d i a).nv.pcycles = d.nv.pcycles := unlogged_nv_pcycles (ignored_unlogged d i a)
theorem silent_nv_hours {a b : Dev} (h : a.silent = b.silent) : a.nv.hours = b.nv.hours := by
  have := congrArg (fun d : Dev => d.nv.hours) h; exact this
theorem unlogged_nv_hours {a b : Dev} (h : a.unlogged = b.unlogged) : a.nv.hours = b.nv.hours := by
  have := congrArg (fun d : Dev => d.nv.hours) h; exact this
@[simp] theorem evLog_nv_hours (d : Dev) (c l f : Nat) (x : List Byte) : (evLog d c l f x).nv.hours = d.nv.hours := silent_nv_hours (evLog_silent d c l f x)
@[simp] theorem violate_nv_hours (d : Dev) (i : Ini) (a n : Nat) (t : TxnKind) (x : Bool) (r : Nat) : (violate d i a n t x r).nv.hours = d.nv.hours := unlogged_nv_hours (violate_unlogged d i a n t x r)
@[simp] theorem ignored_nv_hours (d : Dev) (i : Ini) (a : Nat) : (ignored d i a).nv.hours = d.nv.hours := unlogged_nv_hours (ignored_unlogged d i a)
theorem silent_nv_frac {a b : Dev} (h : a.silent = b.silent) : a.nv.frac = b.nv.frac := by
  have := congrArg (fun d : Dev => d.nv.frac) h; exact this
theorem unlogged_nv_frac {a b : Dev} (h : a.unlogged = b.unlogged) : a.nv.frac = b.nv.frac := by
  have := congrArg (fun d : Dev => d.nv.frac) h; exact this
@[simp] theorem evLog_nv_frac (d : Dev) (c l f : Nat) (x : List Byte) : (evLog d c l f x).nv.frac = d.nv.frac := silent_nv_frac (evLog_silent d c l f x)
@[simp] theorem violate_nv_frac (d : Dev) (i : Ini) (a n : Nat) (t : TxnKind) (x : Bool) (r : Nat) : (violate d i a n t x r).nv.frac = d.nv.frac := unlogged_nv_frac (violate_unlogged d i a n t x r)
@[simp] theorem ignored_nv_frac (d : Dev) (i : Ini) (a : Nat) : (ignored d i a).nv.frac = d.nv.frac := unlogged_nv_frac (ignored_unlogged d i a)
theorem silent_nv_tavg {a b : Dev} (h : a.silent = b.silent) : a.nv.tavg = b.nv.tavg := by
  have := congrArg (fun d : Dev => d.nv.tavg) h; exact this
theorem unlogged_nv_tavg {a b : Dev} (h : a.unlogged = b.unlogged) : a.nv.tavg = b.nv.tavg := by
  have := congrArg (fun d : Dev => d.nv.tavg) h; exact this
@[simp] theorem evLog_nv_tavg (d : Dev) (c l f : Nat) (x : List Byte) : (evLog d c l f x).nv.tavg = d.nv.tavg := silent_nv_tavg (evLog_silent d c l f x)
@[simp] theorem violate_nv_tavg (d : Dev) (i : Ini) (a n : Nat) (t : TxnKind) (x : Bool) (r : Nat) : (violate d i a n t x r).nv.tavg = d.nv.tavg := unlogged_nv_tavg (violate_unlogged d i a n t x r)
@[simp] theorem ignored_nv_tavg (d : Dev) (i : Ini) (a : Nat) : (ignored d i a).nv.tavg = d.nv.tavg := unlogged_nv_tavg (ignored_unlogged d i a)
theorem silent_nv_tpeak {a b : Dev} (h : a.silent = b.silent) : a.nv.tpeak = b.nv.tpeak := by
  have := congrArg (fun d : Dev => d.nv.tpeak) h; exact this
theorem unlogged_nv_tpeak {a b : Dev} (h : a.unlogged = b.unlogged) : a.nv.tpeak = b.nv.tpeak := by
  have := congrArg (fun d : Dev => d.nv.tpeak) h; exact this
@[simp] theorem evLog_nv_tpeak (d : Dev) (c l f : Nat) (x : List Byte) : (evLog d c l f x).nv.tpeak = d.nv.tpeak := silent_nv_tpeak (evLog_silent d c l f x)
@[simp] theorem violate_nv_tpeak (d : Dev) (i : Ini) (a n : Nat) (t : TxnKind) (x : Bool) (r : Nat) : (violate d i a n t x r).nv.tpeak = d.nv.tpeak := unlogged_nv_tpeak (violate_unlogged d i a n t x r)
@[simp] theorem ignored_nv_tpeak (d : Dev) (i : Ini) (a : Nat) : (ignored d i a).nv.tpeak = d.nv.tpeak := unlogged_nv_tpeak (ignored_unlogged d i a)
theorem silent_nv_bands {a b : Dev} (h : a.silent = b.silent) : a.nv.bands = b.nv.bands := by
  have := congrArg (fun d : Dev => d.nv.bands) h; exact this
theorem unlogged_nv_bands {a b : Dev} (h : a.unlogged = b.unlogged) : a.nv.bands = b.nv.bands := by
  have := congrArg (fun d : Dev => d.nv.bands) h; exact this
@[simp] theorem evLog_nv_bands (d : Dev) (c l f : Nat) (x : List Byte) : (evLog d c l f x).nv.bands = d.nv.bands := silent_nv_bands (evLog_silent d c l f x)
@[simp] theorem violate_nv_bands (d : Dev) (i : Ini) (a n : Nat) (t : TxnKind) (x : Bool) (r : Nat) : (violate d i a n t x r).nv.bands = d.nv.bands := unlogged_nv_bands (violate_unlogged d i a n t x r)
@[simp] theorem ignored_nv_bands (d : Dev) (i : Ini) (a : Nat) : (ignored d i a).nv.bands = d.nv.bands := unlogged_nv_bands (ignored_unlogged d i a)
theorem silent_nv_mramW {a b : Dev} (h : a.silent = b.silent) : a.nv.mramW = b.nv.mramW := by
  have := congrArg (fun d : Dev => d.nv.mramW) h; exact this
theorem unlogged_nv_mramW {a b : Dev} (h : a.unlogged = b.unlogged) : a.nv.mramW = b.nv.mramW := by
  have := congrArg (fun d : Dev => d.nv.mramW) h; exact this
@[simp] theorem evLog_nv_mramW (d : Dev) (c l f : Nat) (x : List Byte) : (evLog d c l f x).nv.mramW = d.nv.mramW := silent_nv_mramW (evLog_silent d c l f x)
@[simp] theorem violate_nv_mramW (d : Dev) (i : Ini) (a n : Nat) (t : TxnKind) (x : Bool) (r : Nat) : (violate d i a n t x r).nv.mramW = d.nv.mramW := unlogged_nv_mramW (violate_unlogged d i a n t x r)
@[simp] theorem ignored_nv_mramW (d : Dev) (i : Ini) (a : Nat) : (ignored d i a).nv.mramW = d.nv.mramW := unlogged_nv_mramW (ignored_unlogged d i a)
theorem silent_nv_wear {a b : Dev} (h : a.silent = b.silent) : a.nv.wear = b.nv.wear := by
  have := congrArg (fun d : Dev => d.nv.wear) h; exact this
theorem unlogged_nv_wear {a b : Dev} (h : a.unlogged = b.unlogged) : a.nv.wear = b.nv.wear := by
  have := congrArg (fun d : Dev => d.nv.wear) h; exact this
@[simp] theorem evLog_nv_wear (d : Dev) (c l f : Nat) (x : List Byte) : (evLog d c l f x).nv.wear = d.nv.wear := silent_nv_wear (evLog_silent d c l f x)
@[simp] theorem violate_nv_wear (d : Dev) (i : Ini) (a n : Nat) (t : TxnKind) (x : Bool) (r : Nat) : (violate d i a n t x r).nv.wear = d.nv.wear := unlogged_nv_wear (violate_unlogged d i a n t x r)
@[simp] theorem ignored_nv_wear (d : Dev) (i : Ini) (a : Nat) : (ignored d i a).nv.wear = d.nv.wear := unlogged_nv_wear (ignored_unlogged d i a)
theorem silent_nv_mremap {a b : Dev} (h : a.silent = b.silent) : a.nv.mremap = b.nv.mremap := by
  have := congrArg (fun d : Dev => d.nv.mremap) h; exact this
theorem unlogged_nv_mremap {a b : Dev} (h : a.unlogged = b.unlogged) : a.nv.mremap = b.nv.mremap := by
  have := congrArg (fun d : Dev => d.nv.mremap) h; exact this
@[simp] theorem evLog_nv_mremap (d : Dev) (c l f : Nat) (x : List Byte) : (evLog d c l f x).nv.mremap = d.nv.mremap := silent_nv_mremap (evLog_silent d c l f x)
@[simp] theorem violate_nv_mremap (d : Dev) (i : Ini) (a n : Nat) (t : TxnKind) (x : Bool) (r : Nat) : (violate d i a n t x r).nv.mremap = d.nv.mremap := unlogged_nv_mremap (violate_unlogged d i a n t x r)
@[simp] theorem ignored_nv_mremap (d : Dev) (i : Ini) (a : Nat) : (ignored d i a).nv.mremap = d.nv.mremap := unlogged_nv_mremap (ignored_unlogged d i a)
theorem silent_nv_causes {a b : Dev} (h : a.silent = b.silent) : a.nv.causes = b.nv.causes := by
  have := congrArg (fun d : Dev => d.nv.causes) h; exact this
theorem unlogged_nv_causes {a b : Dev} (h : a.unlogged = b.unlogged) : a.nv.causes = b.nv.causes := by
  have := congrArg (fun d : Dev => d.nv.causes) h; exact this
@[simp] theorem evLog_nv_causes (d : Dev) (c l f : Nat) (x : List Byte) : (evLog d c l f x).nv.causes = d.nv.causes := silent_nv_causes (evLog_silent d c l f x)
@[simp] theorem violate_nv_causes (d : Dev) (i : Ini) (a n : Nat) (t : TxnKind) (x : Bool) (r : Nat) : (violate d i a n t x r).nv.causes = d.nv.causes := unlogged_nv_causes (violate_unlogged d i a n t x r)
@[simp] theorem ignored_nv_causes (d : Dev) (i : Ini) (a : Nat) : (ignored d i a).nv.causes = d.nv.causes := unlogged_nv_causes (ignored_unlogged d i a)
theorem silent_nv_capCause {a b : Dev} (h : a.silent = b.silent) : a.nv.capCause = b.nv.capCause := by
  have := congrArg (fun d : Dev => d.nv.capCause) h; exact this
theorem unlogged_nv_capCause {a b : Dev} (h : a.unlogged = b.unlogged) : a.nv.capCause = b.nv.capCause := by
  have := congrArg (fun d : Dev => d.nv.capCause) h; exact this
@[simp] theorem evLog_nv_capCause (d : Dev) (c l f : Nat) (x : List Byte) : (evLog d c l f x).nv.capCause = d.nv.capCause := silent_nv_capCause (evLog_silent d c l f x)
@[simp] theorem violate_nv_capCause (d : Dev) (i : Ini) (a n : Nat) (t : TxnKind) (x : Bool) (r : Nat) : (violate d i a n t x r).nv.capCause = d.nv.capCause := unlogged_nv_capCause (violate_unlogged d i a n t x r)
@[simp] theorem ignored_nv_capCause (d : Dev) (i : Ini) (a : Nat) : (ignored d i a).nv.capCause = d.nv.capCause := unlogged_nv_capCause (ignored_unlogged d i a)
theorem silent_nv_roles {a b : Dev} (h : a.silent = b.silent) : a.nv.roles = b.nv.roles := by
  have := congrArg (fun d : Dev => d.nv.roles) h; exact this
theorem unlogged_nv_roles {a b : Dev} (h : a.unlogged = b.unlogged) : a.nv.roles = b.nv.roles := by
  have := congrArg (fun d : Dev => d.nv.roles) h; exact this
@[simp] theorem evLog_nv_roles (d : Dev) (c l f : Nat) (x : List Byte) : (evLog d c l f x).nv.roles = d.nv.roles := silent_nv_roles (evLog_silent d c l f x)
@[simp] theorem violate_nv_roles (d : Dev) (i : Ini) (a n : Nat) (t : TxnKind) (x : Bool) (r : Nat) : (violate d i a n t x r).nv.roles = d.nv.roles := unlogged_nv_roles (violate_unlogged d i a n t x r)
@[simp] theorem ignored_nv_roles (d : Dev) (i : Ini) (a : Nat) : (ignored d i a).nv.roles = d.nv.roles := unlogged_nv_roles (ignored_unlogged d i a)
theorem silent_nv_tested {a b : Dev} (h : a.silent = b.silent) : a.nv.tested = b.nv.tested := by
  have := congrArg (fun d : Dev => d.nv.tested) h; exact this
theorem unlogged_nv_tested {a b : Dev} (h : a.unlogged = b.unlogged) : a.nv.tested = b.nv.tested := by
  have := congrArg (fun d : Dev => d.nv.tested) h; exact this
@[simp] theorem evLog_nv_tested (d : Dev) (c l f : Nat) (x : List Byte) : (evLog d c l f x).nv.tested = d.nv.tested := silent_nv_tested (evLog_silent d c l f x)
@[simp] theorem violate_nv_tested (d : Dev) (i : Ini) (a n : Nat) (t : TxnKind) (x : Bool) (r : Nat) : (violate d i a n t x r).nv.tested = d.nv.tested := unlogged_nv_tested (violate_unlogged d i a n t x r)
@[simp] theorem ignored_nv_tested (d : Dev) (i : Ini) (a : Nat) : (ignored d i a).nv.tested = d.nv.tested := unlogged_nv_tested (ignored_unlogged d i a)
theorem silent_nv_deadCores {a b : Dev} (h : a.silent = b.silent) : a.nv.deadCores = b.nv.deadCores := by
  have := congrArg (fun d : Dev => d.nv.deadCores) h; exact this
theorem unlogged_nv_deadCores {a b : Dev} (h : a.unlogged = b.unlogged) : a.nv.deadCores = b.nv.deadCores := by
  have := congrArg (fun d : Dev => d.nv.deadCores) h; exact this
@[simp] theorem evLog_nv_deadCores (d : Dev) (c l f : Nat) (x : List Byte) : (evLog d c l f x).nv.deadCores = d.nv.deadCores := silent_nv_deadCores (evLog_silent d c l f x)
@[simp] theorem violate_nv_deadCores (d : Dev) (i : Ini) (a n : Nat) (t : TxnKind) (x : Bool) (r : Nat) : (violate d i a n t x r).nv.deadCores = d.nv.deadCores := unlogged_nv_deadCores (violate_unlogged d i a n t x r)
@[simp] theorem ignored_nv_deadCores (d : Dev) (i : Ini) (a : Nat) : (ignored d i a).nv.deadCores = d.nv.deadCores := unlogged_nv_deadCores (ignored_unlogged d i a)
theorem silent_nv_deadSrc {a b : Dev} (h : a.silent = b.silent) : a.nv.deadSrc = b.nv.deadSrc := by
  have := congrArg (fun d : Dev => d.nv.deadSrc) h; exact this
theorem unlogged_nv_deadSrc {a b : Dev} (h : a.unlogged = b.unlogged) : a.nv.deadSrc = b.nv.deadSrc := by
  have := congrArg (fun d : Dev => d.nv.deadSrc) h; exact this
@[simp] theorem evLog_nv_deadSrc (d : Dev) (c l f : Nat) (x : List Byte) : (evLog d c l f x).nv.deadSrc = d.nv.deadSrc := silent_nv_deadSrc (evLog_silent d c l f x)
@[simp] theorem violate_nv_deadSrc (d : Dev) (i : Ini) (a n : Nat) (t : TxnKind) (x : Bool) (r : Nat) : (violate d i a n t x r).nv.deadSrc = d.nv.deadSrc := unlogged_nv_deadSrc (violate_unlogged d i a n t x r)
@[simp] theorem ignored_nv_deadSrc (d : Dev) (i : Ini) (a : Nat) : (ignored d i a).nv.deadSrc = d.nv.deadSrc := unlogged_nv_deadSrc (ignored_unlogged d i a)
theorem silent_nv_deadSha {a b : Dev} (h : a.silent = b.silent) : a.nv.deadSha = b.nv.deadSha := by
  have := congrArg (fun d : Dev => d.nv.deadSha) h; exact this
theorem unlogged_nv_deadSha {a b : Dev} (h : a.unlogged = b.unlogged) : a.nv.deadSha = b.nv.deadSha := by
  have := congrArg (fun d : Dev => d.nv.deadSha) h; exact this
@[simp] theorem evLog_nv_deadSha (d : Dev) (c l f : Nat) (x : List Byte) : (evLog d c l f x).nv.deadSha = d.nv.deadSha := silent_nv_deadSha (evLog_silent d c l f x)
@[simp] theorem violate_nv_deadSha (d : Dev) (i : Ini) (a n : Nat) (t : TxnKind) (x : Bool) (r : Nat) : (violate d i a n t x r).nv.deadSha = d.nv.deadSha := unlogged_nv_deadSha (violate_unlogged d i a n t x r)
@[simp] theorem ignored_nv_deadSha (d : Dev) (i : Ini) (a : Nat) : (ignored d i a).nv.deadSha = d.nv.deadSha := unlogged_nv_deadSha (ignored_unlogged d i a)
theorem silent_nv_deadPair {a b : Dev} (h : a.silent = b.silent) : a.nv.deadPair = b.nv.deadPair := by
  have := congrArg (fun d : Dev => d.nv.deadPair) h; exact this
theorem unlogged_nv_deadPair {a b : Dev} (h : a.unlogged = b.unlogged) : a.nv.deadPair = b.nv.deadPair := by
  have := congrArg (fun d : Dev => d.nv.deadPair) h; exact this
@[simp] theorem evLog_nv_deadPair (d : Dev) (c l f : Nat) (x : List Byte) : (evLog d c l f x).nv.deadPair = d.nv.deadPair := silent_nv_deadPair (evLog_silent d c l f x)
@[simp] theorem violate_nv_deadPair (d : Dev) (i : Ini) (a n : Nat) (t : TxnKind) (x : Bool) (r : Nat) : (violate d i a n t x r).nv.deadPair = d.nv.deadPair := unlogged_nv_deadPair (violate_unlogged d i a n t x r)
@[simp] theorem ignored_nv_deadPair (d : Dev) (i : Ini) (a : Nat) : (ignored d i a).nv.deadPair = d.nv.deadPair := unlogged_nv_deadPair (ignored_unlogged d i a)
theorem silent_nv_volts {a b : Dev} (h : a.silent = b.silent) : a.nv.volts = b.nv.volts := by
  have := congrArg (fun d : Dev => d.nv.volts) h; exact this
theorem unlogged_nv_volts {a b : Dev} (h : a.unlogged = b.unlogged) : a.nv.volts = b.nv.volts := by
  have := congrArg (fun d : Dev => d.nv.volts) h; exact this
@[simp] theorem evLog_nv_volts (d : Dev) (c l f : Nat) (x : List Byte) : (evLog d c l f x).nv.volts = d.nv.volts := silent_nv_volts (evLog_silent d c l f x)
@[simp] theorem violate_nv_volts (d : Dev) (i : Ini) (a n : Nat) (t : TxnKind) (x : Bool) (r : Nat) : (violate d i a n t x r).nv.volts = d.nv.volts := unlogged_nv_volts (violate_unlogged d i a n t x r)
@[simp] theorem ignored_nv_volts (d : Dev) (i : Ini) (a : Nat) : (ignored d i a).nv.volts = d.nv.volts := unlogged_nv_volts (ignored_unlogged d i a)
theorem silent_nv_twin {a b : Dev} (h : a.silent = b.silent) : a.nv.twin = b.nv.twin := by
  have := congrArg (fun d : Dev => d.nv.twin) h; exact this
theorem unlogged_nv_twin {a b : Dev} (h : a.unlogged = b.unlogged) : a.nv.twin = b.nv.twin := by
  have := congrArg (fun d : Dev => d.nv.twin) h; exact this
@[simp] theorem evLog_nv_twin (d : Dev) (c l f : Nat) (x : List Byte) : (evLog d c l f x).nv.twin = d.nv.twin := silent_nv_twin (evLog_silent d c l f x)
@[simp] theorem violate_nv_twin (d : Dev) (i : Ini) (a n : Nat) (t : TxnKind) (x : Bool) (r : Nat) : (violate d i a n t x r).nv.twin = d.nv.twin := unlogged_nv_twin (violate_unlogged d i a n t x r)
@[simp] theorem ignored_nv_twin (d : Dev) (i : Ini) (a : Nat) : (ignored d i a).nv.twin = d.nv.twin := unlogged_nv_twin (ignored_unlogged d i a)
theorem silent_nv_evStore {a b : Dev} (h : a.silent = b.silent) : a.nv.evStore = b.nv.evStore := by
  have := congrArg (fun d : Dev => d.nv.evStore) h; exact this
theorem unlogged_nv_evStore {a b : Dev} (h : a.unlogged = b.unlogged) : a.nv.evStore = b.nv.evStore := by
  have := congrArg (fun d : Dev => d.nv.evStore) h; exact this
@[simp] theorem evLog_nv_evStore (d : Dev) (c l f : Nat) (x : List Byte) : (evLog d c l f x).nv.evStore = d.nv.evStore := silent_nv_evStore (evLog_silent d c l f x)
@[simp] theorem violate_nv_evStore (d : Dev) (i : Ini) (a n : Nat) (t : TxnKind) (x : Bool) (r : Nat) : (violate d i a n t x r).nv.evStore = d.nv.evStore := unlogged_nv_evStore (violate_unlogged d i a n t x r)
@[simp] theorem ignored_nv_evStore (d : Dev) (i : Ini) (a : Nat) : (ignored d i a).nv.evStore = d.nv.evStore := unlogged_nv_evStore (ignored_unlogged d i a)
theorem silent_nv_evBad {a b : Dev} (h : a.silent = b.silent) : a.nv.evBad = b.nv.evBad := by
  have := congrArg (fun d : Dev => d.nv.evBad) h; exact this
theorem unlogged_nv_evBad {a b : Dev} (h : a.unlogged = b.unlogged) : a.nv.evBad = b.nv.evBad := by
  have := congrArg (fun d : Dev => d.nv.evBad) h; exact this
@[simp] theorem evLog_nv_evBad (d : Dev) (c l f : Nat) (x : List Byte) : (evLog d c l f x).nv.evBad = d.nv.evBad := silent_nv_evBad (evLog_silent d c l f x)
@[simp] theorem violate_nv_evBad (d : Dev) (i : Ini) (a n : Nat) (t : TxnKind) (x : Bool) (r : Nat) : (violate d i a n t x r).nv.evBad = d.nv.evBad := unlogged_nv_evBad (violate_unlogged d i a n t x r)
@[simp] theorem ignored_nv_evBad (d : Dev) (i : Ini) (a : Nat) : (ignored d i a).nv.evBad = d.nv.evBad := unlogged_nv_evBad (ignored_unlogged d i a)
theorem unlogged_acl_cur {a b : Dev} (h : a.unlogged = b.unlogged) : a.acl.cur = b.acl.cur := by
  have := congrArg (fun d : Dev => d.acl.cur) h; exact this
@[simp] theorem violate_acl_cur (d : Dev) (i : Ini) (a n : Nat) (t : TxnKind) (x : Bool) (r : Nat) : (violate d i a n t x r).acl.cur = d.acl.cur := unlogged_acl_cur (violate_unlogged d i a n t x r)
@[simp] theorem ignored_acl_cur (d : Dev) (i : Ini) (a : Nat) : (ignored d i a).acl.cur = d.acl.cur := unlogged_acl_cur (ignored_unlogged d i a)
theorem unlogged_acl_next {a b : Dev} (h : a.unlogged = b.unlogged) : a.acl.next = b.acl.next := by
  have := congrArg (fun d : Dev => d.acl.next) h; exact this
@[simp] theorem violate_acl_next (d : Dev) (i : Ini) (a n : Nat) (t : TxnKind) (x : Bool) (r : Nat) : (violate d i a n t x r).acl.next = d.acl.next := unlogged_acl_next (violate_unlogged d i a n t x r)
@[simp] theorem ignored_acl_next (d : Dev) (i : Ini) (a : Nat) : (ignored d i a).acl.next = d.acl.next := unlogged_acl_next (ignored_unlogged d i a)
theorem unlogged_acl_drained {a b : Dev} (h : a.unlogged = b.unlogged) : a.acl.drained = b.acl.drained := by
  have := congrArg (fun d : Dev => d.acl.drained) h; exact this
@[simp] theorem violate_acl_drained (d : Dev) (i : Ini) (a n : Nat) (t : TxnKind) (x : Bool) (r : Nat) : (violate d i a n t x r).acl.drained = d.acl.drained := unlogged_acl_drained (violate_unlogged d i a n t x r)
@[simp] theorem ignored_acl_drained (d : Dev) (i : Ini) (a : Nat) : (ignored d i a).acl.drained = d.acl.drained := unlogged_acl_drained (ignored_unlogged d i a)
theorem unlogged_acl_compat {a b : Dev} (h : a.unlogged = b.unlogged) : a.acl.compat = b.acl.compat := by
  have := congrArg (fun d : Dev => d.acl.compat) h; exact this
@[simp] theorem violate_acl_compat (d : Dev) (i : Ini) (a n : Nat) (t : TxnKind) (x : Bool) (r : Nat) : (violate d i a n t x r).acl.compat = d.acl.compat := unlogged_acl_compat (violate_unlogged d i a n t x r)
@[simp] theorem ignored_acl_compat (d : Dev) (i : Ini) (a : Nat) : (ignored d i a).acl.compat = d.acl.compat := unlogged_acl_compat (ignored_unlogged d i a)
theorem unlogged_acl_kidx {a b : Dev} (h : a.unlogged = b.unlogged) : a.acl.kidx = b.acl.kidx := by
  have := congrArg (fun d : Dev => d.acl.kidx) h; exact this
@[simp] theorem violate_acl_kidx (d : Dev) (i : Ini) (a n : Nat) (t : TxnKind) (x : Bool) (r : Nat) : (violate d i a n t x r).acl.kidx = d.acl.kidx := unlogged_acl_kidx (violate_unlogged d i a n t x r)
@[simp] theorem ignored_acl_kidx (d : Dev) (i : Ini) (a : Nat) : (ignored d i a).acl.kidx = d.acl.kidx := unlogged_acl_kidx (ignored_unlogged d i a)
theorem unlogged_acl_pidx {a b : Dev} (h : a.unlogged = b.unlogged) : a.acl.pidx = b.acl.pidx := by
  have := congrArg (fun d : Dev => d.acl.pidx) h; exact this
@[simp] theorem violate_acl_pidx (d : Dev) (i : Ini) (a n : Nat) (t : TxnKind) (x : Bool) (r : Nat) : (violate d i a n t x r).acl.pidx = d.acl.pidx := unlogged_acl_pidx (violate_unlogged d i a n t x r)
@[simp] theorem ignored_acl_pidx (d : Dev) (i : Ini) (a : Nat) : (ignored d i a).acl.pidx = d.acl.pidx := unlogged_acl_pidx (ignored_unlogged d i a)
theorem unlogged_acl_vtail {a b : Dev} (h : a.unlogged = b.unlogged) : a.acl.vtail = b.acl.vtail := by
  have := congrArg (fun d : Dev => d.acl.vtail) h; exact this
@[simp] theorem violate_acl_vtail (d : Dev) (i : Ini) (a n : Nat) (t : TxnKind) (x : Bool) (r : Nat) : (violate d i a n t x r).acl.vtail = d.acl.vtail := unlogged_acl_vtail (violate_unlogged d i a n t x r)
@[simp] theorem ignored_acl_vtail (d : Dev) (i : Ini) (a : Nat) : (ignored d i a).acl.vtail = d.acl.vtail := unlogged_acl_vtail (ignored_unlogged d i a)
theorem unlogged_acl_keeper {a b : Dev} (h : a.unlogged = b.unlogged) : a.acl.keeper = b.acl.keeper := by
  have := congrArg (fun d : Dev => d.acl.keeper) h; exact this
@[simp] theorem violate_acl_keeper (d : Dev) (i : Ini) (a n : Nat) (t : TxnKind) (x : Bool) (r : Nat) : (violate d i a n t x r).acl.keeper = d.acl.keeper := unlogged_acl_keeper (violate_unlogged d i a n t x r)
@[simp] theorem ignored_acl_keeper (d : Dev) (i : Ini) (a : Nat) : (ignored d i a).acl.keeper = d.acl.keeper := unlogged_acl_keeper (ignored_unlogged d i a)
theorem unlogged_acl_porter {a b : Dev} (h : a.unlogged = b.unlogged) : a.acl.porter = b.acl.porter := by
  have := congrArg (fun d : Dev => d.acl.porter) h; exact this
@[simp] theorem violate_acl_porter (d : Dev) (i : Ini) (a n : Nat) (t : TxnKind) (x : Bool) (r : Nat) : (violate d i a n t x r).acl.porter = d.acl.porter := unlogged_acl_porter (violate_unlogged d i a n t x r)
@[simp] theorem ignored_acl_porter (d : Dev) (i : Ini) (a : Nat) : (ignored d i a).acl.porter = d.acl.porter := unlogged_acl_porter (ignored_unlogged d i a)
theorem unlogged_acl_krestarts {a b : Dev} (h : a.unlogged = b.unlogged) : a.acl.krestarts = b.acl.krestarts := by
  have := congrArg (fun d : Dev => d.acl.krestarts) h; exact this
@[simp] theorem violate_acl_krestarts (d : Dev) (i : Ini) (a n : Nat) (t : TxnKind) (x : Bool) (r : Nat) : (violate d i a n t x r).acl.krestarts = d.acl.krestarts := unlogged_acl_krestarts (violate_unlogged d i a n t x r)
@[simp] theorem ignored_acl_krestarts (d : Dev) (i : Ini) (a : Nat) : (ignored d i a).acl.krestarts = d.acl.krestarts := unlogged_acl_krestarts (ignored_unlogged d i a)
theorem unlogged_acl_prestarts {a b : Dev} (h : a.unlogged = b.unlogged) : a.acl.prestarts = b.acl.prestarts := by
  have := congrArg (fun d : Dev => d.acl.prestarts) h; exact this
@[simp] theorem violate_acl_prestarts (d : Dev) (i : Ini) (a n : Nat) (t : TxnKind) (x : Bool) (r : Nat) : (violate d i a n t x r).acl.prestarts = d.acl.prestarts := unlogged_acl_prestarts (violate_unlogged d i a n t x r)
@[simp] theorem ignored_acl_prestarts (d : Dev) (i : Ini) (a : Nat) : (ignored d i a).acl.prestarts = d.acl.prestarts := unlogged_acl_prestarts (ignored_unlogged d i a)
theorem unlogged_acl_kReadyDue {a b : Dev} (h : a.unlogged = b.unlogged) : a.acl.kReadyDue = b.acl.kReadyDue := by
  have := congrArg (fun d : Dev => d.acl.kReadyDue) h; exact this
@[simp] theorem violate_acl_kReadyDue (d : Dev) (i : Ini) (a n : Nat) (t : TxnKind) (x : Bool) (r : Nat) : (violate d i a n t x r).acl.kReadyDue = d.acl.kReadyDue := unlogged_acl_kReadyDue (violate_unlogged d i a n t x r)
@[simp] theorem ignored_acl_kReadyDue (d : Dev) (i : Ini) (a : Nat) : (ignored d i a).acl.kReadyDue = d.acl.kReadyDue := unlogged_acl_kReadyDue (ignored_unlogged d i a)
theorem unlogged_acl_pReadyDue {a b : Dev} (h : a.unlogged = b.unlogged) : a.acl.pReadyDue = b.acl.pReadyDue := by
  have := congrArg (fun d : Dev => d.acl.pReadyDue) h; exact this
@[simp] theorem violate_acl_pReadyDue (d : Dev) (i : Ini) (a n : Nat) (t : TxnKind) (x : Bool) (r : Nat) : (violate d i a n t x r).acl.pReadyDue = d.acl.pReadyDue := unlogged_acl_pReadyDue (violate_unlogged d i a n t x r)
@[simp] theorem ignored_acl_pReadyDue (d : Dev) (i : Ini) (a : Nat) : (ignored d i a).acl.pReadyDue = d.acl.pReadyDue := unlogged_acl_pReadyDue (ignored_unlogged d i a)
theorem unlogged_acl_pReadySeen {a b : Dev} (h : a.unlogged = b.unlogged) : a.acl.pReadySeen = b.acl.pReadySeen := by
  have := congrArg (fun d : Dev => d.acl.pReadySeen) h; exact this
@[simp] theorem violate_acl_pReadySeen (d : Dev) (i : Ini) (a n : Nat) (t : TxnKind) (x : Bool) (r : Nat) : (violate d i a n t x r).acl.pReadySeen = d.acl.pReadySeen := unlogged_acl_pReadySeen (violate_unlogged d i a n t x r)
@[simp] theorem ignored_acl_pReadySeen (d : Dev) (i : Ini) (a : Nat) : (ignored d i a).acl.pReadySeen = d.acl.pReadySeen := unlogged_acl_pReadySeen (ignored_unlogged d i a)
theorem unlogged_acl_kPet {a b : Dev} (h : a.unlogged = b.unlogged) : a.acl.kPet = b.acl.kPet := by
  have := congrArg (fun d : Dev => d.acl.kPet) h; exact this
@[simp] theorem violate_acl_kPet (d : Dev) (i : Ini) (a n : Nat) (t : TxnKind) (x : Bool) (r : Nat) : (violate d i a n t x r).acl.kPet = d.acl.kPet := unlogged_acl_kPet (violate_unlogged d i a n t x r)
@[simp] theorem ignored_acl_kPet (d : Dev) (i : Ini) (a : Nat) : (ignored d i a).acl.kPet = d.acl.kPet := unlogged_acl_kPet (ignored_unlogged d i a)
theorem unlogged_acl_pPet {a b : Dev} (h : a.unlogged = b.unlogged) : a.acl.pPet = b.acl.pPet := by
  have := congrArg (fun d : Dev => d.acl.pPet) h; exact this
@[simp] theorem violate_acl_pPet (d : Dev) (i : Ini) (a n : Nat) (t : TxnKind) (x : Bool) (r : Nat) : (violate d i a n t x r).acl.pPet = d.acl.pPet := unlogged_acl_pPet (violate_unlogged d i a n t x r)
@[simp] theorem ignored_acl_pPet (d : Dev) (i : Ini) (a : Nat) : (ignored d i a).acl.pPet = d.acl.pPet := unlogged_acl_pPet (ignored_unlogged d i a)
theorem unlogged_acl_pwdog {a b : Dev} (h : a.unlogged = b.unlogged) : a.acl.pwdog = b.acl.pwdog := by
  have := congrArg (fun d : Dev => d.acl.pwdog) h; exact this
@[simp] theorem violate_acl_pwdog (d : Dev) (i : Ini) (a n : Nat) (t : TxnKind) (x : Bool) (r : Nat) : (violate d i a n t x r).acl.pwdog = d.acl.pwdog := unlogged_acl_pwdog (violate_unlogged d i a n t x r)
@[simp] theorem ignored_acl_pwdog (d : Dev) (i : Ini) (a : Nat) : (ignored d i a).acl.pwdog = d.acl.pwdog := unlogged_acl_pwdog (ignored_unlogged d i a)
theorem unlogged_acl_pinclaim {a b : Dev} (h : a.unlogged = b.unlogged) : a.acl.pinclaim = b.acl.pinclaim := by
  have := congrArg (fun d : Dev => d.acl.pinclaim) h; exact this
@[simp] theorem violate_acl_pinclaim (d : Dev) (i : Ini) (a n : Nat) (t : TxnKind) (x : Bool) (r : Nat) : (violate d i a n t x r).acl.pinclaim = d.acl.pinclaim := unlogged_acl_pinclaim (violate_unlogged d i a n t x r)
@[simp] theorem ignored_acl_pinclaim (d : Dev) (i : Ini) (a : Nat) : (ignored d i a).acl.pinclaim = d.acl.pinclaim := unlogged_acl_pinclaim (ignored_unlogged d i a)
theorem unlogged_acl_claimed {a b : Dev} (h : a.unlogged = b.unlogged) : a.acl.claimed = b.acl.claimed := by
  have := congrArg (fun d : Dev => d.acl.claimed) h; exact this
@[simp] theorem violate_acl_claimed (d : Dev) (i : Ini) (a n : Nat) (t : TxnKind) (x : Bool) (r : Nat) : (violate d i a n t x r).acl.claimed = d.acl.claimed := unlogged_acl_claimed (violate_unlogged d i a n t x r)
@[simp] theorem ignored_acl_claimed (d : Dev) (i : Ini) (a : Nat) : (ignored d i a).acl.claimed = d.acl.claimed := unlogged_acl_claimed (ignored_unlogged d i a)
theorem unlogged_acl_stalled {a b : Dev} (h : a.unlogged = b.unlogged) : a.acl.stalled = b.acl.stalled := by
  have := congrArg (fun d : Dev => d.acl.stalled) h; exact this
@[simp] theorem violate_acl_stalled (d : Dev) (i : Ini) (a n : Nat) (t : TxnKind) (x : Bool) (r : Nat) : (violate d i a n t x r).acl.stalled = d.acl.stalled := unlogged_acl_stalled (violate_unlogged d i a n t x r)
@[simp] theorem ignored_acl_stalled (d : Dev) (i : Ini) (a : Nat) : (ignored d i a).acl.stalled = d.acl.stalled := unlogged_acl_stalled (ignored_unlogged d i a)

/-! ### Sub-states -/

theorem getUnit_congr {x y : Dev} (h0 : x.units = y.units) (h1 : x.gj7716 = y.gj7716) (k : Nat) : getUnit x k = getUnit y k := by
  unfold getUnit; rw [h0, h1]
@[simp] theorem raise_getUnit (d : Dev) (p b : Nat) (k : Nat) : getUnit (raise d p b) k = getUnit d k :=
  getUnit_congr (raise_units d p b) (raise_gj7716 d p b) k
@[simp] theorem pmcFn_getUnit (d : Dev) (c f n : Nat) (k : Nat) : getUnit (pmcFn d c f n) k = getUnit d k :=
  getUnit_congr (pmcFn_units d c f n) (pmcFn_gj7716 d c f n) k
@[simp] theorem pmcAny_getUnit (d : Dev) (c n : Nat) (k : Nat) : getUnit (pmcAny d c n) k = getUnit d k :=
  getUnit_congr (pmcAny_units d c n) (pmcAny_gj7716 d c n) k
@[simp] theorem pmcIf_getUnit (d : Dev) (c n : Nat) (x : Nat → MonSt → Bool) (k : Nat) : getUnit (pmcIf d c n x) k = getUnit d k :=
  getUnit_congr (pmcIf_units d c n x) (pmcIf_gj7716 d c n x) k
@[simp] theorem setPage_getUnit (d : Dev) (p : Nat) (x : PageHdr) (k : Nat) : getUnit (setPage d p x) k = getUnit d k :=
  getUnit_congr (setPage_units d p x) (setPage_gj7716 d p x) k
@[simp] theorem evLog_getUnit (d : Dev) (c l f : Nat) (x : List Byte) (k : Nat) : getUnit (evLog d c l f x) k = getUnit d k :=
  getUnit_congr (evLog_units d c l f x) (evLog_gj7716 d c l f x) k
@[simp] theorem lockHit_getUnit (d : Dev) (i : Ini) (p o : Nat) (k : Nat) : getUnit (lockHit d i p o) k = getUnit d k :=
  getUnit_congr (lockHit_units d i p o) (lockHit_gj7716 d i p o) k
@[simp] theorem violate_getUnit (d : Dev) (i : Ini) (a n : Nat) (t : TxnKind) (x : Bool) (r : Nat) (k : Nat) : getUnit (violate d i a n t x r) k = getUnit d k :=
  getUnit_congr (violate_units d i a n t x r) (violate_gj7716 d i a n t x r) k
@[simp] theorem ignored_getUnit (d : Dev) (i : Ini) (a : Nat) (k : Nat) : getUnit (ignored d i a) k = getUnit d k :=
  getUnit_congr (ignored_units d i a) (ignored_gj7716 d i a) k
theorem getFn_congr {x y : Dev} (h0 : x.fns = y.fns) (k : Nat) : getFn x k = getFn y k := by
  unfold getFn; rw [h0]
@[simp] theorem raise_getFn (d : Dev) (p b : Nat) (k : Nat) : getFn (raise d p b) k = getFn d k :=
  getFn_congr (raise_fns d p b) k
@[simp] theorem pmcFn_getFn (d : Dev) (c f n : Nat) (k : Nat) : getFn (pmcFn d c f n) k = getFn d k :=
  getFn_congr (pmcFn_fns d c f n) k
@[simp] theorem pmcAny_getFn (d : Dev) (c n : Nat) (k : Nat) : getFn (pmcAny d c n) k = getFn d k :=
  getFn_congr (pmcAny_fns d c n) k
@[simp] theorem pmcIf_getFn (d : Dev) (c n : Nat) (x : Nat → MonSt → Bool) (k : Nat) : getFn (pmcIf d c n x) k = getFn d k :=
  getFn_congr (pmcIf_fns d c n x) k
@[simp] theorem setPage_getFn (d : Dev) (p : Nat) (x : PageHdr) (k : Nat) : getFn (setPage d p x) k = getFn d k :=
  getFn_congr (setPage_fns d p x) k
@[simp] theorem evLog_getFn (d : Dev) (c l f : Nat) (x : List Byte) (k : Nat) : getFn (evLog d c l f x) k = getFn d k :=
  getFn_congr (evLog_fns d c l f x) k
@[simp] theorem lockHit_getFn (d : Dev) (i : Ini) (p o : Nat) (k : Nat) : getFn (lockHit d i p o) k = getFn d k :=
  getFn_congr (lockHit_fns d i p o) k
@[simp] theorem violate_getFn (d : Dev) (i : Ini) (a n : Nat) (t : TxnKind) (x : Bool) (r : Nat) (k : Nat) : getFn (violate d i a n t x r) k = getFn d k :=
  getFn_congr (violate_fns d i a n t x r) k
@[simp] theorem ignored_getFn (d : Dev) (i : Ini) (a : Nat) (k : Nat) : getFn (ignored d i a) k = getFn d k :=
  getFn_congr (ignored_fns d i a) k
theorem getQ_congr {x y : Dev} (h0 : x.queues = y.queues) (k j : Nat) : getQ x k j = getQ y k j := by
  unfold getQ; rw [h0]
@[simp] theorem raise_getQ (d : Dev) (p b : Nat) (k j : Nat) : getQ (raise d p b) k j = getQ d k j :=
  getQ_congr (raise_queues d p b) k j
@[simp] theorem pmcFn_getQ (d : Dev) (c f n : Nat) (k j : Nat) : getQ (pmcFn d c f n) k j = getQ d k j :=
  getQ_congr (pmcFn_queues d c f n) k j
@[simp] theorem pmcAny_getQ (d : Dev) (c n : Nat) (k j : Nat) : getQ (pmcAny d c n) k j = getQ d k j :=
  getQ_congr (pmcAny_queues d c n) k j
@[simp] theorem pmcIf_getQ (d : Dev) (c n : Nat) (x : Nat → MonSt → Bool) (k j : Nat) : getQ (pmcIf d c n x) k j = getQ d k j :=
  getQ_congr (pmcIf_queues d c n x) k j
@[simp] theorem setPage_getQ (d : Dev) (p : Nat) (x : PageHdr) (k j : Nat) : getQ (setPage d p x) k j = getQ d k j :=
  getQ_congr (setPage_queues d p x) k j
@[simp] theorem evLog_getQ (d : Dev) (c l f : Nat) (x : List Byte) (k j : Nat) : getQ (evLog d c l f x) k j = getQ d k j :=
  getQ_congr (evLog_queues d c l f x) k j
@[simp] theorem lockHit_getQ (d : Dev) (i : Ini) (p o : Nat) (k j : Nat) : getQ (lockHit d i p o) k j = getQ d k j :=
  getQ_congr (lockHit_queues d i p o) k j
@[simp] theorem violate_getQ (d : Dev) (i : Ini) (a n : Nat) (t : TxnKind) (x : Bool) (r : Nat) (k j : Nat) : getQ (violate d i a n t x r) k j = getQ d k j :=
  getQ_congr (violate_queues d i a n t x r) k j
@[simp] theorem ignored_getQ (d : Dev) (i : Ini) (a : Nat) (k j : Nat) : getQ (ignored d i a) k j = getQ d k j :=
  getQ_congr (ignored_queues d i a) k j
theorem getPort_congr {x y : Dev} (h0 : x.ports = y.ports) (k : Bool) : getPort x k = getPort y k := by
  unfold getPort; rw [h0]
@[simp] theorem raise_getPort (d : Dev) (p b : Nat) (k : Bool) : getPort (raise d p b) k = getPort d k :=
  getPort_congr (raise_ports d p b) k
@[simp] theorem pmcFn_getPort (d : Dev) (c f n : Nat) (k : Bool) : getPort (pmcFn d c f n) k = getPort d k :=
  getPort_congr (pmcFn_ports d c f n) k
@[simp] theorem pmcAny_getPort (d : Dev) (c n : Nat) (k : Bool) : getPort (pmcAny d c n) k = getPort d k :=
  getPort_congr (pmcAny_ports d c n) k
@[simp] theorem pmcIf_getPort (d : Dev) (c n : Nat) (x : Nat → MonSt → Bool) (k : Bool) : getPort (pmcIf d c n x) k = getPort d k :=
  getPort_congr (pmcIf_ports d c n x) k
@[simp] theorem setPage_getPort (d : Dev) (p : Nat) (x : PageHdr) (k : Bool) : getPort (setPage d p x) k = getPort d k :=
  getPort_congr (setPage_ports d p x) k
@[simp] theorem evLog_getPort (d : Dev) (c l f : Nat) (x : List Byte) (k : Bool) : getPort (evLog d c l f x) k = getPort d k :=
  getPort_congr (evLog_ports d c l f x) k
@[simp] theorem lockHit_getPort (d : Dev) (i : Ini) (p o : Nat) (k : Bool) : getPort (lockHit d i p o) k = getPort d k :=
  getPort_congr (lockHit_ports d i p o) k
@[simp] theorem violate_getPort (d : Dev) (i : Ini) (a n : Nat) (t : TxnKind) (x : Bool) (r : Nat) (k : Bool) : getPort (violate d i a n t x r) k = getPort d k :=
  getPort_congr (violate_ports d i a n t x r) k
@[simp] theorem ignored_getPort (d : Dev) (i : Ini) (a : Nat) (k : Bool) : getPort (ignored d i a) k = getPort d k :=
  getPort_congr (ignored_ports d i a) k
theorem getDom_congr {x y : Dev} (h0 : x.pwr = y.pwr) (k : Nat) : getDom x k = getDom y k := by
  unfold getDom; rw [h0]
@[simp] theorem raise_getDom (d : Dev) (p b : Nat) (k : Nat) : getDom (raise d p b) k = getDom d k :=
  getDom_congr (raise_pwr d p b) k
@[simp] theorem pmcFn_getDom (d : Dev) (c f n : Nat) (k : Nat) : getDom (pmcFn d c f n) k = getDom d k :=
  getDom_congr (pmcFn_pwr d c f n) k
@[simp] theorem pmcAny_getDom (d : Dev) (c n : Nat) (k : Nat) : getDom (pmcAny d c n) k = getDom d k :=
  getDom_congr (pmcAny_pwr d c n) k
@[simp] theorem pmcIf_getDom (d : Dev) (c n : Nat) (x : Nat → MonSt → Bool) (k : Nat) : getDom (pmcIf d c n x) k = getDom d k :=
  getDom_congr (pmcIf_pwr d c n x) k
@[simp] theorem setPage_getDom (d : Dev) (p : Nat) (x : PageHdr) (k : Nat) : getDom (setPage d p x) k = getDom d k :=
  getDom_congr (setPage_pwr d p x) k
@[simp] theorem evLog_getDom (d : Dev) (c l f : Nat) (x : List Byte) (k : Nat) : getDom (evLog d c l f x) k = getDom d k :=
  getDom_congr (evLog_pwr d c l f x) k
@[simp] theorem lockHit_getDom (d : Dev) (i : Ini) (p o : Nat) (k : Nat) : getDom (lockHit d i p o) k = getDom d k :=
  getDom_congr (lockHit_pwr d i p o) k
@[simp] theorem violate_getDom (d : Dev) (i : Ini) (a n : Nat) (t : TxnKind) (x : Bool) (r : Nat) (k : Nat) : getDom (violate d i a n t x r) k = getDom d k :=
  getDom_congr (violate_pwr d i a n t x r) k
@[simp] theorem ignored_getDom (d : Dev) (i : Ini) (a : Nat) (k : Nat) : getDom (ignored d i a) k = getDom d k :=
  getDom_congr (ignored_pwr d i a) k
theorem getSource_congr {x y : Dev} (h0 : x.rng = y.rng) (k : Nat) : getSource x k = getSource y k := by
  unfold getSource; rw [h0]
@[simp] theorem raise_getSource (d : Dev) (p b : Nat) (k : Nat) : getSource (raise d p b) k = getSource d k :=
  getSource_congr (raise_rng d p b) k
@[simp] theorem pmcFn_getSource (d : Dev) (c f n : Nat) (k : Nat) : getSource (pmcFn d c f n) k = getSource d k :=
  getSource_congr (pmcFn_rng d c f n) k
@[simp] theorem pmcAny_getSource (d : Dev) (c n : Nat) (k : Nat) : getSource (pmcAny d c n) k = getSource d k :=
  getSource_congr (pmcAny_rng d c n) k
@[simp] theorem pmcIf_getSource (d : Dev) (c n : Nat) (x : Nat → MonSt → Bool) (k : Nat) : getSource (pmcIf d c n x) k = getSource d k :=
  getSource_congr (pmcIf_rng d c n x) k
@[simp] theorem setPage_getSource (d : Dev) (p : Nat) (x : PageHdr) (k : Nat) : getSource (setPage d p x) k = getSource d k :=
  getSource_congr (setPage_rng d p x) k
@[simp] theorem evLog_getSource (d : Dev) (c l f : Nat) (x : List Byte) (k : Nat) : getSource (evLog d c l f x) k = getSource d k :=
  getSource_congr (evLog_rng d c l f x) k
@[simp] theorem lockHit_getSource (d : Dev) (i : Ini) (p o : Nat) (k : Nat) : getSource (lockHit d i p o) k = getSource d k :=
  getSource_congr (lockHit_rng d i p o) k
@[simp] theorem violate_getSource (d : Dev) (i : Ini) (a n : Nat) (t : TxnKind) (x : Bool) (r : Nat) (k : Nat) : getSource (violate d i a n t x r) k = getSource d k :=
  getSource_congr (violate_rng d i a n t x r) k
@[simp] theorem ignored_getSource (d : Dev) (i : Ini) (a : Nat) (k : Nat) : getSource (ignored d i a) k = getSource d k :=
  getSource_congr (ignored_rng d i a) k
theorem getInst_congr {x y : Dev} (h0 : x.rng = y.rng) (k : Nat) : getInst x k = getInst y k := by
  unfold getInst; rw [h0]
@[simp] theorem raise_getInst (d : Dev) (p b : Nat) (k : Nat) : getInst (raise d p b) k = getInst d k :=
  getInst_congr (raise_rng d p b) k
@[simp] theorem pmcFn_getInst (d : Dev) (c f n : Nat) (k : Nat) : getInst (pmcFn d c f n) k = getInst d k :=
  getInst_congr (pmcFn_rng d c f n) k
@[simp] theorem pmcAny_getInst (d : Dev) (c n : Nat) (k : Nat) : getInst (pmcAny d c n) k = getInst d k :=
  getInst_congr (pmcAny_rng d c n) k
@[simp] theorem pmcIf_getInst (d : Dev) (c n : Nat) (x : Nat → MonSt → Bool) (k : Nat) : getInst (pmcIf d c n x) k = getInst d k :=
  getInst_congr (pmcIf_rng d c n x) k
@[simp] theorem setPage_getInst (d : Dev) (p : Nat) (x : PageHdr) (k : Nat) : getInst (setPage d p x) k = getInst d k :=
  getInst_congr (setPage_rng d p x) k
@[simp] theorem evLog_getInst (d : Dev) (c l f : Nat) (x : List Byte) (k : Nat) : getInst (evLog d c l f x) k = getInst d k :=
  getInst_congr (evLog_rng d c l f x) k
@[simp] theorem lockHit_getInst (d : Dev) (i : Ini) (p o : Nat) (k : Nat) : getInst (lockHit d i p o) k = getInst d k :=
  getInst_congr (lockHit_rng d i p o) k
@[simp] theorem violate_getInst (d : Dev) (i : Ini) (a n : Nat) (t : TxnKind) (x : Bool) (r : Nat) (k : Nat) : getInst (violate d i a n t x r) k = getInst d k :=
  getInst_congr (violate_rng d i a n t x r) k
@[simp] theorem ignored_getInst (d : Dev) (i : Ini) (a : Nat) (k : Nat) : getInst (ignored d i a) k = getInst d k :=
  getInst_congr (ignored_rng d i a) k
theorem getSlot_congr {x y : Dev} (h0 : x.crd = y.crd) (k : BitVec 2) : getSlot x k = getSlot y k := by
  simp only [getSlot, h0]
@[simp] theorem raise_getSlot (d : Dev) (p b : Nat) (k : BitVec 2) : getSlot (raise d p b) k = getSlot d k :=
  getSlot_congr (raise_crd d p b) k
@[simp] theorem pmcFn_getSlot (d : Dev) (c f n : Nat) (k : BitVec 2) : getSlot (pmcFn d c f n) k = getSlot d k :=
  getSlot_congr (pmcFn_crd d c f n) k
@[simp] theorem pmcAny_getSlot (d : Dev) (c n : Nat) (k : BitVec 2) : getSlot (pmcAny d c n) k = getSlot d k :=
  getSlot_congr (pmcAny_crd d c n) k
@[simp] theorem pmcIf_getSlot (d : Dev) (c n : Nat) (x : Nat → MonSt → Bool) (k : BitVec 2) : getSlot (pmcIf d c n x) k = getSlot d k :=
  getSlot_congr (pmcIf_crd d c n x) k
@[simp] theorem setPage_getSlot (d : Dev) (p : Nat) (x : PageHdr) (k : BitVec 2) : getSlot (setPage d p x) k = getSlot d k :=
  getSlot_congr (setPage_crd d p x) k
@[simp] theorem evLog_getSlot (d : Dev) (c l f : Nat) (x : List Byte) (k : BitVec 2) : getSlot (evLog d c l f x) k = getSlot d k :=
  getSlot_congr (evLog_crd d c l f x) k
@[simp] theorem lockHit_getSlot (d : Dev) (i : Ini) (p o : Nat) (k : BitVec 2) : getSlot (lockHit d i p o) k = getSlot d k :=
  getSlot_congr (lockHit_crd d i p o) k
@[simp] theorem violate_getSlot (d : Dev) (i : Ini) (a n : Nat) (t : TxnKind) (x : Bool) (r : Nat) (k : BitVec 2) : getSlot (violate d i a n t x r) k = getSlot d k :=
  getSlot_congr (violate_crd d i a n t x r) k
@[simp] theorem ignored_getSlot (d : Dev) (i : Ini) (a : Nat) (k : BitVec 2) : getSlot (ignored d i a) k = getSlot d k :=
  getSlot_congr (ignored_crd d i a) k
theorem getWing_congr {x y : Dev} (h0 : x.wings = y.wings) (k : Wing) : getWing x k = getWing y k := by
  cases k <;> simp only [getWing, h0]
@[simp] theorem raise_getWing (d : Dev) (p b : Nat) (k : Wing) : getWing (raise d p b) k = getWing d k :=
  getWing_congr (raise_wings d p b) k
@[simp] theorem pmcFn_getWing (d : Dev) (c f n : Nat) (k : Wing) : getWing (pmcFn d c f n) k = getWing d k :=
  getWing_congr (pmcFn_wings d c f n) k
@[simp] theorem pmcAny_getWing (d : Dev) (c n : Nat) (k : Wing) : getWing (pmcAny d c n) k = getWing d k :=
  getWing_congr (pmcAny_wings d c n) k
@[simp] theorem pmcIf_getWing (d : Dev) (c n : Nat) (x : Nat → MonSt → Bool) (k : Wing) : getWing (pmcIf d c n x) k = getWing d k :=
  getWing_congr (pmcIf_wings d c n x) k
@[simp] theorem setPage_getWing (d : Dev) (p : Nat) (x : PageHdr) (k : Wing) : getWing (setPage d p x) k = getWing d k :=
  getWing_congr (setPage_wings d p x) k
@[simp] theorem evLog_getWing (d : Dev) (c l f : Nat) (x : List Byte) (k : Wing) : getWing (evLog d c l f x) k = getWing d k :=
  getWing_congr (evLog_wings d c l f x) k
@[simp] theorem lockHit_getWing (d : Dev) (i : Ini) (p o : Nat) (k : Wing) : getWing (lockHit d i p o) k = getWing d k :=
  getWing_congr (lockHit_wings d i p o) k
@[simp] theorem violate_getWing (d : Dev) (i : Ini) (a n : Nat) (t : TxnKind) (x : Bool) (r : Nat) (k : Wing) : getWing (violate d i a n t x r) k = getWing d k :=
  getWing_congr (violate_wings d i a n t x r) k
@[simp] theorem ignored_getWing (d : Dev) (i : Ini) (a : Nat) (k : Wing) : getWing (ignored d i a) k = getWing d k :=
  getWing_congr (ignored_wings d i a) k
theorem getGuard_congr {x y : Dev} (h0 : x.guards = y.guards) (k : Nat) : getGuard x k = getGuard y k := by
  unfold getGuard; rw [h0]
@[simp] theorem raise_getGuard (d : Dev) (p b : Nat) (k : Nat) : getGuard (raise d p b) k = getGuard d k :=
  getGuard_congr (raise_guards d p b) k
@[simp] theorem pmcFn_getGuard (d : Dev) (c f n : Nat) (k : Nat) : getGuard (pmcFn d c f n) k = getGuard d k :=
  getGuard_congr (pmcFn_guards d c f n) k
@[simp] theorem pmcAny_getGuard (d : Dev) (c n : Nat) (k : Nat) : getGuard (pmcAny d c n) k = getGuard d k :=
  getGuard_congr (pmcAny_guards d c n) k
@[simp] theorem pmcIf_getGuard (d : Dev) (c n : Nat) (x : Nat → MonSt → Bool) (k : Nat) : getGuard (pmcIf d c n x) k = getGuard d k :=
  getGuard_congr (pmcIf_guards d c n x) k
@[simp] theorem setPage_getGuard (d : Dev) (p : Nat) (x : PageHdr) (k : Nat) : getGuard (setPage d p x) k = getGuard d k :=
  getGuard_congr (setPage_guards d p x) k
@[simp] theorem evLog_getGuard (d : Dev) (c l f : Nat) (x : List Byte) (k : Nat) : getGuard (evLog d c l f x) k = getGuard d k :=
  getGuard_congr (evLog_guards d c l f x) k
@[simp] theorem lockHit_getGuard (d : Dev) (i : Ini) (p o : Nat) (k : Nat) : getGuard (lockHit d i p o) k = getGuard d k :=
  getGuard_congr (lockHit_guards d i p o) k
@[simp] theorem violate_getGuard (d : Dev) (i : Ini) (a n : Nat) (t : TxnKind) (x : Bool) (r : Nat) (k : Nat) : getGuard (violate d i a n t x r) k = getGuard d k :=
  getGuard_congr (violate_guards d i a n t x r) k
@[simp] theorem ignored_getGuard (d : Dev) (i : Ini) (a : Nat) (k : Nat) : getGuard (ignored d i a) k = getGuard d k :=
  getGuard_congr (ignored_guards d i a) k
theorem guardVal_congr {x y : Dev} (h0 : x.guards = y.guards) (k : Nat) : guardVal x k = guardVal y k := by
  unfold guardVal; unfold getGuard; rw [h0]
@[simp] theorem raise_guardVal (d : Dev) (p b : Nat) (k : Nat) : guardVal (raise d p b) k = guardVal d k :=
  guardVal_congr (raise_guards d p b) k
@[simp] theorem pmcFn_guardVal (d : Dev) (c f n : Nat) (k : Nat) : guardVal (pmcFn d c f n) k = guardVal d k :=
  guardVal_congr (pmcFn_guards d c f n) k
@[simp] theorem pmcAny_guardVal (d : Dev) (c n : Nat) (k : Nat) : guardVal (pmcAny d c n) k = guardVal d k :=
  guardVal_congr (pmcAny_guards d c n) k
@[simp] theorem pmcIf_guardVal (d : Dev) (c n : Nat) (x : Nat → MonSt → Bool) (k : Nat) : guardVal (pmcIf d c n x) k = guardVal d k :=
  guardVal_congr (pmcIf_guards d c n x) k
@[simp] theorem setPage_guardVal (d : Dev) (p : Nat) (x : PageHdr) (k : Nat) : guardVal (setPage d p x) k = guardVal d k :=
  guardVal_congr (setPage_guards d p x) k
@[simp] theorem evLog_guardVal (d : Dev) (c l f : Nat) (x : List Byte) (k : Nat) : guardVal (evLog d c l f x) k = guardVal d k :=
  guardVal_congr (evLog_guards d c l f x) k
@[simp] theorem lockHit_guardVal (d : Dev) (i : Ini) (p o : Nat) (k : Nat) : guardVal (lockHit d i p o) k = guardVal d k :=
  guardVal_congr (lockHit_guards d i p o) k
@[simp] theorem violate_guardVal (d : Dev) (i : Ini) (a n : Nat) (t : TxnKind) (x : Bool) (r : Nat) (k : Nat) : guardVal (violate d i a n t x r) k = guardVal d k :=
  guardVal_congr (violate_guards d i a n t x r) k
@[simp] theorem ignored_guardVal (d : Dev) (i : Ini) (a : Nat) (k : Nat) : guardVal (ignored d i a) k = guardVal d k :=
  guardVal_congr (ignored_guards d i a) k

end Sys2Proof.Machine
end

