-- ==== Sys2Proof/Laws/Service.lean ====
section
/-! SUPPORT. What the shared operations over units, guarded pairs and replacement causes can change. -/

namespace Sys2Proof.Machine

/-! ### Units -/

theorem getUnit_modUnit (d : Dev) (u : Nat) (g : UnitSt → UnitSt) (k : Nat) :
    getUnit (modUnit d u g) k = if k = u then g (getUnit d u) else getUnit d k := by
  by_cases h : k = u
  · subst h; simp [modUnit, getUnit, setUnit]
  · simp [h, modUnit, getUnit, setUnit, tabGet_put_other]

/-- One change of every unit of a list, for a change that is the same when done twice. -/
theorem getUnit_foldl_modUnit (g : UnitSt → UnitSt) (hg : ∀ x, g (g x) = g x) (l : List Nat) (d : Dev) (k : Nat) :
    getUnit (l.foldl (fun d s => modUnit d s g) d) k = if l.contains k then g (getUnit d k) else getUnit d k := by
  induction l generalizing d with
  | nil => rfl
  | cons a r ih =>
    rw [List.foldl_cons, ih, getUnit_modUnit]
    by_cases h : k = a
    · subst h; simp [hg]
    · simp [h]

theorem foldl_modUnit_only (g : UnitSt → UnitSt) (l : List Nat) (d : Dev) :
    (l.foldl (fun d s => modUnit d s g) d) = { d with units := (l.foldl (fun d s => modUnit d s g) d).units } := by
  induction l generalizing d with
  | nil => rfl
  | cons a r ih => rw [List.foldl_cons, ih]; rfl

/-- A request to units changes units alone. -/
theorem requestService_only (d : Dev) (u : Nat) (v : Word) : requestService d u v = { d with units := (requestService d u v).units } :=
  foldl_modUnit_only _ _ _

theorem getUnit_requestService (d : Dev) (u : Nat) (v : Word) (k : Nat) :
    getUnit (requestService d u v) k =
      if (shelvesBelow u).contains k then
        { getUnit d k with request := if bits v 0 2 = 1 then 1 else if bits v 0 2 = 2 then 2 else 0 }
      else getUnit d k := by
  unfold requestService; rw [getUnit_foldl_modUnit]; intro x; rfl

/-- A touch of a page changes the power state alone. -/
theorem touchPage_only (d : Dev) (p : Nat) : touchPage d p = { d with pwr := (touchPage d p).pwr } := by
  unfold touchPage; split <;> rfl

/-! ### Replacement causes -/

theorem svcPin_only (d : Dev) : svcPin d = { d with svc := (svcPin d).svc, egress := (svcPin d).egress } := by
  unfold svcPin; dsimp only; repeat' split
  all_goals rfl
theorem svcPin_nv (d : Dev) : (svcPin d).nv = d.nv := by rw [svcPin_only]
theorem svcPin_pages (d : Dev) : (svcPin d).pages = d.pages := by rw [svcPin_only]

/-- The causes after a cause is set. -/
theorem setCause_causes (d : Dev) (c : Nat) : (setCause d c).nv.causes =
    if d.nv.causes.getLsbD c then d.nv.causes else d.nv.causes ||| BitVec.ofNat 15 (1 <<< c) := by
  unfold setCause
  split
  · rfl
  · dsimp only
    rw [svcPin_nv]
    split <;> simp

/-- What a cause leaves: everything but the recorder, event reports, the causes and the request pin. -/
def Dev.uncaused (d : Dev) : Dev := { d.silent with svc := { d.svc with reqLow := false }, nv := { d.silent.nv with causes := 0 } }

theorem uncaused_of_silent {a b : Dev} (h : a.silent = b.silent) : a.uncaused = b.uncaused := by
  unfold Dev.uncaused
  rw [h, silent_svc h]

theorem pin_uncaused (d : Dev) (b : Bool) (e : Egress) :
    (emit { d with svc := { d.svc with reqLow := b } } e).uncaused = d.uncaused := rfl

theorem svcPin_or (d : Dev) : svcPin d = d ∨ ∃ b, svcPin d = emit { d with svc := { d.svc with reqLow := b } } (.replaceReq b) := by
  unfold svcPin
  dsimp only
  generalize decide ((if bits (svcCtl d) 16 2 = 2 then 2 else 1) ≤ svcLevel d) = low
  by_cases h : (d.svc.reqDriven && low != d.svc.reqLow) = true
  · exact Or.inr ⟨low, if_pos h⟩
  · exact Or.inl (if_neg h)
theorem svcPin_uncaused (d : Dev) : (svcPin d).uncaused = d.uncaused := by
  rcases svcPin_or d with h | ⟨b, h⟩
  · rw [h]
  · rw [h, pin_uncaused]
theorem setCause_uncaused (d : Dev) (c : Nat) : (setCause d c).uncaused = d.uncaused := by
  unfold setCause
  split
  · rfl
  · dsimp only
    rw [svcPin_uncaused]
    split
    · rw [uncaused_of_silent (raise_silent _ _ _), uncaused_of_silent (evLog_silent _ _ _ _ _)]; rfl
    · rw [uncaused_of_silent (evLog_silent _ _ _ _ _)]; rfl

theorem uncaused_guards {a b : Dev} (h : a.uncaused = b.uncaused) : a.guards = b.guards := by
  have := congrArg Dev.guards h; exact this
theorem uncaused_units {a b : Dev} (h : a.uncaused = b.uncaused) : a.units = b.units := by
  have := congrArg Dev.units h; exact this
theorem uncaused_jobs {a b : Dev} (h : a.uncaused = b.uncaused) : a.jobs = b.jobs := by
  have := congrArg Dev.jobs h; exact this
theorem setCause_guards (d : Dev) (c : Nat) : (setCause d c).guards = d.guards := uncaused_guards (setCause_uncaused d c)

theorem setCause_latched (d : Dev) (c : Nat) : d.latched (setCause d c) := by
  unfold setCause
  split
  · exact Dev.latched_refl _
  · dsimp only
    refine Dev.latched_trans ?_ (latched_of_pages (svcPin_pages _))
    split
    · exact latched_raise (Dev.latched_trans (latched_of_pages (by rfl)) (evLog_latched _ _ _ _ _)) _ _
    · exact Dev.latched_trans (latched_of_pages (by rfl)) (evLog_latched _ _ _ _ _)

end Sys2Proof.Machine
end

