-- ==== Sys2Proof/Laws/Cards.lean ====
section
/-! SUPPORT. The card slots: a slot's update changes that slot alone, and a command sent on a slot changes the slot and the port. -/

namespace Sys2Proof.Machine

@[simp] theorem setSlot_getSlot (d : Dev) (i : BitVec 2) (x : CardSlot) : getSlot (setSlot d i x) i = x := by
  unfold getSlot setSlot
  have h := i.isLt
  rcases i with ⟨⟨n, hn⟩⟩
  match n, hn with
  | 0, _ => rfl
  | 1, _ => rfl
  | 2, _ => rfl
  | 3, _ => rfl

theorem setSlot_getSlot_other (d : Dev) {i j : BitVec 2} (x : CardSlot) (h : j ≠ i) : getSlot (setSlot d i x) j = getSlot d j := by
  revert h
  rcases i with ⟨⟨n, hn⟩⟩
  rcases j with ⟨⟨m, hm⟩⟩
  match n, hn, m, hm with
  | 0, _, 0, _ | 1, _, 1, _ | 2, _, 2, _ | 3, _, 3, _ => intro h; exact absurd rfl h
  | 0, _, 1, _ | 0, _, 2, _ | 0, _, 3, _ | 1, _, 0, _ | 1, _, 2, _ | 1, _, 3, _
  | 2, _, 0, _ | 2, _, 1, _ | 2, _, 3, _ | 3, _, 0, _ | 3, _, 1, _ | 3, _, 2, _ => intro _; rfl

/-- A slot's update changes that slot and nothing else. -/
theorem setSlot_only (d : Dev) (i : BitVec 2) (x : CardSlot) : setSlot d i x = { d with crd := (setSlot d i x).crd } := by
  unfold setSlot; split <;> rfl

@[simp] theorem setSlot_session (d : Dev) (i : BitVec 2) (x : CardSlot) : (setSlot d i x).crd.session = d.crd.session := by
  unfold setSlot; split <;> rfl
@[simp] theorem setSlot_before (d : Dev) (i : BitVec 2) (x : CardSlot) : (setSlot d i x).crd.before = d.crd.before := by
  unfold setSlot; split <;> rfl

end Sys2Proof.Machine
end

