-- ==== Sys2Proof/Laws/Rng.lean ====
section
/-! SUPPORT. What the RNG block's operations can change: its own state and the jobs that wait for it. -/

namespace Sys2Proof.Machine

theorem giveSeed_only (d : Dev) (t : SeedTaker) (s : Seed) :
    giveSeed d t s = { d with rng := (giveSeed d t s).rng, jobs := (giveSeed d t s).jobs } := by
  unfold giveSeed
  dsimp only
  split
  · split
    · split <;> rfl
    · rfl
  · split <;> rfl

theorem seedLoop_only (n : Nat) (d : Dev) : seedLoop n d = { d with rng := (seedLoop n d).rng, jobs := (seedLoop n d).jobs } := by
  induction n generalizing d with
  | zero => rfl
  | succ n ih =>
    unfold seedLoop
    split
    · rename_i t s _
      rw [ih (giveSeed d t s), giveSeed_only d t s]
    · rfl

/-- Handing out seeds changes the RNG block and the jobs that wait for a seed, and nothing else. -/
theorem rngFeed_only (d : Dev) : rngFeed d = { d with rng := (rngFeed d).rng, jobs := (rngFeed d).jobs } := by
  unfold rngFeed
  split
  · exact seedLoop_only _ _
  · rfl

theorem instUnseeded_only (d : Dev) (i : Nat) :
    instUnseeded d i = { d with rng := (instUnseeded d i).rng, jobs := (instUnseeded d i).jobs } :=
  rngFeed_only (setInst d i { drbgReset with istate := 1 })

end Sys2Proof.Machine
end

