-- ==== Sys2Proof/Laws/Jobs.lean ====
section
/-! SUPPORT. What the staging of a job can change: jobs keep their stems, and everything beside jobs stays. -/

namespace Sys2Proof.Machine

/-- What every operation between a job's fetch and its first outcome keeps. -/
def Dev.kept (d : Dev) : (BitVec 48 × Tab UnitSt × Wings × Tab FnSt × Tab PortSt × Acl × Pot × Lcs × Tmp × Bat × Tab Guard × Pwr × Svc ×
    Twn × Mgt × Nv × Evr) × List (JobId × JobKind × Entry × Word × BitVec 16 × BitVec 48) × JobId × Tab QueueSt :=
  (d.besideJobs, d.jobs.map Job.stem, d.nextJob, d.queues)

theorem kept_of_quiet {a b : Dev} (h : a.quiet = b.quiet) : a.kept = b.kept := by
  have := congrArg Dev.kept h
  exact this

theorem stem_updateFirst (p : Job → Bool) (f : Job → Job) (hf : ∀ j, (f j).stem = j.stem) (l : List Job) :
    (updateFirst p f l).map Job.stem = l.map Job.stem := by
  induction l with
  | nil => rfl
  | cons a r ih =>
    unfold updateFirst
    split
    · simp [hf]
    · simp [ih]

theorem kept_jobs (d : Dev) (l : List Job) (h : l.map Job.stem = d.jobs.map Job.stem) : ({ d with jobs := l } : Dev).kept = d.kept := by
  unfold Dev.kept Dev.besideJobs Dev.unstaged
  simp only [h]

/-- A change of a job that keeps its stem. -/
theorem modJob_kept (d : Dev) (id : JobId) (f : Job → Job) (hf : ∀ j, (f j).stem = j.stem) : (modJob d id f).kept = d.kept :=
  kept_jobs _ _ (stem_updateFirst _ _ hf _)

theorem finishJob_kept (d : Dev) (id : JobId) (o : OutcomeRec) : (finishJob d id o).kept = d.kept := by
  refine modJob_kept _ _ _ ?_
  intro j; split <;> rfl

theorem failJob_kept (d : Dev) (id : JobId) (r : Byte × Byte) : (failJob d id r).kept = d.kept := by
  unfold failJob
  rw [finishJob_kept, modJob_kept]
  intro j; split <;> rfl

theorem emit_kept (d : Dev) (e : Egress) : (emit d e).kept = d.kept := rfl
theorem pmcFn_kept (d : Dev) (c f n : Nat) : (pmcFn d c f n).kept = d.kept := kept_of_quiet (pmcFn_quiet _ _ _ _)

theorem dmaFault_kept (d : Dev) (j : Job) (b : Byte) : (dmaFault d j b).kept = d.kept := by
  unfold dmaFault
  dsimp only
  split
  · rfl
  · split
    · rw [modJob_kept, emit_kept]; intro j; rfl
    · rw [finishJob_kept, emit_kept]

theorem foldl_kept {β : Type} (f : Dev → β → Dev) (h : ∀ (d : Dev) (b : β), (f d b).kept = d.kept) (l : List β) (d : Dev) :
    (l.foldl f d).kept = d.kept := foldl_same Dev.kept f h l d

theorem emitReads_kept (d : Dev) (fn : FnNo) (read : DWord → Nat → Egress) (a : DWord) (n : Nat) :
    (emitReads d fn read a n).kept = d.kept := by
  unfold emitReads
  exact foldl_kept _ (fun d _ => emit_kept d _) _ _

theorem issueReads_kept (d : Dev) (j : Job) : (issueReads d j).kept = d.kept := by
  have first : ∀ (p q : Bool) (a : DWord) (n : Nat), (if p then emitReads d j.e.fn (Egress.dataRead j.e.fn j.id) a n
      else if q then dmaFault d j 0xFE else d).kept = d.kept := by
    intro p q a n
    split
    · exact emitReads_kept _ _ _ _ _
    · split
      · exact dmaFault_kept _ _ _
      · rfl
  have rest : ∀ e : Dev, e.kept = d.kept → (match j.e.descs.zipIdx.filter fun (x : Desc × Nat) => !x.1.dir with
      | [] => e
      | (_, i) :: _ =>
        if (getFn e j.e.fn.toNat).bme then
          (j.e.descs.zipIdx.filter fun (x : Desc × Nat) => !x.1.dir).foldl
            (fun (d : Dev) (x : Desc × Nat) => emitReads d j.e.fn (Egress.dataRead j.e.fn j.id) x.1.addr x.1.blen.toNat) e
        else dmaFault e j (BitVec.ofNat 8 i)).kept = d.kept := by
    intro e he
    split
    · exact he
    · split
      · exact (foldl_kept _ (fun d (x : Desc × Nat) => emitReads_kept d j.e.fn (Egress.dataRead j.e.fn j.id) x.1.addr x.1.blen.toNat) _ _).trans he
      · rw [dmaFault_kept, he]
  exact rest _ (first _ _ _ _)

theorem rng_kept (d : Dev) (r : Rng) : ({ d with rng := r } : Dev).kept = d.kept := rfl
theorem keys_kept (d : Dev) (k : Keys) : ({ d with keys := k } : Dev).kept = d.kept := rfl
theorem crd_kept (d : Dev) (c : Crd) : ({ d with crd := c } : Dev).kept = d.kept := rfl

theorem giveSeed_kept (d : Dev) (t : SeedTaker) (s : Seed) : (giveSeed d t s).kept = d.kept := by
  unfold giveSeed
  dsimp only
  repeat' split
  all_goals first | rfl | exact (finishJob_kept _ _ _).trans rfl

theorem seedLoop_kept (n : Nat) (d : Dev) : (seedLoop n d).kept = d.kept := by
  induction n generalizing d with
  | zero => rfl
  | succ n ih =>
    unfold seedLoop
    split
    · rw [ih, giveSeed_kept]
    · rfl

theorem rngFeed_kept (d : Dev) : (rngFeed d).kept = d.kept := by
  unfold rngFeed
  split
  · exact seedLoop_kept _ _
  · rfl

theorem stagePr_kept (d : Dev) (j : Job) : (stagePr d j).kept = d.kept := by
  unfold stagePr
  dsimp only
  generalize (if j.kind = JobKind.drbgReseed then _ else _ : Bool) = b
  split
  · exact (rngFeed_kept _).trans rfl
  · rfl

theorem nonceForget_kept (d : Dev) (k : Word) (v : BitVec 16) : (nonceForget d k v).kept = d.kept := by
  unfold nonceForget
  dsimp only
  repeat' split
  all_goals rfl

theorem dropEntry_kept (d : Dev) (e : CacheEnt) : (dropEntry d e).kept = d.kept := by
  unfold dropEntry wipeKey wipeEntry
  dsimp only
  repeat' split
  all_goals first | rfl | exact (nonceForget_kept _ _ _).trans rfl

theorem quorumTake_kept (d : Dev) : (quorumTake d).kept = d.kept := by
  unfold quorumTake; split <;> rfl

theorem maybeTake_kept (d : Dev) (c : Prop) [Decidable c] : (if c then quorumTake d else d).kept = d.kept := by
  split
  · exact quorumTake_kept d
  · rfl

theorem wantLoad_kept (d : Dev) (f : FnNo) (r : CellarRec) : (wantLoad d f r).kept = d.kept := by
  unfold wantLoad; split <;> rfl

theorem emptyVerify_kept (d : Dev) (id : JobId) : (emptyVerify d id).kept = d.kept := by
  unfold emptyVerify
  rw [modJob_kept]
  · rfl
  · intro j; rfl

theorem abortOne_kept (d : Dev) (j : Job) : (abortOne d j).1.kept = d.kept := by
  unfold abortOne
  dsimp only
  repeat' split
  all_goals first
    | rfl
    | (refine (modJob_kept _ _ _ ?_).trans ?_
       · intro j; rfl
       · first | rfl | exact emptyVerify_kept _ _)

theorem settleDraws_kept (d : Dev) : (settleDraws d).kept = d.kept := by
  unfold settleDraws
  rfl

theorem runAbort_kept (d : Dev) (a : Job) : (runAbort d a).kept = d.kept := by
  unfold runAbort
  dsimp only
  rw [settleDraws_kept, finishJob_kept]
  generalize abortTargets d a = l
  have : ∀ (l : List Job) (x : Dev × Nat), (l.foldl (fun (acc : Dev × Nat) j =>
      ((abortOne acc.1 j).1, acc.2 + (if (abortOne acc.1 j).2 then 1 else 0))) x).1.kept = x.1.kept := by
    intro l
    induction l with
    | nil => intro x; rfl
    | cons b r ih => intro x; rw [List.foldl_cons, ih]; exact abortOne_kept _ _
  exact this l (d, 0)

theorem runNil_kept (d : Dev) (j : Job) : (runNil d j).kept = d.kept := by
  unfold runNil
  dsimp only
  split
  · rw [finishJob_kept]
    repeat' split
    all_goals first | rfl | exact dropEntry_kept _ _
  all_goals exact finishJob_kept _ _ _

theorem startJob_kept (d : Dev) (id : JobId) : (startJob d id).kept = d.kept := by
  unfold startJob
  repeat' split
  all_goals first
    | rfl
    | exact runNil_kept _ _
    | exact stagePr_kept _ _
    | (rw [issueReads_kept, modJob_kept]; intro j; rfl)

theorem acceptJob_kept (d : Dev) (f : Fuse) (j : Job) (k : KeyFind) : (acceptJob d f j k).kept = d.kept := by
  have tail : ∀ e : Dev, e.kept = d.kept → (match findJob e j.id with
      | none => e
      | some x =>
        let d := stagePr e x
        if x.kind = JobKind.abort then runAbort d x
        else if (jobParts j k.view (!k.loads.isEmpty)).headD JobPart.main = JobPart.keeper || isNil x.kind then startJob d x.id
        else issueReads d x).kept = d.kept := by
    intro e he
    split
    · exact he
    · dsimp only
      repeat' split
      all_goals first
        | (rw [runAbort_kept, stagePr_kept, he])
        | (rw [startJob_kept, stagePr_kept, he])
        | (rw [issueReads_kept, stagePr_kept, he])
  unfold acceptJob
  dsimp only
  refine tail _ ?_
  rw [modJob_kept]
  · rw [apply_ite Dev.kept, foldl_kept _ (fun d r => wantLoad_kept d _ r), maybeTake_kept, ite_self]
  · intro j; rfl

/-- The checks of a staged job, and what follows from them. -/
theorem checkJob_kept (d : Dev) (f : Fuse) (id : JobId) : (checkJob d f id).kept = d.kept := by
  unfold checkJob
  split
  · rfl
  · dsimp only
    split
    · rw [failJob_kept]
      split <;> rfl
    · rw [acceptJob_kept]
      split
      · exact pmcFn_kept _ _ _ _
      · rfl

/-- A staged entry is a job at the end of the list, whatever its checks find. -/
theorem stageEntry_kept (d : Dev) (f : Fuse) (k : JobKind) (e : Entry) (n : Nat) (w : Word) :
    (stageEntry d f k e n w).kept = ({ d with jobs := d.jobs ++ [blankJob d k e n w], nextJob := d.nextJob + 1 } : Dev).kept := by
  unfold stageEntry
  dsimp only
  split
  · simp only [Dev.kept, List.map_append]; rfl
  · split
    · split
      · exact failJob_kept _ _ _
      · split
        · exact emitReads_kept _ _ _ _ _
        · exact dmaFault_kept _ _ _
    · exact checkJob_kept _ _ _

end Sys2Proof.Machine
end

