-- ==== Sys2Proof/Laws/Stage.lean ====
section
/-! SUPPORT. What the settling of the staging area can change: the record of its pages, and bytes inside it (03 R84). -/

namespace Sys2Proof.Machine

theorem stageFn_dev (d : Dev) (f : Nat) : (stageFn d f).1 = { d with pot := { d.pot with stage := (stageFn d f).1.pot.stage } } := by
  unfold stageFn; dsimp only; split <;> rfl

/-- The pages that are wiped lie in the staging area. -/
theorem stageFn_wiped (d : Dev) (f p : Nat) (h : p ∈ (stageFn d f).2) : p < 1024 := by
  unfold stageFn at h
  dsimp only at h
  split at h
  · simp at h
  · have := List.mem_of_mem_take h
    rw [List.mem_filter] at this
    exact List.mem_range.mp this.1

theorem memGet_wipes (l : List Nat) (m : List Host.Cell) (a : Nat) (hl : ∀ p ∈ l, p < 1024) (h : 0x400000 ≤ a) :
    memGet (l.foldl (fun m p => memWipe m (0x1000 * p) 0x1000) m) a = memGet m a := by
  induction l generalizing m with
  | nil => rfl
  | cons p r ih =>
    rw [List.foldl_cons, ih _ fun q hq => hl q (List.mem_cons_of_mem _ hq), memGet_wipe, if_neg]
    have := hl p List.mem_cons_self
    omega

theorem memWipes_wf (l : List Nat) (m : List Host.Cell) (h : Memory.wf m = true) :
    Memory.wf (l.foldl (fun m p => memWipe m (0x1000 * p) 0x1000) m) = true := by
  induction l generalizing m with
  | nil => exact h
  | cons p r ih => exact ih _ (memWipe_wf _ _ _ h)

/-- A fold over states keeps whatever each of its steps keeps. -/
theorem foldl_holds {α β : Type} (P : α → Prop) (f : α → β → α) (hf : ∀ a b, P a → P (f a b)) (l : List β) (a : α) (h : P a) :
    P (l.foldl f a) := by
  induction l generalizing a with
  | nil => exact h
  | cons b r ih => exact ih _ (hf _ _ h)

/-- Everything that the settling can change. -/
theorem stageSettle_spec (s : State) : s.besideStage (stageSettle s) ∧
    (stageSettle s).dev = { s.dev with pot := { s.dev.pot with stage := (stageSettle s).dev.pot.stage } } ∧
    (s.canonical → (stageSettle s).canonical) := by
  unfold stageSettle
  dsimp only
  refine foldl_holds (P := fun t => s.besideStage t ∧ t.dev = { s.dev with pot := { s.dev.pot with stage := t.dev.pot.stage } } ∧
    (s.canonical → t.canonical)) _ ?_ _ _ ⟨⟨rfl, rfl, fun _ _ => rfl⟩, rfl, id⟩
  intro t f ⟨⟨h1, h2, h3⟩, h4, h5⟩
  refine ⟨⟨h1, h2, ?_⟩, ?_, ?_⟩
  · intro a ha
    exact (memGet_wipes _ _ _ (fun p hp => stageFn_wiped _ _ _ hp) ha).trans (h3 a ha)
  · show (stageFn t.dev f).1 = _
    rw [stageFn_dev, h4]
  · intro hs
    exact memWipes_wf _ _ (h5 hs)

end Sys2Proof.Machine
end

