-- ==== Sys2Proof/Tests/Slice0.lean ====
section
/-! SUPPORT. Tests of single steps, ill-formed commands that the check refuses, and a witness for the hypotheses of every statement:
concrete states, built by the helpers below, that meet all hypotheses of each clause together. -/

namespace Sys2Proof.Tests

set_option Elab.async false

open Sys2Proof Sys2Proof.Machine

/-! ### Small states and operands -/

/-- The reset state with its device changed. -/
def onDev (f : Dev → Dev) : State := State.reset.withDev (f State.reset.dev)

/-- A state taken back to life-cycle state TEST. -/
def inTest (s : State) : State := { s with fuse := { s.fuse with wProd := 0 } }

/-- A state taken back to life-cycle state BLANK. -/
def inBlank (s : State) : State := { s with fuse := { s.fuse with wProd := 0, wTest := 0 } }

def keeperUp (d : Dev) : Dev := { d with acl := { d.acl with keeper := 2 } }
def domUp (n : Nat) (d : Dev) : Dev := modDom d n fun x => { x with state := 2 }
def locked (p : Nat) (d : Dev) : Dev := { d with pages := tabPut d.pages p { getPage d p with lock := true } }
def withPwr (f : Pwr → Pwr) (d : Dev) : Dev := { d with pwr := f d.pwr }

def pf0 : Ini := { id := 0, priv := true }
def pf128 : Ini := { id := 128, priv := true }
def vf3 : Ini := { id := 3, priv := true }
def porterCore : Ini := { id := 256, priv := true }
def keeperCore : Ini := { id := 266, priv := true }

/-- A READY function with two queue pairs and two vectors. -/
def fn3 : FnSt := { fnReset with state := 1, vectors := 2, qpairs := 2, kcUnits := 2, bme := true }
def withFn3 (d : Dev) : Dev := setFn d 3 fn3

/-- A fetch that nothing stops. -/
def fetchFree : FetchStop := { win := false, cq := false, stage := false }

/-- An enabled queue of function 3, with rings of their smallest size. -/
def withQueue (f : QueueSt → QueueSt) (d : Dev) : Dev := setQ (withFn3 d) 3 1 (f { queueReset with en := true })

/-- An entry of function 3, queue 1, with nothing in it. -/
def bare : Entry :=
  { fn := 3, q := 1, tag := 7, fence := false, nointr := false, pr := false, keysel := 0, param := 0, keyref := 0, descs := [], operands := [] }

/-- The smallest well-formed entry of a row of the catalogue. -/
def plainEntry (i : JobInfo) : Entry :=
  { bare with
    keysel := if i.key == .none then 0 else 1
    descs := List.replicate i.rmin { addr := 64, blen := 16, dir := false, resv := 0 } ++
      List.replicate i.wmin { addr := 128, blen := 16, dir := true, resv := 0 }
    operands := zeros i.lay }

/-- A job of that entry with the first free number, in a stage of its own. -/
def jobOf (k : JobKind) (f : Job → Job) (d : Dev) : Dev :=
  { d with jobs := [f (blankJob d k (plainEntry (jobInfo k)) 1 0)], nextJob := d.nextJob + 1 }

/-! ### Ill-formed commands -/

def plainTxn : Txn := { ini := porterCore, mmio := false, kind := .write, burst := false, buffered := false, addr := 0x1000, len := 4, data := [1, 2, 3, 4] }

theorem test_wf_txn : Instr.wf (.fabricTransaction plainTxn) = true := by decide
theorem test_illformed_initiator : Instr.wf (.fabricTransaction { plainTxn with ini := { id := 275, priv := false } }) = false := by decide
theorem test_illformed_empty : Instr.wf (.fabricTransaction { plainTxn with len := 0, data := [] }) = false := by decide
theorem test_illformed_end : Instr.wf (.fabricTransaction { plainTxn with addr := 0xFFFFFFFFFE }) = false := by decide
theorem test_illformed_long : Instr.wf (.fabricTransaction { plainTxn with len := 17, data := zeros 17 }) = false := by decide
theorem test_illformed_data : Instr.wf (.fabricTransaction { plainTxn with data := [1] }) = false := by decide
theorem test_illformed_atomic : Instr.wf (.fabricTransaction { plainTxn with kind := .atomic, addr := 0x1002 }) = false := by decide
theorem test_illformed_buffered : Instr.wf (.fabricTransaction { plainTxn with kind := .read, buffered := true }) = false := by decide
theorem test_illformed_unit : Instr.wf (.strikeExpire 233) = false ∧ Instr.wf (.strikeExpire 232) = true := by decide
theorem test_illformed_domain : Instr.wf (.domainReady 20) = false ∧ Instr.wf (.domainReady 19) = true := by decide
theorem test_illformed_source : Instr.wf (.sourceAlarm ⟨6, []⟩ []) = false ∧ Instr.wf (.sourceAlarm ⟨5, []⟩ []) = true := by decide
theorem test_illformed_block : Instr.wf (.rawBlockComplete 0 [] true) = false := by decide
theorem test_illformed_word : Instr.wf (.guardedRegisterWrite pf0 0x12059046 0) = false := by decide
theorem test_illformed_register : Instr.wf (.registerWrite pf0 0x10003FFE [1, 2, 3]) = false ∧ Instr.wf (.registerWrite pf0 0x10003FFE []) = false := by decide
theorem test_illformed_nonce : Instr.wf (.challenge false 0 []) = false := by decide
theorem test_illformed_atr : Instr.wf (.atrReceived 0 [0x3B]) = false ∧ Instr.wf (.atrReceived 0 (zeros 34)) = false := by decide
theorem test_illformed_response : Instr.wf (.apduResponse 0 (zeros 257) 0x9000) = false := by decide +kernel
theorem test_illformed_signature : Instr.wf (.signed ⟨0, 0, true, true⟩ []) = false := by decide
/-- A tick in which nothing happens outside the device. -/
def quietTick : BoundaryIn :=
  { rtc := 1, faults := [], badVerdicts := [], badContexts := [], memErrors := [], telemetry := ⟨0, 0, 0, 0⟩, kat := ⟨0, 0, 0, 0⟩, pairs := [], badCores := 0 }

theorem test_illformed_fault : Instr.wf (.tickBoundary { quietTick with faults := [⟨233, .inversion, none⟩] }) = false := by decide
theorem test_illformed_descriptors : Instr.wf (.nop { bare with descs := List.replicate 255 ⟨0, 1, false, 0⟩ }) = false := by decide +kernel
theorem test_illformed_entry : Instr.wf (.nop { bare with operands := zeros 4065 }) = false ∧ Instr.wf (.nop { bare with operands := zeros 4064 }) = true := by decide +kernel

/-- Every row of the catalogue has a well-formed entry. -/
theorem test_catalogue_entries : (jobsEngine ++ jobsAdmin).all (fun i => (entryMalformed i (plainEntry i)).isNone) = true := by decide +kernel

/-! ### Witnesses: the whole machine -/

theorem witness_StepRunsFront : State.reset.pending = [] := rfl

theorem witness_CommandsComplete : namesAbsent .planCut = false ∧ namesAbsent (.strikeExpire 233) = true ∧ namesAbsent (.domainReady 20) = true ∧
    namesAbsent (.sourceAlarm ⟨6, []⟩ []) = true := by decide

/-- In STANDBY the plan cut answers the same state: a step to which the frames and the invariants apply. -/
def asleepState : State := onDev (withPwr fun p => { p with sysstate := 3 })

theorem witness_StoreFrame : storesBytes .planCut = false ∧ burnsFuses .planCut = false ∧ exec .planCut asleepState = .next asleepState :=
  ⟨rfl, rfl, rfl⟩

/-- A step of a state with one command waiting. -/
theorem witness_MemoryCanonical : ({ asleepState with pending := [.planCut] } : State).canonical ∧
    step { asleepState with pending := [.planCut] } = .next asleepState := ⟨rfl, rfl⟩

theorem witness_FusesOnlyBurn : step { asleepState with pending := [.planCut] } = .next asleepState := rfl

theorem witness_LifeCycleForward : step { asleepState with pending := [.planCut] } = .next asleepState := rfl

theorem witness_NoPulseWhileLow :
    let s := onDev (withPwr fun p => { p with sysstate := 3, pfLevel := false })
    s.dev.pwr.pfLevel = false ∧ restoresPower .planCut = false ∧ exec .planCut s = .next s := ⟨rfl, rfl, rfl⟩

def clearEntry : Entry := plainEntry (jobInfo .tamperLockClear)

theorem witness_PfOnlyDenied :
    let s := onDev (withQueue id)
    jobRow (.tamperLockClear clearEntry) = some (.tamperLockClear, clearEntry) ∧ queueOpen s.dev clearEntry.fn clearEntry.q = true ∧
    entryMalformed (jobInfo .tamperLockClear) clearEntry = none ∧ (getFn s.dev clearEntry.fn.toNat).bme = true ∧
    fetchStop s.dev clearEntry.fn.toNat clearEntry.q.toNat = fetchFree ∧ (jobInfo .tamperLockClear).pf = true ∧ clearEntry.fn ≠ 0 ∧
    clearEntry.fn ≠ 128 ∧ lcState s.fuse = 2 := by decide +kernel

/-- A PF with an open queue beside function 3. -/
def withPfQueue (d : Dev) : Dev := setQ (setFn (withFn3 d) 0 fn3) 0 1 { queueReset with en := true }
def toProduction : Entry := { plainEntry (jobInfo .lifecycleTransition) with fn := 0, operands := 2 :: zeros 63 }

theorem witness_ProductionDenied :
    let s := inTest (onDev withPfQueue)
    queueOpen s.dev toProduction.fn toProduction.q = true ∧ entryMalformed (jobInfo .lifecycleTransition) toProduction = none ∧
    (getFn s.dev toProduction.fn.toNat).bme = true ∧ fetchStop s.dev toProduction.fn.toNat toProduction.q.toNat = fetchFree ∧ toProduction.fn = 0 ∧ lcState s.fuse = 1 ∧ opLe toProduction 0 1 = 2 ∧ 3 ≠ toProduction.fn.toNat ∧ (getFn s.dev 3).state ≠ 0 := by
  decide +kernel

theorem witness_EventSetIgnored : writeReaches State.reset.dev pf0 (funcPage 3) = true ∧ lcState State.reset.fuse ≠ 1 := by decide +kernel

/-! ### Witnesses: ticks, units, the store room -/

theorem witness_Ticks : State.reset.dev.pwr.sysstate ≠ 3 ∧ asleepState.dev.pwr.sysstate = 3 ∧
    State.reset.dev.cutDone = false ∧ State.reset.dev.nv.twin.outbox = [] := by decide

theorem witness_RotationStart : rotationOf State.reset.dev .pk = none ∧ bits (guardVal State.reset.dev (regAddr svcPage 0x068)) 0 16 ≠ 0 ∧
    (∃ u0, u0 ∈ wingShelves .pk ∧ (getUnit State.reset.dev u0).state = 0) := by
  refine ⟨by decide, by decide +kernel, ?_⟩
  exact ⟨(wingShelves .pk).headD 0, by decide +kernel, by decide +kernel⟩

theorem witness_UnitService : (10 : UnitNo).toNat < unitCount ∧ isPf pf0.id = true ∧ pf0.priv = true ∧
    asleep State.reset.dev (unitPage 10) = none ∧ (getPage State.reset.dev (unitPage 10)).lock = false ∧
    (let d := setUnit { State.reset.dev with tick := 0x100000 } 10 { getUnit State.reset.dev 10 with strike := some 0 }
     (getUnit d 10).strike = some 0 ∧ (0 : BitVec 48).toNat + 2 ^ 20 ≤ d.tick.toNat) ∧
    (let d := setUnit { State.reset.dev with tick := 0xFFFFF } 10 { getUnit State.reset.dev 10 with strike := some 0 }
     ∀ b, (getUnit d 10).strike = some b → d.tick.toNat < b.toNat + 2 ^ 20) := by
  refine ⟨by decide, by decide, by decide, by decide +kernel, by decide +kernel, by decide +kernel, ?_⟩
  intro d b h
  have : b = 0 := by
    have e : (getUnit d 10).strike = some 0 := by rfl
    rw [e] at h; exact (Option.some.inj h).symm
  subst this; decide

theorem witness_StoreRoom :
    (let d := { State.reset.dev with nv := { State.reset.dev.nv with frac := hourCycles } }; hourCycles ≤ d.nv.frac) ∧
    (let d := keeperUp { withPwr (fun p => { p with src := 1 }) State.reset.dev with svc := { State.reset.dev.svc with margin := 29 } }
     d.acl.keeper = 2 ∧ d.pwr.src ≠ 0 ∧ d.svc.margin.toNat < 30 ∧
     (d.pwr.point = 0 → bits (guardVal d (clkAddr 0x054)) 0 10 + 5 ≤ 850) ∧ (getPage d (clkPage 0)).lock = false) ∧
    (reqsetOk keeperCore 0x4E510001 = true ∧ bit 0x4E510001 0 = true) ∧
    (reqsetOk keeperCore 0x4E510002 = true ∧ bit 0x4E510002 1 = true ∧ lcState (inTest State.reset).fuse = 1) ∧
    lcState State.reset.fuse ≠ 1 := by decide +kernel

/-! ### Witnesses: registers and functions -/

def allocAddr : BitVec 40 := BitVec.ofNat 40 (regAddr (funcPage 3) 0x040)
def allocShadow : BitVec 40 := BitVec.ofNat 40 (regAddr (funcPage 3) 0x840)

theorem witness_GuardedPair :
    let d := State.reset.dev
    (isGuarded allocAddr.toNat = true ∧ writeReaches d pf0 (allocAddr.toNat / 0x1000) = true ∧
      (getPage d (allocAddr.toNat / 0x1000)).lock = false ∧ guardRight State.reset.fuse pf0 allocAddr.toNat = true) ∧
    (isGuarded (allocShadow.toNat - 0x800) = true ∧ 0x800 ≤ allocShadow.toNat % 0x1000 ∧
      writeReaches d pf0 (allocShadow.toNat / 0x1000) = true ∧ (getPage d (allocShadow.toNat / 0x1000)).lock = false ∧
      guardRight State.reset.fuse pf0 (allocShadow.toNat - 0x800) = true ∧
      guardRefused d State.reset.fuse (allocShadow.toNat - 0x800) ((getGuard d (allocShadow.toNat - 0x800)).pend.getD
        (guardVal d (allocShadow.toNat - 0x800))) = false) ∧
    (let d := locked (funcPage 3) d
     isGuarded allocAddr.toNat = true ∧ writeReaches d pf0 (allocAddr.toNat / 0x1000) = true ∧
      (getPage d (allocAddr.toNat / 0x1000)).lock = true) := by decide +kernel

theorem witness_HeaderWrites :
    let d := State.reset.dev
    (writeReaches d keeperCore (funcPage 3) = true ∧ lcState (inTest State.reset).fuse = 1 ∧ lcState State.reset.fuse ≠ 1) ∧
    (keeperOnly keeperCore = true ∧ (getPage d (funcPage 3)).lock = false ∧
      (getPage (locked (funcPage 3) d) (funcPage 3)).lock = true ∧ writeReaches (locked (funcPage 3) d) keeperCore (funcPage 3) = true) ∧
    (writeReaches d pf0 (funcPage 3) = true ∧ keeperOnly pf0 = false) := by decide +kernel

theorem witness_RegisterWrites : hostSees pf0 (funcPage (3 : FnNo).toNat) = true ∧ (getPage State.reset.dev (funcPage (3 : FnNo).toNat)).lock = false ∧
    (getPage (locked (funcPage 3) State.reset.dev) (funcPage (3 : FnNo).toNat)).lock = true ∧ 31 < 32 ∧ 127 < 128 := by decide +kernel

/-- FUNC_ALLOC of function 3 asks for two vectors and two queue pairs. -/
def alloc3 (d : Dev) : Dev := setGuard d (regAddr (funcPage 3) 0x040) { val := 0x00020200, shadow := ~~~ 0x00020200, pend := none }

theorem witness_FunctionCommands :
    (let d := alloc3 State.reset.dev
     mayCommandFn pf0 3 = true ∧ (getFn d 3).busy = false ∧ createCheck d 3 = 0) ∧
    (let d := withFn3 State.reset.dev
     mayCommandFn pf0 3 = true ∧ (getFn d 3).busy = false ∧ (getFn d 3).state = 1) ∧
    (let d := setFn State.reset.dev 3 { fn3 with state := 3 }
     (3 : FnNo).toNat ≠ 0 ∧ (3 : FnNo).toNat ≠ 128 ∧ (getFn d 3).state = 3) := by decide +kernel

theorem witness_PortResets :
    (130 / 128 = portNo true ∧ 130 < 256 ∧ (getFn (setFn State.reset.dev 130 fn3) 130).state = 1) ∧
    (128 : FnNo).toNat = 128 * portNo true ∧
    (let d := setPort State.reset.dev true { portReset with vfEnable := true, numVfs := 4 }
     (getPort d true).vfEnable = true ∧ (false = false) ∧ 130 % 128 ≠ 0) ∧
    (¬((getPort State.reset.dev true).vfEnable = true ∧ true = false) ∧ (getPort State.reset.dev true).numVfs = 0) := by decide +kernel

theorem witness_FunctionSwitches :
    let d := withFn3 State.reset.dev
    ((getFn d 3).state ≠ 0 ∧ (1 : BitVec 5).toNat < (getFn d 3).vectors) ∧ (getFn d 3).vectors ≤ (2 : BitVec 5).toNat ∧
    (getFn State.reset.dev 3).state = 0 ∧
    (domOn d (12 + portNo false) = true ∧ (getPort (setPort d false { portReset with perst := false }) false).perst = false ∧
      (getPort (setPort d false { portReset with perst := true }) false).perst = true ∧
      domOn (setPort d false { portReset with perst := true }) (12 + portNo false) = true) := by decide +kernel

def withRequest (d : Dev) : Dev := setDoe d false (some [0])

theorem witness_DoeMailbox : (zeros 4096).length ≤ 4096 ∧ domOn State.reset.dev (12 + portNo false) = true ∧
    4096 < (zeros 4097).length := by decide +kernel

theorem witness_SpdmResponses :
    (let s := onDev fun d => keeperUp (withRequest d); spdmReady s false) ∧ (1 : Byte).toNat = (0 : Fin 6).val + 1 ∧
    (let s := onDev withRequest
     (doeOf s.dev false).isSome = true ∧ lcState s.fuse = 2 ∧ keeperPresent s.dev = false ∧
     Instr.getVersion false ∈ [Instr.getVersion false, .getCapabilities false, .getDigests false, .negotiateAlgorithms false true true]) := by
  refine ⟨⟨by decide +kernel, by decide +kernel, by decide +kernel⟩, by decide, by decide +kernel⟩

/-! ### Witnesses: queues and jobs -/

/-- An empty entry as bytes: a NOP of one unit. -/
def nopBytes : List Byte := [0x01, 0x10, 0x01, 0x07] ++ zeros 28

/-- The completion ring of function 3's queue 1 is full. -/
def fullRing (d : Dev) : Dev := modQ d 3 1 fun x => { x with cqProd := BitVec.ofNat 32 (ringUnits x.cqsz) }

theorem witness_QueueCommands :
    let fn : FnNo := 3
    let q : QNo := 1
    (let d := withQueue id State.reset.dev
     queueOpen d fn q = true ∧ (getQ d 3 1).idxOut = false ∧ (getFn d 3).bme = true) ∧
    (let d := withQueue (fun x => { x with idxOut := true }) State.reset.dev
     queueOpen d fn q = true ∧ (getQ d 3 1).idxOut = true ∧ (getFn d 3).bme = true ∧
     ((1 : Word) - (getQ d 3 1).sqCons).toNat ≤ ringUnits (getQ d 3 1).sqsz ∧
     ((getQ d 3 1).cqProd - (0 : Word)).toNat ≤ ringUnits (getQ d 3 1).cqsz) ∧
    queueOpen State.reset.dev fn q = false ∧
    (let d := withQueue (fun x => { x with sqProd := 1 }) State.reset.dev
     queueOpen d fn q = true ∧ (getQ d 3 1).entryOut = false ∧ (getFn d 3).bme = true ∧
     0 < ((getQ d 3 1).sqProd - (getQ d 3 1).sqCons).toNat ∧ fetchStop d 3 1 = fetchFree ∧ (getQ d 3 1).stwait = false) ∧
    (let d := fullRing (withQueue (fun x => { x with sqProd := 1 }) State.reset.dev)
     queueOpen d fn q = true ∧ (getQ d 3 1).entryOut = false ∧ 0 < ((getQ d 3 1).sqProd - (getQ d 3 1).sqCons).toNat ∧
     fetchStop d 3 1 = { fetchFree with cq := true } ∧ (getQ d 3 1).stwait = false) ∧
    (let d := withFn3 State.reset.dev
     (getPage d (quePage 3)).lock = false ∧ (getQ d 3 1).disabling = false ∧ (getQ d 3 1).en = false ∧ q.toNat < (getFn d 3).qpairs ∧
     (getFn d 3).state = 1 ∧ (getFn d 3).bme = true) ∧
    (let d := withQueue id State.reset.dev
     (getPage d (quePage 3)).lock = false ∧ (getQ d 3 1).disabling = false ∧ (getQ d 3 1).en = true) := by decide +kernel

def firmware (f : Job → Job) (d : Dev) : Dev := jobOf .firmwareUpdate f d

theorem witness_QueueReads :
    let fn : FnNo := 3
    let q : QNo := 1
    (let d := withQueue (fun x => { x with entryOut := true, sqProd := 1 }) State.reset.dev
     queueOpen d fn q = true ∧ (getQ d 3 1).entryOut = true ∧ (getFn d 3).bme = true ∧
     (∃ r, bytesMalformed fn q ((getQ d 3 1).sqProd - (getQ d 3 1).sqCons).toNat nopBytes = .inr r)) ∧
    (let d := firmware id State.reset.dev
     ∃ j x, findJob d 0 = some j ∧ jobEnded j = false ∧ j.e.descs[0]? = some x ∧ x.dir = false ∧ tabFind j.got 0 = none ∧ jobPlaced j = false) ∧
    (let d := withQueue (fun x => { x with idxOut := true }) State.reset.dev
     queueOpen d fn q = true ∧ (getQ d 3 1).idxOut = true) := by
  refine ⟨⟨by decide +kernel, by decide +kernel, by decide +kernel, _, rfl⟩, ⟨_, _, rfl, rfl, rfl, rfl, rfl, rfl⟩, by decide +kernel⟩

theorem witness_JobSubmission :
    let s := onDev (withQueue id)
    let e := plainEntry (jobInfo .gcmEncrypt)
    jobRow (.gcmEncrypt e) = some (.gcmEncrypt, e) ∧ queueOpen s.dev e.fn e.q = true ∧ entryMalformed (jobInfo .gcmEncrypt) e = none ∧
    (getFn s.dev e.fn.toNat).bme = true ∧ fetchStop s.dev e.fn.toNat e.q.toNat = fetchFree := by decide +kernel

theorem witness_MalformedEntry :
    let s := onDev (withQueue id)
    jobRow (.gcmEncrypt bare) = some (.gcmEncrypt, bare) ∧ queueOpen s.dev bare.fn bare.q = true ∧
    entryMalformed (jobInfo .gcmEncrypt) bare = some 0x0A ∧ (getFn s.dev bare.fn.toNat).bme = true ∧
    fetchStop s.dev bare.fn.toNat bare.q.toNat = fetchFree ∧
    (let d := setFn s.dev 3 { fn3 with bme := false }
     queueOpen d bare.fn bare.q = true ∧ (getFn d bare.fn.toNat).bme = false ∧ fetchStop d bare.fn.toNat bare.q.toNat = fetchFree) ∧
    (let d := fullRing s.dev
     queueOpen d bare.fn bare.q = true ∧ fetchStop d bare.fn.toNat bare.q.toNat = { fetchFree with cq := true }) ∧
    queueOpen State.reset.dev bare.fn bare.q = false := by decide +kernel

/-! ### Witnesses: the keeper world and random numbers -/

def plainImage : RecImage :=
  { key := 9, parent := 0, tenant := 0, version := 1, ktype := 0x01, level := 0, attr := 0, export_ := 0, origin := 0, qinval := false,
    record := 5, pfx := 0, stamp := 0, value := zeros 16, point := [], state := 2 }

def plainRecord : CellarRec := { img := plainImage, place := 0, sealVer := 1, signer := [1], bbk := 3, commit := 0 }

/-- The keeper world is READY, can open the record of key 9 and has been asked for it. -/
def withKey9 (d : Dev) : Dev :=
  keeperUp { d with
    nv := { d.nv with cellar := [plainRecord] }
    keys := { d.keys with lineage := some 3, signer := [1], svn := 1, loads := [(9, 1, 3, 0)] } }

def plainNonce : NonceSt :=
  { record := 5, twin := false, next := 65536, limit := 65536, nextFree := 1, wait := some 1, ownDone := false, peerDone := true, cached := true }

def withNonce (d : Dev) : Dev := { d with keys := { d.keys with nonces := [plainNonce] } }

def plainCard : CardEntry := { cardId := zeros 16, index := 1, pub := zeros 64, check := zeros 16 }
def plainCustody : Custody := { m := 2, n := 3, version := 1, commit := 1, digest := zeros 48, cards := [plainCard] }
def withCustody (d : Dev) : Dev := { d with nv := { d.nv with custodyA := some plainCustody } }

/-- A job whose part in the keeper world is due. -/
def inKeeper (k : JobKind) (d : Dev) : Dev := keeperUp (jobOf k (fun j => { j with stage := .keeper, todo := [.keeper] }) d)

theorem witness_KeeperWorld :
    (let d := withNonce State.reset.dev
     d.pwr.pfLevel = true ∧ nonceOf d 5 false = some plainNonce ∧ plainNonce.wait = some 1 ∧ nextFree d.nv 5 false ≤ 1 ∧ 1 < 2 ^ 32) ∧
    (let d := withKey9 State.reset.dev
     keeperPresent d = true ∧ ((loadsDue d).find? fun l => l.1 == 9 && l.2.1 == 1) = some (9, 1, 3, 0) ∧
     recByVersion d.nv 9 1 = some plainRecord ∧ plainRecord.img.state ≠ 4 ∧ readable d plainRecord = true ∧ lineLive d.nv 9 = true ∧
     (anchorTable d ++ ancestorsOf d.nv 9).eraseDups.length ≤ 4096 ∧ (cacheHit d 9 1).isNone = true ∧
     (freeRun d 0 16384 (typeSlots plainImage.ktype)).isSome = true ∧ ∀ j ∈ d.jobs, ((9, 1) : Word × BitVec 16) ∉ j.loads) ∧
    (let d := withKey9 State.reset.dev
     ((loadsDue d).find? fun l => l.1 == 9 && l.2.1 == 2) = none) ∧
    (let d := withCustody (inKeeper .quorumOpen State.reset.dev)
     ∃ j, findJob d 0 = some j ∧ j.stage = .keeper ∧ jobPart j = .keeper ∧ keeperPresent d = true ∧ readsDone j = true ∧
       d.pwr.pfLevel = true ∧ j.kind = .quorumOpen ∧ custodyOf d.nv ≠ none) ∧
    (let d := inKeeper .quorumStatus State.reset.dev
     ∃ j, findJob d 0 = some j ∧ j.stage = .keeper ∧ jobPart j = .keeper ∧ keeperPresent d = true ∧ readsDone j = true ∧
       j.kind = .quorumStatus) := by
  refine ⟨by decide +kernel, ⟨by decide +kernel, rfl, rfl, by decide +kernel, by decide +kernel, by decide +kernel, by decide +kernel,
    by decide +kernel, by decide +kernel, by decide +kernel⟩, by decide +kernel, ⟨_, rfl, rfl, rfl, rfl, rfl, rfl, rfl, by decide +kernel⟩, ⟨_, rfl, rfl, rfl, rfl, rfl, rfl⟩⟩

/-- Source 2 in a state, and the conditioner in one. -/
def withSource (f : SourceSt → SourceSt) (state : BitVec 3) (d : Dev) : Dev :=
  let d := setSource d 2 (f (getSource d 2))
  { d with rng := { d.rng with state := state, sha := 3 } }

/-- Raw bytes and samples in which no health test fires, and samples in which the repetition count test does. -/
def evenBytes : List Byte := List.replicate 256 0xAA
def evenBits : List Bool := (List.replicate 512 [true, false]).flatten
def stuckBits : List Bool := List.replicate 51 true

theorem evenBytes_pass : (healthRun 2 healthReset 0 (rawBits (fit 256 evenBytes))).2.2 = none := by decide +kernel
theorem stuckBits_fire : healthRun 2 healthReset 0 stuckBits = ({ last := true, run := 51, first := true, pos := 51, count := 51 }, 51, some false) := by
  decide +kernel

def emptySeed : Seed := { bytes := [], source := 0, order := 0 }

/-- Both world instances are READY and hold their spare seeds: no instance takes a seed. -/
def satisfied (d : Dev) : Dev :=
  let x : DrbgSt := { drbgReset with istate := 2, key := zeros 32, v := zeros 16, spare := some emptySeed }
  setInst (setInst d 256 x) 257 x

/-- Source 2 is in its start-up test or isolated, and the RNG runs. -/
def startingSource (state : BitVec 3) : Dev := withSource (fun x => { x with sstate := state }) 1 State.reset.dev

theorem witness_NoiseSources :
    let i : BitVec 3 := 2
    (let d := satisfied (withSource (fun x => { x with sstate := 2 }) 2 State.reset.dev)
     i.toNat < 6 ∧ (getSource d 2).sstate = 2 ∧ d.rng.state = 2 ∧ d.rng.sha ≠ 0 ∧ routed d 2 = false ∧ (getSource d 2).health = healthReset ∧
       d.rng.seeds.length < 16 ∧ seedTakers d = []) ∧
    (let d := withSource (fun x => { x with sstate := 2 }) 2 State.reset.dev
     let d := { d with rng := { d.rng with seeds := List.replicate 16 emptySeed } }
     (getSource d 2).sstate = 2 ∧ d.rng.state = 2 ∧ routed d 2 = false ∧ (getSource d 2).health = healthReset ∧ d.rng.seeds.length = 16 ∧
       d.rng.prs = []) ∧
    (let d := withSource (fun x => { x with sstate := 2, lastSample := some 1, samples := 0x1000001 }) 2 State.reset.dev
     (getSource d 2).sstate = 2 ∧ (getSource d 2).health = healthReset ∧
       ((getSource d 2).lastSample.getD 0).toNat + 2 ^ 24 ≤ ((getSource d 2).samples + BitVec.ofNat 64 51).toNat) ∧
    (let d := withSource (fun x => { x with sstate := 2, lastSample := some 1, samples := 0xFFFFCD }) 2 State.reset.dev
     (getSource d 2).sstate = 2 ∧ (getSource d 2).health = healthReset ∧ (getSource d 2).lastSample = some 1 ∧
       ((getSource d 2).samples + BitVec.ofNat 64 51).toNat < (1 : DWord).toNat + 2 ^ 24) ∧
    (healthRun 2 healthReset 0 evenBits).2.2 = none ∧
    ((getSource (startingSource 3) 2).sstate = 3 ∧ (startingSource 3).rng.state ≠ 0 ∧ evenBits.length = 1024 ∧ startupFails 2 evenBits = false ∧
      (startingSource 3).rng.katDone = false) ∧
    ((getSource (startingSource 1) 2).sstate = 1 ∧ startupFails 2 (stuckBits ++ evenBits) = true) := by decide +kernel

/-- The instances of function 3 and of the keeper are seeded and the conditioner delivers. -/
def seeded (d : Dev) : Dev :=
  let x : DrbgSt := { drbgReset with istate := 2, key := zeros 32, v := zeros 16 }
  let d := setInst (setInst d 3 x) 257 x
  { d with rng := { d.rng with state := 2, pairs := 15 } }

theorem witness_RandomDraws :
    (let d := seeded (jobOf .keygenP256 id State.reset.dev)
     ∃ j, findJob d 0 = some j ∧ j.stage = .wait ∧ 0 < jobDraw j ∧ j.draw = none ∧ prWaits d 0 = false ∧
       d.rng.drawBytes + jobDraw j ≤ 131072 ∧ hasBlocks d (jobDraw j) = true ∧ canDeliver d (jobInst j) = true) ∧
    (let d := jobOf .keygenP256 (fun j => { j with rngWait := 63 }) State.reset.dev
     ∃ j, findJob d 0 = some j ∧ jobEnded j = false ∧ waitsRng j = true ∧ 63 ≤ j.rngWait ∧ d.rng.served = false) ∧
    (lcState State.reset.fuse ≠ 1 ∧ isFnId pf0.id = true ∧ pf0.priv = true ∧ hostSees pf0 rngPage = true ∧ hostSees vf3 rngPage = false) ∧
    (let s := inTest (onDev fun d => { d with rng := { d.rng with rawEn := true, rawBuf := List.replicate 31 true } })
     lcState s.fuse = 1 ∧ s.dev.rng.rawEn = true ∧ 32 ≤ (s.dev.rng.rawBuf ++ [false]).length ∧
       (getSource s.dev s.dev.rng.rawSrc.toNat).sstate ≠ 2) := by
  refine ⟨⟨_, rfl, rfl, by decide +kernel, rfl, by decide +kernel, by decide +kernel, by decide +kernel, by decide +kernel⟩,
    ⟨_, rfl, rfl, by decide +kernel, by decide +kernel, rfl⟩, by decide +kernel, by decide +kernel⟩

/-! ### Witnesses: access control and the worlds -/

/-- Page 0x401 of shared SRAM holds porter programs; an access of four bytes to it, at its very end. -/
def withPage1 (d : Dev) : Dev := { d with pot := { d.pot with cur := tabPut d.pot.cur 0x401 0x10000000 } }
def porterTxn (k : TxnKind) : Txn := { plainTxn with kind := k, addr := 0x401FFC, data := if k = .write then [1, 2, 3, 4] else [] }

theorem witness_SharedSram :
    (let s := onDev withPage1
     sramAccess s (porterTxn .write) ∧ denyRule s.dev (txnIni (porterTxn .write)) .write ((porterTxn .write).addr.toNat / 0x1000) = none ∧
       Memory.wf s.mem = true ∧ sramAccess s (porterTxn .read) ∧
       denyRule s.dev (txnIni (porterTxn .read)) .read ((porterTxn .read).addr.toNat / 0x1000) = none) ∧
    (sramAccess State.reset (porterTxn .write) ∧
       denyRule State.reset.dev (txnIni (porterTxn .write)) .write ((porterTxn .write).addr.toNat / 0x1000) = some 0x402 ∧
       isPosted (porterTxn .write) = false ∧ State.reset.dev.acl.compat = false) ∧
    (let t : Txn := { porterTxn .read with ini := pf0, mmio := true, addr := 0x00086FFC }
     isFnId t.ini.id = true ∧ t.mmio = true ∧ 0 < t.len ∧ t.addr.toNat % 0x1000 + t.len ≤ 0x1000 ∧
       barPage t.ini.id.toNat (t.addr.toNat / 0x1000) = none) := by
  refine ⟨⟨?_, by decide +kernel, by decide +kernel, ?_, by decide +kernel⟩, ⟨?_, by decide +kernel, by decide +kernel, by decide +kernel⟩,
    by decide +kernel⟩
  all_goals exact ⟨by decide +kernel, by decide +kernel, by decide +kernel, by decide +kernel, by decide +kernel, by decide +kernel,
    by decide +kernel, by decide +kernel⟩

/-- An access table entry for every initiator and page, read-only. -/
def openEntry : AclEnt := { w0 := 0x800FFC00, w1 := 0, w2 := 0xFFFFFFFF, w3 := 4 }

theorem witness_AccessCheck :
    let d := State.reset.dev
    (iniKeeper d porterCore.id = false ∧ keeperAddr d 0x401 = true) ∧
    (let boot : Ini := { id := 272, priv := true }
     iniKeeper d boot.id = true ∧ keyPageShut boot .read keyPage = true) ∧
    (iniKeeper d keeperCore.id = true ∧ regionOf 1 = .sram ∧ potAdmits d keeperCore .read 1 = false) ∧
    (let d := { d with acl := { d.acl with cur := [(768, openEntry)] } }
     iniKeeper d keeperCore.id = true ∧ keyPageShut keeperCore .read 0x10003 = false ∧ (regionOf 0x10003 = .sram → potAdmits d keeperCore .read 0x10003 = true) ∧
     aclWinner d keeperCore 0x10003 = some (768, openEntry)) ∧
    (iniKeeper d vf3.id = false ∧ keeperAddr d 0x10003 = false ∧ keyPageShut vf3 .read 0x10003 = false ∧ (regionOf 0x10003 = .sram → potAdmits d vf3 .read 0x10003 = true) ∧
      aclWinner { d with acl := { d.acl with cur := [] } } { vf3 with priv := false } 0x10003 = none ∧
      aclWinner { d with acl := { d.acl with cur := [] } } vf3 0x10003 = none) := by decide +kernel

theorem witness_TableCommits :
    keeperOnly keeperCore = true ∧ coreOnly porterCore = true ∧ keeperOnly porterCore = false ∧
    (let p := { State.reset.dev.pot with kfirst := 0x400, kcount := 2, kval := 0x90000000 }
     ∀ k ∈ potRange p.kfirst.toNat p.kcount.toNat, potFixed p k p.kval = false) ∧
    (let p := { State.reset.dev.pot with kfirst := 0x3FF, kcount := 2, kval := 0x90000000 }
     0x3FF ∈ potRange p.kfirst.toNat p.kcount.toNat ∧ potFixed p 0x3FF p.kval = true) ∧
    (let p := { State.reset.dev.pot with cur := [(0x400, 0x10000000)], next := [(0x400, 0x10000000)], pfirst := 0x400, pcount := 1, pval := 0x20000000 }
     (∀ k ∈ potRange p.pfirst.toNat p.pcount.toNat, potFixed p k p.pval = false ∧ potWorld (potGet p.cur k) = false ∧
       potWorld (potGet p.next k) = false) ∧ potWorld p.pval = false ∧
     potOwnerChange (potGet p.cur 0x400) 0x20000000 = true) ∧
    (let d := { State.reset.dev with pot := { State.reset.dev.pot with commits := 1, wipes := [(0x1FFF, 1)] } }
     wipeReady d (0x1FFF : BitVec 13).toNat = some 1 ∧ ∀ x ∈ d.acl.stalled, x.domain ≠ 255) := by decide +kernel

/-- A placement of job 0 in the plan that runs. -/
def placed0 : Placed :=
  { job := 0, fn := 3, wing := .pk, kind := .pkOp, half := false, units := 1, unit := 10, epoch := 0, first := 0, blocks := 0, pay := 0, aad := 0,
    fill := false, relies := none, grp := 0, dummy := false, keeps := false, draw := [] }

theorem witness_Worlds :
    keeperOnly keeperCore = true ∧ isPorterCore porterCore.id = true ∧ coreOnly porterCore = true ∧ porterCore.priv = true ∧
    (keeperUp State.reset.dev).acl.keeper = 2 ∧
    (let d := inKeeper .quorumStatus State.reset.dev
     ∃ j, findJob d 0 = some j ∧ keeperWork j = true ∧ inPlans d j = false) ∧
    (let d := keeperUp (jobOf .keyGenerate (fun j => { j with checked := true, stage := .running })
        { State.reset.dev with wings := { State.reset.dev.wings with planCur := [placed0] } })
     ∃ j, findJob d 0 = some j ∧ keeperWork j = true ∧ ∃ p ∈ d.wings.planCur, p.job = 0 ∧ p.kind ≠ .empty) ∧
    (let d := { State.reset.dev with mgt := { State.reset.dev.mgt with nextIlmel := some ⟨[1], 2, false⟩ } }; d.mgt.nextIlmel = some ⟨[1], 2, false⟩) ∧
    (let d := { State.reset.dev with acl := { State.reset.dev.acl with porter := 3 } }; d.acl.porter = 3) ∧
    (let d := keeperUp { State.reset.dev with tick := BitVec.ofNat 48 (kwdogTicks State.reset.dev) }
     d.acl.keeper = 2 ∧ kwdogTicks d ≠ 0 ∧ d.acl.kPet.toNat + kwdogTicks d ≤ d.tick.toNat) ∧
    State.reset.dev.tick.toNat < State.reset.dev.acl.kPet.toNat + kwdogTicks State.reset.dev ∧
    (let d := { State.reset.dev with tick := BitVec.ofNat 48 (pwdogTicks State.reset.dev), acl := { State.reset.dev.acl with porter := 2 } }
     d.acl.porter = 2 ∧ pwdogTicks d ≠ 0 ∧ d.acl.pPet.toNat + pwdogTicks d ≤ d.tick.toNat) ∧
    State.reset.dev.tick.toNat < State.reset.dev.acl.pPet.toNat + pwdogTicks State.reset.dev ∧
    State.reset.dev.acl.keeper = 1 ∧ { State.reset.dev.acl with porter := 1 }.porter = 1 ∧
    { State.reset.dev.acl with keeper := 3 }.keeper = 3 := by
  refine ⟨by decide, by decide, by decide, by decide, rfl, ⟨_, rfl, rfl, rfl⟩, ⟨_, rfl, rfl, placed0, .head _, rfl, by decide⟩, rfl, rfl, by decide +kernel, by decide +kernel, by decide +kernel,
    by decide +kernel, by decide +kernel, by decide +kernel⟩

/-! ### Witnesses: cards and quorum -/

/-- Card slot 1 in a state, with the CARD domain on and the keeper world READY. -/
def withSlot (f : CardSlot → CardSlot) (d : Dev) : Dev := keeperUp (domUp 15 (setSlot d 1 (f (getSlot d 1))))

/-- A slot ready for a command, with a card that the custody record names. -/
def readySlot (d : Dev) : Dev := withSlot (fun x => { x with present := true, state := 3, cardId := zeros 16, chan := true, kd := zeros 16 }) d

def plainSession : Session :=
  { number := 1, fn := 0, code := 1, digest := zeros 48, state := 0, windowEnd := 3932160, counted := [], qs := 0, coeffs := [], written := [] }
def withSession (se : Session) (d : Dev) : Dev := { d with crd := { d.crd with session := some se } }

theorem witness_CardInsertion :
    (getSlot State.reset.dev 1).present = false ∧
    (let d := withSlot (fun x => { x with present := true, state := 1 }) State.reset.dev
     (getSlot d 1).present = true ∧ (getSlot d 1).debounced = false ∧ (getSlot d 1).state = 1 ∧ domOn d 15 = true) ∧
    (let d := withSlot (fun x => { x with state := 2, cls := 1 }) State.reset.dev
     (getSlot d 1).state = 2 ∧ (getSlot d 1).retryB = false ∧ (getSlot d 1).cls = 1 ∧ (getSlot d 1).clsSel ≠ 1) ∧
    (let d := withSlot (fun x => { x with state := 2, cls := 1, clsSel := 1 }) State.reset.dev
     (getSlot d 1).state = 2 ∧ (getSlot d 1).retryB = false ∧ (getSlot d 1).clsSel = 1) ∧
    (let d := withSlot (fun x => { x with state := 2, retryB := true }) State.reset.dev
     (getSlot d 1).state = 2 ∧ (getSlot d 1).retryB = true) ∧
    (let d := withSlot (fun x => { x with present := true, debounced := true, state := 1 }) State.reset.dev
     isKeeperCore keeperCore.id = true ∧ asleep d (crdPage 1) = none ∧ (getPage d (crdPage 1)).lock = false ∧ (getSlot d 1).present = true ∧
       (getSlot d 1).debounced = true ∧ (getSlot d 1).state = 1 ∧ domOn d 15 = true) ∧
    (let d := withSlot (fun x => { x with present := true, state := 6 }) State.reset.dev
     asleep d (crdPage 1) = none ∧ (getPage d (crdPage 1)).lock = false ∧ 2 ≤ (getSlot d 1).state.toNat ∧ (getSlot d 1).state.toNat ≤ 6) ∧
    isKeeperCore pf0.id = false := by decide +kernel

theorem witness_AtrParameters :
    (getSlot (withSlot (fun x => { x with state := 2 }) State.reset.dev) 1).state = 2 ∧
    (getSlot (withSlot (fun x => { x with state := 2 }) State.reset.dev) 1).retryB = false ∧
    ((0x96 : Byte) ∉ cardFactors.map (·.1)) ∧ ((0x95, 512, 16) ∈ cardFactors) ∧ (15 : Byte).toNat < 16 := by decide +kernel

theorem witness_CardCommands :
    (let d := withSlot (fun x => { x with state := 6, wakeDue := true }) State.reset.dev
     slotFree d 1 0x02 = true ∧ (getSlot d 1).chan = false) ∧
    (let d := withCustody (readySlot State.reset.dev)
     slotFree d 1 0x10 = true ∧ slotFree d 1 0x20 = true ∧ slotFree d 1 0x30 = true ∧ slotFree d 1 0x60 = true ∧ (getSlot d 1).chan = true ∧
     cardKey d (getSlot d 1) ≠ none ∧ custodyOf d.nv = some plainCustody) ∧
    (let se := { plainSession with state := 5, code := 0x1002 }
     let d := withSession se (readySlot State.reset.dev)
     d.crd.session = some se ∧ se.state = 5 ∧ slotFree d 1 0x40 = true ∧ (getSlot d 1).chan = true ∧
       enrolIndex se (getSlot d 1).cardId ≤ custodyN se.code) ∧
    (let d := withSlot (fun x => { x with state := 4, ins := 0x40, tries := 3 }) State.reset.dev
     (getSlot d 1).state = 4 ∧ (getSlot d 1).ins = 0x40) ∧
    (getSlot (withSlot (fun x => { x with state := 5 }) State.reset.dev) 1).state = 5 ∧
    (let d := withSlot (fun x => { x with state := 3, stopInd := 1, idleMs := 1 }) State.reset.dev
     (getSlot d 1).state = 3 ∧ (getSlot d 1).stopInd ≠ 0 ∧ (getSlot d 1).idleMs ≠ 0) ∧
    (getSlot (withSlot (fun x => { x with stopInd := 0 }) State.reset.dev) 1).stopInd = 0 := by decide +kernel

theorem witness_openChannel : ∃ bs e,
    let d := seeded (withCustody (readySlot State.reset.dev))
    slotFree d 1 0x20 = true ∧ cardKey d (getSlot d 1) ≠ none ∧ keeperDraw d 56 = some (bs, e) := by
  have h : (keeperDraw (seeded (withCustody (readySlot State.reset.dev))) 56).isSome = true := by decide +kernel
  obtain ⟨p, hp⟩ := Option.isSome_iff_exists.mp h
  exact ⟨p.1, p.2, by decide +kernel, by decide +kernel, hp⟩

theorem witness_CardResponses :
    (getSlot (withSlot (fun x => { x with state := 4, ins := 0x10 }) State.reset.dev) 1).ins = 0x10 ∧
    (getSlot (withSlot (fun x => { x with state := 4, ins := 0x60 }) State.reset.dev) 1).state = 4 ∧
    ((getSlot (withSlot (fun x => { x with state := 4, ins := 0x30 }) State.reset.dev) 1).ins ≠ 0x02 ∧ (0x6A82 : BitVec 16) ≠ 0x9000) ∧
    (getSlot State.reset.dev 1).state ≠ 4 ∧
    (let d := withSession plainSession { State.reset.dev with bat := { State.reset.dev.bat with rtc := 3932160 } }
     d.crd.session = some plainSession ∧ plainSession.state = 0 ∧ plainSession.windowEnd ≤ d.bat.rtc.toNat) ∧
    (let d := withSession plainSession { State.reset.dev with bat := { State.reset.dev.bat with rtc := 3932159 } }
     d.crd.session = some plainSession ∧ d.bat.rtc.toNat < plainSession.windowEnd) := by decide +kernel

/-- A share of the card in slot 1: index 1 and y = 5. -/
def plainShare : List Byte := 1 :: zeros 31 ++ [5]
def shareCard : CardEntry := { plainCard with check := shareCheck 1 1 (slice plainShare 1 32) }
def shareCustody (m : Nat) : Custody :=
  { plainCustody with m := m, cards := [shareCard], digest := quorumDigest 1 (shareJoin [(1, beNat (slice plainShare 1 32))]) }
def shareState (m : Nat) (se : Session) (d : Dev) : Dev :=
  withSession se { readySlot d with nv := { d.nv with custodyA := some (shareCustody m) } }

theorem witness_ShareCounting :
    let fresh := plainSession
    let again := { plainSession with counted := [(zeros 16, 1, zeros 32)] }
    (let d := shareState 2 fresh State.reset.dev
     custodyOf d.nv = some (shareCustody 2) ∧ d.crd.session = some fresh ∧ fresh.state = 0 ∧ d.bat.rtc.toNat < fresh.windowEnd ∧
     custodyCard (shareCustody 2) (getSlot d 1).cardId = some shareCard ∧ shareCard.index = leAt plainShare 0 1 ∧
     shareCheck (shareCustody 2).version.toNat shareCard.index (slice plainShare 1 32) = shareCard.check ∧
     (∀ k ∈ fresh.counted, k.1 ≠ (getSlot d 1).cardId) ∧ fresh.counted.length + 1 < (shareCustody 2).m) ∧
    (let d := shareState 2 again State.reset.dev
     custodyOf d.nv = some (shareCustody 2) ∧ d.crd.session = some again ∧ again.state = 0 ∧ d.bat.rtc.toNat < again.windowEnd ∧
     ∃ k ∈ again.counted, k.1 = (getSlot d 1).cardId) ∧
    ((shareCustody 1).m ≤ fresh.counted.length + 1 ∧ fresh.code.toNat < 0x1000 ∧
     quorumDigest (shareCustody 1).version.toNat (shareJoin (((fresh.counted ++ [((zeros 16, shareCard.index, slice plainShare 1 32) :
       List Byte × Nat × List Byte)]).take (shareCustody 1).m).map fun k => (k.2.1, beNat k.2.2))) = (shareCustody 1).digest) ∧
    (let d := shareState 2 fresh State.reset.dev
     custodyCard (shareCustody 2) (getSlot d 0).cardId = none ∧ d.crd.session = some fresh) := by
  refine ⟨⟨rfl, rfl, rfl, by decide +kernel, rfl, by decide +kernel, by decide +kernel, by decide +kernel, by decide +kernel⟩,
    ⟨rfl, rfl, rfl, by decide +kernel, _, .head _, rfl⟩, ⟨by decide, by decide, by decide +kernel⟩, rfl, rfl⟩

/-! ### Witnesses: life cycle and tamper -/

theorem witness_Provisioning :
    (let s := inTest (onDev fun d => { d with lcs := { d.lcs with fuseIdx := 63 } })
     keeperOnly keeperCore = true ∧ lcState s.fuse = 1 ∧ 22 ≤ s.dev.lcs.fuseIdx.toNat ∧ fuseRead s.fuse s.dev.lcs.fuseIdx.toNat = 0 ∧
     s.dev.pwr.pfLevel = true) ∧
    (let s := inTest (onDev fun d => { d with lcs := { d.lcs with fuseIdx := 58 } })
     let s := { s with fuse := { s.fuse with product := 1 } }
     lcState s.fuse = 1 ∧ 22 ≤ s.dev.lcs.fuseIdx.toNat ∧ fuseRead s.fuse s.dev.lcs.fuseIdx.toNat ≠ 0) ∧
    (let s := inTest State.reset
     lcState s.fuse = 1 ∧ s.fuse.mDrs ≠ 0) ∧
    (let d := { State.reset.dev with lcs := { State.reset.dev.lcs with active := true, dbgEnd := 5 }, tick := 5 }
     d.lcs.active = true ∧ d.lcs.dbgEnd.toNat ≤ d.tick.toNat) ∧
    (let d := { State.reset.dev with lcs := { State.reset.dev.lcs with active := true, dbgEnd := 5 }, tick := 4 }
     d.tick.toNat < d.lcs.dbgEnd.toNat) ∧
    (let d := jobOf .lifecycleTransition id { State.reset.dev with lcs := { State.reset.dev.lcs with
        erasing := true, trans := some { target := 3, job := some 0, pulses := 4, actions := false } } }
     d.lcs.erasing = true ∧ d.pwr.pfLevel = true ∧ ∃ j, findJob d 0 = some j ∧ jobEnded j = false) := by
  refine ⟨by decide +kernel, by decide +kernel, by decide +kernel, by decide +kernel, by decide +kernel, rfl, rfl, _, rfl, rfl⟩

/-- A part whose DRS is not programmed, in TEST, with the keeper instance seeded. -/
def noDrs : State := { onDev seeded with fuse := { State.reset.fuse with wProd := 0, drs := 0, mDrs := 0 } }

theorem witness_genDrs : ∃ bs d, lcState noDrs.fuse = 1 ∧ noDrs.fuse.drs = 0 ∧ noDrs.fuse.mDrs = 0 ∧ noDrs.dev.pwr.pfLevel = true ∧
    keeperDraw noDrs.dev 64 = some (bs, d) := by
  have h : (keeperDraw noDrs.dev 64).isSome = true := by decide +kernel
  obtain ⟨p, hp⟩ := Option.isSome_iff_exists.mp h
  exact ⟨p.1, p.2, by decide +kernel, rfl, rfl, rfl, hp⟩

/-- The same without a seed: the draw waits. -/
theorem witness_genDrs_waits : let s : State := { noDrs with dev := State.reset.dev }
    lcState s.fuse = 1 ∧ s.fuse.drs = 0 ∧ s.fuse.mDrs = 0 ∧ keeperDraw s.dev 64 = none := by decide +kernel

def transition (t : Byte) (d : Dev) : Dev :=
  keeperUp (jobOf .lifecycleTransition (fun j => { j with e := { j.e with operands := t :: zeros 63 }, stage := .keeper, todo := [.keeper] }) d)

/-- The same with a token digest for PRODUCTION in the fuses. -/
def tokenState (t : Byte) (digest : Nat) : State :=
  let s := inTest (onDev (transition t))
  { s with fuse := { s.fuse with tProd := BitVec.ofNat 384 digest } }

def plainToken : List Byte := [0x47, 0x4A, 0x2D, 0x4C, 0x43, 0x54, 0x00, 2] ++ zeros 32

theorem witness_LifeCycleCommit :
    (let s := tokenState 0 1
     ∃ j, findJob s.dev 0 = some j ∧ j.stage = .keeper ∧ jobPart j = .keeper ∧ keeperPresent s.dev = true ∧ readsDone j = true ∧
       j.kind = .lifecycleTransition ∧ s.dev.bat.locked = false ∧ s.dev.lcs.trans = none ∧ lcAllowed (lcState s.fuse) (opLe j.e 0 1) = false) ∧
    (let s := tokenState 2 1
     ∃ j, findJob s.dev 0 = some j ∧ j.stage = .keeper ∧ jobPart j = .keeper ∧ keeperPresent s.dev = true ∧ readsDone j = true ∧
       j.kind = .lifecycleTransition ∧ s.dev.bat.locked = false ∧ s.dev.lcs.trans = none ∧ lcAllowed (lcState s.fuse) (opLe j.e 0 1) = true ∧
       allZero (tokenDigest s.fuse (opLe j.e 0 1)) = false ∧ s.dev.lcs.tokenFails.toNat < 16 ∧
       sha384 ([0x47, 0x4A, 0x2D, 0x4C, 0x43, 0x54, 0x00, BitVec.ofNat 8 (opLe j.e 0 1)] ++ opAt j.e 32 32) ≠
         tokenDigest s.fuse (opLe j.e 0 1)) ∧
    (let s := tokenState 2 (leNat (sha384 plainToken))
     ∃ j, findJob s.dev 0 = some j ∧ j.stage = .keeper ∧ jobPart j = .keeper ∧ keeperPresent s.dev = true ∧ readsDone j = true ∧
       j.kind = .lifecycleTransition ∧ s.dev.bat.locked = false ∧ s.dev.lcs.trans = none ∧ lcAllowed (lcState s.fuse) (opLe j.e 0 1) = true ∧ opLe j.e 0 1 ≠ 3 ∧
       allZero (tokenDigest s.fuse (opLe j.e 0 1)) = false ∧ s.dev.lcs.tokenFails.toNat < 16 ∧ s.dev.pwr.pfLevel = true ∧
       sha384 ([0x47, 0x4A, 0x2D, 0x4C, 0x43, 0x54, 0x00, BitVec.ofNat 8 (opLe j.e 0 1)] ++ opAt j.e 32 32) =
         tokenDigest s.fuse (opLe j.e 0 1)) := by
  refine ⟨⟨_, rfl, rfl, rfl, rfl, rfl, rfl, rfl, rfl, by decide +kernel⟩, ⟨_, rfl, rfl, rfl, rfl, rfl, rfl, rfl, rfl, by decide +kernel, by decide +kernel,
    by decide +kernel, by decide +kernel⟩, ⟨_, rfl, rfl, rfl, rfl, rfl, rfl, rfl, rfl, by decide +kernel, by decide +kernel, by decide +kernel,
    by decide +kernel, rfl, by decide +kernel⟩⟩

/-- Levels at rest: every switch at its polarity, nothing else found. -/
def quietLevels : TamperIn := { sw := 0, meshBad := 0, tempLo := false, tempHi := false, clkRtc := false, light := false }

theorem witness_TamperAlarms :
    (let d := State.reset.dev
     d.bat.onCell = false ∧ fusedOff State.reset.fuse 21 = false ∧ (0x280000 : BitVec 23).getLsbD 21 = true ∧ d.bat.alarm.getLsbD 21 = false ∧
       (0x280000 : BitVec 23).getLsbD 19 = true ∧ (tamperResp d 19).getLsbD 3 = true ∧ (tamperResp d 20).getLsbD 2 = true) ∧
    (let d := { State.reset.dev with bat := { State.reset.dev.bat with onCell := true } }
     d.bat.onCell = true ∧ fusedOff State.reset.fuse 0 = false ∧ (0x200001 : BitVec 23).getLsbD 0 = true ∧
       (0x200001 : BitVec 23).getLsbD 21 = true ∧ d.bat.alarm = 0 ∧ (tamperResp d 0).getLsbD 3 = true ∧ (tamperResp d 21).getLsbD 2 = true) ∧
    (let d := { State.reset.dev with bat := { State.reset.dev.bat with alarm := 0x400000 } }
     ∀ n, n < 23 → (0x400000 : BitVec 23).getLsbD n = true → fusedOff State.reset.fuse n = true ∨ d.bat.alarm.getLsbD n = true) ∧
    ((sampledCond State.reset.dev State.reset.fuse { quietLevels with tempHi := true } false).getLsbD 13 = true ∧
     sampledCond State.reset.dev State.reset.fuse { quietLevels with light := true } false = 0) ∧
    (let a := regAddr (funcPage 3) 0x040
     let d := setGuard State.reset.dev a { val := 1, shadow := 1, pend := none }
     isGuarded a = true ∧ guardVal d a ≠ ~~~ (getGuard d a).shadow ∧
     guardVal State.reset.dev a = ~~~ (getGuard State.reset.dev a).shadow) := by decide +kernel

theorem witness_BatteryDomain :
    (let b : BurstIn := { levels := quietLevels, mismatch := true, vbat := none }
     let d := { State.reset.dev with bat := { State.reset.dev.bat with onCell := true } }
     d.bat.onCell = true ∧ sampledCond d State.reset.fuse b.levels true = 0 ∧ (b.mismatch && d.bat.burstMiss) = false ∧ b.vbat = none) ∧
    (let b : BurstIn := { levels := { quietLevels with light := true }, mismatch := false, vbat := none }
     let d := { State.reset.dev with bat := { State.reset.dev.bat with onCell := true } }
     d.bat.onCell = true ∧ 19 < 23 ∧ (sampledCond d State.reset.fuse b.levels true).getLsbD 19 = true ∧ d.bat.alarm.getLsbD 19 = false) ∧
    State.reset.dev.bat.onCell = false ∧
    (keeperOnly keeperCore = true ∧ State.reset.dev.bat.locked = false ∧
     { State.reset.dev.bat with locked := true }.locked = true ∧ keeperOnly pf0 = false) := by decide +kernel

theorem witness_SourceFuses :
    (isKeeperCore keeperCore.id = true ∧ State.reset.dev.pwr.pfLevel = true ∧ bits (0x7A3C000B : Word) 16 16 = 0x7A3C ∧
      bits (0x7A3C000B : Word) 0 5 ≤ 11 ∧ lcState State.reset.fuse = 2 ∧ State.reset.fuse.off.length = 12) ∧
    11 < bits (0x7A3C000C : Word) 0 5 := by decide +kernel

theorem witness_TamperCounter :
    (let f := { State.reset.fuse with counter := BitVec.ofNat 8192 (2 ^ 8190) }
     f.counter.getLsbD 8190 = true ∧ counterTop f = 8191 ∧ counterTop f < 8192 ∧ 8192 - counterTop f ≤ 256) ∧
    (let f := { State.reset.fuse with counter := BitVec.ofNat 8192 (2 ^ 8190) }
     ∀ k, counterTop f ≤ k → k < 8192 → k ∈ [8191]) ∧
    (let f := { State.reset.fuse with counter := BitVec.ofNat 8192 (2 ^ 8189) }
     counterTop f ≤ 8191 ∧ 8191 ∉ [8190] ∧ ∀ j, counterTop f ≤ j → j < 8191 → j ∈ [8190]) := by
  have h0 : counterTop { State.reset.fuse with counter := BitVec.ofNat 8192 (2 ^ 8190) } = 8191 := by decide +kernel
  have h1 : counterTop { State.reset.fuse with counter := BitVec.ofNat 8192 (2 ^ 8189) } = 8190 := by decide +kernel
  refine ⟨⟨by decide +kernel, h0, ?_, ?_⟩, ?_, ?_, by decide, ?_⟩
  · rw [h0]; decide
  · rw [h0]; decide
  · intro f k hk hl; simp only [f, h0] at hk; simp; omega
  · rw [h1]; decide
  · intro j hj hl; rw [h1] at hj; simp; omega

/-! ### Witnesses: power, clocks, reset -/

theorem witness_DomainVotes :
    (voteClient keeperCore = some 0 ∧ 2 ≤ (8 : BitVec 5).toNat ∧ (19 : BitVec 5).toNat < 20 ∧ (8 : BitVec 5).toNat ∉ heldDomains ∧
      (19 : BitVec 5).toNat ∉ heldDomains ∧ (getDom State.reset.dev 8).state ≠ 3 ∧ (getDom State.reset.dev 19).state ≠ 3) ∧
    (voteClient porterCore = some 1 ∧ (8 : BitVec 5).toNat ∉ keeperDomains) ∧
    (voteClient { id := 5, priv := true } = none ∧ (19 : BitVec 5).toNat ∉ keeperDomains) ∧
    ((1 : BitVec 5).toNat < 2 ∧ isKeeperCore keeperCore.id = true) ∧
    (voteClient pf0 = some 2 ∧ (getPage State.reset.dev (pwrPage 20)).lock = false) := by decide +kernel

theorem witness_DomainPower :
    let hw (d : Dev) : Dev := modDom d 8 fun x => { x with state := 2, hw := true, host := true, idle := 3, last := 1 }
    (let d := hw { State.reset.dev with tick := 4 }
     (getDom d 8).hw = true ∧ (getDom d 8).state = 2 ∧ (getDom d 8).last.toNat + (getDom d 8).idle.toNat ≤ d.tick.toNat ∧
       (getDom d 8).host = true) ∧
    (let d := hw { State.reset.dev with tick := 3 }
     d.tick.toNat < (getDom d 8).last.toNat + (getDom d 8).idle.toNat) ∧
    (let d := modDom State.reset.dev 8 fun x => { x with state := 1 }
     (getDom d 8).state = 1 ∧ (∀ x ∈ d.acl.stalled, x.domain ≠ 8) ∧ ∃ u ∈ domShelves 8, tabGet d.nv.roles u 1 ≠ 2) ∧
    (getDom State.reset.dev 4).state ≠ 1 := by
  refine ⟨by decide +kernel, by decide +kernel, ⟨by decide +kernel, by decide +kernel, (domShelves 8).headD 0, by decide +kernel, by decide +kernel⟩,
    by decide +kernel⟩

/-- CCLK runs from PLL A at a point. -/
def atPoint (n : BitVec 2) (ph : DvfsPhase) (d : Dev) : Dev := withPwr (fun p => { p with src := 1, point := n, target := n, phase := ph }) d

theorem witness_OperatingPoint :
    (let d := atPoint 1 .idle State.reset.dev
     isKeeperCore keeperCore.id = true ∧ (getPage d (clkPage 0)).lock = false ∧ d.pwr.phase = .idle ∧ d.pwr.src ≠ 0) ∧
    (voteClient porterCore = some 1 ∧ voteClient vf3 = none ∧ isPf pf0.id = true ∧ pf0.priv = true) ∧
    (isPorterCore porterCore.id = true ∧ (atPoint 1 .downLock State.reset.dev).pwr.phase ≠ .idle) ∧
    (isKeeperCore porterCore.id = false) ∧
    (let d := atPoint (oppChosen State.reset.dev) .downVolt State.reset.dev
     d.pwr.phase = .downVolt ∧ d.pwr.recal = false ∧ d.pwr.src ≠ 0 ∧ oppChosen d = d.pwr.point ∧ oppChosen d = d.pwr.target) ∧
    (atPoint 1 (.upWait true false) State.reset.dev).pwr.phase = .upWait true false ∧
    (atPoint 1 (.upWait false true) State.reset.dev).pwr.phase = .upWait false true ∧
    (atPoint 1 (.switchDue true) State.reset.dev).pwr.phase = .switchDue true ∧
    (let d := atPoint (oppChosen State.reset.dev) (.upWait false false) State.reset.dev
     d.pwr.phase = .upWait false false ∧ d.pwr.recal = false ∧ oppChosen d = d.pwr.target) ∧
    (State.reset.dev.pwr.src = 0 ∧ State.reset.dev.pwr.phase = .idle ∧ (getPage State.reset.dev (clkPage 0)).lock = false) := by decide +kernel

def inRun (d : Dev) : Dev := withPwr (fun p => { p with sysstate := 1 }) d

theorem witness_StandbyWake :
    (let d := inRun { State.reset.dev with lcs := { State.reset.dev.lcs with due := false } }
     keeperOnly keeperCore = true ∧ bits (0x5B3D0001 : Word) 16 16 = 0x5B3D ∧ bit 0x5B3D0001 0 = true ∧ d.pwr.sysstate = 1 ∧
       (∀ p ∈ d.fns, p.2.state = 0) ∧ d.crd.session = none ∧ d.lcs.active = false ∧ d.pwr.pfLevel = true ∧ d.lcs.trans = none ∧
       d.lcs.erasing = false ∧ d.lcs.due = false) ∧
    (let d := inRun (withFn3 State.reset.dev)
     d.pwr.sysstate = 1 ∧ (3, fn3) ∈ d.fns ∧ fn3.state ≠ 0) ∧
    (let d := withPwr (fun p => { p with pfLevel := false }) (inRun State.reset.dev)
     d.pwr.sysstate = 1 ∧ (∀ p ∈ d.fns, p.2.state = 0) ∧ d.crd.session = none ∧ d.lcs.active = false ∧ d.pwr.pfLevel = false) ∧
    (let d := withSession plainSession (inRun State.reset.dev)
     d.pwr.sysstate = 1 ∧ (∀ p ∈ d.fns, p.2.state = 0) ∧ sessionOpen d = true) ∧
    { State.reset.dev.lcs with active := true }.active = true ∧
    (let d := inRun { State.reset.dev with lcs := { State.reset.dev.lcs with trans := some ⟨1, none, 1, false⟩ } }
     d.pwr.sysstate = 1 ∧ (∀ p ∈ d.fns, p.2.state = 0) ∧ sessionOpen d = false ∧ d.lcs.active = false ∧ d.pwr.pfLevel = true ∧
       d.lcs.trans ≠ none) ∧
    (let d := withPwr (fun p => { p with sysstate := 3, almEn := true, alm := 0 }) State.reset.dev
     d.pwr.almEn = true ∧ d.pwr.sysstate = 3 ∧ d.pwr.alm.toNat ≤ d.bat.rtc.toNat) ∧
    (let d := withPwr (fun p => { p with sysstate := 3, almEn := true, alm := 0xFFFFFFFFFFFF }) State.reset.dev
     d.pwr.almEn = true ∧ d.pwr.sysstate = 3 ∧ d.bat.rtc.toNat < d.pwr.alm.toNat) ∧
    State.reset.dev.pwr.almEn = false ∧ State.reset.dev.pwr.sysstate ≠ 3 := by decide +kernel

theorem witness_PowerFail :
    State.reset.dev.pwr.pfLevel = true ∧
    (let s := onDev (withPwr fun p => { p with pfLevel := false })
     s.dev.pwr.pfLevel = false ∧ s.dev.bat.pcount = 0 ∧ s.dev.bat.pcount.toNat + counterTop s.fuse ≤ 8192) := by decide +kernel

/-- A boot that finds everything in order. -/
def goodImage : Image := { signer := [], svn := 1, testSigned := false }
def goodBoot : BootIn :=
  { canaryOk := true, badBits := [], loader := goodImage, ilmel := goodImage, porterImage := goodImage, extension := none, porterSigner := [], potEntries := [],
    aclEntries := [], keeperCores := 63, porterCores := 1023, tornPlaces := [], tornCustody := 0, storeRoomOk := true }

theorem witness_ColdReset :
    (keeperOnly keeperCore = true ∧ bits (0xC01D0001 : Word) 16 16 = 0xC01D ∧ bit 0xC01D0001 0 = true ∧ keeperOnly pf0 = false) ∧
    (lcState (inTest State.reset).fuse = 1 ∧ lcState State.reset.fuse = 2) ∧
    (goodBoot.canaryOk = true ∧ goodBoot.storeRoomOk = true ∧ State.reset.dev.pwr.resetPend = none ∧ State.reset.dev.pwr.sysstate ≠ 4) ∧
    (let d := withPwr (fun p => { p with sysstate := 4 }) State.reset.dev
     d.pwr.sysstate = 4 ∧ d.pwr.resetPend = none ∧ d.bat.onCell = false) ∧
    (let d := { State.reset.dev with bat := { State.reset.dev.bat with onCell := true } }; d.bat.onCell = true) ∧
    (let d := withPwr (fun p => { p with resetPend := some 1 }) State.reset.dev
     d.pwr.resetPend ≠ none ∧ d.pwr.pfLevel = true ∧ d.evr.flushing = false) ∧
    (let d := withPwr (fun p => { p with resetPend := some 1, pfLevel := false }) State.reset.dev
     d.pwr.resetPend ≠ none ∧ d.pwr.pfLevel = false) := by decide +kernel

/-! ### Witnesses: the twin link -/

/-- The TWIN domain is on and the link block in a state. -/
def withTwin (f : Twn → Twn) (d : Dev) : Dev :=
  let d := keeperUp (domUp 14 d)
  { d with twn := f d.twn }

def plainGrant : Grant := { pair := true, source := 0, seq := 1, dev0 := [], dev1 := [], provisional := false, raw := [] }
def withGrant (d : Dev) : Dev := { d with nv := { d.nv with twin := { d.nv.twin with grant := some plainGrant } } }

/-- Joined: link up, keys agreed. -/
def joined (f : Twn → Twn) (d : Dev) : Dev := withTwin (fun t => f { t with width := 4, keys := some ([1], [2]), state := 4 }) d

def frame0 : FrameHdr := { seq := 0, ack := 0, crcOk := true, tagOk := true }

theorem witness_frameGood : frameGood (onDev (joined id)) frame0 true ∧ frameGood (onDev (withTwin fun t => { t with width := 4 })) frame0 false := by
  refine ⟨⟨?_, ?_, ?_, ?_, ?_, ?_, ?_⟩, ?_, ?_, ?_, ?_, ?_, ?_, ?_⟩
  all_goals decide +kernel

theorem witness_TwinLink :
    (lanesWidth 0xF ≠ 0 ∧ lanesWidth 0x1 ≠ 0) ∧
    (let d := withTwin (fun t => { t with width := 0, keys := some ([], []) }) State.reset.dev
     domOn d 14 = true ∧ d.twn.width = 0 ∧ d.twn.keys ≠ none) ∧
    (let d := withTwin id State.reset.dev
     domOn d 14 = true ∧ d.twn.width = 0 ∧ d.twn.keys = none ∧ d.nv.twin.grant = none) ∧
    (let d := withGrant (withTwin (fun t => { t with cap := 4 }) State.reset.dev)
     domOn d 14 = true ∧ d.twn.width = 0 ∧ d.twn.cap ≠ 0 ∧ d.twn.keys = none ∧ d.nv.twin.grant ≠ none ∧ keeperPresent d = true ∧ d.twn.state ≠ 6) ∧
    (let d := withTwin (fun t => { t with width := 4 }) State.reset.dev
     d.twn.width ≠ 0 ∧ d.twn.keys = none) ∧
    (let d := withGrant (joined (fun t => { t with lostFrom := some 0 }) { State.reset.dev with tick := 0xFFFF })
     d.twn.lostFrom = some 0 ∧ (0 : BitVec 48).toNat + bits (guardVal d (regAddr twnPage 0x068)) 0 16 ≤ d.tick.toNat ∧ d.nv.twin.grant ≠ none ∧
       d.twn.state ≠ 6 ∧ d.twn.peerParked = false ∧ d.twn.width ≠ 0 ∧ d.twn.keys = some ([1], [2])) ∧
    (let d := joined (fun t => { t with lostFrom := some 0 }) State.reset.dev
     d.tick.toNat < (0 : BitVec 48).toNat + bits (guardVal d (regAddr twnPage 0x068)) 0 16) := by decide +kernel

/-- A record image that the twin holds too. -/
def plainStatus : StatusMsg := { level := 1, locked := false, zeroized := false, lcState := 2 }
def plainChange : TwinChange := { id := 7, m := 1, objs := [.planSeq 5], old := [.planSeq 4], sent := true, done := false, undo := false, job := 0 }

def withNv (f : TwinNv → TwinNv) (d : Dev) : Dev := { d with nv := { d.nv with twin := f d.nv.twin } }
def plainHello : HelloMsg :=
  { raw := [], chainOk := true, attestKey := [], point := [], nonce := [], index := true, isEmpty := true, diverged := false, released := false,
    endOfLife := false, grSeq := 0, mSeq := 0, signerKey := [] }

/-- In the handshake: a HELLO has been sent. -/
def shaking (f : Twn → Twn) (d : Dev) : Dev := withTwin (fun t => f { t with width := 4, state := 2, hello := [1] }) d

theorem witness_TwinHandshake :
    (let d := withGrant (shaking (fun t => { t with retryAt := some 3 }) { State.reset.dev with tick := 3 })
     d.twn.retryAt = some 3 ∧ (3 : BitVec 48).toNat ≤ d.tick.toNat ∧ keeperPresent d = true ∧ d.nv.twin.grant ≠ none ∧ d.twn.width ≠ 0 ∧
       d.twn.state ≠ 6) ∧
    (let d := withGrant (joined id State.reset.dev)
     d.twn.state = 4 ∧ keeperPresent d = true ∧ d.nv.twin.grant ≠ none ∧ d.twn.width ≠ 0) ∧
    (let s := onDev (shaking fun t => { t with peer := some plainHello })
     frameGood s frame0 false ∧ s.dev.twn.hello ≠ [] ∧ keeperPresent s.dev = true ∧ s.dev.twn.gotSigned = false ∧
       s.dev.twn.peer = some plainHello ∧ s.dev.twn.sentSigned = false) ∧
    (let d := shaking (fun t => { t with sentSigned := true, gotSigned := true }) State.reset.dev
     d.twn.sentSigned = true ∧ d.twn.gotSigned = true ∧ twinEmpty d = true ∧ plainHello.isEmpty = true) := by
  refine ⟨by decide +kernel, by decide +kernel, ⟨⟨by decide +kernel, by decide +kernel, rfl, rfl, ?_, by decide +kernel, by decide +kernel⟩,
    by decide +kernel, by decide +kernel, by decide +kernel, by decide +kernel, by decide +kernel⟩, by decide +kernel⟩
  intro h; cases h

theorem witness_TwinFrames :
    (frameGood (onDev (joined id)) frame0 true ∧ frameGood (onDev (withTwin fun t => { t with width := 4 })) frame0 false) ∧
    (let d := joined id State.reset.dev
     d.twn.width ≠ 0 ∧ domOn d 14 = true ∧ ({ frame0 with crcOk := false } : FrameHdr).crcOk = false ∧
       d.twn.rxSeq.toNat < ({ frame0 with seq := 1 } : FrameHdr).seq.toNat) ∧
    (let h := { frame0 with tagOk := false }
     let d := joined id State.reset.dev
     d.twn.width ≠ 0 ∧ h.crcOk = true ∧ h.seq = d.twn.rxSeq ∧ d.twn.keys ≠ none ∧ h.tagOk = false) ∧
    (let d := joined id State.reset.dev
     d.nv.twin.outbox = [] ∧ (∀ n ∈ d.keys.nonces, n.wait = none) ∧ d.twn.peerLevel.toNat < plainStatus.level.toNat) ∧
    (let s := onDev fun d => joined (fun t => { t with filling := 2 }) { d with bat := { d.bat with bbk := some 1 } }
     frameGood s frame0 true ∧ s.dev.pwr.pfLevel = true ∧ s.dev.bat.locked = false ∧ s.dev.twn.filling = 2 ∧ s.dev.bat.bbk ≠ none ∧ s.dev.twn.fillWait = []) ∧
    (let s := onDev (joined (fun t => { t with filling := 2, fillWait := [.planSeq 5] }))
     frameGood s frame0 true ∧ s.dev.bat.locked = false ∧ s.dev.twn.filling = 2 ∧ s.dev.twn.fillWait ≠ []) ∧
    (let s := onDev fun d => withGrant (joined (fun t => { t with filling := 2 }) { d with nv := { d.nv with cellar := [] } })
     frameGood s frame0 true ∧ s.dev.bat.locked = false ∧ s.dev.twn.filling = 2 ∧ s.dev.twn.fillWait = [] ∧ s.dev.nv.twin.grant = some plainGrant ∧
       plainGrant.provisional = false ∧ s.dev.nv.twin.outbox = [] ∧ s.dev.keys.nonces = [] ∧
       (s.dev.twn.resync = true ∨ ∀ r ∈ s.dev.nv.cellar, r.img.state ≠ 4 → twinRecord r.img = true → (r.img.key, r.img.version) ∈ s.dev.twn.filled)) ∧
    (let d := joined (fun t => { t with relSent := true, releasing := true }) State.reset.dev
     d.twn.width ≠ 0 ∧ domOn d 14 = true ∧ frame0.crcOk = true ∧ frame0.seq = d.twn.rxSeq ∧ d.twn.keys ≠ none ∧ frame0.tagOk = true ∧
       d.twn.filling.getLsbD 0 = false ∧ d.twn.relSent = true) := by
  unfold frameGood; refine ⟨?_, ?_, ?_, ?_, ?_, ?_, ?_, ?_⟩ <;> decide +kernel

/-- A receiver of a fill without a BBK draws one. -/
theorem witness_TwinFrames_draw : ∃ bs d,
    let s := onDev fun d => joined (fun t => { t with filling := 2 }) (seeded d)
    frameGood s frame0 true ∧ s.dev.pwr.pfLevel = true ∧ s.dev.bat.locked = false ∧ s.dev.twn.filling = 2 ∧ s.dev.bat.bbk = none ∧
      keeperDraw (frameTaken s.dev frame0) 32 = some (bs, d) := by
  have h : (keeperDraw (frameTaken (onDev fun d => joined (fun t => { t with filling := 2 }) (seeded d)).dev frame0) 32).isSome = true := by
    decide +kernel
  obtain ⟨p, hp⟩ := Option.isSome_iff_exists.mp h
  exact ⟨p.1, p.2, by unfold frameGood; decide +kernel, by decide +kernel, by decide +kernel, by decide +kernel, by decide +kernel, hp⟩

/-- A NOP whose mirrored change waits for the twin. -/
def waitsTwin (d : Dev) : Dev := jobOf .keyInvalidate (fun j => { j with stage := .twin, change := 7 }) d

theorem witness_TwinChanges :
    (let s := onDev (joined id)
     frameGood s frame0 true ∧ s.dev.pwr.pfLevel = true ∧ s.dev.bat.locked = false ∧ keeperPresent s.dev = true ∧ s.dev.nv.twin.inbox = [] ∧
       s.dev.nv.twin.doubt = [] ∧ s.dev.twn.state = 4 ∧ changeFails s.dev [.planSeq 5] = none ∧
       changeFails s.dev [.record { plainImage with parent := 8 }] = some stOrphaned) ∧
    (withPwr (fun p => { p with pfLevel := false }) State.reset.dev).pwr.pfLevel = false ∧
    (let s := onDev fun d => withNv (fun t => { t with outbox := [plainChange] }) (joined id (waitsTwin d))
     frameGood s frame0 true ∧ s.dev.bat.locked = false ∧ s.dev.twn.state = 4 ∧
       (s.dev.nv.twin.outbox.find? fun c => c.id == 7 && c.sent && !c.done) = some plainChange ∧ isCustodyChange plainChange = false ∧
       (findJob s.dev plainChange.job).isSome = true ∧ (∀ j ∈ findJob s.dev plainChange.job, j.stage = .twin ∧ j.change = plainChange.id)) ∧
    (let s := onDev fun d => withNv (fun t => { t with doubt := [plainChange] }) (joined id d)
     frameGood s frame0 true ∧ s.dev.bat.locked = false ∧ s.dev.nv.twin.inbox = [] ∧
       (s.dev.nv.twin.doubt.find? fun c => c.id == 7) = some plainChange ∧ plainChange.objs = [.planSeq 5] ∧ plainChange.old = [.planSeq 4] ∧
       ∀ c ∈ s.dev.nv.twin.doubt, c.id ≠ 8) ∧
    (let s := onDev fun d => joined id { d with keys := { d.keys with nonces := [{ plainNonce with ownDone := true, peerDone := false }] } }
     frameGood s frame0 true ∧ nonceOf s.dev 5 false = some { plainNonce with ownDone := true, peerDone := false } ∧
       plainNonce.wait = some (2 - 1)) := by
  unfold frameGood; refine ⟨?_, ?_, ?_, ?_, ?_⟩ <;> decide +kernel

theorem witness_TwinCommands :
    ((isPf pf0.id && pf0.priv) || isKeeperCore pf0.id) = true ∧
    (((isPf porterCore.id && porterCore.priv) || isKeeperCore porterCore.id) = false ∧ hostSees porterCore twnPage = true ∧
      isKeeperCore porterCore.id = false) ∧ asleep (joined id State.reset.dev) twnPage = none ∧
    isKeeperCore keeperCore.id = true ∧ bits (0x7E1A0000 : Word) 16 16 = 0x7E1A ∧
    (let d := joined id State.reset.dev
     d.twn.state = 4 ∧ d.twn.relSent = false ∧ d.nv.twin.outbox = [] ∧ (∀ n ∈ d.keys.nonces, n.wait = none) ∧ d.twn.width ≠ 0 ∧
       d.twn.keys = some ([1], [2])) ∧
    (withTwin id State.reset.dev).twn.state ≠ 4 ∧ asleep (withTwin id State.reset.dev) twnPage = none ∧
    slice (grantBytes State.reset.dev.twn) 0 4 ≠ [0x47, 0x4A, 0x54, 0x47] := by decide +kernel

/-! ### Witnesses: recorder, monitors, mailboxes, I3C -/

def plainEvent : EvRec :=
  { code := 0x0101, sev := 1, late := false, line := 0xFFFF, func := 0xFFFF, tick := 0, hours := 0, frac := 0, pcyc := 1, data := zeros 16 }

def recording (f : Evr → Evr) (d : Dev) : Dev := { d with evr := f { d.evr with started := true } }

theorem witness_EventRecorder :
    (let d := inRun (recording (fun e => { e with flushing := true, buf := [(5, plainEvent)] }) State.reset.dev)
     d.evr.flushing = true ∧ d.evr.started = true ∧ d.evr.holdFrom = none ∧ d.pwr.pfState ≠ 1 ∧ d.pwr.sysstate ≠ 2 ∧
       d.evr.buf = [(5, plainEvent)]) ∧
    (let d := withPwr (fun p => { p with pfState := 1 }) (recording (fun e => { e with flushing := true }) State.reset.dev)
     d.evr.flushing = true ∧ d.evr.started = true ∧ d.pwr.pfState = 1 ∧ d.pwr.sysstate ≠ 2) ∧
    (let d := State.reset.dev
     d.tick.toNat / rateWindow (getRate d 127) = (getRate d 127).window) ∧
    (let d := setRate (recording id State.reset.dev) 127 { getRate State.reset.dev 127 with window := 9, dropped := 1 }
     d.tick.toNat / rateWindow (getRate d 127) ≠ (getRate d 127).window ∧ (getRate d 127).dropped ≠ 0 ∧ d.evr.started = true ∧
       d.evr.buf.length < 512 ∧ d.evr.dropRun = 0) ∧
    (winOwner 3 keeperCore = true ∧ (getWin State.reset.dev 3).busy = false ∧ winOwner 3 pf0 = false) ∧
    (let d := recording (fun e => { e with w3 := { e.w3 with busy := true, seq := 5 }, buf := [(5, plainEvent)] }) State.reset.dev
     let d := { d with nv := { d.nv with evNext := 6 } }
     (getWin d 3).busy = true ∧ (getWin d 3).seq.toNat < d.nv.evNext.toNat ∧
       (d.evr.buf.find? fun e => e.1 == (getWin d 3).seq) = some ((getWin d 3).seq, plainEvent)) ∧
    (let d := recording (fun e => { e with w3 := { e.w3 with busy := true, seq := 0 } }) State.reset.dev
     (getWin d 3).busy = true ∧ d.nv.evNext.toNat ≤ (getWin d 3).seq.toNat) ∧
    (let d := recording (fun e => { e with w3 := { e.w3 with busy := true, seq := 5000 } }) State.reset.dev
     let d := { d with nv := { d.nv with evNext := 6000, evStore := [(5500, plainEvent)] } }
     (getWin d 3).busy = true ∧ (getWin d 3).seq.toNat < d.nv.evNext.toNat ∧ (d.evr.buf.find? fun e => e.1 == (getWin d 3).seq) = none ∧
       4096 ≤ (getWin d 3).seq.toNat ∧ (getWin d 3).seq.toNat < (evrOld d).toNat) ∧
    (let d := recording (fun e => { e with w3 := { e.w3 with busy := true, seq := 5 } }) State.reset.dev
     let d := { d with nv := { d.nv with evNext := 6, evStore := [(5, plainEvent)] } }
     (getWin d 3).busy = true ∧ (getWin d 3).seq.toNat < d.nv.evNext.toNat ∧ (d.evr.buf.find? fun e => e.1 == (getWin d 3).seq) = none ∧
       (getWin d 3).seq.toNat < 4096 ∧ d.nv.evBad.contains (getWin d 3).seq = false ∧
       (d.nv.evStore.find? fun e => e.1 == (getWin d 3).seq) ≠ none) ∧
    (let d := recording (fun e => { e with w3 := { e.w3 with busy := true, seq := 5 } }) State.reset.dev
     let d := { d with nv := { d.nv with evNext := 6, evStore := [(7, plainEvent)] } }
     (getWin d 3).busy = true ∧ (getWin d 3).seq.toNat < d.nv.evNext.toNat ∧ (d.evr.buf.find? fun e => e.1 == (getWin d 3).seq) = none ∧
       (getWin d 3).seq.toNat < 4096 ∧ d.nv.evBad.contains (getWin d 3).seq = false ∧
       (d.nv.evStore.find? fun e => e.1 == (getWin d 3).seq) = none) := by decide +kernel

theorem witness_Monitors :
    ((27 : BitVec 5).toNat < 28 ∧ iniKeeper State.reset.dev keeperCore.id = true ∧ (getPage State.reset.dev (pmcPage 27)).lock = false ∧
      (getPage State.reset.dev (pmcPage 31)).lock = false) ∧
    ({ monReset with clr := true }.clr = true) ∧
    (isPorterCore porterCore.id = true ∧ isPorterCore keeperCore.id = false ∧ isPf keeperCore.id = false) ∧
    (let d := withFn3 State.reset.dev
     (getFn d 3).bme = true ∧ (getFn d 3).state = 1) ∧ (getFn State.reset.dev 3).bme = false := by decide +kernel

theorem witness_Mailboxes :
    (let d := setMbox State.reset.dev true { getMbox State.reset.dev true with inlen := 256 }
     mboxPf pf128 true = true ∧ (getMbox d true).inbusy = false ∧ (getMbox d true).inlen.toNat ≠ 0 ∧ (getMbox d true).inlen.toNat ≤ 256) ∧
    256 < (257 : BitVec 9).toNat ∧ (getMbox State.reset.dev true).inlen.toNat = 0 ∧
    (isPorterCore porterCore.id = true ∧ (getMbox State.reset.dev false).stale = false ∧ isPorterCore pf0.id = false) := by decide +kernel

def withI3c (f : I3c → I3c) (d : Dev) : Dev := { d with mgt := { d.mgt with i3c := f { d.mgt.i3c with cfg := 0x80000011 } } }

theorem witness_I3cTarget :
    (let d := withI3c id State.reset.dev
     i3cOn d = true ∧ d.mgt.i3c.assigned = false ∧ (0x11 : BitVec 7).toNat ≠ 0 ∧ bits d.mgt.i3c.cfg 0 7 = (0x11 : BitVec 7).toNat) ∧
    (let d := withI3c (fun x => { x with assigned := true }) State.reset.dev
     i3cOn d = true ∧ d.mgt.i3c.assigned = true) ∧
    (let d := withPwr (fun p => { p with sysstate := 3 }) (withI3c (fun x => { x with assigned := true }) State.reset.dev)
     i3cOn d = true ∧ d.mgt.i3c.assigned = true ∧ d.pwr.sysstate = 3) ∧
    Instr.getpid ∈ [Instr.getpid, .getbcr, .getdcr] ∧ 0xC0 ≤ (0xFF : Byte).toNat := by decide +kernel

/-! ### A grant that is taken -/

theorem le4 (a b c d : Byte) : leBytes 4 (BitVec.ofNat 32 (leNat [a, b, c, d])).toNat = [a, b, c, d] := by
  have ha := a.isLt; have hb := b.isLt; have hc := c.isLt; have hd := d.isLt
  simp only [leNat, List.foldr, leBytes, BitVec.toNat_ofNat]
  congr 1
  · apply BitVec.eq_of_toNat_eq; rw [BitVec.toNat_ofNat]; omega
  congr 1
  · apply BitVec.eq_of_toNat_eq; rw [BitVec.toNat_ofNat]; omega
  congr 1
  · apply BitVec.eq_of_toNat_eq; rw [BitVec.toNat_ofNat]; omega
  congr 1
  · apply BitVec.eq_of_toNat_eq; rw [BitVec.toNat_ofNat]; omega

theorem chunk4 (n : Nat) : ∀ l : List Byte, l.length = 4 * n → (List.range n).flatMap (fun k => leBytes 4 (BitVec.ofNat 32 (leNat (slice l (4 * k) 4))).toNat) = l := by
  induction n with
  | zero => intro l h; simp at h; subst h; rfl
  | succ n ih =>
    intro l h
    match l, h with
    | a :: b :: c :: d :: r, h =>
      rw [List.range_succ_eq_map, List.flatMap_cons, List.flatMap_map]
      have e0 : slice (a :: b :: c :: d :: r) (4 * 0) 4 = [a, b, c, d] := by simp [slice]
      rw [e0, le4]
      have : ∀ k, slice (a :: b :: c :: d :: r) (4 * (k + 1)) 4 = slice r (4 * k) 4 := by
        intro k; simp [slice, Nat.mul_add]
      simp only [Nat.succ_eq_add_one, this]
      rw [ih r (by simp at h; omega)]; rfl

theorem sha384_length (m : List Byte) : (sha384 m).length = 48 := by
  unfold sha384
  generalize (chunks 128 (shaPad 128 16 m)).foldl (shaCompress shaRot512 shaK512) sha384Init = c
  rfl
/-- The grant's bytes: a SOLO grant, sequence number 1, that names this device with index 0. -/
def soloBytes (own : List Byte) : List Byte := [0x47, 0x4A, 0x54, 0x47, 1, 2, 0, 0, 1, 0, 0, 0, 0, 0, 0, 0] ++ (own ++ zeros 160)

/-- Bytes as the words of the grant buffer. -/
def grantTab (b : List Byte) : Tab Word := (List.range 56).map fun k => (k, BitVec.ofNat 32 (leNat (slice b (4 * k) 4)))

theorem tabGet_range (n : Nat) (f : Nat → Word) (k : Nat) (h : k < n) : tabGet ((List.range n).map fun k => (k, f k)) k 0 = f k := by
  have key : ∀ m s, s ≤ k → k < s + m → tabGet ((List.range' s m).map fun k => (k, f k)) k 0 = f k := by
    intro m
    induction m with
    | zero => intro s a b; omega
    | succ m ih =>
      intro s a b
      rw [List.range'_succ, List.map_cons, tabGet]
      split
      · rename_i e; rw [e]
      · rename_i e; exact ih (s + 1) (by omega) (by omega)
  rw [List.range_eq_range']; exact key n 0 (by omega) (by omega)

theorem grantBytes_tab (t : Twn) (b : List Byte) (h : b.length = 224) : grantBytes { t with grantBuf := grantTab b } = b := by
  unfold grantBytes
  rw [List.flatMap_congr (g := fun k => leBytes 4 (BitVec.ofNat 32 (leNat (slice b (4 * k) 4))).toNat)]
  · exact chunk4 56 b h
  · intro k hk
    show leBytes 4 (tabGet (grantTab b) k 0).toNat = _
    rw [grantTab, tabGet_range _ _ _ (List.mem_range.mp hk)]

/-- The keeper world is READY and the grant buffer holds that grant. -/
def readyDev : Dev := { devReset with acl := { devReset.acl with keeper := 2 } }
def soloDev : Dev :=
  { readyDev with twn := { readyDev.twn with grantBuf := grantTab (soloBytes (sha384 (attestPair readyDev).2)) } }

theorem attestPair_twn (d : Dev) (t : Twn) : attestPair { d with twn := t } = attestPair d := rfl

/-- The hypothesis of the last clause of TwinCommands is met. -/
theorem witness_TwinCommands_grant : ∃ g ix, checkGrant soloDev fuseReset = .inr (g, ix) := by
  have hl : (sha384 (attestPair readyDev).2).length = 48 := sha384_length _
  have ha : attestPair soloDev = attestPair readyDev := attestPair_twn _ _
  have hb : grantBytes soloDev.twn = soloBytes (sha384 (attestPair readyDev).2) := by
    apply grantBytes_tab
    simp only [soloBytes, List.length_append, zeros, List.length_replicate, hl]; rfl
  unfold checkGrant
  rw [hb, ha]
  generalize hown : sha384 (attestPair readyDev).2 = own at hl hb ⊢
  have s1 : slice (soloBytes own) 16 48 = own := by
    simp [soloBytes, slice, hl]
  have a5 : leAt (soloBytes own) 5 1 = 2 := by simp [leAt, slice, soloBytes, leNat]
  have a6 : leAt (soloBytes own) 6 1 = 0 := by simp [leAt, slice, soloBytes, leNat]
  have a7 : leAt (soloBytes own) 7 1 = 0 := by simp [leAt, slice, soloBytes, leNat]
  have a4 : leAt (soloBytes own) 4 1 = 1 := by simp [leAt, slice, soloBytes, leNat]
  have a8 : leAt (soloBytes own) 8 8 = 1 := by simp [leAt, slice, soloBytes, leNat]
  have m0 : slice (soloBytes own) 0 4 = [0x47, 0x4A, 0x54, 0x47] := by simp [slice, soloBytes]
  have z : slice (soloBytes own) 112 16 = zeros 16 := by
    have e : (soloBytes own).drop 112 = (zeros 160).drop 48 := by
      simp [soloBytes, hl, List.drop_append]
    unfold slice; rw [e]; rfl
  have em : twinEmpty soloDev = true := by decide +kernel
  have k : keeperPresent soloDev = true := by decide +kernel
  have lc : lcState fuseReset = 2 := by decide +kernel
  simp only [a5, a6, a7, a4, a8, m0, z, s1, em, k, lc]
  have gs : soloDev.nv.twin.grSeq = 0 := rfl
  have fx : soloDev.nv.twin.fixed = false := rfl
  have rl : soloDev.nv.twin.released = false := rfl
  have lk : soloDev.bat.locked = false := rfl
  have az : allZero (zeros 16) = true := by decide +kernel
  simp [gs, fx, rl, lk, az]

/-! ### Single steps against the spec's words and published answers -/

/-- SHA-384 of the empty message and SHA-256 of "abc" begin as FIPS 180-4's examples say. -/
theorem test_sha384_empty : (sha384 []).take 4 = [0x38, 0xB0, 0x60, 0xA7] := by decide +kernel
theorem test_sha256_abc : (sha256 [0x61, 0x62, 0x63]).take 4 = [0xBA, 0x78, 0x16, 0xBF] := by decide +kernel

/-- TICKNO counts the boundary (01 R6). -/
theorem test_tick_counts : (match exec (.tickBoundary quietTick) State.reset with | .next t => t.dev.tick | _ => 0) = 1 := by decide +kernel

/-- The plan cut falls in cycle 38,976 (01 R22). -/
theorem test_cut_cycle : (match exec .planCut State.reset with | .next t => t.dev.cyc | _ => 0) = 38976 := by decide +kernel

/-- A NOP of function 3 waits in the device with the next number. -/
theorem test_nop_staged : (match exec (.nop bare) (onDev (withQueue id)) with | .next t => t.dev.jobs.map (·.id) | _ => []) = [0] := by
  decide +kernel

/-- A VF that submits TAMPER_LOCK_CLEAR gets LIFECYCLE_DENIED, detail 0x01 (04 R107). -/
theorem test_pf_only : (match exec (.tamperLockClear clearEntry) (onDev (withQueue id)) with
    | .next t => t.dev.jobs.map (fun j => (j.res.status, j.res.detail)) | _ => []) = [(0x0E, 0x01)] := by decide +kernel

/-- A key job with keysel 0 halts its function with code 0x0A (03 R102). -/
theorem test_keysel_halt : (match exec (.gcmEncrypt bare) (onDev (withQueue id)) with
    | .next t => (getFn t.dev 3).haltCode | _ => 0) = 0x0A := by decide +kernel

/-- FUNC_CREATE of function 3 with the guarded FUNC_ALLOC set makes it READY (02 R55). -/
theorem test_create : (match exec (.funcCreate pf0 3) (onDev alloc3) with | .next t => ((getFn t.dev 3).state, (getFn t.dev 3).vectors) | _ => (0, 0)) =
    (1, 2) := by decide +kernel

/-- A release of an ABSENT function is refused with result 1 (02 R56). -/
theorem test_release_absent : (match exec (.funcRelease pf0 3) State.reset with | .next t => (getFn t.dev 3).result | _ => 0) = 1 := by
  decide +kernel

/-- A guarded write alone changes nothing that reads (13 R369). -/
theorem test_guarded_pending : (match exec (.guardedRegisterWrite pf0 allocAddr 0x00020200) State.reset with
    | .next t => guardVal t.dev allocAddr.toNat | _ => 1) = 0 := by decide +kernel

/-- The fifth byte of a read of an unlisted page of SRAM is zero, and a denied read answers with zeros (10 R303). -/
theorem test_denied_read : (match exec (.fabricTransaction (porterTxn .read)) State.reset with
    | .next t => t.dev.egress.getLast? | _ => none) = some (.fabric 256 false [0, 0, 0, 0]) := by decide +kernel

/-- PWR_FAIL_N counts once for each fall (14 R392). -/
theorem test_power_fail : (match exec .pwrFailNFall State.reset with | .next t => (t.dev.pwr.pfCount, t.dev.pwr.pfState) | _ => (0, 0)) = (1, 1) := by
  decide +kernel

/-- LIGHT's response locks and zeroizes (13 R352, R359). -/
theorem test_light : (match exec (.tamperAlarm 0x080000) State.reset with
    | .next t => (t.dev.bat.locked, t.dev.bat.zeroized) | _ => (false, false)) = (true, true) := by decide +kernel

/-- GET_VERSION offers 1.2 only (02 R73). -/
theorem test_version : (match exec (.getVersion false) (onDev fun d => keeperUp (withRequest d)) with
    | .next t => t.dev.egress | _ => []) = [.spdm false 0x04 [0x00, 0x01, 0x00, 0x12]] := by decide +kernel

/-- GETDCR answers 0x00, and NACK without an address (18 R478). -/
theorem test_getdcr : (match exec .getdcr (onDev (withI3c fun x => { x with assigned := true })) with | .next t => t.dev.egress | _ => []) =
    [.i3c [0x00]] := by decide +kernel
theorem test_getdcr_nack : (match exec .getdcr State.reset with | .next t => t.dev.egress | _ => []) = [.i3cNack] := by decide +kernel

/-- A command that names unit 233 faults. -/
theorem test_absent_unit : exec (.strikeExpire 233) State.reset = .fault .noSuchUnit := rfl

end Sys2Proof.Tests
end

section
/-! PROOFS. The step, what every command answers, and the state after reset (00 R1, R6). -/

namespace Sys2Proof.Machine

/-- Settles O1, by the two equations of `step`. -/
theorem stepRunsFront : Obligations.StepRunsFront := by
  unfold Obligations.StepRunsFront
  refine ⟨fun _ _ => rfl, fun s h => ?_⟩
  unfold step
  rw [h]

/-! ### What the accesses of the interconnect leave of the queue -/

theorem stageSettle_pending (s : State) : (stageSettle s).pending = s.pending := (stageSettle_spec s).1.1

theorem respond_pending (s : State) (t : Txn) (ok : Bool) (bs : List Byte) : (respond s t ok bs).pending = s.pending := by
  unfold respond; split <;> rfl

theorem partWrite_pending (s : State) (i : Ini) (a : Nat) (bs : List Byte) : (partWrite s i a bs).pending = s.pending := by
  unfold partWrite; split <;> rfl

theorem doPiece_pending (t : Txn) (acc : State × Bool × List Byte) (x : Nat × Nat × List Byte) :
    (doPiece t acc x).1.pending = acc.1.pending := by
  unfold doPiece
  dsimp only
  split
  · rw [partWrite_pending]; split <;> rfl
  · split <;> rfl

theorem doPieces_pending (t : Txn) (ps : List (Nat × Nat × List Byte)) (acc : State × Bool × List Byte) :
    (ps.foldl (doPiece t) acc).1.pending = acc.1.pending :=
  foldl_same (fun acc : State × Bool × List Byte => acc.1.pending) _ (doPiece_pending t) ps acc

theorem carry_pending (s : State) (t : Txn) (o : Bool) (n : Nat) : (carry s t o n).pending = s.pending := by
  unfold carry
  dsimp only
  split
  · rfl
  · rw [respond_pending, doPieces_pending]

theorem checkOne_pending (s : State) (t : Txn) : (checkOne s t).pending = s.pending := by
  unfold checkOne
  dsimp only
  split
  · unfold deny; rw [respond_pending]
  · rw [carry_pending]

theorem onFabric_pending (s : State) (t : Txn) : (onFabric s t).pending = s.pending := by
  unfold onFabric
  dsimp only
  repeat' split
  · rfl
  · rfl
  · exact respond_pending _ _ _ _
  · exact respond_pending _ _ _ _
  · exact respond_pending _ _ _ _
  · exact respond_pending _ _ _ _
  · exact foldl_same State.pending _ (fun s _ => checkOne_pending s _) _ _
  · exact checkOne_pending _ _

theorem transact_pending (s : State) (t : Txn) : (transact s t).pending = s.pending := by
  unfold transact
  split
  · rfl
  · split
    · exact onFabric_pending _ _
    · exact respond_pending _ _ _ _

theorem resume_pending (s : State) (n : Nat) : (resume s n).pending = s.pending := by
  unfold resume
  exact foldl_same State.pending _ (fun s x => carry_pending s _ _ _) _ _

theorem pageWiped_pending (s : State) (k : Nat) (ok : Bool) : (pageWiped s k ok).pending = s.pending := by
  unfold pageWiped
  split
  · exact resume_pending _ _
  · rfl

/-! ### Commands that answer a next state -/

/-- An outcome is a next state in which the commands that waited still wait. -/
def Answers (o : Host.Outcome State Fault Refusal) (s : State) : Prop := ∃ t, o = .next t ∧ t.pending = s.pending

theorem actStaged_answers (s : State) (f : Dev → Dev) : Answers (actStaged s f) s := ⟨_, rfl, stageSettle_pending _⟩

theorem answers_ite {p : Prop} [Decidable p] {a b : Host.Outcome State Fault Refusal} {s : State} (ha : Answers a s) (hb : Answers b s) :
    Answers (if p then a else b) s := by
  split
  · exact ha
  · exact hb

theorem writeAt_answers (s : State) (i : Ini) (a : Nat) (bs : List Byte) (k : Dev → Dev × Fuse) : Answers (writeAt s i a bs k) s := by
  unfold writeAt
  refine answers_ite ⟨_, rfl, rfl⟩ (answers_ite ⟨_, rfl, rfl⟩ ?_)
  split <;> exact ⟨_, rfl, rfl⟩

/-- A command that fetches a job is its submission. -/
theorem exec_of_jobRow {c : Instr} {k : JobKind} {e : Entry} (s : State) (h : jobRow c = some (k, e)) : exec c s = submitJob s k e := by
  cases c
  all_goals cases h
  all_goals rfl

/-- A command that fetches no job and names parts that exist answers a next state. -/
theorem exec_answers (c : Instr) (s : State) (h : namesAbsent c = false) (hj : jobRow c = none) : Answers (exec c s) s := by
  cases c
  all_goals simp only [jobRow, reduceCtorEq] at hj
  case tickBoundary b => exact ⟨_, rfl, stageSettle_pending _⟩
  case entryReadReturn fn q res => exact ⟨_, rfl, stageSettle_pending _⟩
  case dmaReadCompletion j src res => exact ⟨_, rfl, stageSettle_pending _⟩
  case fabricTransaction t => exact ⟨_, rfl, transact_pending _ _⟩
  case pageWipe p ok => exact ⟨_, rfl, pageWiped_pending _ _ _⟩
  case registerWrite i a bs => rw [exec, execRegisterWrite]; exact writeAt_answers _ _ _ _ _
  case guardedRegisterWrite i a v => rw [exec, execGuardedRegisterWrite]; exact answers_ite (writeAt_answers _ _ _ _ _) ⟨_, rfl, rfl⟩
  case guardedShadowWrite i a v => rw [exec, execGuardedShadowWrite]; exact answers_ite (writeAt_answers _ _ _ _ _) ⟨_, rfl, rfl⟩
  case pgEvtSetWrite i p v => rw [exec, execPgEvtSetWrite]; exact answers_ite ⟨_, rfl, rfl⟩ (writeAt_answers _ _ _ _ _)
  case pgLockWrite i p v => rw [exec, execPgLockWrite]; exact answers_ite ⟨_, rfl, rfl⟩ (writeAt_answers _ _ _ _ _)
  case coldReset b => rw [exec, execColdReset]; exact answers_ite ⟨_, rfl, rfl⟩ ⟨_, rfl, rfl⟩
  case apduResponse k bs w => rw [exec, execApduResponse]; exact answers_ite ⟨_, rfl, rfl⟩ ⟨_, rfl, rfl⟩
  case rackSvcreqDrain i u => exact ⟨_, if_neg (of_decide_eq_false h), rfl⟩
  case rackSvcreqReturn i u => exact ⟨_, if_neg (of_decide_eq_false h), rfl⟩
  case strikeExpire u => exact ⟨_, if_neg (of_decide_eq_false h), rfl⟩
  case rawBlockComplete i raw ok => exact ⟨_, if_neg (of_decide_eq_false h), rfl⟩
  case startupTestDone i x => exact ⟨_, if_neg (of_decide_eq_false h), rfl⟩
  case sourceAlarm x l => exact ⟨_, if_neg (Bool.eq_false_iff.mp h), rfl⟩
  case pgVoteWrite i n v => exact ⟨_, if_neg (Bool.eq_false_iff.mp h), rfl⟩
  case hwVoteExpire n => exact ⟨_, if_neg (Bool.eq_false_iff.mp h), rfl⟩
  case domainReady n =>
    have hn : ¬ badDomain n = true := Bool.eq_false_iff.mp h
    rw [exec, execDomainReady, if_neg hn]
    exact answers_ite ⟨_, rfl, rfl⟩ ⟨_, rfl, resume_pending _ _⟩
  all_goals exact ⟨_, rfl, rfl⟩

/-- A command that names a part that does not exist faults. -/
theorem exec_absent (c : Instr) (s : State) (h : namesAbsent c = true) : ∃ f, exec c s = .fault f := by
  cases c
  all_goals simp only [namesAbsent, reduceCtorEq] at h
  case rackSvcreqDrain => exact ⟨_, if_pos (of_decide_eq_true h)⟩
  case rackSvcreqReturn => exact ⟨_, if_pos (of_decide_eq_true h)⟩
  case strikeExpire => exact ⟨_, if_pos (of_decide_eq_true h)⟩
  case rawBlockComplete => exact ⟨_, if_pos (of_decide_eq_true h)⟩
  case startupTestDone => exact ⟨_, if_pos (of_decide_eq_true h)⟩
  all_goals exact ⟨_, if_pos h⟩

/-- Settles O2: a command that fetches a job by `exec_of_jobRow`, every other by its arm. -/
theorem commandsComplete : Obligations.CommandsComplete := by
  unfold Obligations.CommandsComplete
  have next : ∀ c s, namesAbsent c = false → Answers (exec c s) s := by
    intro c s h
    cases hj : jobRow c with
    | none => exact exec_answers c s h hj
    | some row => rw [exec_of_jobRow s hj]; exact actStaged_answers _ _
  refine ⟨next, exec_absent, fun c s r hr => ?_⟩
  cases h : namesAbsent c with
  | false =>
    obtain ⟨t, ht, _⟩ := next c s h
    rw [hr] at ht
    cases ht
  | true =>
    obtain ⟨f, hf⟩ := exec_absent c s h
    rw [hr] at hf
    cases hf

/-- Settles O4, by evaluation of the reset state. -/
theorem resetState : Obligations.ResetState := by
  unfold Obligations.ResetState
  refine ⟨rfl, rfl, rfl, rfl, rfl, rfl, fun _ => rfl, fun _ _ => rfl, rfl, rfl, rfl, rfl, ?_, rfl, ?_⟩
  · decide +kernel
  · decide +kernel

end Sys2Proof.Machine
end

section
/-! PROOFS. Which event bits a report can set (17 R454, R457): the converse of `Dev.latched`. -/

namespace Sys2Proof.Machine

/-! ### Which event bits a report can set -/

/-- Every event bit that is set in `e` is set in `d` or is one of `P`. -/
def Dev.risesWithin (P : Nat → Nat → Prop) (d e : Dev) : Prop := ∀ p b, e.event p b = true → d.event p b = true ∨ P p b

/-- The event bit of a monitor, which a counter that wraps sets (17 R456). -/
def counterBit (p b : Nat) : Prop := b = 0 ∧ ∃ m, p = pmcPage m

/-- The event bits of the recorder, and those of the monitors, which count its records (17 R454, R457). -/
def reportBit (p b : Nat) : Prop := (p = evrPage ∧ b ∈ [0, 1, 3]) ∨ counterBit p b

theorem risesWithin_refl (P : Nat → Nat → Prop) (d : Dev) : d.risesWithin P d := fun _ _ h => .inl h

theorem risesWithin_trans {P : Nat → Nat → Prop} {a b c : Dev} (h : a.risesWithin P b) (k : b.risesWithin P c) : a.risesWithin P c :=
  fun p x hx => (k p x hx).elim (h p x) .inr

theorem risesWithin_mono {P Q : Nat → Nat → Prop} {d e : Dev} (h : d.risesWithin P e) (hPQ : ∀ p b, P p b → Q p b) : d.risesWithin Q e :=
  fun p b hb => (h p b hb).imp_right (hPQ p b)

theorem event_of_pages {d e : Dev} (h : e.pages = d.pages) (p b : Nat) : e.event p b = d.event p b := by
  unfold Dev.event getPage; rw [h]

theorem risesWithin_of_pages {P : Nat → Nat → Prop} {d e : Dev} (h : e.pages = d.pages) : d.risesWithin P e :=
  fun p b hb => .inl (by rwa [← event_of_pages h])

theorem risesWithin_ite {P : Nat → Nat → Prop} {d a b : Dev} {c : Prop} [Decidable c] (ha : d.risesWithin P a) (hb : d.risesWithin P b) :
    d.risesWithin P (if c then a else b) := by
  split
  · exact ha
  · exact hb

theorem risesWithin_foldl {P : Nat → Nat → Prop} {β : Type} (f : Dev → β → Dev) (h : ∀ (d : Dev) (b : β), d.risesWithin P (f d b))
    (l : List β) (d : Dev) : d.risesWithin P (l.foldl f d) :=
  foldl_holds (d.risesWithin P) f (fun a b ha => risesWithin_trans ha (h a b)) l d (risesWithin_refl P d)

theorem event_putPage (d : Dev) (p : Nat) (x : PageHdr) (q b : Nat) :
    ({ d with pages := tabPut d.pages p x } : Dev).event q b = if q = p then x.evt.getLsbD b else d.event q b := by
  unfold Dev.event getPage
  by_cases hq : q = p
  · subst hq; rw [tabGet_put_same, if_pos rfl]
  · rw [tabGet_put_other _ _ _ hq, if_neg hq]

theorem risesWithin_setPageWith {P : Nat → Nat → Prop} {rises : Dev → Nat → Dev} (hr : ∀ (d : Dev) (l : Nat), d.risesWithin P (rises d l))
    (d : Dev) (p : Nat) (x : PageHdr) (hx : ∀ b, x.evt.getLsbD b = true → d.event p b = true ∨ P p b) :
    d.risesWithin P (setPageWith rises d p x) := by
  refine risesWithin_trans (b := { d with pages := tabPut d.pages p x }) ?_ (risesWithin_foldl rises hr _ _)
  intro q b hb
  rw [event_putPage] at hb
  split at hb
  · next h => rw [h]; exact hx b hb
  · exact .inl hb

/-- The word with one bit set has no other. -/
theorem eq_of_put_bit {b c : Nat} (h : (put b 1).getLsbD c = true) : c = b := by
  unfold put at h
  rw [BitVec.getLsbD_ofNat, Nat.testBit_shiftLeft] at h
  simp only [Bool.and_eq_true, decide_eq_true_eq, Nat.testBit_one_eq_true_iff_self_eq_zero] at h
  omega

theorem latch_bit {P : Nat → Nat → Prop} (d : Dev) {p b : Nat} (h : P p b) (c : Nat)
    (hc : ((getPage d p).evt ||| put b 1).getLsbD c = true) : d.event p c = true ∨ P p c := by
  rw [BitVec.getLsbD_or, Bool.or_eq_true] at hc
  exact hc.imp_right fun hb => by rw [eq_of_put_bit hb]; exact h

theorem risesWithin_pmcWith {P : Nat → Nat → Prop} {up : Dev → Nat → Nat → Dev} (h : ∀ (d : Dev) (m : Nat), d.risesWithin P (up d (pmcPage m) 0))
    (d : Dev) (c n : Nat) (pass : Nat → MonSt → Bool) : d.risesWithin P (pmcWith up d c n pass) := by
  refine risesWithin_foldl _ ?_ _ _
  intro a e
  dsimp only
  split
  · split
    · exact risesWithin_of_pages rfl
    · exact risesWithin_trans (risesWithin_of_pages (by rfl)) (h _ _)
  · exact risesWithin_refl _ _

theorem risesWithin_lineWork (P : Nat → Nat → Prop) (d : Dev) (l : Nat) : d.risesWithin P (lineWork d l) := by
  unfold lineWork
  split
  · exact risesWithin_of_pages rfl
  · exact risesWithin_refl _ _

theorem risesWithin_raiseLater (d : Dev) (m : Nat) : d.risesWithin counterBit (raiseLater d (pmcPage m) 0) :=
  risesWithin_setPageWith (risesWithin_lineWork _) _ _ _ (latch_bit d ⟨rfl, m, rfl⟩)

/-- A message that is sent is counted, and sets no other event bit. -/
theorem risesWithin_sendVector (d : Dev) (f v : Nat) : d.risesWithin counterBit (sendVector d f v) := by
  simp only [sendVector]
  split
  · exact risesWithin_refl _ _
  · split
    · exact risesWithin_of_pages rfl
    · split
      · exact risesWithin_of_pages rfl
      · refine risesWithin_ite (risesWithin_trans (risesWithin_of_pages ?_) (risesWithin_pmcWith risesWithin_raiseLater _ _ _ _)) (risesWithin_refl _ _)
        rfl

theorem risesWithin_lineRises (d : Dev) (l : Nat) : d.risesWithin counterBit (lineRises d l) := by
  unfold lineRises
  split
  · dsimp only
    split
    · exact risesWithin_lineWork _ _ _
    · exact risesWithin_trans (risesWithin_lineWork _ _ _) (risesWithin_sendVector _ _ _)
  · exact risesWithin_refl _ _

/-- A page header that is put in place sets its own bits, and those of the monitors that count its messages. -/
theorem risesWithin_setPage {P : Nat → Nat → Prop} (hP : ∀ p b, counterBit p b → P p b) (d : Dev) (p : Nat) (x : PageHdr)
    (hx : ∀ b, x.evt.getLsbD b = true → d.event p b = true ∨ P p b) : d.risesWithin P (setPage d p x) :=
  risesWithin_setPageWith (fun d l => risesWithin_mono (risesWithin_lineRises d l) hP) _ _ _ hx

theorem risesWithin_raise {P : Nat → Nat → Prop} (hP : ∀ p b, counterBit p b → P p b) (d : Dev) {p b : Nat} (h : P p b) :
    d.risesWithin P (raise d p b) := risesWithin_setPage hP _ _ _ (latch_bit d h)

/-! ### The recorder sets its own event bits and the monitors' -/

theorem reportBit_of_counter (p b : Nat) (h : counterBit p b) : reportBit p b := .inr h

theorem reports_raise {a d : Dev} (h : a.risesWithin reportBit d) {b : Nat} (hb : b ∈ [0, 1, 3]) : a.risesWithin reportBit (raise d evrPage b) :=
  risesWithin_trans h (risesWithin_raise reportBit_of_counter d (.inl ⟨rfl, hb⟩))

theorem reports_pmc {a d : Dev} (h : a.risesWithin reportBit d) (c n : Nat) : a.risesWithin reportBit (pmcAny d c n) :=
  risesWithin_trans h (risesWithin_pmcWith (fun d m => risesWithin_raise reportBit_of_counter d (.inr ⟨rfl, m, rfl⟩)) _ _ _ _)

theorem reports_evr {a d : Dev} (h : a.risesWithin reportBit d) (e : Evr) : a.risesWithin reportBit { d with evr := e } :=
  risesWithin_trans h (risesWithin_of_pages rfl)

theorem reports_number {a d : Dev} (h : a.risesWithin reportBit d) (r : EvRec) : a.risesWithin reportBit (evrNumber d r) :=
  risesWithin_trans h (risesWithin_of_pages (evrNumber_pages d r))

theorem reports_drop {a d : Dev} (h : a.risesWithin reportBit d) : a.risesWithin reportBit (evrDrop d) := by
  unfold evrDrop; exact reports_raise (reports_evr h _) (by decide)

theorem reports_bits {a d : Dev} (h : a.risesWithin reportBit d) (r : EvRec) : a.risesWithin reportBit (evrBits d r) := by
  unfold evrBits
  dsimp only
  split
  · exact reports_raise (reports_pmc h _ _) (by decide)
  · split
    · exact reports_raise (reports_pmc h _ _) (by decide)
    · exact reports_pmc h _ _

theorem reports_put {a d : Dev} (h : a.risesWithin reportBit d) (r : EvRec) : a.risesWithin reportBit (evrPut d r) := by
  unfold evrPut
  split
  · exact reports_bits (reports_number h _) _
  · split
    · split
      · exact reports_bits (reports_number (reports_drop (reports_evr h _)) _) _
      · exact reports_bits (reports_number h _) _
    · exact reports_drop h

theorem reports_early {a d : Dev} (h : a.risesWithin reportBit d) (r : EvRec) : a.risesWithin reportBit (evrEarly d r) := by
  unfold evrEarly
  dsimp only
  split
  · exact reports_evr h _
  · split
    · split
      · exact reports_drop (reports_evr h _)
      · exact reports_evr h _
    · exact reports_drop h

theorem reports_create {a d : Dev} (h : a.risesWithin reportBit d) (r : EvRec) : a.risesWithin reportBit (evrCreate d r) := by
  unfold evrCreate
  split
  · exact reports_early h r
  · refine reports_put ?_ _
    unfold evrOverflow
    split
    · exact h
    · exact reports_put (reports_evr h _) _

theorem reports_close {a d : Dev} (h : a.risesWithin reportBit d) (i : Nat) : a.risesWithin reportBit (rateClose d i) := by
  unfold rateClose
  dsimp only
  split
  · exact h
  · split
    · exact reports_evr h _
    · exact reports_create (reports_evr h _) _

theorem reports_log {a d : Dev} (h : a.risesWithin reportBit d) (c l f : Nat) (x : List Byte) : a.risesWithin reportBit (evLog d c l f x) := by
  unfold evLog
  split
  · exact reports_create h _
  · dsimp only
    split
    · exact reports_create (reports_evr (reports_close h _) _) _
    · exact reports_pmc (reports_evr (reports_evr (reports_close h _) _) _) _ _

/-- A recorded violation sets event bits of the recorder and of the monitors alone. -/
theorem violate_reports (d : Dev) (i : Ini) (a n : Nat) (t : TxnKind) (p : Bool) (r : Nat) :
    d.risesWithin reportBit (violate d i a n t p r) := by
  unfold violate
  exact reports_log (risesWithin_of_pages rfl) _ _ _ _

end Sys2Proof.Machine
end

section
/-! PROOFS. Writes of PG_EVT_SET and PG_LOCK (00 R11, R13, 18 R467-R469). -/

namespace Sys2Proof.Machine

/-! ### Register writes that reach their page -/

theorem pages_touchPage (d : Dev) (p : Nat) : (touchPage d p).pages = d.pages := by rw [touchPage_only]

theorem getPage_touchPage (d : Dev) (p q : Nat) : getPage (touchPage d p) q = getPage d q := by unfold getPage; rw [pages_touchPage]

/-- What a write that reaches its page found on its way. -/
theorem writeReaches_iff {d : Dev} {i : Ini} {p : Nat} : writeReaches d i p = true ↔
    headless p = false ∧ hostSees i p = true ∧ (keeperPage d p && !iniKeeper d i.id) = false ∧ pageShut i p = false ∧ asleep d p = none := by
  unfold writeReaches
  simp only [Bool.and_eq_true, Bool.not_eq_true', Option.isNone_iff_eq_none, and_assoc]

/-- A page with a header is a page. -/
theorem pageKind_of_headed {p : Nat} (h : headless p = false) : pageKind p ≠ .none := by
  intro hk; unfold headless at h; rw [hk] at h; cases h

/-- A command's write of a page that takes it does what the register does. -/
theorem writeAt_reaches {s : State} {i : Ini} {a p : Nat} (hp : a / 0x1000 = p) (h : writeReaches s.dev i p = true) (bs : List Byte)
    (k : Dev → Dev × Fuse) : writeAt s i a bs k = actFuse s (k (touchPage s.dev p)) := by
  obtain ⟨hh, hs, hk, -, ha⟩ := writeReaches_iff.mp h
  have hn : ¬ (decide (pageKind p = .none) || !hostSees i p) = true := by simp [pageKind_of_headed hh, hs]
  unfold writeAt
  rw [hp]
  dsimp only
  rw [if_neg hn, hk, ha]
  rfl

/-- A write of a register of the common header. -/
theorem regWrite_header {d : Dev} {i : Ini} {p off : Nat} (f : Fuse) (mem : List Host.Cell) (v : Word) (hs : pageShut i p = false)
    (hh : headless p = false) (ho : off < 0x040) : regWrite d f mem i p off v = (headWrite d f i p off v, f) := by
  unfold regWrite
  simp [hs, hh, ho]

/-- A PG_EVT_SET write that reaches its page. -/
theorem exec_pgEvtSetWrite {s : State} {i : Ini} {page : BitVec 28} (v : Word) (h : writeReaches s.dev i page.toNat = true) :
    exec (.pgEvtSetWrite i page v) s = .next (s.withDev (evtSet (touchPage s.dev page.toNat) s.fuse i page.toNat v)) := by
  obtain ⟨hh, -, -, hs, -⟩ := writeReaches_iff.mp h
  rw [exec, execPgEvtSetWrite, if_neg (by simp [hh]), writeAt_reaches (by omega) h, regWrite_header _ _ _ hs hh (by omega)]
  rfl

/-- A PG_LOCK write that reaches its page. -/
theorem exec_pgLockWrite {s : State} {i : Ini} {page : BitVec 28} (v : Word) (h : writeReaches s.dev i page.toNat = true) :
    exec (.pgLockWrite i page v) s = .next (s.withDev (lockWrite (touchPage s.dev page.toNat) i page.toNat v)) := by
  obtain ⟨hh, -, -, hs, -⟩ := writeReaches_iff.mp h
  rw [exec, execPgLockWrite, if_neg (by simp [hh]), writeAt_reaches (by omega) h, regWrite_header _ _ _ hs hh (by omega)]
  rfl

/-! ### PG_EVT_SET (00 R13, 18 R469) -/

/-- Outside TEST the write is ignored, and recorded where the page has event bits. -/
theorem evtSet_ignored (d : Dev) {f : Fuse} (hf : lcState f ≠ 1) (i : Ini) (p : Nat) (v : Word) :
    evtSet d f i p v = d ∨ evtSet d f i p v = ignored d i (regAddr p 0x028) := by
  unfold evtSet
  split
  · exact .inl rfl
  · exact .inr (if_pos (by simpa using hf))

theorem evtSet_unlogged (d : Dev) {f : Fuse} (hf : lcState f ≠ 1) (i : Ini) (p : Nat) (v : Word) : (evtSet d f i p v).unlogged = d.unlogged := by
  rcases evtSet_ignored d hf i p v with h | h
  · rw [h]
  · rw [h, ignored_unlogged]

/-- In TEST the implemented bits that are written join those that are set. -/
theorem evtSet_test (d : Dev) {f : Fuse} (hf : lcState f = 1) (i : Ini) (p : Nat) (v : Word) (hm : evtMask p ≠ 0) :
    evtSet d f i p v = setPage d p { getPage d p with evt := (getPage d p).evt ||| (v &&& evtMask p) } := by
  unfold evtSet
  rw [if_neg hm, if_neg (by simp [hf])]

theorem latched_setPage (d : Dev) (p : Nat) (x : PageHdr) (h : ∀ b, d.event p b = true → x.evt.getLsbD b = true) : d.latched (setPage d p x) :=
  setPageWith_latched lineRises_latched _ _ _ h

/-- A bit of the header that is put in place is set. -/
theorem setPage_event (d : Dev) (p : Nat) (x : PageHdr) (b : Nat) (h : x.evt.getLsbD b = true) : (setPage d p x).event p b = true := by
  refine foldl_latched _ lineRises_latched _ _ p b ?_
  rw [event_putPage, if_pos rfl, h]

/-- A header that holds the same lines high is put in place without a message. -/
theorem setPage_sameLines (d : Dev) (p : Nat) (x : PageHdr) (h : linesHigh p x = linesHigh p (getPage d p)) :
    setPage d p x = { d with pages := tabPut d.pages p x } := by
  have none_rises : (linesHigh p x).filter (fun l => !(linesHigh p (getPage d p)).contains l) = [] := by
    rw [h]; simp
  unfold setPage setPageWith
  dsimp only
  rw [none_rises]
  rfl

theorem evtSet_test_quiet (d : Dev) {f : Fuse} (hf : lcState f = 1) (i : Ini) (p : Nat) (v : Word) : (evtSet d f i p v).quiet = d.quiet := by
  by_cases hm : evtMask p = 0
  · rw [evtSet, if_pos hm]
  · rw [evtSet_test d hf i p v hm, setPage_quiet]

theorem evtSet_test_latched (d : Dev) {f : Fuse} (hf : lcState f = 1) (i : Ini) (p : Nat) (v : Word) : d.latched (evtSet d f i p v) := by
  by_cases hm : evtMask p = 0
  · rw [evtSet, if_pos hm]; exact Dev.latched_refl d
  · rw [evtSet_test d hf i p v hm]
    refine latched_setPage _ _ _ fun b hb => ?_
    unfold Dev.event at hb
    rw [BitVec.getLsbD_or, hb, Bool.true_or]

/-- In TEST the implemented bits that are written are set. -/
theorem evtSet_test_event (d : Dev) {f : Fuse} (hf : lcState f = 1) (i : Ini) (p : Nat) (v : Word) {b : Nat} (hv : v.getLsbD b = true)
    (hb : (evtMask p).getLsbD b = true) : (evtSet d f i p v).event p b = true := by
  have hm : evtMask p ≠ 0 := fun h => by rw [h] at hb; simp at hb
  rw [evtSet_test d hf i p v hm]
  exact setPage_event _ _ _ _ (by rw [BitVec.getLsbD_or, BitVec.getLsbD_and, hv, hb]; simp)

/-- In TEST no bits are set but those, and those of the monitors that count the messages. -/
theorem evtSet_test_within (d : Dev) {f : Fuse} (hf : lcState f = 1) (i : Ini) (p : Nat) (v : Word) :
    d.risesWithin (fun q b => (q = p ∧ v.getLsbD b = true ∧ (evtMask p).getLsbD b = true) ∨ counterBit q b) (evtSet d f i p v) := by
  by_cases hm : evtMask p = 0
  · rw [evtSet, if_pos hm]; exact risesWithin_refl _ d
  · rw [evtSet_test d hf i p v hm]
    refine risesWithin_setPage (fun _ _ => .inr) _ _ _ fun b hb => ?_
    rw [BitVec.getLsbD_or, BitVec.getLsbD_and, Bool.or_eq_true, Bool.and_eq_true] at hb
    exact hb.imp_right fun h => .inl ⟨rfl, h⟩

/-! ### PG_LOCK (18 R468) -/

theorem lockWrite_other (d : Dev) {i : Ini} (h : keeperOnly i = false) (p : Nat) (v : Word) : lockWrite d i p v = ignored d i (regAddr p 0x030) := by
  unfold lockWrite; rw [h]; rfl

theorem lockWrite_locked (d : Dev) {i : Ini} (h : keeperOnly i = true) (p : Nat) (v : Word) (hl : (getPage d p).lock = true) :
    lockWrite d i p v = lockHit d i p 0x030 := by
  unfold lockWrite; rw [h, hl]; rfl

theorem lockWrite_unlocked (d : Dev) {i : Ini} (h : keeperOnly i = true) (p : Nat) (v : Word) (hl : (getPage d p).lock = false) :
    lockWrite d i p v = { d with pages := tabPut d.pages p { getPage d p with lock := bit v 0 } } := by
  unfold lockWrite; rw [h, hl]; exact setPage_sameLines _ _ _ rfl

/-- Settles O11: what is ignored is a violation, which the recorder and the monitors report. -/
theorem eventSetIgnored : Obligations.EventSetIgnored := by
  unfold Obligations.EventSetIgnored
  intro s ini page v hw hf
  have hp := event_of_pages (pages_touchPage s.dev page.toNat)
  refine ⟨_, exec_pgEvtSetWrite v hw, ⟨rfl, rfl, rfl⟩, evtSet_unlogged _ hf _ _ _, ?_⟩
  simp only [withDev_dev]
  rcases evtSet_ignored (touchPage s.dev page.toNat) hf ini page.toNat v with h | h
  · rw [h]
    exact ⟨fun p b hb => (hp p b).trans hb, fun p b hb => .inl ((hp p b).symm.trans hb)⟩
  · rw [h]
    refine ⟨fun p b hb => violate_latched _ _ _ _ _ _ _ p b ((hp p b).trans hb), fun p b hb => ?_⟩
    exact (violate_reports _ _ _ _ _ _ _ p b hb).imp_left (hp p b).symm.trans

/-- Settles O17, by what each of the two registers takes from whom. -/
theorem headerWrites : Obligations.HeaderWrites := by
  unfold Obligations.HeaderWrites
  refine ⟨?set, ?ignored, ?lock, ?locked, ?others⟩
  case set =>
    intro s ini page v hw hf
    have hp := event_of_pages (pages_touchPage s.dev page.toNat)
    refine ⟨_, exec_pgEvtSetWrite v hw, ⟨rfl, rfl, rfl⟩, evtSet_test_quiet _ hf _ _ _, ?_, fun b => evtSet_test_event _ hf _ _ _, ?_⟩
    · exact fun p b hb => evtSet_test_latched _ hf _ _ _ p b ((hp p b).trans hb)
    · exact fun p b hb => (evtSet_test_within _ hf _ _ _ p b hb).imp_left (hp p b).symm.trans
  case ignored =>
    intro s ini page v hw hf
    exact ⟨_, exec_pgEvtSetWrite v hw, ⟨rfl, rfl, rfl⟩, evtSet_unlogged _ hf _ _ _⟩
  case lock =>
    intro s ini page v hw hi hl
    rw [exec_pgLockWrite v hw, lockWrite_unlocked _ hi _ _ (by rwa [getPage_touchPage]), getPage_touchPage, pages_touchPage]
  case locked =>
    intro s ini page v hw hi hl
    refine ⟨_, exec_pgLockWrite v hw, ⟨rfl, rfl, rfl⟩, ?_⟩
    rw [withDev_dev, lockWrite_locked _ hi _ _ (by rwa [getPage_touchPage]), lockHit_silent]
  case others =>
    intro s ini page v hw hi
    refine ⟨_, exec_pgLockWrite v hw, ⟨rfl, rfl, rfl⟩, ?_⟩
    rw [withDev_dev, lockWrite_other _ hi, ignored_unlogged]

end Sys2Proof.Machine
end

section
/-! PROOFS. Writes of the registers of a function's page (00 R11, R12, 02 R67). -/

namespace Sys2Proof.Machine

/-! ### The pages of functions -/

theorem pageKind_funcPage {f : Nat} (h : f < 256) : pageKind (funcPage f) = .func f := by
  have hlt : 0x10000 + f < 0x10100 := by omega
  unfold pageKind funcPage
  simp [hlt]

theorem headless_funcPage {f : Nat} (h : f < 256) : headless (funcPage f) = false := by unfold headless; rw [pageKind_funcPage h]
theorem isQue_funcPage {f : Nat} (h : f < 256) : isQue (funcPage f) = false := by unfold isQue; rw [pageKind_funcPage h]
theorem pageShut_funcPage {f : Nat} (h : f < 256) (i : Ini) : pageShut i (funcPage f) = false := by unfold pageShut; rw [pageKind_funcPage h]
theorem pageDomain_funcPage {f : Nat} (h : f < 256) : pageDomain (funcPage f) = none := by unfold pageDomain; rw [pageKind_funcPage h]

theorem keeperPage_funcPage {f : Nat} (h : f < 256) (d : Dev) : keeperPage d (funcPage f) = false := by
  have hlt : ¬ 0x18000 ≤ funcPage f := by unfold funcPage; omega
  unfold keeperPage; rw [pageKind_funcPage h]; simp [hlt]

theorem touchPage_funcPage {f : Nat} (h : f < 256) (d : Dev) : touchPage d (funcPage f) = d := by
  unfold touchPage; rw [pageDomain_funcPage h]

/-- A function's page takes the writes of every initiator that sees it, and never sleeps. -/
theorem writeReaches_funcPage {f : Nat} (h : f < 256) {i : Ini} (hs : hostSees i (funcPage f) = true) (d : Dev) :
    writeReaches d i (funcPage f) = true := by
  refine writeReaches_iff.mpr ⟨headless_funcPage h, hs, ?_, pageShut_funcPage h i, ?_⟩
  · rw [keeperPage_funcPage h]; rfl
  · unfold asleep; rw [pageDomain_funcPage h]

theorem regAddr_div {p off : Nat} (h : off < 0x1000) : regAddr p off / 0x1000 = p := by unfold regAddr; omega
theorem regAddr_mod {p off : Nat} (h : off < 0x1000) : regAddr p off % 0x1000 = off := by unfold regAddr; omega

theorem regAddr_toNat {f off : Nat} (h : f < 256) (ho : off < 0x1000) :
    (BitVec.ofNat 40 (regAddr (funcPage f) off)).toNat = regAddr (funcPage f) off := by
  rw [BitVec.toNat_ofNat]
  exact Nat.mod_eq_of_lt (by unfold regAddr funcPage; omega)

/-- A register write of a function's page is the write of its bytes. -/
theorem exec_registerWrite_func {s : State} {i : Ini} {f off : Nat} (h : f < 256) (hs : hostSees i (funcPage f) = true) (ho : off < 0x100)
    (bs : List Byte) (hb : bs.length ≤ 4) :
    exec (.registerWrite i (BitVec.ofNat 40 (regAddr (funcPage f) off)) bs) s =
      actFuse s (regBytesWrite s.dev s.fuse s.mem i (funcPage f) off bs) := by
  have ho' : off < 0x1000 := by omega
  rw [exec, execRegisterWrite, regAddr_toNat h ho', writeAt_reaches (regAddr_div ho') (writeReaches_funcPage h hs s.dev), touchPage_funcPage h,
    regAddr_div ho', regAddr_mod ho', List.take_of_length_le (by omega)]

/-! ### The bytes of one register -/

theorem length_leBytes (n v : Nat) : (leBytes n v).length = n := by
  induction n generalizing v with
  | zero => rfl
  | succ n ih => simp [leBytes, ih]

theorem leNat_leBytes (n v : Nat) : leNat (leBytes n v) = v % 256 ^ n := by
  induction n generalizing v with
  | zero => simp [leBytes, leNat, Nat.mod_one]
  | succ n ih =>
    have step : leNat (leBytes (n + 1) v) = v % 256 + 256 * leNat (leBytes n (v / 256)) := by simp [leBytes, leNat]
    rw [step, ih, Nat.pow_succ', Nat.mod_mul]

theorem lowOf_leAt_leBytes (v : Word) : lowOf (leAt (leBytes 4 v.toNat) 0 4) = v := by
  have hs : slice (leBytes 4 v.toNat) 0 4 = leBytes 4 v.toNat := by
    simp [slice, length_leBytes, List.take_of_length_le]
  unfold leAt lowOf
  rw [hs, leNat_leBytes]
  apply BitVec.eq_of_toNat_eq
  have := v.isLt
  simp only [BitVec.toNat_ofNat]
  omega

/-- The four bytes of an aligned word are that register and no part of another. -/
theorem wholeRegs_word {off : Nat} (h : off % 4 = 0) (v : Word) : wholeRegs off (leBytes 4 v.toNat) = [(off, v)] := by
  have hf : 4 * ((off + 3) / 4) = off := by omega
  have hn : (off + 4 - off) / 4 = 1 := by omega
  unfold wholeRegs
  simp only [length_leBytes, hf, hn]
  simp [lowOf_leAt_leBytes]

theorem partRegs_word {off : Nat} (h : off % 4 = 0) (v : Word) : partRegs off (leBytes 4 v.toNat) = [] := by
  have hl : (off + 4) % 4 = 0 := by omega
  unfold partRegs
  simp [length_leBytes, h, hl]

/-- A single byte is a part of one register. -/
theorem wholeRegs_byte (off : Nat) (b : Byte) : wholeRegs off [b] = [] := by
  have hn : (off + 1 - 4 * ((off + 3) / 4)) / 4 = 0 := by omega
  unfold wholeRegs
  simp only [List.length_singleton, hn, List.range_zero, List.map_nil]

/-- On a page with a header that holds neither queues nor vectors, a word that is written is its register's write. -/
theorem regBytesWrite_word (d : Dev) (fu : Fuse) (mem : List Host.Cell) (i : Ini) {f off : Nat} (h : f < 256) (ho : off % 4 = 0) (v : Word) :
    regBytesWrite d fu mem i (funcPage f) off (leBytes 4 v.toNat) = regWrite d fu mem i (funcPage f) off v := by
  unfold regBytesWrite
  rw [pageKind_funcPage h, partRegs_word ho, wholeRegs_word ho]
  rfl

/-- A single byte that is written changes no register: its parts are recorded. -/
theorem regBytesWrite_byte (d : Dev) (fu : Fuse) (mem : List Host.Cell) (i : Ini) {f off : Nat} (h : f < 256) (b : Byte) :
    (regBytesWrite d fu mem i (funcPage f) off [b]).1.unlogged = d.unlogged ∧ (regBytesWrite d fu mem i (funcPage f) off [b]).2 = fu := by
  unfold regBytesWrite
  rw [pageKind_funcPage h, wholeRegs_byte]
  exact ⟨foldl_same Dev.unlogged _ (fun d o => ignored_unlogged d _ _) _ _, rfl⟩

/-! ### FUNC_COALn (02 R67) -/

theorem isGuarded_coal {f off : Nat} (h : f < 256) (hlo : 0x080 ≤ off) (hhi : off < 0x100) :
    isGuarded (regAddr (funcPage f) off) = false := by
  have h40 : ¬ off = 0x040 := by omega
  have h44 : ¬ off = 0x044 := by omega
  unfold isGuarded guardDefault
  dsimp only
  rw [regAddr_div (by omega), regAddr_mod (by omega), pageKind_funcPage h]
  simp [h40, h44]

theorem rwReg_coal {f off : Nat} (h : f < 256) (hlo : 0x080 ≤ off) (hhi : off ≤ 0x0FC) : rwReg (funcPage f) off = true := by
  unfold rwReg
  rw [pageKind_funcPage h]
  simp [hlo, hhi]

/-- A write of FUNC_COALn, by the lock of its page. -/
theorem regWrite_coal (d : Dev) (fu : Fuse) (mem : List Host.Cell) (i : Ini) {f k : Nat} (h : f < 256) (hk : k < 32) (v : Word) :
    regWrite d fu mem i (funcPage f) (0x080 + 4 * k) v =
      if (getPage d (funcPage f)).lock then (lockHit d i (funcPage f) (0x080 + 4 * k), fu)
      else (setFn d f { getFn d f with coal := tabPut (getFn d f).coal k (v.setWidth 8) }, fu) := by
  have hlo : 0x080 ≤ 0x080 + 4 * k := by omega
  have hhi : 0x080 + 4 * k ≤ 0x0FC := by omega
  have h800 : 0x080 + 4 * k < 0x800 := by omega
  have h40 : ¬ 0x080 + 4 * k < 0x040 := by omega
  have h48 : ¬ 0x080 + 4 * k = 0x048 := by omega
  have hkk : (0x080 + 4 * k - 0x080) / 4 = k := by omega
  have hv : BitVec.ofNat 8 (bits v 0 8) = v.setWidth 8 := by
    apply BitVec.eq_of_toNat_eq; simp [bits, BitVec.toNat_setWidth]
  have body : bodyWrite d fu mem i (funcPage f) (0x080 + 4 * k) v =
      (setFn d f { getFn d f with coal := tabPut (getFn d f).coal k (v.setWidth 8) }, fu) := by
    unfold bodyWrite
    rw [pageKind_funcPage h]
    dsimp only [funcWrite]
    rw [if_neg h48, if_pos (by simp [hlo, hhi]), hkk, hv]
    rfl
  unfold regWrite
  simp only [pageShut_funcPage h, headless_funcPage h, isQue_funcPage h, isGuarded_coal h hlo (by omega), rwReg_coal h hlo hhi, h800, h40,
    Nat.not_le.mpr h800, body, Bool.false_eq_true, if_false, decide_true, Bool.and_true]

/-- A word written to FUNC_COALn by an initiator that sees the page. -/
theorem exec_registerWrite_coal {s : State} {i : Ini} {f k : Nat} (h : f < 256) (hs : hostSees i (funcPage f) = true) (hk : k < 32) (v : Word) :
    exec (.registerWrite i (BitVec.ofNat 40 (regAddr (funcPage f) (0x080 + 4 * k))) (leBytes 4 v.toNat)) s =
      actFuse s (if (getPage s.dev (funcPage f)).lock then (lockHit s.dev i (funcPage f) (0x080 + 4 * k), s.fuse)
        else (setFn s.dev f { getFn s.dev f with coal := tabPut (getFn s.dev f).coal k (v.setWidth 8) }, s.fuse)) := by
  rw [exec_registerWrite_func h hs (by omega) _ (Nat.le_of_eq (length_leBytes _ _)), regBytesWrite_word _ _ _ _ h (by omega), regWrite_coal _ _ _ _ h hk]

/-- Settles O18, by the bytes of one register and the lock of its page. -/
theorem registerWrites : Obligations.RegisterWrites := by
  unfold Obligations.RegisterWrites
  refine ⟨?stored, ?locked, ?byte⟩
  case stored =>
    intro s ini f k v hk hs hl
    rw [exec_registerWrite_coal f.isLt hs hk, hl]
    rfl
  case locked =>
    intro s ini f k v hk hs hl
    have hw := exec_registerWrite_coal (s := s) f.isLt hs hk v
    rw [hl] at hw
    exact ⟨_, hw, ⟨rfl, rfl, rfl⟩, lockHit_silent _ _ _ _⟩
  case byte =>
    intro s ini f k b hk hs
    obtain ⟨hd, hf⟩ := regBytesWrite_byte s.dev s.fuse s.mem ini (off := 0x080 + k) f.isLt b
    exact ⟨_, exec_registerWrite_func f.isLt hs (by omega) _ (by simp), ⟨rfl, rfl, hf⟩, hd⟩

end Sys2Proof.Machine
end

section
/-! PROOFS. A plan cut that changes the store room (06 R190, 16 R428). -/

namespace Sys2Proof.Machine

/-- The cellar record of a tenant's AES-128 key for encryption, number 1. -/
def gcmRecord : CellarRec :=
  { img := { key := 0x01000000, parent := 0, tenant := 1, version := 1, ktype := 0x01, level := 1, attr := 0x4008, export_ := 0, origin := 0,
             qinval := false, record := 1, pfx := 0, stamp := 0, value := zeros 16, point := [], state := 2 }
    place := 0, sealVer := 0, signer := [], bbk := 0, commit := 0 }

/-- Function 3's entry: a GCM encryption of 16 bytes under that key. -/
def gcmEntry : Entry :=
  { fn := 3, q := 1, tag := 0, fence := false, nointr := false, pr := false, keysel := 1, param := 0,
    keyref := cellarHandle 0 1 0x01000000,
    descs := [{ addr := 64, blen := 16, dir := false, resv := 0 }, { addr := 128, blen := 44, dir := true, resv := 0 }], operands := [] }

/-- The device in RUN before the job: function 3 is READY, bound to the tenant, and has the whole symmetric wing, of which shelf 121 is ACTIVE;
the key is cached in slot 0, and block 0 of its counter values is committed. No counter value has been assigned on this device. -/
def gcmIdle : Dev :=
  { devReset with
    pwr := { pwrReset with sysstate := 1 }
    fns := [(3, { fnReset with state := 1, tenant := 1, vectors := 1, qpairs := 2, kcUnits := 1, bme := true })]
    units := [(121, unitByRole 1 true)]
    queues := [(qKey 3 1, { queueReset with en := true })]
    wings := { wingsReset with
      sym := { wingTabsReset with tables := [[{ func := 3, valid := true, floor := 0, cap := 0xFFFF, weight := 1 }], [], [], []] } }
    nv := { nvReset with cellar := [gcmRecord] }
    keys := { keysReset with
      cache := [{ k := keyOfRec gcmRecord 0, kind := .cellar, fn := 0, slots := 1, use := 0, marked := false, dropped := false, lastUse := 0 }]
      nonces := [{ record := 1, twin := false, next := 0, limit := 65536, nextFree := 1, wait := none, ownDone := true, peerDone := true,
                   cached := true }] } }

/-- A command's next state. -/
def nextOf (c : Instr) (s : State) : State := match exec c s with | .next t => t | _ => s

/-- The job fetched and its input read. -/
def gcmStaged : State :=
  nextOf (.dmaReadCompletion 0 (.desc 0) (some (zeros 16))) (nextOf (.gcmEncrypt gcmEntry) (State.reset.withDev gcmIdle))

/-- The cut that places the job assigns it a counter value, which fixes the twin index in MRAM. -/
theorem planCut_fixes_index : (nextOf .planCut gcmStaged).dev.nv.twin.fixed = true := by decide +kernel

theorem gcmStaged_before : gcmStaged.dev.pwr.sysstate ≠ 3 ∧ gcmStaged.dev.cutDone = false ∧ gcmStaged.dev.nv.twin.outbox = [] ∧
    gcmStaged.dev.nv.twin.fixed = false := by decide +kernel

/-- Refutes O12: a plan cut that assigns the device's first GCM counter value fixes its twin index (R428), a bit of MRAM. -/
theorem not_ticks : ¬ Obligations.Ticks := by
  unfold Obligations.Ticks
  rintro ⟨-, -, cut, -⟩
  obtain ⟨hrun, hcut, hbox, hbefore⟩ := gcmStaged_before
  obtain ⟨t, ht, -, -, -, -, -, -, -, -, -, -, -, -, hnv, -⟩ := cut gcmStaged hrun hcut hbox
  have hafter := planCut_fixes_index
  have hnext : nextOf .planCut gcmStaged = t := by unfold nextOf; rw [ht]
  rw [hnext, hnv, hbefore] at hafter
  cases hafter

end Sys2Proof.Machine
end

section
/-! PROOFS. Service requests of units and the end of a strike (01 R21, R50, 05 R163). -/

namespace Sys2Proof.Machine

/-! ### Guarded pairs, and what a touched page leaves -/

@[simp] theorem getGuard_setGuard (d : Dev) (a : Nat) (g : Guard) : getGuard (setGuard d a g) a = g := tabGet_put_same _ _ _ _

theorem setGuard_getUnit (d : Dev) (a : Nat) (g : Guard) (k : Nat) : getUnit (setGuard d a g) k = getUnit d k := rfl

theorem touchPage_getUnit (d : Dev) (p k : Nat) : getUnit (touchPage d p) k = getUnit d k :=
  getUnit_congr (by rw [touchPage_only]) (by rw [touchPage_only]) k

theorem requestService_getGuard (d : Dev) (u : Nat) (v : Word) (a : Nat) : getGuard (requestService d u v) a = getGuard d a :=
  getGuard_congr (by rw [requestService_only]) a

theorem unlessLocked_unlocked {d : Dev} {page : Nat} (h : (getPage d page).lock = false) (i : Ini) (off : Nat) (k : Dev → Dev) :
    unlessLocked d i page off k = k d := by
  unfold unlessLocked; rw [h]; rfl

/-! ### A request that its page takes (01 R21) -/

/-- The device with the request v committed at a unit's page. -/
def serviceRequested (d : Dev) (u : Nat) (v : Word) : Dev :=
  requestService (setGuard (touchPage d (unitPage u)) (regAddr (unitPage u) 0x064) { val := v, shadow := ~~~v, pend := none }) u v

/-- A request of a PF's driver at an unlocked page that is awake is committed. -/
theorem svcRequest_committed {d : Dev} {i : Ini} {u : Nat} (hpf : isPf i.id = true) (hpriv : i.priv = true)
    (hawake : asleep d (unitPage u) = none) (hlock : (getPage d (unitPage u)).lock = false) (v : Word) :
    svcRequest d i u v = serviceRequested d u v := by
  have hright : ¬ (!(isPf i.id && i.priv)) = true := by simp [hpf, hpriv]
  unfold svcRequest
  dsimp only
  rw [if_neg hright, hawake]
  exact unlessLocked_unlocked (by rwa [getPage_touchPage]) _ _ _

theorem serviceRequested_only (d : Dev) (u : Nat) (v : Word) : serviceRequested d u v =
    { d with units := (serviceRequested d u v).units, guards := (serviceRequested d u v).guards, pwr := (serviceRequested d u v).pwr } := by
  unfold serviceRequested setGuard
  rw [requestService_only, touchPage_only]

theorem serviceRequested_getGuard (d : Dev) (u : Nat) (v : Word) :
    getGuard (serviceRequested d u v) (regAddr (unitPage u) 0x064) = { val := v, shadow := ~~~v, pend := none } := by
  unfold serviceRequested; rw [requestService_getGuard, getGuard_setGuard]

/-- The shelves at or below the unit carry the request, and no other does. -/
theorem serviceRequested_getUnit (d : Dev) (u : Nat) (v : Word) (k : Nat) :
    getUnit (serviceRequested d u v) k =
      if (shelvesBelow u).contains k then
        { getUnit d k with request := if bits v 0 2 = 1 then 1 else if bits v 0 2 = 2 then 2 else 0 }
      else getUnit d k := by
  unfold serviceRequested; rw [getUnit_requestService, setGuard_getUnit, touchPage_getUnit]

/-- A request that its page takes: the guarded register, the shelves, and the rest of the device. -/
theorem svcRequest_serves {d : Dev} {i : Ini} {u : Nat} (hpf : isPf i.id = true) (hpriv : i.priv = true)
    (hawake : asleep d (unitPage u) = none) (hlock : (getPage d (unitPage u)).lock = false) (v : Word) :
    svcRequest d i u v =
        { d with units := (svcRequest d i u v).units, guards := (svcRequest d i u v).guards, pwr := (svcRequest d i u v).pwr } ∧
      getGuard (svcRequest d i u v) (regAddr (unitPage u) 0x064) = { val := v, shadow := ~~~v, pend := none } ∧
      ∀ k, getUnit (svcRequest d i u v) k =
        if (shelvesBelow u).contains k then
          { getUnit d k with request := if bits v 0 2 = 1 then 1 else if bits v 0 2 = 2 then 2 else 0 }
        else getUnit d k := by
  rw [svcRequest_committed hpf hpriv hawake hlock]
  exact ⟨serviceRequested_only _ _ _, serviceRequested_getGuard _ _ _, serviceRequested_getUnit _ _ _⟩

/-! ### The commands of units that exist -/

theorem exec_rackSvcreqDrain {u : UnitNo} (h : u.toNat < unitCount) (i : Ini) (s : State) :
    exec (.rackSvcreqDrain i u) s = .next (s.withDev (svcRequest s.dev i u.toNat 1)) := if_neg (Nat.not_le.mpr h)

theorem exec_rackSvcreqReturn {u : UnitNo} (h : u.toNat < unitCount) (i : Ini) (s : State) :
    exec (.rackSvcreqReturn i u) s = .next (s.withDev (svcRequest s.dev i u.toNat 2)) := if_neg (Nat.not_le.mpr h)

theorem exec_strikeExpire {u : UnitNo} (h : u.toNat < unitCount) (s : State) :
    exec (.strikeExpire u) s = .next (s.withDev (strikeEnd s.dev u.toNat)) := if_neg (Nat.not_le.mpr h)

/-! ### The end of a strike (05 R163) -/

theorem strikeEnd_lapsed {d : Dev} {u : Nat} {b : BitVec 48} (hb : (getUnit d u).strike = some b) (h : b.toNat + 2 ^ 20 ≤ d.tick.toNat) :
    strikeEnd d u = setUnit d u { getUnit d u with strike := none } := by
  unfold strikeEnd
  simp only [hb, decide_eq_true h, if_true]

/-- Before the window's end, and on a shelf that holds no strike, nothing changes. -/
theorem strikeEnd_standing {d : Dev} {u : Nat} (h : ∀ b, (getUnit d u).strike = some b → d.tick.toNat < b.toNat + 2 ^ 20) :
    strikeEnd d u = d := by
  unfold strikeEnd
  cases hb : (getUnit d u).strike with
  | none => simp only [hb]
  | some b => simp only [hb, Nat.not_le.mpr (h b hb), decide_false, Bool.false_eq_true, if_false]

/-- Settles O14: the two requests by `svcRequest_serves`, the strike by the end of its window. -/
theorem unitService : Obligations.UnitService := by
  unfold Obligations.UnitService
  refine ⟨?drain, ?back, ?lapsed, ?standing⟩
  case drain =>
    intro s ini unit hu hpf hpriv hawake hlock
    exact ⟨_, exec_rackSvcreqDrain hu ini s, ⟨rfl, rfl, rfl⟩, svcRequest_serves hpf hpriv hawake hlock 1⟩
  case back =>
    intro s ini unit hu hpf hpriv hawake hlock
    exact ⟨_, exec_rackSvcreqReturn hu ini s, ⟨rfl, rfl, rfl⟩, svcRequest_serves hpf hpriv hawake hlock 2⟩
  case lapsed =>
    intro s unit b hu hb hlapsed
    rw [exec_strikeExpire hu, strikeEnd_lapsed hb hlapsed]
  case standing =>
    intro s unit hu hstanding
    rw [exec_strikeExpire hu, strikeEnd_standing hstanding]
    rfl

end Sys2Proof.Machine
end

section
/-! PROOFS. Bus Master Enable, MSI-X masks and the link of a port (02 R53, R66, R68). -/

namespace Sys2Proof.Machine

/-- A mask is cleared in a function that is not ABSENT, at a vector below its count. -/
theorem exec_msixMaskClear (fn : FnNo) (v : BitVec 5) (s : State) :
    exec (.msixMaskClear fn v) s =
      .next (s.withDev (if (getFn s.dev fn.toNat).state ≠ 0 ∧ v.toNat < (getFn s.dev fn.toNat).vectors then
        setVec s.dev fn.toNat v.toNat { getVec s.dev fn.toNat v.toNat with mask := false } else s.dev)) := by
  rw [exec, execMsixMaskClear, act]
  simp only [Bool.and_eq_true, bne_iff_ne, decide_eq_true_eq]
  rfl

/-- A link comes up in a domain that is on, with PERSTx_N high. -/
theorem exec_portLinkUp (port : Bool) (cfg : LinkCfg) (s : State) :
    exec (.portLinkUp ⟨port, cfg⟩) s =
      .next (s.withDev (if domOn s.dev (12 + portNo port) = true ∧ (getPort s.dev port).perst = true then
        setPort s.dev port { getPort s.dev port with link := true, cfg := cfg } else s.dev)) := by
  rw [exec, execPortLinkUp, act]
  simp only [Bool.and_eq_true]
  rfl

/-- Settles O21, by the condition of each switch. -/
theorem functionSwitches : Obligations.FunctionSwitches := by
  unfold Obligations.FunctionSwitches
  refine ⟨?master, ?cleared, ?masked, ?up, ?down⟩
  case master =>
    intro s fn on
    rfl
  case cleared =>
    intro s fn v hpresent hv
    rw [exec_msixMaskClear, if_pos ⟨hpresent, hv⟩]
  case masked =>
    intro s fn v h
    rw [exec_msixMaskClear, if_neg (fun ⟨hpresent, hbelow⟩ => h.elim hpresent (Nat.not_le.mpr hbelow))]
    rfl
  case up =>
    intro s port cfg hon hperst
    rw [exec_portLinkUp, if_pos ⟨hon, hperst⟩]
  case down =>
    intro s port cfg h
    rw [exec_portLinkUp, if_neg (by rcases h with h | h <;> simp [h])]
    rfl

end Sys2Proof.Machine
end

section
/-! PROOFS. The DOE mailbox of a PF (02 R72, R75). -/

namespace Sys2Proof.Machine

theorem doeOf_congr {d e : Dev} (h : d.ports = e.ports) (p : Bool) : doeOf d p = doeOf e p := by
  unfold doeOf; rw [getPort_congr h]

@[simp] theorem doeOf_setDoe (d : Dev) (p : Bool) (r : Option (List Byte)) : doeOf (setDoe d p r) p = r := by
  unfold doeOf setDoe; rw [modPort_eq, getPort_setPort]

/-- A request that fits, in a domain that is on, is held and reported. -/
theorem doeArrives_held {d : Dev} {p : Bool} {obj : List Byte} (hl : obj.length ≤ 4096) (hon : domOn d (12 + portNo p) = true) :
    doeArrives d p obj = raise (setDoe d p (some obj)) infoPage (portNo p) := by
  unfold doeArrives
  exact if_neg (by simp [hon, hl])

/-- Any other request is dropped. -/
theorem doeArrives_dropped {d : Dev} {p : Bool} {obj : List Byte} (h : 4096 < obj.length ∨ domOn d (12 + portNo p) = false) :
    doeArrives d p obj = d := by
  unfold doeArrives
  exact if_pos (by simpa using h)

/-- Discovery of the two protocols, in a domain that is on. -/
theorem doeDiscover_zero {d : Dev} {p : Bool} (hon : domOn d (12 + portNo p) = true) :
    doeDiscover d p 0 = emit d (.doe p [0x01, 0x00, 0x00, 0x01]) := by
  unfold doeDiscover; rw [hon]; rfl

theorem doeDiscover_one {d : Dev} {p : Bool} (hon : domOn d (12 + portNo p) = true) :
    doeDiscover d p 1 = emit d (.doe p [0x01, 0x00, 0x01, 0x00]) := by
  unfold doeDiscover; rw [hon]; rfl

theorem exec_doeRequest (p : Bool) (obj : List Byte) (s : State) :
    exec (.doeRequest p obj) s = .next (s.withDev (doeArrives s.dev p obj)) := rfl

theorem exec_doeDiscovery (p : Bool) (index : Byte) (s : State) :
    exec (.doeDiscovery p index) s = .next (s.withDev (doeDiscover s.dev p index)) := rfl

/-- Settles O22: a request is held exactly where it fits and its domain is on. -/
theorem doeMailbox : Obligations.DoeMailbox := by
  unfold Obligations.DoeMailbox
  refine ⟨?held, ?aborted, ?discovery, ?spdm, ?dropped⟩
  case held =>
    intro s port obj hl hon
    refine ⟨_, exec_doeRequest port obj s, ⟨rfl, rfl, rfl⟩, ?_⟩
    rw [withDev_dev, doeArrives_held hl hon]
    refine ⟨?_, raise_event _ _ _ (by cases port <;> decide), raise_quiet _ _ _⟩
    rw [doeOf_congr (raise_ports _ _ _), doeOf_setDoe]
  case aborted =>
    intro s port
    rfl
  case discovery =>
    intro s port hon
    rw [exec_doeDiscovery, doeDiscover_zero hon]
  case spdm =>
    intro s port hon
    rw [exec_doeDiscovery, doeDiscover_one hon]
  case dropped =>
    intro s port obj h
    rw [exec_doeRequest, doeArrives_dropped h]
    rfl

end Sys2Proof.Machine
end

section
/-! PROOFS. SPDM requests and their responses (02 R73, R74). -/

namespace Sys2Proof.Machine

/-! ### What the responder takes up -/

/-- A request that the mailbox holds: by the life cycle, then by the keeper world. -/
theorem spdmServe_held {d : Dev} {p : Bool} (h : (doeOf d p).isSome = true) (f : Fuse) (k : Dev → Dev) :
    spdmServe d f p k =
      if lcState f == 0 || lcState f == 3 then spdmError d p 0x07 else if !keeperPresent d then spdmError d p 0x03 else k d := by
  unfold spdmServe
  exact if_neg (by simp [← Option.not_isSome, h])

/-- TEST and PRODUCTION are the life-cycle states that answer (12 R336). -/
theorem lifeCycle_answers {f : Fuse} (h : lcState f = 1 ∨ lcState f = 2) : ¬ (lcState f == 0 || lcState f == 3) = true := by
  rcases h with h | h <;> rw [h] <;> decide

/-- A responder that is ready serves the request. -/
theorem spdmServe_ready {s : State} {port : Bool} (h : spdmReady s port) (k : Dev → Dev) : spdmServe s.dev s.fuse port k = k s.dev := by
  obtain ⟨hheld, hlife, hkeeper⟩ := h
  rw [spdmServe_held hheld, if_neg (lifeCycle_answers hlife), hkeeper]
  rfl

/-- In BLANK and END_OF_LIFE every request is unsupported (12 R336). -/
theorem spdmServe_unsupported {d : Dev} {f : Fuse} {p : Bool} (hheld : (doeOf d p).isSome = true) (hlife : lcState f = 0 ∨ lcState f = 3)
    (k : Dev → Dev) : spdmServe d f p k = spdmError d p 0x07 := by
  rw [spdmServe_held hheld, if_pos (by simpa using hlife)]

/-- While the keeper world is absent every request meets Busy. -/
theorem spdmServe_busy {d : Dev} {f : Fuse} {p : Bool} (hheld : (doeOf d p).isSome = true) (hlife : lcState f = 1 ∨ lcState f = 2)
    (hkeeper : keeperPresent d = false) (k : Dev → Dev) : spdmServe d f p k = spdmError d p 0x03 := by
  rw [spdmServe_held hheld, if_neg (lifeCycle_answers hlife), hkeeper]
  rfl

/-- A command that is the service of a request: `k` is what it answers once it is taken up. -/
def Serves (c : Instr) (s : State) (port : Bool) (k : Dev → Dev) : Prop := exec c s = .next (s.withDev (spdmServe s.dev s.fuse port k))

/-- A service that answers one message. -/
theorem Serves.replies {c : Instr} {s : State} {port : Bool} {k : Dev → Dev} {code : Byte} {body : List Byte} (hc : Serves c s port k)
    (h : spdmReady s port) (hk : k s.dev = spdmAnswer s.dev port code body) : spdmReplies s port c code body := by
  unfold spdmReplies
  rw [hc, spdmServe_ready h, hk]
  rfl

/-- The requests that the two errors are shown for are services. -/
theorem serves_of_mem {c : Instr} {port : Bool}
    (hc : c ∈ [Instr.getVersion port, .getCapabilities port, .getDigests port, .negotiateAlgorithms port true true]) (s : State) :
    ∃ k, Serves c s port k := by
  simp only [List.mem_cons, List.not_mem_nil, or_false] at hc
  rcases hc with rfl | rfl | rfl | rfl <;> exact ⟨_, rfl⟩

/-! ### Signed responses (log entry 73) -/

theorem takeDraw_egress {d e : Dev} {i n : Nat} {bs : List Byte} (h : takeDraw d i n = some (bs, e)) : e.egress = d.egress := by
  simp only [takeDraw, instGenerate] at h
  split at h
  · split at h
    · next hg =>
      split at hg
      · cases hg; cases h; rfl
      · cases hg
    · cases h
  · cases h

/-- A draw of the keeper world puts nothing on the ports. -/
theorem keeperDraw_egress {d e : Dev} {n : Nat} {bs : List Byte} (h : keeperDraw d n = some (bs, e)) : e.egress = d.egress := by
  unfold keeperDraw at h
  split at h
  · next ht =>
    cases h
    rw [rngFeed_only]
    exact (takeDraw_egress ht :)
  · cases h

/-- The signer is held as a variable: the kernel is not to evaluate the curve when it reduces the match on its result. -/
theorem spdmSign_egress {d e : Dev} {sig : List Byte} (h : spdmSign d = some (sig, e)) : e.egress = d.egress := by
  obtain ⟨sign, hsign⟩ : ∃ sign, ecdsaSign p384 = sign := ⟨_, rfl⟩
  unfold spdmSign at h
  rw [hsign] at h
  split at h
  · cases h
  · next hd =>
    dsimp only at h
    split at h
    · cases h
      exact (keeperDraw_egress hd :)
    · cases h

/-- A signed response empties the mailbox. -/
theorem spdmSigned_doe (d : Dev) (p : Bool) (code : Byte) (body : List Byte) : doeOf (spdmSigned d p code body) p = none := by
  unfold spdmSigned
  split
  · exact doeOf_setDoe _ _ _
  · split <;> exact doeOf_setDoe _ _ _

/-- A signed response puts one message on the port. -/
theorem spdmSigned_egress (d : Dev) (p : Bool) (code : Byte) (body : List Byte) :
    (spdmSigned d p code body).egress = d.egress ++ [spdmSignedReply d p code body] := by
  unfold spdmSigned spdmSignedReply
  cases hn : keeperDraw d 32 with
  | none => rfl
  | some drawn =>
    have hdrawn : drawn.2.egress = d.egress := keeperDraw_egress hn
    cases hs : spdmSign drawn.2 with
    | none => simp only [hs, ← hdrawn]; rfl
    | some signed =>
      have hsigned : signed.2.egress = d.egress := (spdmSign_egress hs).trans hdrawn
      simp only [hs, ← hsigned]; rfl

/-- A service that answers a signed message. -/
theorem Serves.signs {c : Instr} {s : State} {port : Bool} {k : Dev → Dev} {code : Byte} {body : List Byte} (hc : Serves c s port k)
    (h : spdmReady s port) (hk : k s.dev = spdmSigned s.dev port code body) :
    Completes c s fun t => s.sameOutside t ∧ doeOf t.dev port = none ∧
      t.dev.egress = s.dev.egress ++ [spdmSignedReply s.dev port code body] := by
  refine ⟨_, hc, ⟨rfl, rfl, rfl⟩, ?_⟩
  rw [withDev_dev, spdmServe_ready h, hk]
  exact ⟨spdmSigned_doe _ _ _ _, spdmSigned_egress _ _ _ _⟩

/-! ### Certificates and measurements -/

/-- A portion of a chain: its length is within what is asked for, what an object holds, and what the chain has after the offset. -/
theorem certificate_portion {c : List Byte} {offset : Nat} (h : ¬ c.length ≤ offset) (len : Nat) :
    min (min len 4032) (c.length - offset) ≤ len ∧ min (min len 4032) (c.length - offset) ≤ 4032 ∧
      offset + min (min len 4032) (c.length - offset) ≤ c.length := by omega

/-- What GET_MEASUREMENTS sends for a block number; none for a block that the device does not have. -/
def measureBody (d : Dev) (f : Fuse) (block : Byte) : Option (List Byte) :=
  if block = 0 then some [6, 0]
  else if block = 0xFF then some ([0, 6] ++ (measureBlocks d f).zipIdx.flatMap fun b => measBlock (b.2 + 1) b.1)
  else match (measureBlocks d f)[block.toNat - 1]? with
    | some m => some ([0, 1] ++ measBlock block.toNat m)
    | none => none

/-- What GET_MEASUREMENTS does once it is taken up. -/
def measureReply (f : Fuse) (port : Bool) (block : Byte) (sign : Bool) (d : Dev) : Dev :=
  match measureBody d f block with
  | none => spdmError d port 0x01
  | some b => if sign then spdmSigned d port 0x60 b else spdmAnswer d port 0x60 b

theorem serves_getMeasurements (port : Bool) (block : Byte) (sign : Bool) (nonce : List Byte) (s : State) :
    Serves (.getMeasurements port block sign nonce) s port (measureReply s.fuse port block sign) := rfl

theorem measureBody_count (d : Dev) (f : Fuse) : measureBody d f 0 = some [6, 0] := rfl

theorem measureBody_all (d : Dev) (f : Fuse) :
    measureBody d f 0xFF = some ([0, 6] ++ (measureBlocks d f).zipIdx.flatMap fun b => measBlock (b.2 + 1) b.1) := rfl

/-- Block i + 1 is the i-th digest. -/
theorem measureBody_block (d : Dev) (f : Fuse) {block : Byte} {i : Fin 6} (h : block.toNat = i.val + 1) :
    measureBody d f block = some ([0, 1] ++ measBlock (i.val + 1) ((measureBlocks d f).getD i.val [])) := by
  have h0 : block ≠ 0 := fun e => by rw [e] at h; simp at h
  have hall : block ≠ 0xFF := fun e => by rw [e] at h; simp at h; omega
  have hi : i.val < (measureBlocks d f).length := i.isLt
  unfold measureBody
  rw [if_neg h0, if_neg hall, h, Nat.add_sub_cancel, List.getElem?_eq_getElem hi, List.getD_eq_getElem _ _ hi]

/-- There is no block above 6. -/
theorem measureBody_above (d : Dev) (f : Fuse) {block : Byte} (h : 6 < block.toNat) (hall : block ≠ 0xFF) : measureBody d f block = none := by
  have h0 : block ≠ 0 := fun e => by rw [e] at h; simp at h
  have hi : (measureBlocks d f).length ≤ block.toNat - 1 := by
    have : (measureBlocks d f).length = 6 := rfl
    omega
  unfold measureBody
  rw [if_neg h0, if_neg hall, List.getElem?_eq_none hi]

/-- Settles O23: each request is a service, and `spdmServe` says what it meets. -/
theorem spdmResponses : Obligations.SpdmResponses := by
  unfold Obligations.SpdmResponses
  refine ⟨?version, ?capabilities, ?algorithms, ?digests, ?unsupported, ?certificate, ?block, ?challenge, ?count, ?all, ?signed, ?above,
    ?lifeCycle, ?busy⟩
  case version => exact fun s port h => Serves.replies rfl h rfl
  case capabilities => exact fun s port h => Serves.replies rfl h rfl
  case algorithms =>
    intro s port a b h
    refine Serves.replies rfl h ?_
    cases a <;> cases b <;> rfl
  case digests => exact fun s port h => Serves.replies rfl h rfl
  case unsupported => exact fun s port code h => Serves.replies rfl h rfl
  case certificate =>
    intro s port slot offset len h
    cases hchain : Config.chain slot with
    | none => exact Serves.replies rfl h (by rw [hchain]; rfl)
    | some c =>
      dsimp only
      split
      · next hend => exact Serves.replies rfl h (by simp only [hchain, if_pos hend]; rfl)
      · next hend =>
        obtain ⟨hlen, hobject, hrest⟩ := certificate_portion hend len.toNat
        exact ⟨_, hlen, hobject, hrest, Serves.replies rfl h (by simp only [hchain, if_neg hend]; rfl)⟩
  case block =>
    intro s port block nonce i h hi
    exact (serves_getMeasurements _ _ _ _ _).replies h (by rw [measureReply, measureBody_block _ _ hi]; rfl)
  case challenge =>
    intro s port slot nonce h
    cases hchain : Config.chain slot with
    | none => exact Serves.replies rfl h (by rw [hchain]; rfl)
    | some c => exact Serves.signs rfl h (by rw [hchain]; rfl)
  case count =>
    intro s port nonce h
    exact (serves_getMeasurements _ _ _ _ _).replies h rfl
  case all =>
    intro s port nonce h
    exact (serves_getMeasurements _ _ _ _ _).replies h (by rw [measureReply, measureBody_all]; rfl)
  case signed =>
    intro s port nonce h
    exact (serves_getMeasurements _ _ _ _ _).signs h (by rw [measureReply, measureBody_all]; rfl)
  case above =>
    intro s port block sign nonce h habove hall
    exact (serves_getMeasurements _ _ _ _ _).replies h (by rw [measureReply, measureBody_above _ _ habove hall]; rfl)
  case lifeCycle =>
    intro s port c hheld hlife hc
    obtain ⟨k, hk⟩ := serves_of_mem hc s
    unfold spdmReplies
    rw [hk, spdmServe_unsupported hheld hlife]
    rfl
  case busy =>
    intro s port c hheld hlife hkeeper hc
    obtain ⟨k, hk⟩ := serves_of_mem hc s
    unfold spdmReplies
    rw [hk, spdmServe_busy hheld hlife hkeeper]
    rfl

end Sys2Proof.Machine
end

section
/-! PROOFS. What a reset changes in functions and ports (02 R53, R60-R64, R75). -/

namespace Sys2Proof.Machine

/-! ### What the jobs of a reset function leave of the functions and the ports -/

/-- The part of the device that its hosts see: the functions and the ports. -/
def Dev.hostSide (d : Dev) : Tab FnSt × Tab PortSt := (d.fns, d.ports)

theorem hostSide_fns {a b : Dev} (h : a.hostSide = b.hostSide) : a.fns = b.fns := congrArg Prod.fst h
theorem hostSide_ports {a b : Dev} (h : a.hostSide = b.hostSide) : a.ports = b.ports := congrArg Prod.snd h

theorem emptyVerify_hostSide (d : Dev) (id : JobId) : (emptyVerify d id).hostSide = d.hostSide := rfl
theorem dropJob_hostSide (d : Dev) (id : JobId) : (dropJob d id).hostSide = d.hostSide := rfl
theorem settleDraws_hostSide (d : Dev) : (settleDraws d).hostSide = d.hostSide := rfl

theorem instUnseeded_hostSide (d : Dev) (i : Nat) : (instUnseeded d i).hostSide = d.hostSide := by
  rw [instUnseeded_only]; rfl

theorem undoChange_hostSide (d : Dev) (id : DWord) : (undoChange d id).hostSide = d.hostSide := by
  unfold undoChange
  dsimp only
  split
  · rfl
  · split
    · rfl
    · split <;> rfl

theorem resetJob_hostSide (d : Dev) (j : Job) : (resetJob d j).hostSide = d.hostSide := by
  unfold resetJob
  split
  · exact emptyVerify_hostSide _ _
  · rw [dropJob_hostSide, undoChange_hostSide, emptyVerify_hostSide]

theorem closeSession_hostSide (d : Dev) (p : Session → Bool) : (closeSession d p).hostSide = d.hostSide := by
  unfold closeSession
  split
  · split <;> rfl
  · rfl

/-- The jobs, the session and the random numbers of a reset function leave the functions and the ports as they are. -/
theorem resetWork_hostSide (d : Dev) (p : Session → Bool) (old : List Job) (i : Nat) :
    (settleDraws (instUnseeded (old.foldl resetJob (closeSession d p)) i)).hostSide = d.hostSide := by
  rw [settleDraws_hostSide, instUnseeded_hostSide, foldl_same Dev.hostSide _ resetJob_hostSide, closeSession_hostSide]

/-! ### A reset that lands (02 R61, R62) -/

/-- A function with its dump page cleared (17 R459). -/
def FnSt.undumped (x : FnSt) : FnSt := { x with dbase := 0, dcfg := 0, dlost := 0, dwritten := 0, dseq := 0, dumps := [] }

/-- The boundary at which a reset that lands now ends: that into n+2, or n+3 once the plan of n+1 is cut (02 R61). -/
def resetEnd (d : Dev) : BitVec 48 := d.tick + (if d.cutDone then 3 else 2)

/-- A READY or HALTED function on which a reset or a release lands. -/
def FnSt.landed (x : FnSt) (release : Bool) (at_ : BitVec 48) : FnSt :=
  { x.undumped with state := if release then 4 else 2, gen := x.gen + 1, readyAt := some at_, wiped := false }

/-- What a reset takes with it beside the function's dump page: the monitors and the mailboxes. -/
theorem resetSides_only (d : Dev) (f : Nat) (release : Bool) :
    resetSides d f release =
      { setFn d f (getFn d f).undumped with mons := (resetSides d f release).mons, mgt := (resetSides d f release).mgt } := by
  unfold resetSides mboxReset setMbox
  dsimp only
  split
  · split <;> rfl
  · rfl

theorem resetSides_hostSide (d : Dev) (f : Nat) (release : Bool) :
    (resetSides d f release).hostSide = (setFn d f (getFn d f).undumped).hostSide := by
  rw [resetSides_only]; rfl

theorem resetSides_end (d : Dev) (f : Nat) (release : Bool) : resetEnd (resetSides d f release) = resetEnd d := by
  rw [resetSides_only]; rfl

theorem resetSides_getFn (d : Dev) (f : Nat) (release : Bool) : getFn (resetSides d f release) f = (getFn d f).undumped :=
  (getFn_congr (hostSide_fns (resetSides_hostSide d f release)) f).trans (getFn_setFn _ _ _)

/-- One function may change, and no other, nor any port. -/
def Dev.besideFn (d e : Dev) (f : Nat) : Prop := e.ports = d.ports ∧ ∀ g, g ≠ f → getFn e g = getFn d g

theorem besideFn_refl (d : Dev) (f : Nat) : d.besideFn d f := ⟨rfl, fun _ _ => rfl⟩

theorem besideFn_trans {a b c : Dev} {f : Nat} (h : a.besideFn b f) (k : b.besideFn c f) : a.besideFn c f :=
  ⟨k.1.trans h.1, fun g hg => (k.2 g hg).trans (h.2 g hg)⟩

/-- A device whose host side is that of another with one function set. -/
theorem besideFn_of_setFn {d e : Dev} {f : Nat} {x : FnSt} (h : e.hostSide = (setFn d f x).hostSide) : d.besideFn e f :=
  ⟨(hostSide_ports h).trans rfl, fun g hg => (getFn_congr (hostSide_fns h) g).trans (getFn_setFn_other d x hg)⟩

/-- A reset that lands: its function enters RELEASING or RESETTING. -/
theorem landReset_lands {d : Dev} {f : Nat} (h0 : (getFn d f).state ≠ 0) (h2 : (getFn d f).state ≠ 2) (h4 : (getFn d f).state ≠ 4)
    (release : Bool) : (landReset d f release).hostSide =
      (setFn (resetSides d f release) f ((getFn d f).landed release (resetEnd d))).hostSide := by
  unfold landReset
  dsimp only
  rw [if_neg (by simpa using h0), if_neg (by simpa using ⟨h2, h4⟩), resetWork_hostSide, modFn_eq, resetSides_getFn,
    ← resetSides_end d f release]
  rfl

/-- A READY or HALTED function is neither ABSENT nor in a reset. -/
theorem live_state {x : BitVec 3} (h : x = 1 ∨ x = 3) : x ≠ 0 ∧ x ≠ 2 ∧ x ≠ 4 := by
  rcases h with rfl | rfl <;> decide

theorem landReset_getFn {d : Dev} {f : Nat} (h : (getFn d f).state = 1 ∨ (getFn d f).state = 3) (release : Bool) :
    getFn (landReset d f release) f = (getFn d f).landed release (resetEnd d) := by
  obtain ⟨h0, h2, h4⟩ := live_state h
  rw [getFn_congr (hostSide_fns (landReset_lands h0 h2 h4 release)), getFn_setFn]

/-- A reset changes its own function alone, whatever that function's state. -/
theorem landReset_beside (d : Dev) (f : Nat) (release : Bool) : d.besideFn (landReset d f release) f := by
  have hsides := besideFn_of_setFn (resetSides_hostSide d f release)
  by_cases h0 : (getFn d f).state = 0
  · rw [landReset, if_pos (by simp [h0])]
    exact besideFn_refl d f
  · by_cases h24 : (getFn d f).state = 2 ∨ (getFn d f).state = 4
    · rw [landReset, if_neg (by simpa using h0), if_pos (by simpa using h24)]
      exact hsides
    · obtain ⟨h2, h4⟩ := not_or.mp h24
      exact besideFn_trans hsides (besideFn_of_setFn (landReset_lands h0 h2 h4 release))

/-! ### Function-level reset by PCIe (02 R60) -/

/-- A port whose PF has lost its configuration space (02 R60, R75, log entry 40). -/
def PortSt.unconfigured (x : PortSt) : PortSt := { x with vfEnable := false, numVfs := 0, doe := { request := none } }

theorem configReset_vf {f : Nat} (h0 : f ≠ 0) (h128 : f ≠ 128) (d : Dev) :
    (configReset d f).hostSide = (setFn d f { getFn d f with bme := false, fnMask := false }).hostSide := by
  unfold configReset
  dsimp only
  rw [if_neg (by simp [h0, h128])]
  rfl

theorem configReset_pf (d : Dev) (p : Bool) :
    (configReset d (128 * portNo p)).hostSide =
      (setPort (setFn d (128 * portNo p) { getFn d (128 * portNo p) with bme := false, fnMask := false }) p
        (getPort d p).unconfigured).hostSide := by
  cases p <;> rfl

theorem portNo_inj : ∀ {p q : Bool}, portNo p = portNo q → p = q := by decide

/-- The number of a PF is that of its port's first function. -/
theorem pf_cases (f : Nat) : (∃ p, f = 128 * portNo p) ∨ (f ≠ 0 ∧ f ≠ 128) := by
  by_cases h0 : f = 0
  · exact .inl ⟨false, h0⟩
  · by_cases h128 : f = 128
    · exact .inl ⟨true, h128⟩
    · exact .inr ⟨h0, h128⟩

theorem configReset_fns (d : Dev) (f : Nat) : (configReset d f).fns = (setFn d f { getFn d f with bme := false, fnMask := false }).fns := by
  rcases pf_cases f with ⟨p, rfl⟩ | ⟨h0, h128⟩
  · exact (hostSide_fns (configReset_pf d p)).trans rfl
  · exact hostSide_fns (configReset_vf h0 h128 d)

/-- A PCIe reset of one function leaves every other. -/
theorem flrOne_other (d : Dev) {f g : Nat} (h : g ≠ f) : getFn (flrOne d f) g = getFn d g := by
  unfold flrOne
  rw [getFn_congr (configReset_fns _ f), getFn_setFn_other _ _ h, (landReset_beside d f false).2 g h]

/-- A PCIe reset of a READY or HALTED function. -/
theorem flrOne_getFn {d : Dev} {f : Nat} (h : (getFn d f).state = 1 ∨ (getFn d f).state = 3) :
    getFn (flrOne d f) f = { (getFn d f).landed false (resetEnd d) with bme := false, fnMask := false } := by
  unfold flrOne
  rw [getFn_congr (configReset_fns _ f), getFn_setFn, landReset_getFn h]

/-- A PCIe reset of a PF clears its port's configuration; that of a VF leaves the ports. -/
theorem flrOne_getPort (d : Dev) (f : Nat) (p : Bool) :
    getPort (flrOne d f) p = if f = 128 * portNo p then (getPort d p).unconfigured else getPort d p := by
  have hland : ∀ q, getPort (landReset d f false) q = getPort d q := getPort_congr (landReset_beside d f false).1
  unfold flrOne
  rcases pf_cases f with ⟨q, rfl⟩ | ⟨h0, h128⟩
  · rw [getPort_congr (hostSide_ports (configReset_pf _ q))]
    by_cases hqp : q = p
    · subst hqp; rw [getPort_setPort, if_pos rfl, hland]
    · rw [getPort_setPort_other _ _ (Ne.symm hqp), if_neg fun h => hqp (portNo_inj (by omega))]
      exact hland p
  · rw [getPort_congr (hostSide_ports (configReset_vf h0 h128 _)), if_neg (by cases p <;> simp [portNo, h0, h128])]
    exact hland p

/-! ### Resets of the functions of a port (02 R53) -/

theorem foldl_flrOne_other (l : List Nat) (d : Dev) {g : Nat} (h : g ∉ l) : getFn (l.foldl flrOne d) g = getFn d g := by
  induction l generalizing d with
  | nil => rfl
  | cons a r ih =>
    rw [List.foldl_cons, ih _ (List.not_mem_of_not_mem_cons h), flrOne_other d (List.ne_of_not_mem_cons h)]

/-- A READY or HALTED function among those that are reset is RESETTING in its next generation, with Bus Master Enable clear. -/
theorem foldl_flrOne_live {l : List Nat} (hl : l.Nodup) (d : Dev) {g : Nat} (h : g ∈ l) (hg : (getFn d g).state = 1 ∨ (getFn d g).state = 3) :
    (getFn (l.foldl flrOne d) g).state = 2 ∧ (getFn (l.foldl flrOne d) g).gen = (getFn d g).gen + 1 ∧
      (getFn (l.foldl flrOne d) g).bme = false := by
  induction l generalizing d with
  | nil => cases h
  | cons a r ih =>
    obtain ⟨har, hr⟩ := List.nodup_cons.mp hl
    rw [List.foldl_cons]
    by_cases hga : g = a
    · subst hga
      rw [foldl_flrOne_other r _ har, flrOne_getFn hg]
      exact ⟨rfl, rfl, rfl⟩
    · have hsame : getFn (flrOne d a) g = getFn d g := flrOne_other d hga
      rw [← hsame] at hg ⊢
      exact ih hr _ ((List.mem_cons.mp h).resolve_left hga) hg

theorem foldl_flrOne_getPort (l : List Nat) (d : Dev) (p : Bool) :
    getPort (l.foldl flrOne d) p = if 128 * portNo p ∈ l then (getPort d p).unconfigured else getPort d p := by
  induction l generalizing d with
  | nil => rfl
  | cons a r ih =>
    rw [List.foldl_cons, ih, flrOne_getPort]
    by_cases ha : 128 * portNo p = a
    · subst ha
      split <;> simp [PortSt.unconfigured]
    · simp [ha, Ne.symm ha]

/-- The functions of a port are its PF and its VFs. -/
theorem portFns_cons (p : Bool) : portFns p = 128 * portNo p :: (portFns p).drop 1 := by cases p <;> rfl

theorem nodup_portFns (p : Bool) : (portFns p).Nodup :=
  List.nodup_range.map fun a b h => by simpa using h

theorem mem_portFns {p : Bool} {g : Nat} : g ∈ portFns p ↔ g / 128 = portNo p := by
  unfold portFns
  simp only [List.mem_map, List.mem_range]
  constructor
  · rintro ⟨k, hk, rfl⟩; omega
  · intro h; exact ⟨g % 128, by omega, by omega⟩

/-- The VFs of a port. -/
theorem mem_portVfs {p : Bool} {g : Nat} : g ∈ (portFns p).drop 1 ↔ g / 128 = portNo p ∧ g % 128 ≠ 0 := by
  have hpf : 128 * portNo p ∉ (portFns p).drop 1 := by
    have := nodup_portFns p
    rw [portFns_cons] at this
    exact (List.nodup_cons.mp this).1
  have hmem : g ∈ portFns p ↔ g = 128 * portNo p ∨ g ∈ (portFns p).drop 1 := by
    conv_lhs => rw [portFns_cons]
    exact List.mem_cons
  rw [mem_portFns] at hmem
  constructor
  · intro h
    have hne : g ≠ 128 * portNo p := fun e => hpf (e ▸ h)
    have hg := hmem.mpr (.inr h)
    exact ⟨hg, by omega⟩
  · rintro ⟨hg, hv⟩
    exact (hmem.mp hg).resolve_left (by omega)

end Sys2Proof.Machine
end

section
/-! PROOFS. CREATE, RELEASE, RESET and FLR of a function (02 R55-R64). -/

namespace Sys2Proof.Machine

/-! ### FUNC_CMD of an initiator that may command the function (02 R52, R58) -/

theorem exec_funcCreate (ini : Ini) (fn : FnNo) (s : State) :
    exec (.funcCreate ini fn) s = .next (s.withDev (funcCommand s.dev ini fn.toNat 1)) := rfl
theorem exec_funcRelease (ini : Ini) (fn : FnNo) (s : State) :
    exec (.funcRelease ini fn) s = .next (s.withDev (funcCommand s.dev ini fn.toNat 2)) := rfl
theorem exec_funcReset (ini : Ini) (fn : FnNo) (s : State) :
    exec (.funcReset ini fn) s = .next (s.withDev (funcCommand s.dev ini fn.toNat 3)) := rfl

/-- The device while a function's command is under way. -/
def commanded (d : Dev) (f : Nat) : Dev := setFn d f { getFn d f with busy := true, result := 0 }

theorem commanded_state (d : Dev) (f : Nat) : (getFn (commanded d f) f).state = (getFn d f).state := by
  unfold commanded; rw [getFn_setFn]

theorem commanded_beside (d : Dev) (f : Nat) : d.besideFn (commanded d f) f := besideFn_of_setFn rfl

section
variable {d : Dev} {i : Ini} {f : Nat} (hmay : mayCommandFn i f = true) (hidle : (getFn d f).busy = false)
include hmay hidle

theorem funcCommand_taken : ¬ (!mayCommandFn i f || (getFn d f).busy) = true := by simp [hmay, hidle]

theorem funcCommand_create : funcCommand d i f 1 = createFn d f := by
  unfold funcCommand
  dsimp only
  rw [if_neg (funcCommand_taken hmay hidle), if_pos rfl]

theorem funcCommand_release (h : (getFn d f).state = 1 ∨ (getFn d f).state = 3) :
    funcCommand d i f 2 = landReset (commanded d f) f true := by
  unfold funcCommand
  dsimp only
  rw [if_neg (funcCommand_taken hmay hidle), if_neg (by decide), if_pos rfl, if_pos (by simpa using h)]
  rfl

theorem funcCommand_reset (h : (getFn d f).state = 1 ∨ (getFn d f).state = 3) :
    funcCommand d i f 3 = landReset (commanded d f) f false := by
  have h0 := (live_state h).1
  unfold funcCommand
  dsimp only
  rw [if_neg (funcCommand_taken hmay hidle), if_neg (by decide), if_neg (by decide), if_pos rfl, if_neg (by simpa using h0)]
  rfl

end

/-! ### Creation (02 R55, R57) -/

/-- What a function is created as: what its guarded FUNC_ALLOC and FUNC_KCQUOTA name. -/
def createdFn (d : Dev) (f : Nat) : FnSt :=
  { getFn d f with
    state := 1, result := 0, readyAt := none, wiped := false,
    priv := bit (guardVal d (regAddr (funcPage f) 0x040)) 31 && f != 0 && f != 128,
    vectors := bits (guardVal d (regAddr (funcPage f) 0x040)) 16 6,
    qpairs := bits (guardVal d (regAddr (funcPage f) 0x040)) 8 5,
    kcUnits := bits (guardVal d (regAddr (funcPage f) 0x044)) 0 9 }

/-- A creation whose checks pass. -/
theorem createFn_hostSide {d : Dev} {f : Nat} (h : createCheck d f = 0) : (createFn d f).hostSide = (setFn d f (createdFn d f)).hostSide := by
  unfold createFn
  rw [h]
  exact instUnseeded_hostSide _ _

/-! ### Release and reset (02 R56, R60-R64) -/

/-- A release or a reset that is commanded lands, and leaves every other function. -/
theorem landReset_commanded {d : Dev} {f : Nat} (h : (getFn d f).state = 1 ∨ (getFn d f).state = 3) (release : Bool) :
    getFn (landReset (commanded d f) f release) f =
        { (getFn d f).landed release (resetEnd d) with busy := true, result := 0 } ∧
      ∀ g, g ≠ f → getFn (landReset (commanded d f) f release) g = getFn d g := by
  refine ⟨?_, (besideFn_trans (commanded_beside d f) (landReset_beside _ f release)).2⟩
  rw [landReset_getFn (by rwa [commanded_state])]
  unfold commanded
  rw [getFn_setFn]
  rfl

/-- A PCIe FLR of a VF is that of the one function. -/
theorem exec_pcieFlr_vf {fn : FnNo} (h0 : fn.toNat ≠ 0) (h128 : fn.toNat ≠ 128) (s : State) :
    exec (.pcieFlr fn) s = .next (s.withDev (flrOne s.dev fn.toNat)) := by
  rw [exec, execPcieFlr, act, pcieFlr, if_neg (by simp [h0, h128])]
  rfl

/-- Settles O19: creation by its checks, the others by the reset that lands. -/
theorem functionCommands : Obligations.FunctionCommands := by
  unfold Obligations.FunctionCommands
  refine ⟨?create, ?release, ?reset, ?flr⟩
  case create =>
    intro s ini fn hmay hidle hcheck
    have hcreated := createFn_hostSide hcheck
    refine ⟨_, exec_funcCreate ini fn s, ⟨rfl, rfl, rfl⟩, ?_⟩
    rw [withDev_dev, funcCommand_create hmay hidle]
    refine ⟨?_, (besideFn_of_setFn hcreated).2⟩
    rw [getFn_congr (hostSide_fns hcreated), getFn_setFn]
    rfl
  case release =>
    intro s ini fn hmay hidle hlive
    refine ⟨_, exec_funcRelease ini fn s, ⟨rfl, rfl, rfl⟩, ?_⟩
    rw [withDev_dev, funcCommand_release hmay hidle hlive]
    exact landReset_commanded hlive true
  case reset =>
    intro s ini fn hmay hidle hlive
    refine ⟨_, exec_funcReset ini fn s, ⟨rfl, rfl, rfl⟩, ?_⟩
    rw [withDev_dev, funcCommand_reset hmay hidle hlive]
    exact landReset_commanded hlive false
  case flr =>
    intro s fn h0 h128 hlive
    exact ⟨_, exec_pcieFlr_vf h0 h128 s, ⟨rfl, rfl, rfl⟩, flrOne_getFn hlive, fun g => flrOne_other s.dev⟩

end Sys2Proof.Machine
end

section
/-! PROOFS. Link loss, PERST, FLR of a PF and VF Enable changes (02 R53, R60, R75). -/

namespace Sys2Proof.Machine

/-! ### A reset of every function of a port -/

theorem portNo_not_mem_other (p : Bool) : 128 * portNo (!p) ∉ portFns p := by
  rw [mem_portFns]; cases p <;> decide

/-- A PCIe reset of every function of a port: the port's configuration goes, its functions are reset, the other port and its functions stay. -/
theorem portFns_flr (d : Dev) (p : Bool) :
    getPort ((portFns p).foldl flrOne d) p = (getPort d p).unconfigured ∧
    getPort ((portFns p).foldl flrOne d) (!p) = getPort d (!p) ∧
    (∀ g, g / 128 = portNo p → g < 256 → (getFn d g).state = 1 ∨ (getFn d g).state = 3 →
      (getFn ((portFns p).foldl flrOne d) g).state = 2 ∧ (getFn ((portFns p).foldl flrOne d) g).gen = (getFn d g).gen + 1 ∧
        (getFn ((portFns p).foldl flrOne d) g).bme = false) ∧
    (∀ g, g / 128 ≠ portNo p → getFn ((portFns p).foldl flrOne d) g = getFn d g) := by
  refine ⟨?_, ?_, fun g hg _ hlive => foldl_flrOne_live (nodup_portFns p) d (mem_portFns.mpr hg) hlive,
    fun g hg => foldl_flrOne_other _ d fun h => hg (mem_portFns.mp h)⟩
  · rw [foldl_flrOne_getPort, if_pos (mem_portFns.mpr (by omega))]
  · rw [foldl_flrOne_getPort, if_neg (portNo_not_mem_other p)]

/-- A PCIe reset of the VFs of a port: they are reset, every other function stays. -/
theorem portVfs_flr (d : Dev) (p : Bool) :
    (∀ g, g / 128 = portNo p → g < 256 → g % 128 ≠ 0 → (getFn d g).state = 1 ∨ (getFn d g).state = 3 →
      (getFn (((portFns p).drop 1).foldl flrOne d) g).state = 2 ∧
        (getFn (((portFns p).drop 1).foldl flrOne d) g).gen = (getFn d g).gen + 1) ∧
    (∀ g, g / 128 ≠ portNo p ∨ g % 128 = 0 → getFn (((portFns p).drop 1).foldl flrOne d) g = getFn d g) := by
  constructor
  · intro g hg _ hv hlive
    have hnodup := (nodup_portFns p).sublist (List.drop_sublist 1 _)
    obtain ⟨hstate, hgen, -⟩ := foldl_flrOne_live hnodup d (mem_portVfs.mpr ⟨hg, hv⟩) hlive
    exact ⟨hstate, hgen⟩
  · intro g hg
    refine foldl_flrOne_other _ d fun h => ?_
    obtain ⟨hp, hv⟩ := mem_portVfs.mp h
    exact hg.elim (fun hne => hne hp) hv

/-- The ports stay. -/
theorem portVfs_getPort (d : Dev) (p : Bool) : getPort (((portFns p).drop 1).foldl flrOne d) p = getPort d p := by
  rw [foldl_flrOne_getPort, if_neg fun h => (mem_portVfs.mp h).2 (by omega)]

/-! ### Link loss and PERST (02 R53) -/

/-- A port whose link is lost. -/
def PortSt.unlinked (x : PortSt) : PortSt := { x with link := false, resets := satInc x.resets }

theorem portReset_hostSide (d : Dev) (p : Bool) :
    (portReset_ d p).hostSide =
      ((portFns p).foldl flrOne (dropStalled (setPort d p (getPort d p).unlinked) fun t => heldAt p t)).hostSide := by
  unfold portReset_ Dev.hostSide
  rw [raise_fns, raise_ports]
  rfl

/-- A port that loses its link: its configuration goes, its functions are reset, the other port and its functions stay. -/
theorem portReset_resets (d : Dev) (p : Bool) :
    getPort (portReset_ d p) p = (getPort d p).unlinked.unconfigured ∧
    getPort (portReset_ d p) (!p) = getPort d (!p) ∧
    (∀ g, g / 128 = portNo p → g < 256 → (getFn d g).state = 1 ∨ (getFn d g).state = 3 →
      (getFn (portReset_ d p) g).state = 2 ∧ (getFn (portReset_ d p) g).gen = (getFn d g).gen + 1 ∧ (getFn (portReset_ d p) g).bme = false) ∧
    (∀ g, g / 128 ≠ portNo p → getFn (portReset_ d p) g = getFn d g) := by
  have hreset := portReset_hostSide d p
  obtain ⟨hown, hother, hlive, hrest⟩ := portFns_flr (dropStalled (setPort d p (getPort d p).unlinked) fun t => heldAt p t) p
  have hport : ∀ q, getPort (dropStalled (setPort d p (getPort d p).unlinked) fun t => heldAt p t) q =
    getPort (setPort d p (getPort d p).unlinked) q := getPort_congr rfl
  simp only [getFn_congr (hostSide_fns hreset), getPort_congr (hostSide_ports hreset)]
  refine ⟨?_, ?_, hlive, hrest⟩
  · rw [hown, hport, getPort_setPort]
  · rw [hother, hport, getPort_setPort_other _ _ (by cases p <;> decide)]

theorem exec_portLinkDown (p : Bool) (s : State) : exec (.portLinkDown p) s = .next (s.withDev (portReset_ s.dev p)) := rfl

theorem exec_perstAssert (p : Bool) (s : State) :
    exec (.perstAssert p) s = .next (s.withDev (portReset_ (setPort s.dev p { getPort s.dev p with perst := false }) p)) := rfl

/-! ### FLR of a PF and VF Enable (02 R53, R60) -/

theorem exec_pcieFlr_pf {fn : FnNo} {p : Bool} (h : fn.toNat = 128 * portNo p) (s : State) :
    exec (.pcieFlr fn) s = .next (s.withDev ((portFns p).foldl flrOne s.dev)) := by
  rw [exec, execPcieFlr, act, h]
  cases p <;> rfl

/-- A VF Enable that is cleared, or another NumVFs, resets the VFs of the port. -/
theorem exec_vfEnableChange_resets {s : State} {p enable : Bool} {n : BitVec 7}
    (h : (getPort s.dev p).vfEnable = true ∧ enable = false ∨ (getPort s.dev p).numVfs ≠ n) :
    exec (.vfEnableChange p enable n) s = .next (s.withDev
      (((portFns p).drop 1).foldl flrOne (setPort s.dev p { getPort s.dev p with vfEnable := enable, numVfs := n }))) := by
  rw [exec, execVfEnableChange, act]
  dsimp only
  rw [if_pos (by simpa using h)]
  rfl

/-- Any other change of VF Enable resets none. -/
theorem exec_vfEnableChange_keeps {s : State} {p enable : Bool} {n : BitVec 7}
    (h : ¬((getPort s.dev p).vfEnable = true ∧ enable = false)) (hn : (getPort s.dev p).numVfs = n) :
    exec (.vfEnableChange p enable n) s =
      .next (s.withDev (setPort s.dev p { getPort s.dev p with vfEnable := enable, numVfs := n })) := by
  rw [exec, execVfEnableChange, act]
  dsimp only
  rw [if_neg (by simpa [hn] using h)]
  rfl

/-- Settles O20, by the functions that each event resets. -/
theorem portResets : Obligations.PortResets := by
  unfold Obligations.PortResets
  refine ⟨?linkDown, ?perst, ?flr, ?vfChange, ?vfSame⟩
  case linkDown =>
    intro s port
    refine ⟨_, exec_portLinkDown port s, ⟨rfl, rfl, rfl⟩, ?_⟩
    rw [withDev_dev]
    exact portReset_resets s.dev port
  case perst =>
    intro s port
    obtain ⟨hown, hother, hfns⟩ := portReset_resets (setPort s.dev port { getPort s.dev port with perst := false }) port
    rw [getPort_setPort] at hown
    rw [getPort_setPort_other _ _ (by cases port <;> decide)] at hother
    refine ⟨_, exec_perstAssert port s, ⟨rfl, rfl, rfl⟩, ?_⟩
    rw [withDev_dev]
    exact ⟨hown, hother, hfns⟩
  case flr =>
    intro s fn port hfn
    refine ⟨_, exec_pcieFlr_pf hfn s, ⟨rfl, rfl, rfl⟩, ?_⟩
    rw [withDev_dev]
    exact portFns_flr s.dev port
  case vfChange =>
    intro s port enable n h
    refine ⟨_, exec_vfEnableChange_resets h, ⟨rfl, rfl, rfl⟩, ?_⟩
    rw [withDev_dev]
    refine ⟨?_, portVfs_flr (setPort s.dev port { getPort s.dev port with vfEnable := enable, numVfs := n }) port⟩
    rw [portVfs_getPort, getPort_setPort]
  case vfSame =>
    intro s port enable n h hn
    exact exec_vfEnableChange_keeps h hn

end Sys2Proof.Machine
end

section
/-! PROOFS. The fetch of a job's entry, and the halt of its function (02 R65, 03 R82, R102, R103). -/

namespace Sys2Proof.Machine

/-! ### A function that halts (02 R65) -/

theorem fns_of_kept {a b : Dev} (h : a.kept = b.kept) : a.fns = b.fns := congrArg (fun k => k.1.2.2.2.1) h
theorem nextJob_of_kept {a b : Dev} (h : a.kept = b.kept) : a.nextJob = b.nextJob := congrArg (fun k => k.2.2.1) h

/-- A job that meets the halt of its function keeps what it keeps from its submission to its record. -/
theorem haltJob_kept (d : Dev) (j : Job) : (haltJob d j).kept = d.kept := by
  unfold haltJob
  split
  · rfl
  · dsimp only
    split
    · refine (modJob_kept _ _ _ ?_).trans (emptyVerify_kept d j.id)
      intro j; rfl
    · refine (modJob_kept _ _ _ ?_).trans (emptyVerify_kept d j.id)
      intro j; rfl

/-- The function with a code and a queue has halted, and has reported it; no job is staged, and no other function changes. -/
def HaltedWith (d e : Dev) (fn : FnNo) (q : QNo) (code : Byte) : Prop :=
  getFn e fn.toNat = { getFn d fn.toNat with state := 3, haltCode := code, haltQ := q } ∧ e.event (funcPage fn.toNat) 0 = true ∧
    e.nextJob = d.nextJob ∧ ∀ f, f ≠ fn.toNat → getFn e f = getFn d f

/-- A halt stays through what keeps the functions, the number of the next job and the event bits that are set. -/
theorem HaltedWith.after {d e t : Dev} {fn : FnNo} {q : QNo} {code : Byte} (h : HaltedWith d e fn q code) (hf : t.fns = e.fns)
    (hn : t.nextJob = e.nextJob) (hl : e.latched t) : HaltedWith d t fn q code := by
  obtain ⟨hown, hevent, hnext, hothers⟩ := h
  exact ⟨(getFn_congr hf _).trans hown, hl _ _ hevent, hn.trans hnext, fun f hne => (getFn_congr hf f).trans (hothers f hne)⟩

/-- A halt from a device with the same functions and number of the next job. -/
theorem HaltedWith.before {c d e : Dev} {fn : FnNo} {q : QNo} {code : Byte} (h : HaltedWith d e fn q code) (hf : d.fns = c.fns)
    (hn : d.nextJob = c.nextJob) : HaltedWith c e fn q code := by
  obtain ⟨hown, hevent, hnext, hothers⟩ := h
  refine ⟨?_, hevent, hnext.trans hn, fun f hne => (hothers f hne).trans (getFn_congr hf f)⟩
  rw [hown, getFn_congr hf]

/-- A function that is set HALTED and then reports it. -/
theorem raise_halts {d e : Dev} {fn : FnNo} {q : QNo} {code : Byte}
    (hf : e.fns = (setFn d fn.toNat { getFn d fn.toNat with state := 3, haltCode := code, haltQ := q }).fns) (hn : e.nextJob = d.nextJob) :
    HaltedWith d (raise e (funcPage fn.toNat) 0) fn q code := by
  refine ⟨?_, raise_event _ _ _ (by decide), (raise_nextJob _ _ _).trans hn, fun f hne => ?_⟩
  · rw [raise_getFn, getFn_congr hf, getFn_setFn]
  · rw [raise_getFn, getFn_congr hf, getFn_setFn_other _ _ hne]

/-- A malformation halts a READY function. -/
theorem haltFunction_halts {d : Dev} {fn : FnNo} (h : fnReady d fn.toNat = true) (q : QNo) (code : Byte) (pos : Word) :
    HaltedWith d (haltFunction d fn q code pos) fn q code := by
  have hjobs : ∀ (l : List Job) (e : Dev), (settleDraws (l.foldl haltJob e)).kept = e.kept := fun l e =>
    (settleDraws_kept _).trans (foldl_kept _ haltJob_kept l e)
  unfold haltFunction
  dsimp only
  rw [if_neg (by rw [h]; decide)]
  refine (raise_halts ?_ ?_).after (evLog_fns _ _ _ _ _) (evLog_nextJob _ _ _ _ _) (evLog_latched _ _ _ _ _)
  · rw [apply_ite Dev.fns, modQ_eq, setQ_fns, ite_self]
    exact fns_of_kept (hjobs _ _)
  · rw [apply_ite Dev.nextJob, modQ_eq, setQ_nextJob, ite_self]
    exact (nextJob_of_kept (hjobs _ _)).trans rfl

theorem emit_latched (d : Dev) (e : Egress) : d.latched (emit d e) := latched_of_pages rfl

/-- The device half of the index block, written by a function that may issue requests. -/
theorem writeIndex_master {d : Dev} {f : Nat} (h : (getFn d f).bme = true) (q : Nat) :
    (writeIndex d f q).fns = d.fns ∧ (writeIndex d f q).nextJob = d.nextJob ∧ d.latched (writeIndex d f q) := by
  unfold writeIndex
  dsimp only
  split
  · exact ⟨rfl, rfl, Dev.latched_refl d⟩
  · rw [h]
    exact ⟨pmcFn_fns _ _ _ _, pmcFn_nextJob _ _ _ _, Dev.latched_trans (emit_latched _ _) (pmcFn_latched _ _ _ _)⟩

/-! ### What a queue shows, and whether it stays open -/

/-- A queue that shows what stops it is open as before. -/
theorem queueOpen_showStop (d : Dev) (fn : FnNo) (q : QNo) (x : FetchStop) :
    queueOpen (showStop d fn.toNat q.toNat x) fn q = queueOpen d fn q := by
  unfold queueOpen showStop
  dsimp only
  rw [modQ_eq, getQ_setQ]
  rfl

theorem queueOpen_congr {d e : Dev} (hf : d.fns = e.fns) (hq : d.queues = e.queues) (fn : FnNo) (q : QNo) :
    queueOpen d fn q = queueOpen e fn q := by
  unfold queueOpen fnReady
  rw [getFn_congr hf, getQ_congr hq]

theorem fnReady_of_queueOpen {d : Dev} {fn : FnNo} {q : QNo} (h : queueOpen d fn q = true) : fnReady d fn.toNat = true := by
  unfold queueOpen at h
  simp only [Bool.and_eq_true] at h
  obtain ⟨⟨⟨hready, -⟩, -⟩, -⟩ := h
  exact hready

/-! ### The fetch of one entry (03 R82, R102) -/

theorem fetchJob_closed {d : Dev} {e : Entry} (h : queueOpen d e.fn e.q = false) (fuse : Fuse) (k : JobKind) : fetchJob d fuse k e = d := by
  unfold fetchJob
  exact if_pos (by rw [h]; rfl)

/-- Without window, completion or staging room no entry is taken. -/
theorem fetchJob_stopped {d : Dev} {e : Entry} {x : FetchStop} (hopen : queueOpen d e.fn e.q = true)
    (hx : fetchStop d e.fn.toNat e.q.toNat = x) (hstop : x.win || x.cq || x.stage) (fuse : Fuse) (k : JobKind) :
    fetchJob d fuse k e = showStop d e.fn.toNat e.q.toNat x := by
  unfold fetchJob
  dsimp only
  rw [if_neg (by simp [hopen]), hx, if_pos hstop]

/-- A function without Bus Master Enable halts at its fetch. -/
theorem fetchJob_noMaster {d : Dev} {e : Entry} (hopen : queueOpen d e.fn e.q = true)
    (hfree : fetchStop d e.fn.toNat e.q.toNat = { win := false, cq := false, stage := false }) (hbme : (getFn d e.fn.toNat).bme = false)
    (fuse : Fuse) (k : JobKind) :
    fetchJob d fuse k e = haltFunction d e.fn e.q 0x0E (getQ d e.fn.toNat e.q.toNat).sqCons := by
  unfold fetchJob
  dsimp only
  rw [if_neg (by simp [hopen]), hfree, if_neg (by decide), hbme]
  rfl

/-- The device as it takes an entry: what stops its queue is cleared, and the entry is counted. -/
def fetching (d : Dev) (f q : Nat) : Dev := pmcFn (showStop d f q { win := false, cq := false, stage := false }) 0x21 f 1

theorem fetching_fns (d : Dev) (f q : Nat) : (fetching d f q).fns = d.fns := pmcFn_fns _ _ _ _
theorem fetching_nextJob (d : Dev) (f q : Nat) : (fetching d f q).nextJob = d.nextJob := pmcFn_nextJob _ _ _ _

theorem queueOpen_fetching (d : Dev) (fn : FnNo) (q : QNo) : queueOpen (fetching d fn.toNat q.toNat) fn q = queueOpen d fn q :=
  (queueOpen_congr (pmcFn_fns _ _ _ _) (pmcFn_queues _ _ _ _) fn q).trans (queueOpen_showStop d fn q _)

theorem fetchJob_taken {d : Dev} {e : Entry} (hopen : queueOpen d e.fn e.q = true)
    (hfree : fetchStop d e.fn.toNat e.q.toNat = { win := false, cq := false, stage := false }) (hbme : (getFn d e.fn.toNat).bme = true)
    (fuse : Fuse) (k : JobKind) :
    fetchJob d fuse k e = writeIndex (submit (fetching d e.fn.toNat e.q.toNat) fuse k e) e.fn.toNat e.q.toNat := by
  unfold fetchJob
  dsimp only
  rw [if_neg (by simp [hopen]), hfree, if_neg (by decide), hbme]
  rfl

theorem submit_malformed {d : Dev} {k : JobKind} {e : Entry} {m : Byte} (hopen : queueOpen d e.fn e.q = true)
    (hm : entryMalformed (jobInfo k) e = some m) (fuse : Fuse) :
    submit d fuse k e = haltFunction d e.fn e.q m (getQ d e.fn.toNat e.q.toNat).sqCons := by
  unfold submit
  rw [if_neg (by simp [hopen])]
  dsimp only
  rw [hm]

/-- A malformed entry that is taken halts its function. -/
theorem fetchJob_malformed {d : Dev} {k : JobKind} {e : Entry} {m : Byte} (hopen : queueOpen d e.fn e.q = true)
    (hm : entryMalformed (jobInfo k) e = some m) (hbme : (getFn d e.fn.toNat).bme = true)
    (hfree : fetchStop d e.fn.toNat e.q.toNat = { win := false, cq := false, stage := false }) (fuse : Fuse) :
    HaltedWith d (fetchJob d fuse k e) e.fn e.q m := by
  have hopen' := (queueOpen_fetching d e.fn e.q).trans hopen
  have hhalt := (haltFunction_halts (fnReady_of_queueOpen hopen') e.q m
    (getQ (fetching d e.fn.toNat e.q.toNat) e.fn.toNat e.q.toNat).sqCons).before (fetching_fns _ _ _) (fetching_nextJob _ _ _)
  rw [fetchJob_taken hopen hfree hbme, submit_malformed hopen' hm]
  have hown := hhalt.1
  obtain ⟨hf, hn, hl⟩ := writeIndex_master (by rw [hown]; exact hbme) e.q.toNat
  exact hhalt.after hf hn hl

/-! ### The command of a job -/

/-- A job's command: the fetch of its entry, after which the staging pages are settled (log entry 69). -/
theorem exec_fetches {c : Instr} {k : JobKind} {e : Entry} (hc : jobRow c = some (k, e)) (s : State) :
    ∃ t, exec c s = .next t ∧ s.besideStage t ∧ ∃ stage,
      t.dev = { fetchJob s.dev s.fuse k e with pot := { (fetchJob s.dev s.fuse k e).pot with stage := stage } } := by
  have hsettle := stageSettle_spec { s with dev := fetchJob s.dev s.fuse k e }
  exact ⟨_, exec_of_jobRow s hc, hsettle.1, _, hsettle.2.1⟩

/-- Beside the record of the staging pages, a job's command does to the device what the fetch does. -/
theorem completes_fetch {c : Instr} {k : JobKind} {e : Entry} {s : State} {d : Dev} (hc : jobRow c = some (k, e))
    (hd : fetchJob s.dev s.fuse k e = d) : Completes c s fun t => s.besideStage t ∧ t.dev.unstaged = d.unstaged := by
  obtain ⟨t, ht, hbeside, stage, hdev⟩ := exec_fetches hc s
  refine ⟨t, ht, hbeside, ?_⟩
  rw [hdev, hd]
  rfl

/-- A job's command whose fetch halts the function. -/
theorem completes_halted {c : Instr} {k : JobKind} {e : Entry} {s : State} {m : Byte} (hc : jobRow c = some (k, e))
    (h : HaltedWith s.dev (fetchJob s.dev s.fuse k e) e.fn e.q m) :
    Completes c s fun t => s.besideStage t ∧ HaltedWith s.dev t.dev e.fn e.q m := by
  obtain ⟨t, ht, hbeside, stage, hdev⟩ := exec_fetches hc s
  refine ⟨t, ht, hbeside, ?_⟩
  rw [hdev]
  exact h.after rfl rfl (latched_of_pages rfl)

/-- Settles O27: a malformed entry by `fetchJob_malformed`, the other clauses by what stops the fetch. -/
theorem malformedEntry : Obligations.MalformedEntry := by
  unfold Obligations.MalformedEntry
  refine ⟨?malformed, ?noMaster, ?stopped, ?closed⟩
  case malformed =>
    intro s c k e m hc hopen hm hbme hfree
    obtain ⟨t, ht, hbeside, hown, hevent, hnext, hothers⟩ := completes_halted hc (fetchJob_malformed hopen hm hbme hfree s.fuse)
    exact ⟨t, ht, hbeside, by rw [hown], by rw [hown], by rw [hown], hevent, hnext, hothers⟩
  case noMaster =>
    intro s c k e hc hopen hbme hfree
    have hhalt := haltFunction_halts (fnReady_of_queueOpen hopen) e.q 0x0E (getQ s.dev e.fn.toNat e.q.toNat).sqCons
    rw [← fetchJob_noMaster hopen hfree hbme s.fuse k] at hhalt
    obtain ⟨t, ht, hbeside, hown, hevent, hnext, -⟩ := completes_halted hc hhalt
    exact ⟨t, ht, hbeside, by rw [hown], by rw [hown], by rw [hown], hevent, hnext⟩
  case stopped =>
    intro s c k e x hc hopen hx hstop
    exact completes_fetch hc (fetchJob_stopped hopen hx hstop _ _)
  case closed =>
    intro s c k e hc hclosed
    exact completes_fetch hc (fetchJob_closed hclosed _ _)

end Sys2Proof.Machine
end

section
/-! PROOFS. What fetching changes of its queue, and the job that a staged entry becomes (03 R82-R84, R100, 04 R111). -/

namespace Sys2Proof.Machine

/-! ### One queue, and everything beside it -/

theorem tabPut_tabPut {α : Type} (t : Tab α) (k : Nat) (v w : α) : tabPut (tabPut t k v) k w = tabPut t k w := by
  induction t with
  | nil => simp [tabPut]
  | cons p r ih =>
    obtain ⟨j, x⟩ := p
    simp only [tabPut]
    split
    · simp [tabPut]
    · split
      · simp [tabPut]
      · next hlt hne => simp [tabPut, hlt, hne, ih]

theorem setQ_setQ (d : Dev) (f q : Nat) (x y : QueueSt) : setQ (setQ d f q x) f q y = setQ d f q y := by
  unfold setQ; rw [tabPut_tabPut]

theorem mem_emit (d : Dev) (e : Egress) : e ∈ (emit d e).egress := List.mem_append_right _ (List.mem_singleton.mpr rfl)

theorem quiet_setQ (d : Dev) (f q : Nat) (x : QueueSt) : (setQ d f q x).quiet = setQ d.quiet f q x := rfl

/-- A queue stays open while its enable bits stay. -/
theorem queueOpen_setQ (d : Dev) (fn : FnNo) (q : QNo) {x : QueueSt} (hen : x.en = (getQ d fn.toNat q.toNat).en)
    (hdis : x.disabling = (getQ d fn.toNat q.toNat).disabling) : queueOpen (setQ d fn.toNat q.toNat x) fn q = queueOpen d fn q := by
  unfold queueOpen
  dsimp only
  rw [getQ_setQ, hen, hdis]
  rfl

/-- What the staging of a job keeps, with one queue put aside. -/
def Dev.keptBut (d : Dev) (f q : Nat) := (setQ d f q queueReset).kept

theorem keptBut_of_kept {a b : Dev} (h : a.kept = b.kept) (f q : Nat) : a.keptBut f q = b.keptBut f q :=
  congrArg (fun k => (k.1, k.2.1, k.2.2.1, tabPut k.2.2.2 (qKey f q) queueReset)) h

@[simp] theorem setQ_keptBut (d : Dev) (f q : Nat) (x : QueueSt) : (setQ d f q x).keptBut f q = d.keptBut f q := by
  unfold Dev.keptBut; rw [setQ_setQ]

@[simp] theorem pmcFn_keptBut (d : Dev) (c g n f q : Nat) : (pmcFn d c g n).keptBut f q = d.keptBut f q :=
  keptBut_of_kept (pmcFn_kept _ _ _ _) f q

theorem besideJobs_of_kept {a b : Dev} (h : a.kept = b.kept) : a.besideJobs = b.besideJobs := congrArg Prod.fst h
theorem stems_of_kept {a b : Dev} (h : a.kept = b.kept) : a.jobs.map Job.stem = b.jobs.map Job.stem := congrArg (fun k => k.2.1) h
theorem queues_of_kept {a b : Dev} (h : a.kept = b.kept) : a.queues = b.queues := congrArg (fun k => k.2.2.2) h
theorem tick_of_besideJobs {a b : Dev} (h : a.besideJobs = b.besideJobs) : a.tick = b.tick := congrArg Prod.fst h
theorem fns_of_besideJobs {a b : Dev} (h : a.besideJobs = b.besideJobs) : a.fns = b.fns := congrArg (fun k => k.2.2.2.1) h

section
variable {a b : Dev} {f q : Nat} (h : a.keptBut f q = b.keptBut f q)
include h

theorem kept_of_keptBut : (setQ a f q queueReset).kept = (setQ b f q queueReset).kept := h
theorem besideJobs_of_keptBut : a.besideJobs = b.besideJobs := (besideJobs_of_kept (kept_of_keptBut h) :)
theorem stems_of_keptBut : a.jobs.map Job.stem = b.jobs.map Job.stem := (stems_of_kept (kept_of_keptBut h) :)
theorem nextJob_of_keptBut : a.nextJob = b.nextJob := (nextJob_of_kept (kept_of_keptBut h) :)

theorem getQ_of_keptBut {g p : Nat} (hne : qKey g p ≠ qKey f q) : getQ a g p = getQ b g p := by
  rw [← getQ_setQ_other a queueReset hne, ← getQ_setQ_other b queueReset hne, getQ_congr (queues_of_kept (kept_of_keptBut h))]

end

/-! ### The job that an entry becomes (03 R82-R84, 04 R111) -/

/-- From `d` to `e` one entry is staged: it is a job behind the others, with the next number, and its queue passes it by `n` units. -/
structure Staged (d e : Dev) (k : JobKind) (en : Entry) (n : Nat) : Prop where
  beside : e.besideJobs = d.besideJobs
  next : e.nextJob = d.nextJob + 1
  stems : e.jobs.map Job.stem = d.jobs.map Job.stem ++ [(blankJob d k en n (getQ d en.fn.toNat en.q.toNat).sqCons).stem]
  passed : (getQ e en.fn.toNat en.q.toNat).sqCons = (getQ d en.fn.toNat en.q.toNat).sqCons + BitVec.ofNat 32 n
  others : ∀ f q, qKey f q ≠ qKey en.fn.toNat en.q.toNat → getQ e f q = getQ d f q

theorem Staged.fns_eq {d e : Dev} {k : JobKind} {en : Entry} {n : Nat} (h : Staged d e k en n) : e.fns = d.fns := fns_of_besideJobs h.beside

/-- What leaves the queue's place and everything beside the queue leaves the job staged. -/
theorem Staged.after {d e t : Dev} {k : JobKind} {en : Entry} {n : Nat} (h : Staged d e k en n)
    (hkept : t.keptBut en.fn.toNat en.q.toNat = e.keptBut en.fn.toNat en.q.toNat)
    (hcons : (getQ t en.fn.toNat en.q.toNat).sqCons = (getQ e en.fn.toNat en.q.toNat).sqCons) : Staged d t k en n where
  beside := (besideJobs_of_keptBut hkept).trans h.beside
  next := (nextJob_of_keptBut hkept).trans h.next
  stems := (stems_of_keptBut hkept).trans h.stems
  passed := hcons.trans h.passed
  others f q hne := (getQ_of_keptBut hkept hne).trans (h.others f q hne)

/-- The settling of the staging pages leaves the job staged (log entry 69). -/
theorem Staged.after_settle {d e t : Dev} {k : JobKind} {en : Entry} {n : Nat} (h : Staged d e k en n) {pages : Tab StagePage}
    (ht : t = { e with pot := { e.pot with stage := pages } }) : Staged d t k en n := by
  rw [ht]; exact h.after rfl rfl

/-- The stem of a new job: its number, kind and entry, its position in the ring, its function's generation, and the tick. -/
theorem blankJob_stem (d : Dev) (k : JobKind) (e : Entry) (n : Nat) (w : Word) :
    (blankJob d k e n w).stem = (d.nextJob, k, e, w, (getFn d e.fn.toNat).gen, d.tick) := rfl

/-- Staging an entry whose queue has passed it. -/
theorem stageEntry_staged {d e : Dev} {k : JobKind} {en : Entry} {n : Nat}
    (hkept : e.keptBut en.fn.toNat en.q.toNat = d.keptBut en.fn.toNat en.q.toNat)
    (hcons : (getQ e en.fn.toNat en.q.toNat).sqCons = (getQ d en.fn.toNat en.q.toNat).sqCons + BitVec.ofNat 32 n) (fuse : Fuse) :
    Staged d (stageEntry e fuse k en n (getQ d en.fn.toNat en.q.toNat).sqCons) k en n := by
  have hstage := stageEntry_kept e fuse k en n (getQ d en.fn.toNat en.q.toNat).sqCons
  have hbeside := besideJobs_of_keptBut hkept
  have hnext := nextJob_of_keptBut hkept
  have hqueues := getQ_congr (queues_of_kept hstage)
  refine ⟨(besideJobs_of_kept hstage).trans hbeside, (nextJob_of_kept hstage).trans (congrArg (· + 1) hnext), ?_, ?_, ?_⟩
  · rw [stems_of_kept hstage, List.map_append, List.map_singleton, stems_of_keptBut hkept, blankJob_stem, blankJob_stem, hnext,
      getFn_congr (fns_of_besideJobs hbeside), tick_of_besideJobs hbeside]
  · rw [hqueues]; exact hcons
  · intro f q hne
    rw [hqueues]; exact getQ_of_keptBut hkept hne

/-! ### Fetching (03 R82, R99) -/

theorem emitReads_eq (d : Dev) (fn : FnNo) (read : DWord → Nat → Egress) (a : DWord) (len : Nat) :
    emitReads d fn read a len = { d with egress := d.egress ++ (dmaPieces d fn false a len).map fun x => read x.1 x.2 } := by
  have hfold : ∀ (l : List (DWord × Nat)) (d : Dev), l.foldl (fun d x => emit d (read x.1 x.2)) d =
      { d with egress := d.egress ++ l.map fun x => read x.1 x.2 } := by
    intro l
    induction l with
    | nil => intro d; simp
    | cons x r ih => intro d; rw [List.foldl_cons, ih]; simp [emit]
  exact hfold _ d

/-- A read of some bytes begins with a piece at its address. -/
theorem dmaPieces_first (d : Dev) (fn : FnNo) (a : DWord) {len : Nat} (h : 0 < len) :
    ∃ m more, 0 < m ∧ dmaPieces d fn false a len = (a, m) :: more := by
  obtain ⟨n, rfl⟩ : ∃ n, len = n + 1 := ⟨len - 1, by omega⟩
  have hmost : 0 < 128 * 2 ^ min 5 (getPort d (fn.getLsbD 7)).cfg.readReq.toNat := by positivity
  unfold dmaPieces splitDma
  simp only [Bool.false_eq_true, if_false, Nat.add_eq_zero_iff, one_ne_zero, and_false, List.map_cons, BitVec.ofNat_toNat, BitVec.setWidth_eq]
  exact ⟨_, _, by omega, rfl⟩

/-- What fetching changes of its queue: whether an entry read is out, and what the queue shows. -/
def QueueSt.fetched (x y : QueueSt) : Prop :=
  y = { x with entryOut := y.entryOut, cqwait := y.cqwait, winwait := y.winwait, stwait := y.stwait, cqSaw := y.cqSaw, winSaw := y.winSaw }

/-- A function that may issue requests fetches within its queue and its port. -/
theorem fetchMore_fetches {d : Dev} {f : Nat} (hbme : (getFn d f).bme = true) (q : Nat) :
    ∃ x out, fetchMore d f q = { setQ d f q x with egress := out } ∧ (getQ d f q).fetched x := by
  have hshown : ∀ stop, (getFn (showStop d f q stop) f).bme = true := fun _ => hbme
  unfold fetchMore
  dsimp only
  split
  · exact ⟨_, _, rfl, rfl⟩
  · split
    · exact ⟨_, _, rfl, rfl⟩
    · rw [hshown, if_neg (by decide)]
      unfold showStop
      simp only [modQ_eq, getQ_setQ, setQ_setQ, emitReads_eq]
      split <;> exact ⟨_, _, rfl, rfl⟩

end Sys2Proof.Machine
end

section
/-! PROOFS. The submission of a well-formed entry (03 R82-R84, 04 R111). -/

namespace Sys2Proof.Machine

/-- The device half of the index block, written by a function that may issue requests, keeps what the staging of a job keeps. -/
theorem writeIndex_kept {d : Dev} {f : Nat} (h : (getFn d f).bme = true) (q : Nat) : (writeIndex d f q).kept = d.kept := by
  unfold writeIndex
  dsimp only
  split
  · rfl
  · rw [h, if_neg (by decide), pmcFn_kept, emit_kept]

theorem Staged.after_writeIndex {d e : Dev} {k : JobKind} {en : Entry} {n : Nat} (h : Staged d e k en n) (hbme : (getFn d en.fn.toNat).bme = true) :
    Staged d (writeIndex e en.fn.toNat en.q.toNat) k en n := by
  have hkept := writeIndex_kept (d := e) (by rwa [getFn_congr h.fns_eq]) en.q.toNat
  exact h.after (keptBut_of_kept hkept _ _) (by rw [getQ_congr (queues_of_kept hkept)])

theorem fetching_keptBut (d : Dev) (f q : Nat) : (fetching d f q).keptBut f q = d.keptBut f q := by
  unfold fetching showStop; rw [pmcFn_keptBut, modQ_eq, setQ_keptBut]

theorem fetching_sqCons (d : Dev) (f q : Nat) : (getQ (fetching d f q) f q).sqCons = (getQ d f q).sqCons := by
  unfold fetching showStop; rw [pmcFn_getQ, modQ_eq, getQ_setQ]

/-- A queue with an entry taken: sq_cons passes it by its units, and sq_prod with it where no other entry is there. -/
def QueueSt.taken (x : QueueSt) (n : Nat) : QueueSt :=
  let next := x.sqCons + BitVec.ofNat 32 n
  { x with sqCons := next, sqProd := if x.sqProd = x.sqCons then next else x.sqProd }

theorem submit_wellFormed {d : Dev} {k : JobKind} {e : Entry} (hopen : queueOpen d e.fn e.q = true)
    (hm : entryMalformed (jobInfo k) e = none) (fuse : Fuse) :
    submit d fuse k e = stageEntry (setQ d e.fn.toNat e.q.toNat ((getQ d e.fn.toNat e.q.toNat).taken (entryUnits e))) fuse k e (entryUnits e)
      (getQ d e.fn.toNat e.q.toNat).sqCons := by
  unfold submit
  rw [if_neg (by simp [hopen])]
  dsimp only
  rw [hm]
  rfl

/-- A well-formed entry that is taken is staged. -/
theorem fetchJob_staged {d : Dev} {k : JobKind} {e : Entry} (hopen : queueOpen d e.fn e.q = true) (hm : entryMalformed (jobInfo k) e = none)
    (hbme : (getFn d e.fn.toNat).bme = true)
    (hfree : fetchStop d e.fn.toNat e.q.toNat = { win := false, cq := false, stage := false }) (fuse : Fuse) :
    Staged d (fetchJob d fuse k e) k e (entryUnits e) := by
  have hopen' := (queueOpen_fetching d e.fn e.q).trans hopen
  have hcons := fetching_sqCons d e.fn.toNat e.q.toNat
  rw [fetchJob_taken hopen hfree hbme, submit_wellFormed hopen' hm, hcons]
  refine (stageEntry_staged ?_ ?_ fuse).after_writeIndex hbme
  · rw [setQ_keptBut, fetching_keptBut]
  · rw [getQ_setQ, ← hcons]; rfl

/-- Settles O26, by `fetchJob_staged`. -/
theorem jobSubmission : Obligations.JobSubmission := by
  unfold Obligations.JobSubmission
  intro s c k e hc hopen hm hbme hfree
  obtain ⟨t, ht, hbeside, stage, hdev⟩ := exec_fetches hc s
  have hstaged : Staged s.dev t.dev k e (entryUnits e) := (fetchJob_staged hopen hm hbme hfree s.fuse).after_settle hdev
  exact ⟨t, ht, hbeside, hstaged.beside, hstaged.next, ⟨_, rfl, rfl, rfl, rfl, rfl, rfl, hstaged.stems⟩, hstaged.passed, hstaged.others⟩

end Sys2Proof.Machine
end

section
/-! PROOFS. The returns of entry and operand reads, and the reads that time out (03 R82, R83, R99-R102). -/

namespace Sys2Proof.Machine

/-! ### An entry returns (03 R83, R102) -/

/-- A command whose staging pages are settled: beside the record of those pages it does to the device what `f` does (log entry 69). -/
theorem actStaged_next (s : State) (f : Dev → Dev) :
    ∃ t, actStaged s f = .next t ∧ s.besideStage t ∧ ∃ stage, t.dev = { f s.dev with pot := { (f s.dev).pot with stage := stage } } := by
  have hsettle := stageSettle_spec { s with dev := f s.dev }
  exact ⟨_, rfl, hsettle.1, _, hsettle.2.1⟩

/-- The entry that is read names its function and queue. -/
theorem bytesMalformed_entry {fn : FnNo} {q : QNo} {avail : Nat} {bs : List Byte} {i : JobInfo} {e : Entry} {n : Nat}
    (h : bytesMalformed fn q avail bs = .inr (i, e, n)) : e.fn = fn ∧ e.q = q := by
  have hnames : (parseEntry fn q (bs.take (32 * leAt bs 0 1))).fn = fn ∧ (parseEntry fn q (bs.take (32 * leAt bs 0 1))).q = q := ⟨rfl, rfl⟩
  unfold bytesMalformed at h
  dsimp only at h
  generalize parseEntry fn q (bs.take (32 * leAt bs 0 1)) = read at h hnames
  repeat' split at h
  all_goals cases h
  exact hnames

/-- The device with an entry of `n` units and `len` bytes read: its queue has passed it, and it is counted. -/
def entryRead (d : Dev) (f q n len : Nat) : Dev :=
  let d := pmcFn (pmcFn (setQ d f q { getQ d f q with entryOut := false }) 0x26 f len) 0x21 f 1
  modQ d f q fun x => { x with sqCons := x.sqCons + BitVec.ofNat 32 n }

theorem entryRead_keptBut (d : Dev) (f q n len : Nat) : (entryRead d f q n len).keptBut f q = d.keptBut f q := by
  unfold entryRead; simp only [modQ_eq, setQ_keptBut, pmcFn_keptBut]

theorem entryRead_sqCons (d : Dev) (f q n len : Nat) : (getQ (entryRead d f q n len) f q).sqCons = (getQ d f q).sqCons + BitVec.ofNat 32 n := by
  unfold entryRead; simp only [modQ_eq, getQ_setQ, pmcFn_getQ]

/-- After a burst's last entry the index block is written. -/
def burstEnd (d : Dev) (f q : Nat) : Dev := if (getQ d f q).entryOut then d else writeIndex d f q

/-- A well-formed entry that returns to an open queue is staged, and fetching goes on. -/
theorem entryReturn_wellFormed {d : Dev} {fn : FnNo} {q : QNo} {x : QueueSt} {bs : List Byte} {i : JobInfo} {e : Entry} {n : Nat}
    (hx : getQ d fn.toNat q.toNat = x) (hopen : queueOpen d fn q = true) (hout : x.entryOut = true)
    (hbs : bytesMalformed fn q (x.sqProd - x.sqCons).toNat bs = .inr (i, e, n)) (fuse : Fuse) :
    entryReturn d fuse fn.toNat q.toNat (some bs) = burstEnd (fetchMore (stageEntry (entryRead d fn.toNat q.toNat n bs.length) fuse i.kind e n
      x.sqCons) fn.toNat q.toNat) fn.toNat q.toNat := by
  subst hx
  have hopen' := (queueOpen_setQ d fn q (x := { getQ d fn.toNat q.toNat with entryOut := false }) rfl rfl).trans hopen
  unfold entryReturn
  simp only [BitVec.ofNat_toNat, BitVec.setWidth_eq, modQ_eq, hopen', hbs]
  rw [if_neg (by simp [hout]), if_neg (by decide)]
  rfl

theorem Staged.after_fetchMore {d e : Dev} {k : JobKind} {en : Entry} {n : Nat} (h : Staged d e k en n)
    (hbme : (getFn d en.fn.toNat).bme = true) : Staged d (fetchMore e en.fn.toNat en.q.toNat) k en n := by
  obtain ⟨x, out, hfetch, hx⟩ := fetchMore_fetches (d := e) (by rwa [getFn_congr h.fns_eq]) en.q.toNat
  rw [hfetch]
  refine h.after (setQ_keptBut e _ _ x) ((congrArg QueueSt.sqCons (getQ_setQ e _ _ x)).trans ?_)
  rw [hx]

theorem Staged.after_burst {d e : Dev} {k : JobKind} {en : Entry} {n : Nat} (h : Staged d e k en n)
    (hbme : (getFn d en.fn.toNat).bme = true) : Staged d (burstEnd e en.fn.toNat en.q.toNat) k en n := by
  unfold burstEnd
  split
  · exact h
  · exact h.after_writeIndex hbme

theorem entryReturn_staged {d : Dev} {fn : FnNo} {q : QNo} {x : QueueSt} {bs : List Byte} {i : JobInfo} {e : Entry} {n : Nat}
    (hx : getQ d fn.toNat q.toNat = x) (hopen : queueOpen d fn q = true) (hout : x.entryOut = true) (hbme : (getFn d fn.toNat).bme = true)
    (hbs : bytesMalformed fn q (x.sqProd - x.sqCons).toNat bs = .inr (i, e, n)) (fuse : Fuse) :
    Staged d (entryReturn d fuse fn.toNat q.toNat (some bs)) i.kind e n := by
  rw [entryReturn_wellFormed hx hopen hout hbs, ← hx]
  obtain ⟨rfl, rfl⟩ := bytesMalformed_entry hbs
  exact ((stageEntry_staged (entryRead_keptBut ..) (entryRead_sqCons ..) fuse).after_fetchMore hbme).after_burst hbme

/-- A staged job is among the jobs. -/
theorem Staged.mem {d e : Dev} {k : JobKind} {en : Entry} {n : Nat} (h : Staged d e k en n) :
    ∃ j ∈ e.jobs, j.stem = (d.nextJob, k, en, (getQ d en.fn.toNat en.q.toNat).sqCons, (getFn d en.fn.toNat).gen, d.tick) := by
  have hmem : (blankJob d k en n (getQ d en.fn.toNat en.q.toNat).sqCons).stem ∈ e.jobs.map Job.stem := by rw [h.stems]; simp
  exact List.mem_map.mp hmem

/-! ### Jobs by their numbers -/

theorem find?_updateFirst {α : Type} {p : α → Bool} {f : α → α} (hf : ∀ a, p a = true → p (f a) = true) (l : List α) :
    (updateFirst p f l).find? p = (l.find? p).map f := by
  induction l with
  | nil => rfl
  | cons a r ih =>
    unfold updateFirst
    cases hp : p a with
    | true => simp [hp, hf a hp]
    | false => simp [hp, ih]

/-- A job that is changed and keeps its number is found changed. -/
theorem findJob_modJob (d : Dev) (id : JobId) {f : Job → Job} (hf : ∀ j, (f j).id = j.id) : findJob (modJob d id f) id = (findJob d id).map f :=
  find?_updateFirst (fun j hj => by rwa [hf j]) d.jobs

theorem id_of_findJob {d : Dev} {id : JobId} {j : Job} (h : findJob d id = some j) : j.id = id := by
  simpa using List.find?_some h

theorem findJob_congr {d e : Dev} (h : d.jobs = e.jobs) (id : JobId) : findJob d id = findJob e id := by unfold findJob; rw [h]

/-- A job that has no outcome is given one. -/
theorem findJob_finishJob {d : Dev} {id : JobId} {j : Job} (h : findJob d id = some j) (hend : jobEnded j = false) (o : OutcomeRec) :
    findJob (finishJob d id o) id = some { j with stage := .done, res := o, claim := false, rngHeld := false } := by
  unfold finishJob
  rw [findJob_modJob d id (by intro j; split <;> rfl), h, Option.map_some, hend]
  rfl

/-! ### Operand bytes return (03 R100) -/

/-- The device with a job's operand staged. -/
def operandRead (d : Dev) (id : JobId) (k : Nat) (bs : List Byte) : Dev := modJob d id fun j => { j with got := tabPut j.got k bs }

theorem findJob_operandRead {d : Dev} {id : JobId} {j : Job} (h : findJob d id = some j) (k : Nat) (bs : List Byte) :
    findJob (operandRead d id k bs) id = some { j with got := tabPut j.got k bs } := by
  unfold operandRead
  rw [findJob_modJob d id (by intro j; rfl), h, Option.map_some]

theorem tabFind_tabPut {α : Type} (t : Tab α) (k : Nat) (v : α) : tabFind (tabPut t k v) k = some v := by
  induction t with
  | nil => simp [tabPut, tabFind]
  | cons p r ih =>
    obtain ⟨j, w⟩ := p
    simp only [tabPut]
    split
    · simp [tabFind]
    · split
      · simp [tabFind]
      · next hne => simp [tabFind, ih, Ne.symm hne]

/-- The end of a job's reads may name the quorum session that covers the job, and changes nothing else of the job. -/
theorem findJob_readEnd {d : Dev} {id : JobId} {j : Job} (h : findJob d id = some j) :
    ∃ n, findJob (readEnd d id) id = some { j with session := n } := by
  have htake : (quorumTake d).jobs = d.jobs := by unfold quorumTake; split <;> rfl
  have hnamed : ∀ n, findJob (modJob (quorumTake d) id fun j => { j with session := n }) id = some { j with session := n } := by
    intro n
    rw [findJob_modJob _ id (by intro j; rfl), findJob_congr htake, h, Option.map_some]
  unfold readEnd
  rw [h]
  dsimp only
  split
  · exact ⟨j.session, h⟩
  · split
    · exact ⟨j.session, h⟩
    · split
      · exact ⟨_, hnamed _⟩
      · exact ⟨j.session, h⟩

/-- Of jobs that need no quorum at the end of their reads nothing changes. -/
theorem readEnd_of_noQuorum {d : Dev} {id : JobId} {j : Job} (h : findJob d id = some j) (hplan : j.kind ≠ .tenantPlanLoad)
    (hfirmware : j.kind ≠ .firmwareUpdate) : readEnd d id = d := by
  have hnone : readQuorum d j = none := by unfold readQuorum; split <;> simp_all
  unfold readEnd
  rw [h]
  dsimp only
  rw [hnone, ite_self]

/-- The bytes of a read descriptor that has not returned before. -/
theorem dataReturn_operand {d : Dev} {id : JobId} {j : Job} {k : Nat} {x : Desc} (h : findJob d id = some j) (hend : jobEnded j = false)
    (hx : j.e.descs[k]? = some x) (hdir : x.dir = false) (hgot : tabFind j.got k = none) (fuse : Fuse) (bs : List Byte) :
    dataReturn d fuse id (.desc k) (some bs) =
      readEnd (pmcFn (operandRead d id k (fit x.blen.toNat bs)) 0x26 j.e.fn.toNat x.blen.toNat) id := by
  unfold dataReturn
  simp only [h, hend, hx, hdir, hgot]
  rfl

/-! ### Reads that time out (03 R99, R101) -/

/-- A read descriptor of a job that is not placed: the job ends with DMA_FAULT and the descriptor's number. -/
theorem dataReturn_timeout {d : Dev} {id : JobId} {j : Job} {k : Nat} {x : Desc} (h : findJob d id = some j) (hend : jobEnded j = false)
    (hx : j.e.descs[k]? = some x) (hdir : x.dir = false) (hplaced : jobPlaced j = false) (fuse : Fuse) :
    dataReturn d fuse id (.desc k) none = finishJob (emit d (.aer j.e.fn)) id
      { outcome stDma (BitVec.ofNat 8 k) with res0 := BitVec.ofNat 64 j.written } := by
  unfold dataReturn dmaFault
  simp only [h, hend, hx, hdir, hplaced, id_of_findJob h, Option.any_some]
  rfl

/-- An index read of an open queue that times out halts the function. -/
theorem indexReturn_timeout {d : Dev} {fn : FnNo} {q : QNo} (hopen : queueOpen d fn q = true) (hout : (getQ d fn.toNat q.toNat).idxOut = true) :
    HaltedWith d (indexReturn d fn.toNat q.toNat none) fn q 0x0E := by
  have hopen' := (queueOpen_setQ d fn q (x := { getQ d fn.toNat q.toNat with idxOut := false, reread := false }) rfl rfl).trans hopen
  unfold indexReturn
  simp only [BitVec.ofNat_toNat, BitVec.setWidth_eq, modQ_eq, hopen', hout]
  exact (haltFunction_halts (fnReady_of_queueOpen hopen') q 0x0E _).before rfl rfl

/-- An entry read of an open queue that times out halts the function. -/
theorem entryReturn_timeout {d : Dev} {fn : FnNo} {q : QNo} (hopen : queueOpen d fn q = true) (hout : (getQ d fn.toNat q.toNat).entryOut = true)
    (fuse : Fuse) : HaltedWith d (entryReturn d fuse fn.toNat q.toNat none) fn q 0x0E := by
  have hopen' := (queueOpen_setQ d fn q (x := { getQ d fn.toNat q.toNat with entryOut := false }) rfl rfl).trans hopen
  unfold entryReturn
  simp only [BitVec.ofNat_toNat, BitVec.setWidth_eq, modQ_eq, hopen', hout]
  exact (haltFunction_halts (fnReady_of_queueOpen hopen') q 0x0E _).before rfl rfl

/-- A halt, field by field. -/
theorem HaltedWith.fields {d e : Dev} {fn : FnNo} {q : QNo} {code : Byte} (h : HaltedWith d e fn q code) :
    (getFn e fn.toNat).state = 3 ∧ (getFn e fn.toNat).haltCode = code ∧ (getFn e fn.toNat).haltQ = q ∧ e.event (funcPage fn.toNat) 0 = true := by
  obtain ⟨hown, hevent, -⟩ := h
  rw [hown]
  exact ⟨rfl, rfl, rfl, hevent⟩

/-- Settles O25: a returned entry by `entryReturn_staged`, operands by what `dataReturn` does with each, the halts by `haltFunction_halts`. -/
theorem queueReads : Obligations.QueueReads := by
  unfold Obligations.QueueReads
  refine ⟨?entry, ?operand, ?timeout, ?index, ?entryTimeout⟩
  case entry =>
    intro s fn q bs i e n hopen hout hbme hbs
    obtain ⟨t, ht, hbeside, stage, hdev⟩ := actStaged_next s fun d => entryReturn d s.fuse fn.toNat q.toNat (some bs)
    have hstaged : Staged s.dev t.dev i.kind e n := (entryReturn_staged rfl hopen hout hbme hbs s.fuse).after_settle hdev
    obtain ⟨rfl, rfl⟩ := bytesMalformed_entry hbs
    obtain ⟨j, hj, hstem⟩ := hstaged.mem
    simp only [Job.stem, Prod.mk.injEq] at hstem
    obtain ⟨hid, hkind, he, hpos, hgen, -⟩ := hstem
    exact ⟨t, ht, hbeside, hstaged.passed, hstaged.next, j, hj, hid, hkind, he, hpos, hgen⟩
  case operand =>
    intro s job k bs j x hj hend hx hdir hgot
    obtain ⟨t, ht, hbeside, stage, hdev⟩ := actStaged_next s fun d => dataReturn d s.fuse job (.desc k) (some bs)
    rw [dataReturn_operand hj hend hx hdir hgot] at hdev
    have hfound := (findJob_congr (pmcFn_jobs _ 0x26 j.e.fn.toNat x.blen.toNat) job).trans (findJob_operandRead hj k (fit x.blen.toNat bs))
    refine ⟨t, ht, hbeside, ?_, fun hplan hfirmware => ?_⟩
    · obtain ⟨n, hn⟩ := findJob_readEnd hfound
      exact ⟨_, (findJob_congr (by rw [hdev]) job).trans hn, tabFind_tabPut _ _ _, rfl, rfl, rfl⟩
    · rw [hdev, readEnd_of_noQuorum hfound hplan hfirmware]
      exact congrArg Dev.unstaged (pmcFn_quiet (operandRead s.dev job k (fit x.blen.toNat bs)) 0x26 j.e.fn.toNat x.blen.toNat)
  case timeout =>
    intro s job k j x hj hend hx hdir hplaced
    refine ⟨_, rfl, ⟨rfl, rfl, rfl⟩, ?_⟩
    dsimp only
    rw [dataReturn_timeout hj hend hx hdir hplaced]
    exact ⟨mem_emit _ _, _, findJob_finishJob hj hend _, rfl, rfl, rfl⟩
  case index =>
    intro s fn q hopen hout
    exact ⟨_, rfl, ⟨rfl, rfl, rfl⟩, (indexReturn_timeout hopen hout).fields⟩
  case entryTimeout =>
    intro s fn q hopen hout
    exact ⟨_, rfl, ⟨rfl, rfl, rfl⟩, (entryReturn_timeout hopen hout s.fuse).fields⟩

end Sys2Proof.Machine
end

section
/-! PROOFS. Hatch rings, index reads, fetching, and the enable bit of a queue (03 R79-R82, R90, R93, R102). -/

namespace Sys2Proof.Machine

/-! ### What a report leaves on the ports -/

/-- What `d` has put on the ports, `e` has put on them too, and anything more behind it. -/
def Dev.sends (d e : Dev) : Prop := d.egress <+: e.egress

theorem mem_of_sends {d e : Dev} {x : Egress} (h : d.sends e) (hx : x ∈ d.egress) : x ∈ e.egress := h.subset hx

theorem sends_refl (d : Dev) : d.sends d := ⟨[], List.append_nil _⟩
theorem sends_trans {a b c : Dev} (h : a.sends b) (k : b.sends c) : a.sends c := List.IsPrefix.trans h k
theorem sends_of_egress {d e : Dev} (h : e.egress = d.egress) : d.sends e := by
  unfold Dev.sends; rw [h]
theorem sends_emit (d : Dev) (e : Egress) : d.sends (emit d e) := ⟨[e], rfl⟩

theorem sends_ite {d a b : Dev} {c : Prop} [Decidable c] (ha : d.sends a) (hb : d.sends b) : d.sends (if c then a else b) := by
  split
  · exact ha
  · exact hb

theorem sends_foldl {β : Type} (f : Dev → β → Dev) (h : ∀ (d : Dev) (b : β), d.sends (f d b)) (l : List β) (d : Dev) : d.sends (l.foldl f d) :=
  foldl_holds d.sends f (fun a b ha => sends_trans ha (h a b)) l d (sends_refl d)

theorem sends_pmcWith {up : Dev → Nat → Nat → Dev} (h : ∀ (d : Dev) (p b : Nat), d.sends (up d p b)) (d : Dev) (c n : Nat)
    (pass : Nat → MonSt → Bool) : d.sends (pmcWith up d c n pass) := by
  refine sends_foldl _ ?_ _ _
  intro a e
  dsimp only
  split
  · split
    · exact sends_of_egress rfl
    · exact sends_trans (sends_of_egress (by rfl)) (h _ _ _)
  · exact sends_refl _

theorem sends_setPageWith {rises : Dev → Nat → Dev} (h : ∀ (d : Dev) (l : Nat), d.sends (rises d l)) (d : Dev) (p : Nat) (x : PageHdr) :
    d.sends (setPageWith rises d p x) := sends_trans (sends_of_egress (by rfl)) (sends_foldl _ h _ _)

theorem sends_lineWork (d : Dev) (l : Nat) : d.sends (lineWork d l) := by
  unfold lineWork
  split
  · exact sends_of_egress rfl
  · exact sends_refl _

theorem sends_sendVector (d : Dev) (f v : Nat) : d.sends (sendVector d f v) := by
  simp only [sendVector]
  split
  · exact sends_refl _
  · split
    · exact sends_of_egress rfl
    · split
      · exact sends_of_egress rfl
      · refine sends_ite (sends_trans ?_ (sends_pmcWith (fun _ _ _ => sends_setPageWith sends_lineWork _ _ _) _ _ _ _)) (sends_refl _)
        exact sends_trans (sends_of_egress (by rfl)) (sends_emit _ _)

theorem sends_lineRises (d : Dev) (l : Nat) : d.sends (lineRises d l) := by
  unfold lineRises
  split
  · dsimp only
    split
    · exact sends_lineWork _ _
    · exact sends_trans (sends_lineWork _ _) (sends_sendVector _ _ _)
  · exact sends_refl _

/-- A count takes nothing from the ports. -/
theorem sends_pmcFn (d : Dev) (c f n : Nat) : d.sends (pmcFn d c f n) :=
  sends_pmcWith (fun _ _ _ => sends_setPageWith sends_lineRises _ _ _) _ _ _ _

/-! ### Hatch rings and index reads (03 R79-R82) -/

/-- An index read of a function that may issue requests. -/
theorem readIndex_master {d : Dev} {fn : FnNo} (hbme : (getFn d fn.toNat).bme = true) (q : QNo) :
    readIndex d fn.toNat q.toNat = emit (setQ d fn.toNat q.toNat { getQ d fn.toNat q.toNat with idxOut := true })
      (.indexRead fn q (getQ d fn.toNat q.toNat).idxbase) := by
  unfold readIndex
  simp only [BitVec.ofNat_toNat, BitVec.setWidth_eq, hbme, if_true]

theorem ringHatch_closed {d : Dev} {fn : FnNo} {q : QNo} (h : queueOpen d fn q = false) : ringHatch d fn.toNat q.toNat = d := by
  unfold ringHatch
  simp only [BitVec.ofNat_toNat, BitVec.setWidth_eq, h, Bool.false_eq_true, if_false]

/-- A ring of an open queue is counted, and reads the index block, at once or once the read that is out has returned. -/
theorem ringHatch_open {d : Dev} {fn : FnNo} {q : QNo} (h : queueOpen d fn q = true) : ringHatch d fn.toNat q.toNat =
    if (getQ d fn.toNat q.toNat).idxOut then
      setQ (pmcFn d 0x20 fn.toNat 1) fn.toNat q.toNat { getQ d fn.toNat q.toNat with reread := true }
    else readIndex (pmcFn d 0x20 fn.toNat 1) fn.toNat q.toNat := by
  unfold ringHatch
  simp only [BitVec.ofNat_toNat, BitVec.setWidth_eq, h, if_true, pmcFn_getQ, modQ_eq]

/-- The device with the returned indices of a queue in place. -/
def indexTaken (d : Dev) (f q : Nat) (prod cons : Word) : Dev :=
  setQ (pmcFn (setQ d f q { getQ d f q with idxOut := false, reread := false }) 0x26 f 8) f q
    { getQ d f q with idxOut := false, reread := false, sqProd := prod, cqCons := cons }

theorem indexTaken_getQ (d : Dev) (f q : Nat) (prod cons : Word) : getQ (indexTaken d f q prod cons) f q =
    { getQ d f q with idxOut := false, reread := false, sqProd := prod, cqCons := cons } := getQ_setQ _ _ _ _

theorem indexTaken_fns (d : Dev) (f q : Nat) (prod cons : Word) : (indexTaken d f q prod cons).fns = d.fns := pmcFn_fns _ _ _ _
theorem indexTaken_jobs (d : Dev) (f q : Nat) (prod cons : Word) : (indexTaken d f q prod cons).jobs = d.jobs := pmcFn_jobs _ _ _ _

/-- The index read of a ring that came while another was out. -/
def ringAgain (d : Dev) (f q : Nat) (again : Bool) : Dev := if again then readIndex d f q else d

/-- What a queue holds of an index read that returned: the two indices, and whether a read for a later ring is out. -/
def QueueSt.indexed (x : QueueSt) (prod cons : Word) : QueueSt := { x with idxOut := x.reread, reread := false, sqProd := prod, cqCons := cons }

theorem ringAgain_reads {d : Dev} {fn : FnNo} (hbme : (getFn d fn.toNat).bme = true) (q : QNo) (again : Bool)
    (hout : (getQ d fn.toNat q.toNat).idxOut = false) :
    (ringAgain d fn.toNat q.toNat again).jobs = d.jobs ∧ (ringAgain d fn.toNat q.toNat again).fns = d.fns ∧
      getQ (ringAgain d fn.toNat q.toNat again) fn.toNat q.toNat = { getQ d fn.toNat q.toNat with idxOut := again } := by
  unfold ringAgain
  cases again with
  | true =>
    rw [if_pos rfl, readIndex_master hbme]
    exact ⟨rfl, rfl, getQ_setQ _ _ _ _⟩
  | false =>
    refine ⟨rfl, rfl, ?_⟩
    rw [if_neg (by decide), ← hout]

section
variable {d : Dev} {fn : FnNo} {q : QNo} {x : QueueSt} {prod cons : Word} (hx : getQ d fn.toNat q.toNat = x)
  (hopen : queueOpen d fn q = true) (hout : x.idxOut = true) (hsq : (prod - x.sqCons).toNat ≤ ringUnits x.sqsz)
  (hcq : (x.cqProd - cons).toNat ≤ ringUnits x.cqsz)
include hx hopen hout hsq hcq

/-- Indices that fit the rings are taken, and fetching goes on; a ring that has come meanwhile reads again. -/
theorem indexReturn_taken : indexReturn d fn.toNat q.toNat (some (prod, cons)) =
    ringAgain (fetchMore (indexTaken d fn.toNat q.toNat prod cons) fn.toNat q.toNat) fn.toNat q.toNat x.reread := by
  subst hx
  have hopen' := (queueOpen_setQ d fn q (x := { getQ d fn.toNat q.toNat with idxOut := false, reread := false }) rfl rfl).trans hopen
  unfold indexReturn
  simp only [BitVec.ofNat_toNat, BitVec.setWidth_eq, modQ_eq, hopen', hout, Nat.not_lt.mpr hsq, Nat.not_lt.mpr hcq, pmcFn_getQ, getQ_setQ]
  rfl

/-- An index read that returns sets the two indices, and nothing else of the queue but what reading and fetching show. -/
theorem indexReturn_sets (hbme : (getFn d fn.toNat).bme = true) :
    (indexReturn d fn.toNat q.toNat (some (prod, cons))).jobs = d.jobs ∧ (indexReturn d fn.toNat q.toNat (some (prod, cons))).fns = d.fns ∧
      (x.indexed prod cons).fetched (getQ (indexReturn d fn.toNat q.toNat (some (prod, cons))) fn.toNat q.toNat) := by
  have hmaster : (getFn (indexTaken d fn.toNat q.toNat prod cons) fn.toNat).bme = true := by rwa [getFn_congr (indexTaken_fns ..)]
  obtain ⟨y, out, hfetch, hy⟩ := fetchMore_fetches hmaster q.toNat
  rw [indexTaken_getQ, hx] at hy
  rw [indexReturn_taken hx hopen hout hsq hcq, hfetch]
  have hgetQ : getQ { setQ (indexTaken d fn.toNat q.toNat prod cons) fn.toNat q.toNat y with egress := out } fn.toNat q.toNat = y :=
    getQ_setQ _ _ _ y
  obtain ⟨hjobs, hfns, hq⟩ := ringAgain_reads
    (d := { setQ (indexTaken d fn.toNat q.toNat prod cons) fn.toNat q.toNat y with egress := out }) hmaster q x.reread (by rw [hgetQ, hy])
  refine ⟨hjobs.trans (indexTaken_jobs d fn.toNat q.toNat prod cons), hfns.trans (indexTaken_fns d fn.toNat q.toNat prod cons), ?_⟩
  rw [hq, hgetQ, hy]
  rfl

end

/-! ### Fetching (03 R82, R83) -/

theorem ringUnits_pos (sz : BitVec 4) : 0 < ringUnits sz := by unfold ringUnits; positivity

theorem dmaPieces_setQ (d : Dev) (fn : FnNo) (f q : Nat) (x : QueueSt) (w : Bool) (a : DWord) (len : Nat) :
    dmaPieces (setQ d f q x) fn w a len = dmaPieces d fn w a len := rfl

/-- A queue with a read of its next entries out. -/
def QueueSt.reading (x : QueueSt) : QueueSt := { x with entryOut := true, cqwait := false, winwait := false, stwait := false }

/-- Where the next entry of a queue stands in host memory (03 R82). -/
def QueueSt.nextEntry (x : QueueSt) : DWord := x.sqbase + BitVec.ofNat 64 (32 * (x.sqCons.toNat % ringUnits x.sqsz))

section
variable {d : Dev} {fn : FnNo} {q : QNo} {x : QueueSt} (hx : getQ d fn.toNat q.toNat = x) (hopen : queueOpen d fn q = true)
  (hout : x.entryOut = false) (hsome : 0 < (x.sqProd - x.sqCons).toNat)
include hx hopen hout hsome

/-- A queue with entries that something stops shows what stops it. -/
theorem fetchMore_stopped {y : FetchStop} (hy : fetchStop d fn.toNat q.toNat = y) (hstop : y.win || y.cq || y.stage) :
    fetchMore d fn.toNat q.toNat = showStop d fn.toNat q.toNat y := by
  subst hx
  unfold fetchMore
  simp only [BitVec.ofNat_toNat, BitVec.setWidth_eq, hopen, hout, Nat.ne_of_gt hsome, hy, hstop]
  rfl

/-- The read begins at sq_cons, and what lies behind the ring's end follows in a read of its own. -/
theorem fetchMore_reads (hfree : fetchStop d fn.toNat q.toNat = { win := false, cq := false, stage := false })
    (hbme : (getFn d fn.toNat).bme = true) :
    ∃ len more, 0 < len ∧ fetchMore d fn.toNat q.toNat =
      { setQ d fn.toNat q.toNat x.reading with egress := d.egress ++ .entryRead fn q x.nextEntry len :: more } := by
  subst hx
  have hshown : (getFn (showStop d fn.toNat q.toNat { win := false, cq := false, stage := false }) fn.toNat).bme = true := hbme
  have hpos := Nat.mod_lt (getQ d fn.toNat q.toNat).sqCons.toNat (ringUnits_pos (getQ d fn.toNat q.toNat).sqsz)
  have hhead : 0 < 32 * min (min ((getQ d fn.toNat q.toNat).sqProd - (getQ d fn.toNat q.toNat).sqCons).toNat 128)
      (ringUnits (getQ d fn.toNat q.toNat).sqsz - (getQ d fn.toNat q.toNat).sqCons.toNat % ringUnits (getQ d fn.toNat q.toNat).sqsz) := by omega
  obtain ⟨len, more, hlen, hfirst⟩ := dmaPieces_first d fn (getQ d fn.toNat q.toNat).nextEntry hhead
  rw [QueueSt.nextEntry] at hfirst
  unfold fetchMore
  simp only [BitVec.ofNat_toNat, BitVec.setWidth_eq, hopen, hout, Nat.ne_of_gt hsome, hfree, hshown]
  unfold showStop
  simp only [modQ_eq, getQ_setQ, setQ_setQ, emitReads_eq, dmaPieces_setQ, Bool.or_false]
  rw [if_neg (by decide), if_neg (by decide), if_neg (by decide)]
  simp only [hfirst, List.map_cons, List.append_assoc, List.cons_append]
  split <;> exact ⟨len, _, hlen, rfl⟩

end

/-! ### The enable bit (03 R93) -/

/-- The enable bit of an unlocked page reaches the queue. -/
theorem exec_queueEnable {s : State} {fn : FnNo} (hlock : (getPage s.dev (quePage fn.toNat)).lock = false) (q : QNo) :
    exec (.queueEnable fn q) s = .next (s.withDev (enableQueue s.dev { id := fn.setWidth 10, priv := true } fn.toNat q.toNat)) := by
  rw [exec, execQueueEnable, act, unlessLocked_unlocked hlock]
  rfl

theorem exec_queueDisable {s : State} {fn : FnNo} (hlock : (getPage s.dev (quePage fn.toNat)).lock = false) (q : QNo) :
    exec (.queueDisable fn q) s = .next (s.withDev (disableQueue s.dev { id := fn.setWidth 10, priv := true } fn.toNat q.toNat)) := by
  rw [exec, execQueueDisable, act, unlessLocked_unlocked hlock]
  rfl

/-- A queue that is enabled: its indices start at 0, the last-read ones with them (log entry 9). -/
def QueueSt.enabled (x : QueueSt) : QueueSt :=
  { x with en := true, sqCons := 0, cqProd := 0, sqProd := 0, cqCons := 0, cqwait := false, winwait := false, stwait := false, dead := false }

/-- A queue of a READY function is enabled, and its device half written. -/
theorem enableQueue_enabled {d : Dev} {f q : Nat} (i : Ini) (hdis : (getQ d f q).disabling = false) (hen : (getQ d f q).en = false)
    (hq : q < (getFn d f).qpairs) (hstate : (getFn d f).state = 1) :
    enableQueue d i f q = writeIndex (setQ d f q (getQ d f q).enabled) f q := by
  have hready : fnReady (setQ d f q (getQ d f q).enabled) f = true := by
    unfold fnReady; rw [getFn_congr (setQ_fns _ _ _ _), hstate]; rfl
  unfold enableQueue
  dsimp only
  rw [if_neg (by simp [hdis]), if_neg (by simp [hen, hstate, hq])]
  exact if_pos hready

/-- The device half of the index block is written at its place. -/
theorem writeIndex_writes {d : Dev} {fn : FnNo} {q : QNo} (hdead : (getQ d fn.toNat q.toNat).dead = false) (hbme : (getFn d fn.toNat).bme = true) :
    (writeIndex d fn.toNat q.toNat).quiet = d.quiet ∧
    .indexWrite fn q ((getQ d fn.toNat q.toNat).idxbase + 32) (getQ d fn.toNat q.toNat).sqCons (getQ d fn.toNat q.toNat).cqProd ∈
      (writeIndex d fn.toNat q.toNat).egress := by
  unfold writeIndex
  simp only [BitVec.ofNat_toNat, BitVec.setWidth_eq, hdead, hbme, Bool.false_eq_true, if_false, Bool.not_true]
  exact ⟨pmcFn_quiet _ _ _ _, mem_of_sends (sends_pmcFn _ _ _ _) (mem_emit _ _)⟩

theorem disableQueue_disabled {d : Dev} {f q : Nat} (i : Ini) (hdis : (getQ d f q).disabling = false) (hen : (getQ d f q).en = true) :
    disableQueue d i f q = setQ d f q { getQ d f q with
      en := false, disabling := !(queueJobs d f q).isEmpty, cqwait := false, winwait := false, stwait := false, reread := false } := by
  unfold disableQueue
  dsimp only
  rw [if_neg (by simp [hdis]), if_pos hen]

/-- A queue that the staging area has not stopped fetches without regard to the others. -/
theorem fetchResume_direct {d : Dev} {f q : Nat} (h : (getQ d f q).stwait = false) : fetchResume d f q = fetchMore d f q := by
  unfold fetchResume
  exact if_neg (by simp [h])

/-- Settles O24: rings by `ringHatch_open`, a returned read by `indexReturn_sets`, fetching by what stops it, the enable bit by its two writes. -/
theorem queueCommands : Obligations.QueueCommands := by
  unfold Obligations.QueueCommands
  refine ⟨?ring, ?again, ?closed, ?indices, ?fetch, ?stopped, ?enable, ?disable⟩
  case ring =>
    intro s fn q hopen hout hbme
    refine ⟨_, rfl, ⟨rfl, rfl, rfl⟩, ?_⟩
    dsimp only
    rw [ringHatch_open hopen, hout, if_neg (by decide), readIndex_master (by rwa [pmcFn_getFn]), pmcFn_getQ]
    refine ⟨?_, List.getLast?_concat⟩
    rw [emit_quiet, quiet_setQ, pmcFn_quiet]
    rfl
  case again =>
    intro s fn q hopen hout
    refine ⟨_, rfl, ⟨rfl, rfl, rfl⟩, ?_⟩
    dsimp only
    rw [ringHatch_open hopen, if_pos hout, quiet_setQ, pmcFn_quiet]
    rfl
  case closed =>
    intro s fn q hclosed
    rw [exec, execHatchRing, act, ringHatch_closed hclosed]
  case indices =>
    intro s fn q prod cons hopen hout hbme hsq hcq
    obtain ⟨hjobs, hfns, hq⟩ := indexReturn_sets rfl hopen hout hsq hcq hbme
    refine ⟨_, rfl, ⟨rfl, rfl, rfl⟩, hjobs, hfns, ?_⟩
    dsimp only
    rw [hq]
    exact ⟨rfl, rfl, rfl, rfl, rfl⟩
  case fetch =>
    intro s fn q hopen hout hbme hsome hfree hst
    obtain ⟨len, more, hlen, hreads⟩ := fetchMore_reads rfl hopen hout hsome hfree hbme
    refine ⟨_, rfl, ⟨rfl, rfl, rfl⟩, ?_⟩
    dsimp only
    rw [fetchResume_direct hst, hreads]
    exact ⟨rfl, len, more, hlen, rfl⟩
  case stopped =>
    intro s fn q x hopen hout hsome hx hstop hst
    rw [exec, execFetchResume, act, fetchResume_direct hst, fetchMore_stopped rfl hopen hout hsome hx hstop]
    rfl
  case enable =>
    intro s fn q hlock hdis hen hq hstate hbme
    refine ⟨_, exec_queueEnable hlock q, ⟨rfl, rfl, rfl⟩, ?_⟩
    rw [withDev_dev, enableQueue_enabled _ hdis hen hq hstate]
    have hwrites := writeIndex_writes (d := setQ s.dev fn.toNat q.toNat (getQ s.dev fn.toNat q.toNat).enabled) (q := q)
      (by rw [getQ_setQ]; rfl) hbme
    rw [getQ_setQ] at hwrites
    exact hwrites
  case disable =>
    intro s fn q hlock hdis hen
    rw [exec_queueDisable hlock, disableQueue_disabled _ hdis hen]

end Sys2Proof.Machine
end

section
/-! PROOFS. The jobs that the life cycle denies as they are staged (04 R107, R132). -/

namespace Sys2Proof.Machine

/-- A function other than PF 0 and PF 128 is denied a PF-only job wherever the life cycle lets jobs run (04 R107). -/
theorem lifeDenied_pfOnly {fuse : Fuse} {j : Job} (d : Dev) (hlc : lcState fuse = 1 ∨ lcState fuse = 2) (h0 : j.e.fn ≠ 0)
    (h128 : j.e.fn ≠ 128) (hpf : (jobInfo j.kind).pf = true) : lifeDenied d fuse j = some 0x01 := by
  obtain ⟨hend, hblank⟩ : (lcState fuse == 3) = false ∧ (lcState fuse == 0) = false := by
    obtain hlc | hlc := hlc <;> rw [hlc] <;> exact ⟨rfl, rfl⟩
  have hvf : (j.e.fn == 0 || j.e.fn == 128) = false := by rw [beq_false_of_ne h0, beq_false_of_ne h128]; rfl
  unfold lifeDenied
  dsimp only
  rw [hend, hblank, hvf, hpf, if_neg (by simp), if_pos (by simp)]

/-- What the life cycle denies a job depends on its kind and entry, and on nothing of the queues and the other jobs. -/
theorem lifeDenied_congr {a b : Dev} {i j : Job} (h : a.besideJobs = b.besideJobs) (hkind : i.kind = j.kind) (he : i.e = j.e)
    (fuse : Fuse) : lifeDenied a fuse i = lifeDenied b fuse j := by
  simp only [Dev.besideJobs, Prod.mk.injEq] at h
  obtain ⟨-, -, -, hfns, -, -, -, hlcs, htmp, hbat, -, -, -, htwn, -, hnv, -⟩ := h
  unfold lifeDenied latchedCondition
  rw [hfns, hlcs, htmp, hbat, htwn, hnv, hkind, he]

/-- The job of a denied entry ends as it is staged. -/
theorem stageEntry_denied {d : Dev} {fuse : Fuse} {k : JobKind} {e : Entry} {n : Nat} {w : Word} {det : Byte}
    (h : lifeDenied d fuse (blankJob d k e n w) = some det) :
    stageEntry d fuse k e n w =
      { d with jobs := d.jobs ++ [{ blankJob d k e n w with stage := .done, res := outcome stLife det }], nextJob := d.nextJob + 1 } := by
  unfold stageEntry
  dsimp only
  rw [h]

/-- The write of the index block by a function that may issue requests changes no job. -/
theorem writeIndex_jobs {d : Dev} {f : Nat} (h : (getFn d f).bme = true) (q : Nat) : (writeIndex d f q).jobs = d.jobs := by
  unfold writeIndex
  dsimp only
  split
  · rfl
  · rw [h, if_neg (by decide), pmcFn_jobs, emit_jobs]

/-- The device with an entry taken and its queue past it, before the entry is staged. -/
def passing (d : Dev) (e : Entry) : Dev :=
  setQ (fetching d e.fn.toNat e.q.toNat) e.fn.toNat e.q.toNat ((getQ (fetching d e.fn.toNat e.q.toNat) e.fn.toNat e.q.toNat).taken (entryUnits e))

theorem passing_jobs (d : Dev) (e : Entry) : (passing d e).jobs = d.jobs := pmcFn_jobs _ _ _ _
theorem passing_fns (d : Dev) (e : Entry) : (passing d e).fns = d.fns := fetching_fns _ _ _
theorem passing_besideJobs (d : Dev) (e : Entry) : (passing d e).besideJobs = d.besideJobs :=
  besideJobs_of_keptBut ((setQ_keptBut ..).trans (fetching_keptBut d e.fn.toNat e.q.toNat))

/-- A well-formed entry that is taken is staged once its queue has passed it, and the index block is written. -/
theorem fetchJob_wellFormed {d : Dev} {k : JobKind} {e : Entry} (hopen : queueOpen d e.fn e.q = true)
    (hm : entryMalformed (jobInfo k) e = none) (hbme : (getFn d e.fn.toNat).bme = true)
    (hfree : fetchStop d e.fn.toNat e.q.toNat = { win := false, cq := false, stage := false }) (fuse : Fuse) :
    fetchJob d fuse k e =
      writeIndex (stageEntry (passing d e) fuse k e (entryUnits e) (getQ d e.fn.toNat e.q.toNat).sqCons) e.fn.toNat e.q.toNat := by
  rw [fetchJob_taken hopen hfree hbme, submit_wellFormed ((queueOpen_fetching d e.fn e.q).trans hopen) hm, fetching_sqCons]
  rfl

/-- A well-formed entry that the life cycle denies becomes a job behind the others that has ended with LIFECYCLE_DENIED; neither its
length nor its position has a part in the denial. -/
theorem fetchJob_denied {d : Dev} {fuse : Fuse} {k : JobKind} {e : Entry} {n : Nat} {w : Word} {det : Byte}
    (hopen : queueOpen d e.fn e.q = true) (hm : entryMalformed (jobInfo k) e = none) (hbme : (getFn d e.fn.toNat).bme = true)
    (hfree : fetchStop d e.fn.toNat e.q.toNat = { win := false, cq := false, stage := false })
    (hdenied : lifeDenied d fuse (blankJob d k e n w) = some det) :
    ∃ x, (fetchJob d fuse k e).jobs = d.jobs ++ [x] ∧ x.kind = k ∧ x.e = e ∧ x.stage = .done ∧ x.res = outcome stLife det := by
  have hpassed : lifeDenied (passing d e) fuse (blankJob (passing d e) k e (entryUnits e) (getQ d e.fn.toNat e.q.toNat).sqCons) = some det :=
    (lifeDenied_congr (passing_besideJobs d e) rfl rfl fuse).trans hdenied
  have hmaster : (getFn (passing d e) e.fn.toNat).bme = true := by rwa [getFn_congr (passing_fns d e)]
  rw [fetchJob_wellFormed hopen hm hbme hfree, stageEntry_denied hpassed, writeIndex_jobs]
  · exact ⟨_, congrArg (· ++ [_]) (passing_jobs d e), rfl, rfl, rfl, rfl⟩
  · exact hmaster

/-- Settles O9: the life cycle denies the job by `lifeDenied_pfOnly`, and `fetchJob_denied` says what its entry becomes. -/
theorem pfOnlyDenied : Obligations.PfOnlyDenied := by
  unfold Obligations.PfOnlyDenied
  intro s c k e hc hopen hm hbme hfree hpf h0 h128 hlc
  have hdenied : lifeDenied s.dev s.fuse (blankJob s.dev k e 0 0) = some 0x01 := lifeDenied_pfOnly s.dev hlc h0 h128 hpf
  obtain ⟨x, hjobs, hx⟩ := fetchJob_denied hopen hm hbme hfree hdenied
  obtain ⟨t, ht, hbeside, stage, hdev⟩ := exec_fetches hc s
  refine ⟨t, ht, hbeside, x, ?_, hx⟩
  rw [hdev]
  exact hjobs

end Sys2Proof.Machine
end

section
/-! PROOFS. Draws of jobs, waits for random numbers, and reads of RNG_RAWDATA (05 R144, 09 R279, R281, R286). -/

namespace Sys2Proof.Machine

/-! ### What handing out seeds leaves of jobs and their draws (09 R277, R278) -/

/-- A job's stem with what it has drawn. -/
def Job.drawn (j : Job) : (JobId × JobKind × Entry × Word × BitVec 16 × BitVec 48) × Option (List Byte) := (j.stem, j.draw)

/-- The bytes of the draw buffer and the draws of the jobs: what handing out seeds leaves as it was. -/
def Dev.draws (d : Dev) : Nat × List ((JobId × JobKind × Entry × Word × BitVec 16 × BitVec 48) × Option (List Byte)) :=
  (d.rng.drawBytes, d.jobs.map Job.drawn)

theorem map_updateFirst {α β : Type} {g : α → β} (p : α → Bool) {f : α → α} (hf : ∀ a, g (f a) = g a) (l : List α) :
    (updateFirst p f l).map g = l.map g := by
  induction l with
  | nil => rfl
  | cons a r ih =>
    unfold updateFirst
    split
    · simp [hf]
    · simp [ih]

/-- The outcome of a job leaves every draw. -/
theorem finishJob_draws (d : Dev) (id : JobId) (o : OutcomeRec) : (finishJob d id o).draws = d.draws :=
  congrArg (Prod.mk d.rng.drawBytes) (map_updateFirst _ (by intro j; split <;> rfl) d.jobs)

theorem giveSeed_draws (d : Dev) (t : SeedTaker) (s : Seed) : (giveSeed d t s).draws = d.draws := by
  unfold giveSeed
  dsimp only
  split
  · split
    · split
      · exact (finishJob_draws _ _ _).trans rfl
      · rfl
    · rfl
  · split <;> rfl

theorem seedLoop_draws (n : Nat) (d : Dev) : (seedLoop n d).draws = d.draws := by
  induction n generalizing d with
  | zero => rfl
  | succ n ih =>
    unfold seedLoop
    split
    · rw [ih, giveSeed_draws]
    · rfl

/-- Handing out seeds may end jobs that waited for one, and leaves every draw (09 R277, R278). -/
theorem rngFeed_draws (d : Dev) : (rngFeed d).draws = d.draws := by
  unfold rngFeed
  split
  · exact seedLoop_draws _ _
  · rfl

/-- A job is found by the number in its stem. -/
theorem findJob_map_drawn (d : Dev) (id : JobId) :
    (findJob d id).map Job.drawn = (d.jobs.map Job.drawn).find? fun x => x.1.1 == id := by
  rw [List.find?_map]; rfl

theorem findJob_of_draws {a b : Dev} (h : a.draws = b.draws) {id : JobId} {j : Job} (hj : findJob b id = some j) :
    ∃ y, findJob a id = some y ∧ y.stem = j.stem ∧ y.draw = j.draw := by
  have hjobs : a.jobs.map Job.drawn = b.jobs.map Job.drawn := congrArg Prod.snd h
  have hfound : (findJob a id).map Job.drawn = some j.drawn := by
    rw [findJob_map_drawn, hjobs, ← findJob_map_drawn, hj, Option.map_some]
  obtain ⟨y, hy, hdrawn⟩ := Option.map_eq_some_iff.mp hfound
  exact ⟨y, hy, congrArg Prod.fst hdrawn, congrArg Prod.snd hdrawn⟩

/-! ### The draw of a job (05 R144, 09 R279) -/

/-- A generate request to an instance that can deliver changes that instance alone. -/
theorem instGenerate_delivers {d : Dev} {i : Nat} (h : canDeliver d i = true) (n : Nat) :
    ∃ bs x, instGenerate d i n = some (bs, setInst d i x) := by
  unfold instGenerate
  rw [if_pos h]
  exact ⟨_, _, rfl⟩

/-- The bytes and AES blocks of a draw count in its tick, its request counts at the function, and the job holds what it drew. -/
def drawStored (d : Dev) (id : JobId) (j : Job) (bs : List Byte) : Dev :=
  modJob (pmcFn { d with rng := { d.rng with drawBytes := d.rng.drawBytes + jobDraw j, blocksTick := d.rng.blocksTick + reqBlocks (jobDraw j) } }
    0x70 j.e.fn.toNat 1) id fun x => { x with draw := some bs }

theorem drawStored_drawBytes (d : Dev) (id : JobId) (j : Job) (bs : List Byte) :
    (drawStored d id j bs).rng.drawBytes = d.rng.drawBytes + jobDraw j := congrArg Rng.drawBytes (pmcFn_rng _ _ _ _)

theorem findJob_drawStored {d : Dev} {id : JobId} {j : Job} (h : findJob d id = some j) (bs : List Byte) :
    findJob (drawStored d id j bs) id = some { j with draw := some bs } := by
  unfold drawStored
  rw [findJob_modJob _ id (by intro x; rfl), findJob_congr (pmcFn_jobs _ _ _ _) id]
  exact congrArg _ h

/-- A job that waits for its draw, with room for it and an instance that answers. -/
theorem makeDraw_generates {d e : Dev} {id : JobId} {j : Job} {bs : List Byte} (hj : findJob d id = some j) (hstage : j.stage = .wait)
    (hn : 0 < jobDraw j) (hnone : j.draw = none) (hpr : prWaits d id = false) (hroom : d.rng.drawBytes + jobDraw j ≤ 131072)
    (hblocks : hasBlocks d (jobDraw j) = true) (hgen : instGenerate d (jobInst j) (jobDraw j) = some (bs, e)) :
    makeDraw d id = rngFeed (drawStored e id j bs) := by
  unfold makeDraw
  rw [hj]
  simp only [hstage, hn, hnone, hpr, hroom, hblocks, hgen]
  rfl

/-! ### A wait that ends (09 R281) -/

/-- A waiting job that meets its 64th consecutive tick without service. -/
theorem waitTimeout_ends {d : Dev} {id : JobId} {j : Job} (h : findJob d id = some j) (hwaits : waitsRng j = true) (htime : 63 ≤ j.rngWait)
    (hserved : d.rng.served = false) : waitTimeout d id = rngUnavailable d j := by
  unfold waitTimeout
  rw [h]
  simp only [hwaits, htime, hserved]
  rfl

theorem findJob_rngUnavailable {d : Dev} {id : JobId} {j : Job} (h : findJob d id = some j) (hend : jobEnded j = false) :
    findJob (rngUnavailable d j) id = some { j with stage := .done, res := outcome stRng 0, claim := false, rngHeld := false } := by
  obtain rfl := id_of_findJob h
  exact findJob_finishJob h hend _

/-! ### Reads of RNG_RAWDATA (09 R286) -/

/-- Samples as a number, the oldest in bit 0. -/
def samplesNat (l : List Bool) : Nat := l.foldr (fun b n => (if b then 1 else 0) + 2 * n) 0

/-- The first 32 samples as a word. -/
def sampleWord (l : List Bool) : Word := BitVec.ofNat 32 (samplesNat (l.take 32))

theorem samplesNat_cons (b : Bool) (l : List Bool) : samplesNat (b :: l) = b.toNat + 2 * samplesNat l := by cases b <;> rfl

theorem testBit_samplesNat (l : List Bool) (k : Nat) : (samplesNat l).testBit k = l.getD k false := by
  induction l generalizing k with
  | nil => exact Nat.zero_testBit k
  | cons b r ih =>
    rw [samplesNat_cons]
    cases k with
    | zero => cases b <;> simp [Nat.testBit_zero]
    | succ k =>
      have hhalf : (b.toNat + 2 * samplesNat r) / 2 = samplesNat r := by have := b.toNat_lt; omega
      rw [Nat.testBit_succ, hhalf, ih, List.getD_cons_succ]

theorem sampleWord_bit (l : List Bool) {k : Nat} (h : k < 32) : (sampleWord l).getLsbD k = l.getD k false := by
  unfold sampleWord
  rw [BitVec.getLsbD_ofNat, testBit_samplesNat]
  simp [h]

/-- Outside TEST or with RNG_RAWCTL off the register reads zero and nothing is taken. -/
theorem rawRead_off {d : Dev} {f : Fuse} (h : lcState f ≠ 1 ∨ d.rng.rawEn = false) (arrived : List Bool) : rawRead d f arrived = (0, d) := by
  unfold rawRead
  rw [if_pos]
  obtain hlc | hoff := h
  · rw [bne_iff_ne.mpr hlc, Bool.true_or]
  · rw [hoff, Bool.not_false, Bool.or_true]

/-- Arriving samples go through the tests of their source while it is HEALTHY (09 R265, R267). -/
def rawTested (d : Dev) (i : Nat) (arrived : List Bool) : Dev :=
  if (getSource d i).sstate != 2 then d
  else
    let r := sourceSamples d i arrived
    if r.2.2 then healthFailures r.1 [i] else r.1

/-- Samples of which none fires a test raise no alarm: at most their source's own record changes. -/
theorem rawTested_quiet {d : Dev} {i : Nat} {arrived : List Bool}
    (h : (getSource d i).sstate = 2 → (healthRun i (getSource d i).health 0 arrived).2.2 = none) :
    ∃ l, rawTested d i arrived = { d with rng := { d.rng with sources := l } } := by
  unfold rawTested
  by_cases hhealthy : (getSource d i).sstate = 2
  · have hnone := h hhealthy
    unfold sourceSamples
    simp only [hhealthy, hnone]
    exact ⟨_, rfl⟩
  · rw [if_pos (bne_iff_ne.mpr hhealthy)]
    exact ⟨_, rfl⟩

/-- The oldest 32 of the buffered samples leave the buffer. -/
def rawTaken (d : Dev) (arrived : List Bool) : Dev :=
  { d with rng := { d.rng with rawBuf := ((d.rng.rawBuf ++ arrived).take 1024).drop 32 } }

/-- With RNG_RAWCTL on in TEST and 32 samples buffered, the oldest 32 are read, and the arrived ones are tested. -/
theorem rawRead_on {d : Dev} {f : Fuse} {arrived : List Bool} (hlc : lcState f = 1) (hen : d.rng.rawEn = true)
    (hlen : 32 ≤ (d.rng.rawBuf ++ arrived).length) :
    rawRead d f arrived = (sampleWord (d.rng.rawBuf ++ arrived), rawTested (rawTaken d arrived) d.rng.rawSrc.toNat arrived) := by
  have hfull : 32 ≤ ((d.rng.rawBuf ++ arrived).take 1024).length := by rw [List.length_take]; omega
  have hword : ((d.rng.rawBuf ++ arrived).take 1024).take 32 = (d.rng.rawBuf ++ arrived).take 32 := List.take_take
  unfold rawRead
  rw [if_neg (by simp [hlc, hen])]
  dsimp only
  rw [if_pos hfull, hword]
  rfl

/-- A host whose BAR shows the page is answered at once with what the register reads. -/
theorem exec_rngRawdataRead_host {i : Ini} (hfn : isFnId i.id = true) (hpriv : i.priv = true) (hsees : hostSees i rngPage = true)
    (s : State) (arrived : List Bool) :
    exec (.rngRawdataRead i arrived) s = .next (s.withDev
      (emit (rawRead s.dev s.fuse arrived).2 (.regRead i.id (rawRead s.dev s.fuse arrived).1))) := by
  rw [exec, execRngRawdataRead, act]
  simp only [hfn, hpriv, hsees]
  rfl

/-- Settles O30: the seeds handed out after a draw leave the draw as it was stored (`rngFeed_draws`), a wait that ends gives its job the
outcome (`findJob_rngUnavailable`), and `rawRead_off` and `rawRead_on` are the two answers of RNG_RAWDATA. -/
theorem randomDraws : Obligations.RandomDraws := by
  unfold Obligations.RandomDraws
  refine ⟨?draw, ?timeout, ?off, ?on, ?unseen⟩
  case draw =>
    intro s job j hj hstage hn hnone hpr hroom hblocks hdeliver
    obtain ⟨bs, x, hgen⟩ := instGenerate_delivers hdeliver (jobDraw j)
    have hkept : (makeDraw s.dev job).draws = (drawStored (setInst s.dev (jobInst j) x) job j bs).draws := by
      rw [makeDraw_generates hj hstage hn hnone hpr hroom hblocks hgen, rngFeed_draws]
    obtain ⟨y, hy, hstem, hdraw⟩ := findJob_of_draws hkept (findJob_drawStored (d := setInst s.dev (jobInst j) x) hj bs)
    exact ⟨_, rfl, ⟨rfl, rfl, rfl⟩, (congrArg Prod.fst hkept).trans (drawStored_drawBytes _ _ _ _), y, bs, _, hy, hgen, hdraw, hstem⟩
  case timeout =>
    intro s job j hj hend hwaits htime hserved
    have hexec : exec (.rngWaitTimeout job) s = .next (s.withDev (rngUnavailable s.dev j)) := by
      rw [exec, execRngWaitTimeout, act, waitTimeout_ends hj hwaits htime hserved]
      rfl
    exact ⟨_, hexec, ⟨rfl, rfl, rfl⟩, ⟨_, findJob_rngUnavailable hj hend, rfl, rfl, rfl⟩, rfl⟩
  case off =>
    intro s i arrived hoff hfn hpriv hsees
    rw [exec_rngRawdataRead_host hfn hpriv hsees, rawRead_off hoff]
  case on =>
    intro s i arrived hlc hen hfn hpriv hsees hlen hquiet
    obtain ⟨l, htested⟩ := rawTested_quiet (d := rawTaken s.dev arrived) hquiet
    refine ⟨_, exec_rngRawdataRead_host hfn hpriv hsees s arrived, ⟨rfl, rfl, rfl⟩, ?_⟩
    rw [rawRead_on hlc hen hlen, htested]
    exact ⟨rfl, _, rfl, fun k hk => sampleWord_bit _ hk⟩
  case unseen =>
    intro s i arrived hsees
    rw [exec, execRngRawdataRead, act]
    simp only [hsees]
    rfl

end Sys2Proof.Machine
end

section
/-! PROOFS. Nonce blocks, cellar loads and the keeper world's quorum jobs (06 R190, R191, 08 R243, R244, 11 R327). -/

namespace Sys2Proof.Machine

/-! ### A list in which one element takes the place of its like -/

section Replaced

variable {α : Type} {p q : α → Bool} {a : α}

theorem filter_replaced (h : p a = true) (l : List α) : ((l.filter fun x => !p x) ++ [a]).filter p = [a] := by
  simp [List.filter_append, List.filter_filter, h]

theorem find?_replaced (h : p a = true) (l : List α) : ((l.filter fun x => !p x) ++ [a]).find? p = some a := by
  rw [← List.head?_filter, filter_replaced h, List.head?_cons]

/-- What is unlike the element stays. -/
theorem filter_replaced_other (h : ∀ x, q x = true → p x = false) (ha : p a = true) (l : List α) :
    ((l.filter fun x => !p x) ++ [a]).filter q = l.filter q := by
  have hqa : q a ≠ true := fun hq => Bool.false_ne_true ((h a hq).symm.trans ha)
  rw [List.filter_append, List.filter_cons_of_neg hqa, List.filter_nil, List.append_nil, List.filter_filter]
  refine List.filter_congr fun x _ => ?_
  cases hq : q x with
  | false => rfl
  | true => rw [h x hq]; rfl

end Replaced

/-! ### The journal of nonce blocks (06 R191, R192) -/

theorem nextFree_journalPut_same {nv : Nv} {j : JournalEntry} (hlt : nextFree nv j.record j.twin < j.nextFree) (hle : j.nextFree ≤ 2 ^ 32) :
    nextFree (journalPut nv j) j.record j.twin = j.nextFree := by
  unfold journalPut
  rw [if_pos (by simpa [hlt] using hle)]
  unfold nextFree
  dsimp only
  rw [filter_replaced (p := fun x : JournalEntry => x.record == j.record && x.twin == j.twin) (by simp)]
  exact Nat.zero_max _

/-- The entries of every other record and twin index stay. -/
theorem nextFree_journalPut_other (nv : Nv) (j : JournalEntry) {r : Word} {w : Bool} (h : (r, w) ≠ (j.record, j.twin)) :
    nextFree (journalPut nv j) r w = nextFree nv r w := by
  have hother (x : JournalEntry) (hx : (x.record == r && x.twin == w) = true) : (x.record == j.record && x.twin == j.twin) = false := by
    simp only [Bool.and_eq_true, beq_iff_eq] at hx
    obtain ⟨rfl, rfl⟩ := hx
    simpa [Bool.and_eq_false_imp] using h
  unfold journalPut
  split
  · unfold nextFree
    rw [filter_replaced_other hother (by simp)]
  · rfl

/-! ### Nonce accounts (06 R189, R190) -/

theorem nonceOf_spec {d : Dev} {record : Word} {twin : Bool} {n : NonceSt} (h : nonceOf d record twin = some n) :
    n.record = record ∧ n.twin = twin := by
  simpa using List.find?_some h

theorem nonceOf_setNonce (d : Dev) (n : NonceSt) : nonceOf (setNonce d n) n.record n.twin = some n :=
  find?_replaced (p := fun x : NonceSt => x.record == n.record && x.twin == n.twin) (by simp) _

theorem nonceOf_congr {d e : Dev} (h : d.keys.nonces = e.keys.nonces) (record : Word) (twin : Bool) :
    nonceOf d record twin = nonceOf e record twin := by
  unfold nonceOf; rw [h]

/-- A waiting reservation settled: with both entries written, block `j` is the account's, and its counter is free. -/
def NonceSt.settled (n : NonceSt) (j : Nat) : NonceSt :=
  if n.ownDone && n.peerDone then
    { n with wait := none, nextFree := j + 1, limit := 65536 * (j + 1), next := if n.limit ≤ n.next then 65536 * j else n.next }
  else n

theorem reserveSettle_nonces {n : NonceSt} {j : Nat} (h : n.wait = some j) (d : Dev) :
    (reserveSettle d n).keys.nonces = (setNonce d (n.settled j)).keys.nonces := by
  unfold reserveSettle NonceSt.settled
  rw [h]
  dsimp only
  split
  · simp [setNonce]
  · rfl

theorem reserveSettle_nv (d : Dev) (n : NonceSt) : (reserveSettle d n).nv = d.nv := by
  unfold reserveSettle; split <;> [rfl; (split <;> rfl)]

theorem reserveSettle_jobs (d : Dev) (n : NonceSt) : (reserveSettle d n).jobs = d.jobs := by
  unfold reserveSettle; split <;> [rfl; (split <;> rfl)]

theorem settled_key (n : NonceSt) (j : Nat) : (n.settled j).record = n.record ∧ (n.settled j).twin = n.twin := by
  unfold NonceSt.settled; split <;> exact ⟨rfl, rfl⟩

theorem nonceOf_reserveSettle {n : NonceSt} {j : Nat} (h : n.wait = some j) (d : Dev) :
    nonceOf (reserveSettle d n) n.record n.twin = some (n.settled j) := by
  obtain ⟨hrecord, htwin⟩ := settled_key n j
  rw [nonceOf_congr (reserveSettle_nonces h d), ← hrecord, ← htwin, nonceOf_setNonce]

theorem reserveOwn_waiting {d : Dev} {record : Word} {twin : Bool} {n : NonceSt} {j : Nat} (hn : nonceOf d record twin = some n)
    (hw : n.wait = some j) :
    reserveOwn d record twin = reserveSettle { d with nv := journalPut d.nv ⟨record, twin, j + 1⟩ } { n with ownDone := true } := by
  unfold reserveOwn; rw [hn]; dsimp only; rw [hw]

/-- Apart from the link, a release that goes out leaves the device as it is. -/
theorem releaseTry_frame (d : Dev) : (releaseTry d).nv = d.nv ∧ (releaseTry d).keys = d.keys ∧ (releaseTry d).jobs = d.jobs := by
  unfold releaseTry; split <;> exact ⟨rfl, rfl, rfl⟩

theorem exec_nonceReserveCommit {s : State} (h : s.dev.pwr.pfLevel = true) (record : Word) (twin : Bool) :
    exec (.nonceReserveCommit record twin) s = .next (s.withDev (releaseTry (reserveOwn s.dev record twin))) := by
  rw [exec, execNonceReserveCommit, act, if_pos h]
  rfl

/-- A reservation that starts leaves the record an account; its entry may go to the twin. -/
theorem reserveStart_cases (d : Dev) (record : Word) (twin : Bool) :
    ∃ n : NonceSt, n.record = record ∧ n.twin = twin ∧ (reserveStart d record twin = setNonce d n ∨
      reserveStart d record twin = twnSend (setNonce d n) 0x30 0 0 [] [⟨record, twin, n.nextFree + 1⟩]) := by
  have hkey (fresh : NonceSt) (hr : fresh.record = record) (ht : fresh.twin = twin) :
      ((nonceOf d record twin).getD fresh).record = record ∧ ((nonceOf d record twin).getD fresh).twin = twin := by
    cases hn : nonceOf d record twin with
    | none => exact ⟨hr, ht⟩
    | some n => exact nonceOf_spec hn
  unfold reserveStart
  extract_lets fresh n parked sent e
  obtain ⟨hr, ht⟩ := hkey fresh rfl rfl
  split
  · exact ⟨n, hr, ht, .inl rfl⟩
  · split
    · exact ⟨n, hr, ht, .inl rfl⟩
    · refine ⟨{ n with wait := some n.nextFree, ownDone := false, peerDone := twinAlone d }, hr, ht, ?_⟩
      split
      · exact .inr rfl
      · exact .inl rfl

/-- Of MRAM, the jobs and the keys, a reservation that starts changes the nonce accounts alone. -/
theorem reserveStart_frame (d : Dev) (record : Word) (twin : Bool) :
    (reserveStart d record twin).nv = d.nv ∧ (reserveStart d record twin).jobs = d.jobs ∧
    (reserveStart d record twin).keys = { d.keys with nonces := (reserveStart d record twin).keys.nonces } := by
  obtain ⟨n, -, -, h⟩ := reserveStart_cases d record twin
  obtain h | h := h
  all_goals rw [h]; exact ⟨rfl, rfl, rfl⟩

theorem nonceOf_reserveStart (d : Dev) (record : Word) (twin : Bool) : (nonceOf (reserveStart d record twin) record twin).isSome = true := by
  obtain ⟨n, rfl, rfl, h⟩ := reserveStart_cases d record twin
  have hnonces : (reserveStart d n.record n.twin).keys.nonces = (setNonce d n).keys.nonces := by
    obtain h | h := h
    · rw [h]
    · rw [h]; rfl
  rw [nonceOf_congr hnonces, nonceOf_setNonce]
  rfl

/-! ### Cellar loads (08 R243, R244) -/

/-- The entry of the key cache that a record gets in free slots. -/
def cellarEntry (d : Dev) (r : CellarRec) (slot : Nat) : CacheEnt :=
  { k := keyOfRec r slot, kind := .cellar, fn := 0, slots := typeSlots r.img.ktype, use := useOf d slot, marked := false, dropped := false,
    lastUse := d.tick }

/-- The device with a record's key in free slots, and the blocks of its evicted copy abandoned. -/
def cellarCached (d : Dev) (r : CellarRec) (slot : Nat) : Dev :=
  let d := nonceAbandon d r.img.record
  { d with keys := { d.keys with cache := d.keys.cache ++ [cellarEntry d r slot] } }

/-- The device with a record loaded: its nonce account starts with a reservation. -/
def cellarLoaded (d : Dev) (r : CellarRec) (slot : Nat) : Dev := reserveStart (cellarCached d r slot) r.img.record d.nv.twin.index

theorem loadRecord_fits {d : Dev} {r : CellarRec} {slot : Nat}
    (hanchors : (anchorTable d ++ ancestorsOf d.nv r.img.key).eraseDups.length ≤ 4096)
    (hrun : freeRun d 0 16384 (typeSlots r.img.ktype) = some slot) :
    loadRecord d r = .inr (cellarLoaded d r slot, keyOfRec r slot) := by
  have hroom : keeperRoom 16385 (nonceAbandon d r.img.record) (typeSlots r.img.ktype) = some (nonceAbandon d r.img.record, slot) := by
    unfold keeperRoom
    rw [show freeRun (nonceAbandon d r.img.record) 0 16384 (typeSlots r.img.ktype) = some slot from hrun]
  unfold loadRecord placeCellar
  rw [if_neg (Nat.not_lt.mpr hanchors)]
  dsimp only
  rw [hroom]
  rfl

/-- A loaded record changes the key cache and the nonce accounts, and nothing else of the keys, of MRAM or of the jobs. -/
theorem cellarLoaded_frame (d : Dev) (r : CellarRec) (slot : Nat) :
    (cellarLoaded d r slot).nv = d.nv ∧ (cellarLoaded d r slot).jobs = d.jobs ∧ (cellarLoaded d r slot).keys =
      { d.keys with cache := d.keys.cache ++ [cellarEntry d r slot], nonces := (cellarLoaded d r slot).keys.nonces } :=
  reserveStart_frame (cellarCached d r slot) r.img.record d.nv.twin.index

theorem cacheHit_congr {d e : Dev} (h : d.keys = e.keys) (key : Word) (version : BitVec 16) : cacheHit d key version = cacheHit e key version := by
  unfold cacheHit; rw [h]

theorem cacheHit_cellarLoaded {d : Dev} {r : CellarRec} (h : cacheHit d r.img.key r.img.version = none) (slot : Nat) :
    cacheHit (cellarLoaded d r slot) r.img.key r.img.version = some (cellarEntry d r slot) := by
  have hcache : (cellarLoaded d r slot).keys.cache = d.keys.cache ++ [cellarEntry d r slot] := by
    obtain ⟨-, -, hkeys⟩ := cellarLoaded_frame d r slot
    exact congrArg Keys.cache hkeys
  unfold cacheHit at h ⊢
  rw [hcache, List.find?_append, h]
  simp [cellarEntry, keyOfRec]

/-- The device with a load taken from the loads that wait. -/
def loadTaken (d : Dev) (key : Word) (version : BitVec 16) : Dev :=
  { d with keys := { d.keys with loads := d.keys.loads.filter fun x => !(x.1 == key && x.2.1 == version), loaded := d.keys.loaded + 1 } }

theorem recByVersion_spec {nv : Nv} {key : Word} {v : BitVec 16} {r : CellarRec} (h : recByVersion nv key v = some r) :
    r.img.key = key ∧ r.img.version = v := by
  simpa using List.find?_some h

theorem exec_cellarLoadDone (s : State) (key : Word) (version : BitVec 16) :
    exec (.cellarLoadDone key version) s = .next (s.withDev (if keeperPresent s.dev then loadDone s.dev key version else s.dev)) := rfl

theorem loadDone_notDue {d : Dev} {key : Word} {version : BitVec 16}
    (h : ((loadsDue d).find? fun l => l.1 == key && l.2.1 == version) = none) : loadDone d key version = d := by
  unfold loadDone; rw [h]

/-- A due load of a usable record that fits, for which no job waits: the record is loaded, and the load is counted. -/
theorem loadDone_fits {d : Dev} {key : Word} {version : BitVec 16} {l : Word × BitVec 16 × FnNo × BitVec 48} {r : CellarRec} {slot : Nat}
    (hdue : ((loadsDue d).find? fun l => l.1 == key && l.2.1 == version) = some l) (hrec : recByVersion d.nv key version = some r)
    (hstate : r.img.state ≠ 4) (hread : readable d r = true) (hline : lineLive d.nv key = true)
    (hanchors : (anchorTable d ++ ancestorsOf d.nv key).eraseDups.length ≤ 4096) (hmiss : cacheHit d key version = none)
    (hrun : freeRun d 0 16384 (typeSlots r.img.ktype) = some slot) (hjobs : ∀ j ∈ d.jobs, (key, version) ∉ j.loads) :
    loadDone d key version = pmcFn (cellarLoaded (loadTaken d key version) r slot) 0x61 l.2.2.1.toNat 1 := by
  obtain ⟨hkey, -⟩ := recByVersion_spec hrec
  have hload : loadRecord (loadTaken d key version) r = .inr (cellarLoaded (loadTaken d key version) r slot, keyOfRec r slot) :=
    loadRecord_fits (by rw [hkey]; exact hanchors) hrun
  have hsame : (pmcFn (cellarLoaded (loadTaken d key version) r slot) 0x61 l.2.2.1.toNat 1).jobs = d.jobs := by
    obtain ⟨-, h, -⟩ := cellarLoaded_frame (loadTaken d key version) r slot
    rw [pmcFn_jobs, h]
    rfl
  have hwait : (d.jobs.filter fun j => j.loads.contains (key, version)) = [] :=
    List.filter_eq_nil_iff.mpr fun j hj => by simpa using hjobs j hj
  have hkept : (d.jobs.map fun (j : Job) => if j.loads.contains (key, version) then
      { j with loads := j.loads.filter fun x => x != (key, version) } else j) = d.jobs :=
    (List.map_congr_left fun j hj => if_neg (by simpa using hjobs j hj)).trans (List.map_id _)
  unfold loadDone
  rw [hdue]
  dsimp -zeta only
  extract_lets old taken mine waiting fail
  rw [show waiting = [] from congrArg (List.map Job.id) hwait, show recByVersion taken.nv key version = some r from hrec]
  dsimp -zeta only
  rw [if_neg (by simpa using hstate), if_neg (by simpa using (show readable taken r = true from hread)),
    if_neg (by simpa using (show lineLive taken.nv key = true from hline)),
    if_neg (by simp [show cacheHit taken key version = none from hmiss]), show loadRecord taken r = _ from hload]
  dsimp only [Sum.map_inr, List.foldl_nil]
  rw [hsame, show (d.jobs.map fun j => if mine j = true then _ else j) = d.jobs from hkept, ← hsame]

/-! ### The keeper world's part of a job (04 R131) -/

/-- A job that the keeper world holds, whose reads have returned, that waits for no write and that the lock allows is run. -/
theorem keeperDone_runs {d : Dev} {job : JobId} {j : Job} (hj : findJob d job = some j) (hstage : j.stage = .keeper)
    (hpart : jobPart j = .keeper) (hpresent : keeperPresent d = true) (hreads : readsDone j = true) (hbusy : hierBusy d j = false)
    (hwrite : needsWrite j.kind = true → d.pwr.pfLevel = true) (hlock : lockAllows j.kind j.e = true) (f : Fuse) :
    keeperDone d f job = keeperRun d f j := by
  have hgo : (j.stage != .keeper || jobPart j != .keeper || !keeperPresent d || !readsDone j || hierBusy d j
      || (needsWrite j.kind && !d.pwr.pfLevel)) = false := by
    simpa [hstage, hpart, hpresent, hreads, hbusy] using hwrite
  unfold keeperDone
  rw [hj]
  dsimp only
  rw [hgo, hlock]
  simp

theorem keeperRun_quorumOpen {j : Job} (h : j.kind = .quorumOpen) (d : Dev) (f : Fuse) : keeperRun d f j = (openSession d j, f) := by
  unfold keeperRun; rw [h]

theorem keeperRun_quorumStatus {j : Job} (h : j.kind = .quorumStatus) (d : Dev) (f : Fuse) :
    keeperRun d f j = (finishJob d j.id (sessionStatus d (BitVec.ofNat 64 (opLe j.e 0 8))), f) := by
  unfold keeperRun; rw [h]

/-- The session that a QUORUM_OPEN job opens while a group of custodians stands. -/
def openedSession (d : Dev) (j : Job) : Session :=
  { number := d.nv.sessionNext, fn := j.e.fn, code := BitVec.ofNat 16 (opLe j.e 0 2), digest := opAt j.e 2 48, state := 0,
    windowEnd := d.bat.rtc.toNat + window120, counted := [], qs := 0, coeffs := [], written := [] }

/-- The device with that session open. -/
def sessionOpened (d : Dev) (j : Job) : Dev :=
  { d with nv := { d.nv with sessionNext := d.nv.sessionNext + 1 },
           crd := { d.crd with before := d.crd.session, session := some (openedSession d j) } }

/-- While custodians stand the session waits for their shares, so no enrolment begins. -/
theorem openSession_custody {d : Dev} (h : custodyOf d.nv ≠ none) (j : Job) :
    openSession d j = finishJob (sessionOpened d j) j.id (outcomeRes d.nv.sessionNext) := by
  unfold openSession
  rw [Option.isNone_eq_false_iff.mpr (Option.isSome_iff_ne_none.mpr h)]
  rfl

theorem exec_kprKeeperDone {s : State} {job : JobId} {d : Dev} (h : keeperDone s.dev s.fuse job = (d, s.fuse)) :
    exec (.kprKeeperDone job) s = .next (s.withDev d) := by
  rw [exec, execKprKeeperDone, actFuse, h]
  rfl

theorem jobEnded_keeper {j : Job} (h : j.stage = .keeper) : jobEnded j = false := by rw [jobEnded, h]; rfl

/-- Settles O28: the commit by `reserveOwn_waiting` and the journal's two equations, the load by `loadDone_fits`, the two jobs by
`keeperDone_runs`. -/
theorem keeperWorld : Obligations.KeeperWorld := by
  unfold Obligations.KeeperWorld
  refine ⟨?commit, ?load, ?notDue, ?quorumOpen, ?quorumStatus⟩
  case commit =>
    intro s record twin n j hpower hn hwait hfree hmax
    obtain ⟨rfl, rfl⟩ := nonceOf_spec hn
    obtain ⟨hnv, hkeys, hjobs⟩ := releaseTry_frame (reserveOwn s.dev n.record n.twin)
    have hown := reserveOwn_waiting hn hwait
    have hjournal : (releaseTry (reserveOwn s.dev n.record n.twin)).nv = journalPut s.dev.nv ⟨n.record, n.twin, j + 1⟩ := by
      rw [hnv, hown, reserveSettle_nv]
    refine ⟨_, exec_nonceReserveCommit hpower n.record n.twin, ⟨rfl, rfl, rfl⟩, ?_, fun r w hrw => ?_, ?_, ?_⟩
    · rw [withDev_dev, hjournal]
      exact nextFree_journalPut_same (j := ⟨n.record, n.twin, j + 1⟩) (Nat.lt_succ_of_le hfree) hmax
    · rw [withDev_dev, hjournal]
      exact nextFree_journalPut_other _ _ hrw
    · rw [withDev_dev, hjobs, hown, reserveSettle_jobs]
    · rw [withDev_dev, nonceOf_congr (congrArg Keys.nonces hkeys), hown,
        nonceOf_reserveSettle (n := { n with ownDone := true }) hwait]
      unfold NonceSt.settled
      simp only [Bool.true_and]
  case load =>
    intro s key version l r hpresent hdue hrec hstate hread hline hanchors hmiss hroom hjobs
    obtain ⟨rfl, rfl⟩ := recByVersion_spec hrec
    obtain ⟨slot, hrun⟩ := Option.isSome_iff_exists.mp hroom
    have hdone := loadDone_fits hdue hrec hstate hread hline hanchors (Option.isNone_iff_eq_none.mp hmiss) hrun hjobs
    obtain ⟨hnv, hsame, hkeys⟩ := cellarLoaded_frame (loadTaken s.dev r.img.key r.img.version) r slot
    have hhit := cacheHit_cellarLoaded (d := loadTaken s.dev r.img.key r.img.version) (Option.isNone_iff_eq_none.mp hmiss) slot
    have hexec := exec_cellarLoadDone s r.img.key r.img.version
    rw [if_pos hpresent, hdone] at hexec
    refine ⟨_, hexec, ⟨rfl, rfl, rfl⟩, ⟨_, (cacheHit_congr (pmcFn_keys _ _ _ _) _ _).trans hhit, rfl, rfl, rfl⟩, ?_, ?_, ?_, ?_, ?_⟩
    · rw [withDev_dev, pmcFn_nv, hnv, nonceOf_congr (congrArg Keys.nonces (pmcFn_keys _ _ _ _))]
      exact nonceOf_reserveStart _ _ _
    · rw [withDev_dev, pmcFn_keys, hkeys]; rfl
    · rw [withDev_dev, pmcFn_keys, hkeys]; rfl
    · rw [withDev_dev, pmcFn_nv, hnv]; rfl
    · rw [withDev_dev, pmcFn_jobs, hsame]; rfl
  case notDue =>
    intro s key version h
    rw [exec_cellarLoadDone, loadDone_notDue h, ite_self]
    rfl
  case quorumOpen =>
    intro s job j hj hstage hpart hpresent hreads hpower hkind hcustody
    have hdone : keeperDone s.dev s.fuse job = (finishJob (sessionOpened s.dev j) job (outcomeRes s.dev.nv.sessionNext), s.fuse) := by
      rw [keeperDone_runs hj hstage hpart hpresent hreads (by simp [hierBusy, isHierarchy, hkind]) (fun _ => hpower)
        (by rw [hkind]; rfl), keeperRun_quorumOpen hkind, openSession_custody hcustody, id_of_findJob hj]
    exact ⟨_, exec_kprKeeperDone hdone, ⟨rfl, rfl, rfl⟩, rfl, rfl, rfl, _,
      findJob_finishJob (d := sessionOpened s.dev j) hj (jobEnded_keeper hstage) _, rfl, rfl⟩
  case quorumStatus =>
    intro s job j hj hstage hpart hpresent hreads hkind
    have hdone : keeperDone s.dev s.fuse job =
        (finishJob s.dev job (sessionStatus s.dev (BitVec.ofNat 64 (opLe j.e 0 8))), s.fuse) := by
      rw [keeperDone_runs hj hstage hpart hpresent hreads (by simp [hierBusy, isHierarchy, hkind])
        (fun h => by simp [needsWrite, isHierarchy, hkind] at h) (by rw [hkind]; rfl), keeperRun_quorumStatus hkind, id_of_findJob hj]
    exact ⟨_, exec_kprKeeperDone hdone, ⟨rfl, rfl, rfl⟩, _, findJob_finishJob hj (jobEnded_keeper hstage) _, rfl, rfl, rfl⟩

end Sys2Proof.Machine
end

section
/-! PROOFS. Noise sources: raw blocks, alarms and start-up tests (09 R263 to R271, R282, R284). -/

namespace Sys2Proof.Machine

/-! ### Health tests over samples (09 R265) -/

/-- Samples that fire no test are all counted. -/
theorem healthRun_quiet_count {i : Nat} {h : Health} {n : Nat} {l : List Bool} (hq : (healthRun i h n l).2.2 = none) :
    (healthRun i h n l).2.1 = n + l.length := by
  induction l generalizing h n with
  | nil => rfl
  | cons b r ih =>
    unfold healthRun at hq ⊢
    dsimp only at hq ⊢
    cases hf : healthFires i (healthStep h b) with
    | some p => rw [hf] at hq; cases hq
    | none =>
      rw [hf] at hq
      exact (ih hq).trans (by rw [List.length_cons]; omega)

theorem slice_length (bs : List Byte) (off len : Nat) : (slice bs off len).length = len := by
  unfold slice
  rw [List.length_append, List.length_replicate, List.length_take]
  omega

theorem rawBits_length (raw : List Byte) : (rawBits raw).length = 8 * raw.length := by
  unfold rawBits
  rw [List.length_flatMap]
  simp [Nat.mul_comm]

/-- A raw block holds 2,048 samples. -/
theorem rawBits_block_length (raw : List Byte) : (rawBits (fit 256 raw)).length = 2048 := by
  rw [rawBits_length, fit, slice_length]

/-! ### What handing out seeds leaves of the sources -/

theorem giveSeed_sources (d : Dev) (t : SeedTaker) (s : Seed) : (giveSeed d t s).rng.sources = d.rng.sources := by
  unfold giveSeed
  dsimp only
  split
  · split
    · split <;> rfl
    · rfl
  · split <;> rfl

theorem seedLoop_sources (n : Nat) (d : Dev) : (seedLoop n d).rng.sources = d.rng.sources := by
  induction n generalizing d with
  | zero => rfl
  | succ n ih =>
    unfold seedLoop
    split
    · rw [ih, giveSeed_sources]
    · rfl

theorem rngFeed_sources (d : Dev) : (rngFeed d).rng.sources = d.rng.sources := by
  unfold rngFeed
  split
  · exact seedLoop_sources _ _
  · rfl

theorem rngFeed_nv (d : Dev) : (rngFeed d).nv = d.nv := by rw [rngFeed_only]

/-- With no taker, the seeds stay held. -/
theorem rngFeed_noTakers {d : Dev} (h : seedTakers d = []) : rngFeed d = d := by
  unfold rngFeed
  split
  · cases d.rng.seeds.length with
    | zero => rfl
    | succ n => unfold seedLoop; rw [h]; rfl
  · rfl

/-! ### Service -/

theorem rngCheckService_inService {d : Dev} (h : d.rng.state = 2) : rngCheckService d = d := by
  unfold rngCheckService
  simp only [h]
  rfl

/-- Entering service hands out seeds and reports an event. -/
theorem rngCheckService_keeps (d : Dev) : (rngCheckService d).rng.sources = d.rng.sources ∧ (rngCheckService d).nv = d.nv := by
  unfold rngCheckService
  dsimp only
  split
  · rw [rngFeed_sources, rngFeed_nv, raise_rng, raise_nv]
    exact ⟨rfl, rfl⟩
  · exact ⟨rfl, rfl⟩

/-! ### Commands that name a source -/

theorem actSource_named {s : State} {i : BitVec 3} (h : i.toNat < 6) (f : Dev → Dev) : actSource s i f = .next (s.withDev (f s.dev)) := by
  unfold actSource
  rw [if_neg (by omega)]
  rfl

theorem exec_rawBlockComplete {s : State} {i : BitVec 3} (h : i.toNat < 6) (raw : List Byte) (agree : Bool) :
    exec (.rawBlockComplete i raw agree) s = .next (s.withDev (rawBlock s.dev i.toNat raw agree)) := by
  rw [exec, execRawBlockComplete, actSource_named h]

theorem exec_startupTestDone {s : State} {i : BitVec 3} (h : i.toNat < 6) (t : StartupIn) :
    exec (.startupTestDone i t) s = .next (s.withDev (startupTest s.dev i.toNat t.bits t.kat)) := by
  rw [exec, execStartupTestDone, actSource_named h]

theorem exec_sourceAlarm_alone {s : State} {i : BitVec 3} (h : i.toNat < 6) (bits : List Bool) :
    exec (.sourceAlarm ⟨i, bits⟩ []) s = .next (s.withDev (alarmSources s.dev [⟨i, bits⟩])) := by
  rw [exec, execSourceAlarm, if_neg (by simp; omega)]
  rfl

/-! ### Raw blocks (09 R268, R269) -/

theorem tabPut_put_same {α : Type} (t : Tab α) (k : Nat) (v w : α) : tabPut (tabPut t k v) k w = tabPut t k w := by
  induction t with
  | nil => simp [tabPut]
  | cons p r ih =>
    obtain ⟨j, u⟩ := p
    rcases Nat.lt_trichotomy k j with h | rfl | h
    · simp [tabPut, h]
    · simp [tabPut]
    · simp [tabPut, h.not_gt, h.ne', ih]

theorem setSource_setSource (d : Dev) (i : Nat) (x y : SourceSt) : setSource (setSource d i x) i y = setSource d i y := by
  unfold setSource
  rw [tabPut_put_same]

/-- A source that has delivered a raw block in which no test fires. -/
def SourceSt.delivered (x : SourceSt) (h : Health) : SourceSt :=
  { x with samples := x.samples + 2048, health := h, blocks := x.blocks + 1, blockDone := true }

/-- The device once the block has passed the tests of its source. -/
def blockTested (d : Dev) (i : Nat) (raw : List Byte) : Dev :=
  setSource d i ((getSource d i).delivered (healthRun i (getSource d i).health 0 (rawBits (fit 256 raw))).1)

theorem getSource_blockTested (d : Dev) (i : Nat) (raw : List Byte) :
    getSource (blockTested d i raw) i =
      (getSource d i).delivered (healthRun i (getSource d i).health 0 (rawBits (fit 256 raw))).1 := getSource_setSource _ _ _

theorem sourceSamples_quiet {d : Dev} {i : Nat} {bits : List Bool} (h : (healthRun i (getSource d i).health 0 bits).2.2 = none) :
    sourceSamples d i bits =
      (setSource d i { getSource d i with samples := (getSource d i).samples + BitVec.ofNat 64 bits.length,
                                          health := (healthRun i (getSource d i).health 0 bits).1 }, false, false) := by
  have hcount := healthRun_quiet_count h
  rw [Nat.zero_add] at hcount
  unfold sourceSamples
  dsimp only
  rw [h, hcount]

/-- A raw block of a HEALTHY source in service that fires no test goes to the conditioner, as long as it has a SHA unit. -/
theorem rawBlock_quiet {d : Dev} {i : Nat} {raw : List Byte} (hhealthy : (getSource d i).sstate = 2) (hservice : d.rng.state = 2)
    (hroute : routed d i = false) (hq : (healthRun i (getSource d i).health 0 (rawBits (fit 256 raw))).2.2 = none) (agree : Bool) :
    rawBlock d i raw agree =
      if d.rng.sha == 0 then blockTested d i raw
      else conditionBlock (blockTested d i raw) i (getSource d i).blocks.toNat (fit 256 raw) agree := by
  unfold rawBlock
  dsimp only
  rw [sourceSamples_quiet hq, rawBits_block_length, if_neg (by simp [hhealthy, hservice]), hroute]
  dsimp only
  rw [getSource_setSource, setSource_setSource]
  change (if (blockTested d i raw).rng.state == 4 || d.rng.sha == 0 then _ else _) = _
  rw [show (blockTested d i raw).rng.state = 2 from hservice]
  rfl

/-- A mismatch of the SHA units counts. -/
def mismatchCounted (d : Dev) : Dev := { d with rng := { d.rng with mismatch := satInc d.rng.mismatch } }

/-- A seed with the next order behind the held ones. -/
def seedAdded (d : Dev) (i : BitVec 3) (bytes : List Byte) : Dev :=
  { d with rng := { d.rng with seeds := d.rng.seeds ++ [{ bytes := bytes, source := i, order := d.rng.order }],
                               order := d.rng.order + 1 } }

/-- Units that differ give no seed. -/
theorem conditionBlock_mismatch {d : Dev} (hservice : d.rng.state = 2) (hroom : d.rng.seeds.length < 16) (i block : Nat) (raw : List Byte) :
    conditionBlock d i block raw false = mismatchCounted d := by
  unfold conditionBlock
  simp only [decide_eq_false (Nat.not_le.mpr hroom)]
  exact rngCheckService_inService (d := mismatchCounted d) hservice

/-- Units that agree add one seed, which stays held where nothing takes one. -/
theorem conditionBlock_agree {d : Dev} (hservice : d.rng.state = 2) (hroom : d.rng.seeds.length < 16) (hheld : seedTakers d = [])
    (i block : Nat) (raw : List Byte) : conditionBlock d i block raw true = seedAdded d (BitVec.ofNat 3 i) (seedOf i block raw) := by
  have hstay (bytes : List Byte) : rngFeed (rngCheckService (seedAdded d (BitVec.ofNat 3 i) bytes)) = seedAdded d (BitVec.ofNat 3 i) bytes := by
    rw [rngCheckService_inService (d := seedAdded d _ _) hservice, rngFeed_noTakers (d := seedAdded d _ _) hheld]
  unfold conditionBlock
  simp only [decide_eq_false (Nat.not_le.mpr hroom)]
  exact hstay _

/-- With 16 seeds held and no request with prediction resistance the block is discarded. -/
theorem conditionBlock_full {d : Dev} (hservice : d.rng.state = 2) (hfull : d.rng.seeds.length = 16) (hprs : d.rng.prs = [])
    (i block : Nat) (raw : List Byte) (agree : Bool) : conditionBlock d i block raw agree = d := by
  unfold conditionBlock
  dsimp only
  rw [if_pos (by simp [hfull, hprs])]
  exact rngCheckService_inService hservice

/-! ### Failed sources (09 R282, R284) -/

/-- What a failed source comes to: it is DEAD and on the dead list, no seed is held, and the block restarts or is out of service. -/
structure Dev.sourceDead (d : Dev) (i : Nat) : Prop where
  dead : (getSource d i).sstate = 4
  listed : d.nv.deadSrc.getLsbD i = true
  state : d.rng.state = 3 ∨ d.rng.state = 4
  seeds : d.rng.seeds = []

/-- What wiping draws and reporting a failure leave: the sources, the dead list and the held seeds. -/
def Dev.sourcing (d : Dev) : Tab SourceSt × BitVec 6 × List Seed := (d.rng.sources, d.nv.deadSrc, d.rng.seeds)

/-- The same with the block's service state. -/
def Dev.serving (d : Dev) : BitVec 3 × Tab SourceSt × BitVec 6 × List Seed := (d.rng.state, d.sourcing)

/-- A source that is dead stays so while the sources, the dead list and the seeds do, also where service ends. -/
theorem sourceDead_of_sourcing {a b : Dev} {i : Nat} (h : a.sourcing = b.sourcing) (hb : b.sourceDead i)
    (hstate : a.rng.state = b.rng.state ∨ a.rng.state = 4) : a.sourceDead i := by
  obtain ⟨hdead, hlisted, hst, hseeds⟩ := hb
  simp only [Dev.sourcing, Prod.mk.injEq] at h
  obtain ⟨hsources, hnv, hheld⟩ := h
  refine ⟨?_, hnv ▸ hlisted, ?_, hheld ▸ hseeds⟩
  · unfold getSource at hdead ⊢
    rwa [hsources]
  · obtain hsame | hout := hstate
    · rwa [hsame]
    · exact Or.inr hout

theorem sourceDead_of_serving {a b : Dev} {i : Nat} (h : a.serving = b.serving) (hb : b.sourceDead i) : a.sourceDead i :=
  sourceDead_of_sourcing (congrArg Prod.snd h) hb (Or.inl (congrArg Prod.fst h))

theorem serving_of_uncaused {a b : Dev} (h : a.uncaused = b.uncaused) : a.serving = b.serving := by
  have := congrArg Dev.serving h; exact this

theorem raise_serving (d : Dev) (p b : Nat) : (raise d p b).serving = d.serving := serving_of_uncaused (uncaused_of_silent (raise_silent d p b))
theorem evLog_serving (d : Dev) (c l f : Nat) (x : List Byte) : (evLog d c l f x).serving = d.serving :=
  serving_of_uncaused (uncaused_of_silent (evLog_silent d c l f x))
theorem setCause_serving (d : Dev) (c : Nat) : (setCause d c).serving = d.serving := serving_of_uncaused (setCause_uncaused d c)

/-- NO_SERVICE changes the service state and reports. -/
theorem enterNoService_sourcing (d : Dev) (source : Nat) : (enterNoService d source false).sourcing = d.sourcing ∧
    (enterNoService d source false).rng.state = 4 := by
  unfold enterNoService
  split
  · exact ⟨rfl, eq_of_beq ‹_›⟩
  · have h := (setCause_serving (raise { d with rng := { d.rng with state := 4 } } rngPage 2) 13).trans (raise_serving _ _ _)
    exact ⟨congrArg Prod.snd h, congrArg Prod.fst h⟩

theorem enterNoService_latched (d : Dev) (source : Nat) : d.latched (enterNoService d source false) := by
  unfold enterNoService
  split
  · exact Dev.latched_refl d
  · exact Dev.latched_trans (latched_raise (latched_of_pages (by rfl)) _ _) (setCause_latched _ _)

/-- The failure of one source: it is DEAD and listed, and the RNG block restarts. -/
def sourceFailed (d : Dev) (i : Nat) : Dev :=
  let e := setSource d i { getSource d i with sstate := 4 }
  { e with
    nv := { e.nv with deadSrc := e.nv.deadSrc ||| (0 ||| BitVec.ofNat 6 (1 <<< i)) }
    rng := { e.rng with
      state := if e.rng.state == 4 then 4 else 3, katDone := false, seeds := [],
      rawBuf := if [i].contains e.rng.rawSrc.toNat then [] else e.rng.rawBuf,
      insts := tabMap (failInstance [i]) e.rng.insts, sources := tabMap retestSource e.rng.sources } }

/-- Jobs that wait for random numbers end, and draws outside the shelves are wiped. -/
def drawsWiped (d : Dev) : Dev :=
  settleDraws (wipeDraws ((d.jobs.filter fun (j : Job) =>
    !jobEnded j && (waitsRng j || ((j.stage == .load || j.stage == .wait) && j.draw.isSome))).foldl rngUnavailable d))

/-- NO_SERVICE where the sources left do not suffice (09 R282). -/
def serviceJudged (d : Dev) (i : Nat) : Dev :=
  if enoughSources fun k => (getSource d k).sstate != 4 && (getSource d k).sstate != 0 then d else enterNoService d i false

/-- The failure's entry in the recorder, and the replacement cause of two dead sources. -/
def failureRecorded (d : Dev) (i : Nat) : Dev :=
  let e := evLog d 0x0802 (lineAt rngPage 0) noFn (leBytes 1 i ++ leBytes 1 d.rng.state.toNat)
  if 2 ≤ ((List.range 6).filter fun k => e.nv.deadSrc.getLsbD k).length then setCause e 5 else e

theorem healthFailures_single (d : Dev) (i : Nat) : healthFailures d [i] =
    failureRecorded (serviceJudged (raise (raise (drawsWiped (sourceFailed d i)) rngPage 0) svcPage 0) i) i := rfl

theorem healthFailures_none (d : Dev) : healthFailures d [] = d := rfl

theorem tabGet_tabMap {α : Type} (f : α → α) (t : Tab α) (k : Nat) (v : α) : tabGet (tabMap f t) k (f v) = f (tabGet t k v) := by
  induction t with
  | nil => rfl
  | cons p r ih =>
    obtain ⟨j, u⟩ := p
    by_cases h : j = k
    · simp [tabMap, tabGet, h]
    · simpa [tabMap, tabGet, h] using ih

/-- A DEAD source runs no start-up test. -/
theorem retestSource_dead {x : SourceSt} (h : x.sstate = 4) : retestSource x = x := by
  unfold retestSource
  rw [h]
  rfl

theorem getSource_sourceFailed (d : Dev) (i : Nat) : getSource (sourceFailed d i) i = { getSource d i with sstate := 4 } := by
  have h : getSource (sourceFailed d i) i = retestSource (getSource (setSource d i { getSource d i with sstate := 4 }) i) :=
    tabGet_tabMap retestSource _ i sourceReset
  rw [h, getSource_setSource, retestSource_dead rfl]

theorem sourceFailed_dead (d : Dev) {i : Nat} (h : i < 6) : (sourceFailed d i).sourceDead i := by
  refine ⟨?_, ?_, ?_, rfl⟩
  · rw [getSource_sourceFailed]
  · change (d.nv.deadSrc ||| (0 ||| BitVec.ofNat 6 (1 <<< i))).getLsbD i = true
    simp [BitVec.getLsbD_ofNat, h, Nat.testBit_shiftLeft]
  · change (if d.rng.state == 4 then (4 : BitVec 3) else 3) = 3 ∨ (if d.rng.state == 4 then (4 : BitVec 3) else 3) = 4
    split
    · exact Or.inr rfl
    · exact Or.inl rfl

theorem drawsWiped_serving (d : Dev) : (drawsWiped d).serving = d.serving :=
  foldl_same Dev.serving rngUnavailable (fun _ _ => rfl) _ d

theorem serviceJudged_dead {d : Dev} {i : Nat} (h : d.sourceDead i) : (serviceJudged d i).sourceDead i := by
  unfold serviceJudged
  split
  · exact h
  · obtain ⟨hkept, hstate⟩ := enterNoService_sourcing d i
    exact sourceDead_of_sourcing hkept h (Or.inr hstate)

theorem failureRecorded_serving (d : Dev) (i : Nat) : (failureRecorded d i).serving = d.serving := by
  unfold failureRecorded
  dsimp only
  split
  · rw [setCause_serving, evLog_serving]
  · exact evLog_serving _ _ _ _ _

theorem serviceJudged_latched (d : Dev) (i : Nat) : d.latched (serviceJudged d i) := by
  unfold serviceJudged
  split
  · exact Dev.latched_refl d
  · exact enterNoService_latched d i

theorem failureRecorded_latched (d : Dev) (i : Nat) : d.latched (failureRecorded d i) := by
  unfold failureRecorded
  dsimp only
  split
  · exact Dev.latched_trans (evLog_latched _ _ _ _ _) (setCause_latched _ _)
  · exact evLog_latched _ _ _ _ _

/-- A source that fails is dead once the failure is dealt with, whatever state the block was in. -/
theorem healthFailures_dead (d : Dev) {i : Nat} (h : i < 6) : (healthFailures d [i]).sourceDead i := by
  have hwiped : (drawsWiped (sourceFailed d i)).sourceDead i := sourceDead_of_serving (drawsWiped_serving _) (sourceFailed_dead d h)
  have hraised : (raise (raise (drawsWiped (sourceFailed d i)) rngPage 0) svcPage 0).sourceDead i :=
    sourceDead_of_serving ((raise_serving _ _ _).trans (raise_serving _ _ _)) hwiped
  rw [healthFailures_single]
  exact sourceDead_of_serving (failureRecorded_serving _ _) (serviceJudged_dead hraised)

/-- The failure sets its event bit of the RNG page. -/
theorem healthFailures_event (d : Dev) (i : Nat) : (healthFailures d [i]).event rngPage 0 = true := by
  rw [healthFailures_single]
  exact failureRecorded_latched _ _ _ _ (serviceJudged_latched _ _ _ _ (raise_latched _ _ _ _ _ (raise_event _ _ _ (by decide))))

/-! ### Alarms (09 R267) -/

/-- A source isolated by the alarm that its `n`-th sample from here raises. -/
def SourceSt.isolated (x : SourceSt) (tick : BitVec 48) (n : Nat) : SourceSt :=
  { x with alarms := satInc x.alarms, lastAlarm := tick.setWidth 16, lastSample := some (x.samples + BitVec.ofNat 64 n),
           samples := x.samples + BitVec.ofNat 64 n, sstate := 3, health := healthReset }

theorem alarmAt_isolates (d : Dev) (i n : Nat) (p : Bool) : ∃ e, e.silent = d.silent ∧
    (alarmAt d i n p).1 = setSource e i ((getSource d i).isolated d.tick n) := by
  refine ⟨evLog d 0x0801 (lineAt rngPage 0) noFn (leBytes 1 i ++ [if p then 1 else 0]), evLog_silent _ _ _ _ _, ?_⟩
  unfold alarmAt
  dsimp only
  rw [evLog_tick]
  rfl

theorem setSource_silent {a b : Dev} (h : a.silent = b.silent) (i : Nat) (x : SourceSt) :
    (setSource a i x).silent = (setSource b i x).silent := by
  have := congrArg (setSource · i x) h; exact this

/-- An alarm is a second one only within 2^24 samples of the last. -/
theorem alarmAt_first {d : Dev} {i n : Nat}
    (h : ∀ m, (getSource d i).lastSample = some m → m.toNat + 2 ^ 24 ≤ ((getSource d i).samples + BitVec.ofNat 64 n).toNat) (p : Bool) :
    (alarmAt d i n p).2 = false := by
  unfold alarmAt
  dsimp only
  split
  · next m hm => exact decide_eq_false (Nat.not_lt.mpr (h m hm))
  · rfl

theorem alarmAt_again {d : Dev} {i n : Nat} {m : DWord} (hlast : (getSource d i).lastSample = some m)
    (h : ((getSource d i).samples + BitVec.ofNat 64 n).toNat < m.toNat + 2 ^ 24) (p : Bool) : (alarmAt d i n p).2 = true := by
  unfold alarmAt
  dsimp only
  rw [hlast]
  exact decide_eq_true h

/-- Samples of one HEALTHY source that fire no test raise no alarm. -/
theorem alarmSources_quiet {d : Dev} {i : BitVec 3} {bits : List Bool} (hhealthy : (getSource d i.toNat).sstate = 2)
    (hq : (healthRun i.toNat (getSource d i.toNat).health 0 bits).2.2 = none) : alarmSources d [⟨i, bits⟩] = d := by
  unfold alarmSources
  simp only [List.foldl_cons, List.foldl_nil, hhealthy, sourceSamples_quiet hq]
  rfl

/-- Samples of one HEALTHY source of which one fires a test raise an alarm, and a second one fails the source. -/
theorem alarmSources_fires {d : Dev} {i : BitVec 3} {bits : List Bool} {p : Bool} (hhealthy : (getSource d i.toNat).sstate = 2)
    (hf : (healthRun i.toNat (getSource d i.toNat).health 0 bits).2.2 = some p) :
    alarmSources d [⟨i, bits⟩] =
      healthFailures (alarmAt d i.toNat (healthRun i.toNat (getSource d i.toNat).health 0 bits).2.1 p).1
        (if (alarmAt d i.toNat (healthRun i.toNat (getSource d i.toNat).health 0 bits).2.1 p).2 then [i.toNat] else []) := by
  unfold alarmSources sourceSamples
  simp only [List.foldl_cons, List.foldl_nil, hhealthy, hf]
  rfl

/-! ### Start-up tests (09 R266, R271, R285) -/

theorem rngKat_passes {d : Dev} {k : KatIn} (hsha : k.sha = 0) (hpair : k.pair = 0) : rngKat d k = d := by
  unfold rngKat
  dsimp only
  rw [hsha, hpair, if_pos (by simp)]

/-- Known-answer tests that have run, or that find no fault, leave everything but the note that they have run. -/
theorem rngKatOnce_passes {d : Dev} {k : KatIn} (h : d.rng.katDone = true ∨ k.sha = 0 ∧ k.pair = 0) :
    ∃ b, rngKatOnce d k = { d with rng := { d.rng with katDone := b } } := by
  unfold rngKatOnce
  split
  · next hrun =>
    obtain hdone | ⟨hsha, hpair⟩ := h
    · simp [hdone] at hrun
    · rw [rngKat_passes hsha hpair]
      exact ⟨true, rfl⟩
  · exact ⟨_, rfl⟩

/-- Where a source is set and service may begin, that source alone is changed, and nothing of MRAM. -/
theorem rngCheckService_qualifies (d : Dev) (i : Nat) (x : SourceSt) :
    getSource (rngCheckService (setSource d i x)) i = x ∧
      (∀ k, k ≠ i → getSource (rngCheckService (setSource d i x)) k = getSource d k) ∧
      (rngCheckService (setSource d i x)).nv = d.nv := by
  obtain ⟨hsources, hnv⟩ := rngCheckService_keeps (setSource d i x)
  have hget (k : Nat) : getSource (rngCheckService (setSource d i x)) k = getSource (setSource d i x) k :=
    congrArg (tabGet · k sourceReset) hsources
  exact ⟨(hget i).trans (getSource_setSource _ _ _), fun k hk => (hget k).trans (getSource_setSource_other _ _ hk), hnv⟩

/-- The start-up test is for a source that starts or is isolated. -/
theorem startupTest_runs {d : Dev} {i : Nat} (hstart : (getSource d i).sstate = 1 ∨ (getSource d i).sstate = 3) (hon : d.rng.state ≠ 0) :
    (d.rng.state == 0 || ((getSource d i).sstate != 1 && (getSource d i).sstate != 3)) = false := by
  rw [beq_false_of_ne hon]
  obtain h | h := hstart <;> rw [h] <;> rfl

theorem startupTest_fails {d : Dev} {i : Nat} {bits : List Bool} {k : KatIn}
    (hstart : (getSource d i).sstate = 1 ∨ (getSource d i).sstate = 3) (hon : d.rng.state ≠ 0) (hf : startupFails i bits = true) :
    startupTest d i bits k = healthFailures (rngKatOnce d k) [i] := by
  unfold startupTest
  dsimp only
  rw [startupTest_runs hstart hon, if_neg Bool.false_ne_true, if_pos hf]

theorem startupTest_passes {d : Dev} {i : Nat} {bits : List Bool} {k : KatIn}
    (hstart : (getSource d i).sstate = 1 ∨ (getSource d i).sstate = 3) (hon : d.rng.state ≠ 0) (hlen : bits.length = 1024)
    (hf : startupFails i bits = false) :
    startupTest d i bits k = rngCheckService (setSource (rngKatOnce d k) i
      { getSource d i with sstate := 2, samples := (getSource d i).samples + 1024, health := healthReset }) := by
  unfold startupTest
  dsimp only
  rw [startupTest_runs hstart hon, if_neg Bool.false_ne_true, hf, if_neg Bool.false_ne_true, if_neg (by omega)]

/-- Settles O29: blocks by `rawBlock_quiet` and what the conditioner does with them, alarms by `alarmSources_fires`, failures by
`healthFailures_dead`, start-up tests by their two outcomes. -/
theorem noiseSources : Obligations.NoiseSources := by
  unfold Obligations.NoiseSources
  refine ⟨?mismatch, ?seed, ?full, ?alarm, ?again, ?quiet, ?passes, ?fails⟩
  case mismatch =>
    intro s i raw hi hhealthy hservice hsha hroute hq hroom
    have hexec : exec (.rawBlockComplete i raw false) s = .next (s.withDev (mismatchCounted (blockTested s.dev i.toNat raw))) := by
      rw [exec_rawBlockComplete hi, rawBlock_quiet hhealthy hservice hroute hq, if_neg (by simpa using hsha),
        conditionBlock_mismatch (d := blockTested s.dev i.toNat raw) hservice hroom]
    have hsource := getSource_blockTested s.dev i.toNat raw
    exact ⟨_, hexec, ⟨rfl, rfl, rfl⟩, rfl, rfl, rfl, congrArg SourceSt.blocks hsource,
      (congrArg SourceSt.samples hsource).trans rfl⟩
  case seed =>
    intro s i raw hi hhealthy hservice hsha hroute hq hroom hheld
    have hexec : exec (.rawBlockComplete i raw true) s = .next (s.withDev (seedAdded (blockTested s.dev i.toNat raw) i
        (seedOf i.toNat (getSource s.dev i.toNat).blocks.toNat (fit 256 raw)))) := by
      rw [exec_rawBlockComplete hi, rawBlock_quiet hhealthy hservice hroute hq, if_neg (by simpa using hsha),
        conditionBlock_agree (d := blockTested s.dev i.toNat raw) hservice hroom hheld, BitVec.ofNat_toNat, BitVec.setWidth_eq]
    exact ⟨_, hexec, ⟨rfl, rfl, rfl⟩, rfl, rfl, congrArg SourceSt.blocks (getSource_blockTested s.dev i.toNat raw)⟩
  case full =>
    intro s i raw agree hi hhealthy hservice hroute hq hfull hprs
    have hexec : exec (.rawBlockComplete i raw agree) s = .next (s.withDev (blockTested s.dev i.toNat raw)) := by
      rw [exec_rawBlockComplete hi, rawBlock_quiet hhealthy hservice hroute hq,
        conditionBlock_full (d := blockTested s.dev i.toNat raw) hservice hfull hprs, ite_self]
    exact ⟨_, hexec, ⟨rfl, rfl, rfl⟩, rfl, rfl, congrArg SourceSt.blocks (getSource_blockTested s.dev i.toNat raw)⟩
  case alarm =>
    intro s i bits p hi hhealthy hf hfirst
    obtain ⟨e, hsilent, halarm⟩ :=
      alarmAt_isolates s.dev i.toNat (healthRun i.toNat (getSource s.dev i.toNat).health 0 bits).2.1 p
    have hexec := exec_sourceAlarm_alone (s := s) hi bits
    rw [alarmSources_fires hhealthy hf, alarmAt_first hfirst, if_neg Bool.false_ne_true, halarm, healthFailures_none] at hexec
    have hsource := getSource_setSource e i.toNat
      ((getSource s.dev i.toNat).isolated s.dev.tick (healthRun i.toNat (getSource s.dev i.toNat).health 0 bits).2.1)
    refine ⟨_, hexec, ⟨rfl, rfl, rfl⟩, hsource, ?_⟩
    rw [withDev_dev, hsource]
    exact setSource_silent hsilent _ _
  case again =>
    intro s i bits p n hi hhealthy hf hlast hwithin
    have hexec := exec_sourceAlarm_alone (s := s) hi bits
    rw [alarmSources_fires hhealthy hf, alarmAt_again hlast hwithin, if_pos rfl] at hexec
    obtain ⟨hdead, hlisted, hstate, hseeds⟩ :=
      healthFailures_dead (alarmAt s.dev i.toNat (healthRun i.toNat (getSource s.dev i.toNat).health 0 bits).2.1 p).1 hi
    exact ⟨_, hexec, ⟨rfl, rfl, rfl⟩, hdead, hlisted, hstate, hseeds, healthFailures_event _ _⟩
  case quiet =>
    intro s i bits hi hhealthy hq
    rw [exec_sourceAlarm_alone hi, alarmSources_quiet hhealthy hq]
    rfl
  case passes =>
    intro s i bits k hi hstart hon hlen hpass hkat
    have hexec := exec_startupTestDone (s := s) hi ⟨bits, k⟩
    rw [startupTest_passes hstart hon hlen hpass] at hexec
    obtain ⟨hsource, hother, hnv⟩ := rngCheckService_qualifies (rngKatOnce s.dev k) i.toNat
      { getSource s.dev i.toNat with sstate := 2, samples := (getSource s.dev i.toNat).samples + 1024, health := healthReset }
    obtain ⟨b, hkats⟩ := rngKatOnce_passes hkat
    refine ⟨_, hexec, ⟨rfl, rfl, rfl⟩, hsource, fun n hn => (hother n hn).trans ?_, hnv.trans ?_⟩ <;> rw [hkats]
    rfl
  case fails =>
    intro s i bits k hi hstart hon hfail
    have hexec := exec_startupTestDone (s := s) hi ⟨bits, k⟩
    rw [startupTest_fails hstart hon hfail] at hexec
    obtain ⟨hdead, hlisted, hstate, hseeds⟩ := healthFailures_dead (rngKatOnce s.dev k) hi
    exact ⟨_, hexec, ⟨rfl, rfl, rfl⟩, hdead, hlisted, hstate, hseeds⟩

end Sys2Proof.Machine
end

section
/-! PROOFS. Byte memory and the fuses: which commands may store to either, and the canonical form of memory (10 R291, R297, 12 R338). -/

namespace Sys2Proof.Machine

/-! ### The state that a command answers -/

/-- Whatever next state an outcome answers, it is as said. -/
def Ensures (o : Host.Outcome State Fault Refusal) (p : State → Prop) : Prop := ∀ t, o = .next t → p t

theorem ensures_next {p : State → Prop} {u : State} (h : p u) : Ensures (.next u) p := by
  intro t ht
  cases ht
  exact h

theorem ensures_fault {p : State → Prop} {f : Fault} : Ensures (.fault f) p := fun _ ht => nomatch ht

theorem ensures_ite {p : State → Prop} {c : Prop} [Decidable c] {a b : Host.Outcome State Fault Refusal} (ha : Ensures a p)
    (hb : Ensures b p) : Ensures (if c then a else b) p := by
  split
  · exact ha
  · exact hb

/-- A register write changes the device and the fuses, and no byte of memory. -/
theorem writeAt_mem (s : State) (i : Ini) (a : Nat) (bs : List Byte) (k : Dev → Dev × Fuse) :
    Ensures (writeAt s i a bs k) fun t => t.mem = s.mem := by
  unfold writeAt
  refine ensures_ite (ensures_next rfl) (ensures_ite (ensures_next rfl) ?_)
  split <;> exact ensures_next rfl

/-! ### The commands by what they store -/

/-- A command that neither stores, stages nor programs a fuse acts on the device alone. -/
theorem exec_acts (c : Instr) (s : State) (hstores : storesBytes c = false) (hsettles : settlesStage c = false)
    (hburns : burnsFuses c = false) : Ensures (exec c s) fun t => t = s.withDev t.dev := by
  cases c
  -- the commands that the hypotheses leave out
  all_goals try exact absurd hstores.symm Bool.false_ne_true
  all_goals try exact absurd hsettles.symm Bool.false_ne_true
  all_goals try exact absurd hburns.symm Bool.false_ne_true
  case rackSvcreqDrain => exact ensures_ite ensures_fault (ensures_next rfl)
  case rackSvcreqReturn => exact ensures_ite ensures_fault (ensures_next rfl)
  case strikeExpire => exact ensures_ite ensures_fault (ensures_next rfl)
  case rawBlockComplete => exact ensures_ite ensures_fault (ensures_next rfl)
  case startupTestDone => exact ensures_ite ensures_fault (ensures_next rfl)
  case sourceAlarm => exact ensures_ite ensures_fault (ensures_next rfl)
  case pgVoteWrite => exact ensures_ite ensures_fault (ensures_next rfl)
  case hwVoteExpire => exact ensures_ite ensures_fault (ensures_next rfl)
  all_goals exact ensures_next rfl

/-- A command that stages or releases material of jobs changes memory by the settling of the staging area alone (03 R84). -/
theorem exec_settles {c : Instr} (s : State) (h : settlesStage c = true) :
    ∃ d f, exec c s = .next (stageSettle { s with dev := d, fuse := f }) ∧ (burnsFuses c = false → f = s.fuse) := by
  cases hrow : jobRow c with
  | some row => exact ⟨_, _, exec_of_jobRow s hrow, fun _ => rfl⟩
  | none =>
    cases c
    all_goals simp only [jobRow, reduceCtorEq] at hrow
    all_goals try exact absurd h Bool.false_ne_true
    case tickBoundary => exact ⟨_, _, rfl, fun hburns => absurd hburns.symm Bool.false_ne_true⟩
    case entryReadReturn => exact ⟨_, _, rfl, fun _ => rfl⟩
    case dmaReadCompletion => exact ⟨_, _, rfl, fun _ => rfl⟩

theorem exec_mem (c : Instr) (s : State) (hstores : storesBytes c = false) (hsettles : settlesStage c = false) :
    Ensures (exec c s) fun t => t.mem = s.mem := by
  cases hburns : burnsFuses c with
  | false => exact fun t ht => (congrArg State.mem (exec_acts c s hstores hsettles hburns t ht) :)
  | true =>
    cases c
    all_goals try exact absurd hburns Bool.false_ne_true
    all_goals try exact absurd hstores.symm Bool.false_ne_true
    all_goals try exact absurd hsettles.symm Bool.false_ne_true
    case registerWrite => rw [exec, execRegisterWrite]; exact writeAt_mem _ _ _ _ _
    case guardedRegisterWrite => exact ensures_ite (writeAt_mem _ _ _ _ _) (ensures_next rfl)
    case guardedShadowWrite => exact ensures_ite (writeAt_mem _ _ _ _ _) (ensures_next rfl)
    case pgEvtSetWrite => exact ensures_ite (ensures_next rfl) (writeAt_mem _ _ _ _ _)
    case pgLockWrite => exact ensures_ite (ensures_next rfl) (writeAt_mem _ _ _ _ _)
    all_goals exact ensures_next rfl

theorem exec_fuse (c : Instr) (s : State) (hburns : burnsFuses c = false) : Ensures (exec c s) fun t => t.fuse = s.fuse := by
  cases hsettles : settlesStage c with
  | true =>
    obtain ⟨d, f, hexec, hfuse⟩ := exec_settles s hsettles
    rw [hexec]
    exact ensures_next ((stageSettle_spec _).1.2.1.trans (hfuse hburns))
  | false =>
    cases hstores : storesBytes c with
    | false => exact fun t ht => (congrArg State.fuse (exec_acts c s hstores hsettles hburns t ht) :)
    | true =>
      cases c
      all_goals try exact absurd hstores Bool.false_ne_true
      all_goals try exact absurd hburns.symm Bool.false_ne_true
      case atrReceived => exact ensures_next rfl
      case apduResponse => exact ensures_ite (ensures_next rfl) (ensures_next rfl)

/-- Settles O3, command by command: memory by `exec_mem` and `exec_settles`, the fuses by `exec_fuse`. -/
theorem storeFrame : Obligations.StoreFrame := by
  unfold Obligations.StoreFrame
  refine ⟨fun c s t hc hj => exec_mem c s hc hj t, fun c s t hj ht => ?_, fun c s t hc => exec_fuse c s hc t⟩
  obtain ⟨d, f, hexec, _⟩ := exec_settles s hj
  rw [hexec] at ht
  cases ht
  obtain ⟨hpending, _, hmem⟩ := (stageSettle_spec { s with dev := d, fuse := f }).1
  exact ⟨hpending, rfl, hmem⟩

/-! ### The canonical form through the interconnect -/

theorem canonical_of_mem {s t : State} (hmem : t.mem = s.mem) (h : s.canonical) : t.canonical := by
  unfold State.canonical
  rw [hmem]
  exact h

theorem respond_mem (s : State) (t : Txn) (ok : Bool) (bs : List Byte) : (respond s t ok bs).mem = s.mem := by
  unfold respond; split <;> rfl

theorem deny_mem (s : State) (t : Txn) (rule : Nat) : (deny s t rule).mem = s.mem := respond_mem _ _ _ _

theorem partWrite_canonical {s : State} (h : s.canonical) (i : Ini) (a : Nat) (bs : List Byte) : (partWrite s i a bs).canonical := by
  unfold partWrite
  split
  · exact memPutBytes_wf _ _ _ h
  · exact memPutBytes_wf _ _ _ h
  all_goals exact h

theorem doPiece_canonical (t : Txn) (acc : State × Bool × List Byte) (x : Nat × Nat × List Byte) (h : acc.1.canonical) :
    (doPiece t acc x).1.canonical := by
  unfold doPiece
  dsimp only
  have hmem : ∀ (p : Prop) [Decidable p] (d e : Dev), ({ (if p then acc.1 else { acc.1 with dev := d }) with dev := e } : State).canonical := by
    intro p _ d e
    split <;> exact h
  split
  · exact partWrite_canonical (hmem _ _ _) _ _ _
  · exact hmem _ _ _

theorem carry_canonical (s : State) (t : Txn) (o : Bool) (n : Nat) (h : s.canonical) : (carry s t o n).canonical := by
  unfold carry
  dsimp only
  split
  · exact h
  · exact canonical_of_mem (respond_mem _ _ _ _)
      (foldl_holds (fun acc : State × Bool × List Byte => acc.1.canonical) (doPiece t) (doPiece_canonical t) _ _ h)

theorem checkOne_canonical (s : State) (t : Txn) (h : s.canonical) : (checkOne s t).canonical := by
  unfold checkOne
  dsimp only
  split
  · exact canonical_of_mem (deny_mem _ _ _) h
  · exact carry_canonical _ _ _ _ h

theorem onFabric_canonical (s : State) (t : Txn) (h : s.canonical) : (onFabric s t).canonical := by
  have answered : ∀ (d : Dev) (ok : Bool) (bs : List Byte), (respond { s with dev := d } t ok bs).canonical :=
    fun d ok bs => canonical_of_mem (respond_mem _ _ _ _) h
  unfold onFabric
  dsimp only
  split
  · exact h
  split
  · exact h
  split
  · exact answered _ _ _
  split
  · exact answered _ _ _
  split
  · exact foldl_holds State.canonical _ (fun s _ => checkOne_canonical s _) _ _ h
  · exact checkOne_canonical s t h

theorem transact_canonical (s : State) (t : Txn) (h : s.canonical) : (transact s t).canonical := by
  unfold transact
  split
  · exact h
  · split
    · exact onFabric_canonical _ _ h
    · exact canonical_of_mem (respond_mem _ _ _ _) h

theorem resume_canonical (s : State) (n : Nat) (h : s.canonical) : (resume s n).canonical := by
  have hcarried : ∀ (l : List Stalled) (u : State), u.canonical →
      (l.foldl (fun (s : State) (x : Stalled) => carry s x.t x.oldAcl x.potAt) u).canonical :=
    foldl_holds State.canonical _ fun s x => carry_canonical s _ _ _
  exact hcarried _ { s with dev := _ } h

theorem pageWiped_canonical (s : State) (k : Nat) (ok : Bool) (h : s.canonical) : (pageWiped s k ok).canonical := by
  unfold pageWiped
  split
  · exact resume_canonical _ _ (memWipe_wf _ _ _ h)
  · exact h

theorem cardBuffer_wf (s : State) (i : BitVec 2) (off : Nat) (bs : List Byte) (h : s.canonical) :
    Memory.wf (cardBuffer s i off bs) = true := by
  unfold cardBuffer
  dsimp only
  split
  · exact memPutBytes_wf _ _ _ h
  · exact h

/-! ### The canonical form through every command -/

theorem exec_stores_canonical {c : Instr} {s : State} (hc : storesBytes c = true) (h : s.canonical) :
    Ensures (exec c s) State.canonical := by
  cases c
  all_goals try exact absurd hc Bool.false_ne_true
  case fabricTransaction t => exact ensures_next (transact_canonical s t h)
  case domainReady n => exact ensures_ite ensures_fault (ensures_ite (ensures_next h) (ensures_next (resume_canonical _ _ h)))
  case pageWipe p ok => exact ensures_next (pageWiped_canonical s _ ok h)
  case coldReset b => exact ensures_ite (ensures_next h) (ensures_next (memWipe_wf _ _ _ h))
  case atrReceived i atr => exact ensures_next (cardBuffer_wf s i _ _ h)
  case apduResponse i bs sw => exact ensures_ite (ensures_next (cardBuffer_wf s i _ _ h)) (ensures_next h)

theorem exec_canonical (c : Instr) {s : State} (h : s.canonical) : Ensures (exec c s) State.canonical := by
  cases hstores : storesBytes c with
  | true => exact exec_stores_canonical hstores h
  | false =>
    cases hsettles : settlesStage c with
    | false => exact fun t ht => canonical_of_mem (exec_mem c s hstores hsettles t ht) h
    | true =>
      obtain ⟨d, f, hexec, _⟩ := exec_settles s hsettles
      rw [hexec]
      exact ensures_next ((stageSettle_spec _).2.2 h)

/-- Settles O5: a step is the command at the front of the queue, and every command keeps the canonical form. -/
theorem memoryCanonical : Obligations.MemoryCanonical := by
  unfold Obligations.MemoryCanonical
  intro s t h
  unfold step
  split
  · exact ensures_next h t
  · next c rest _ => exact exec_canonical c (s := { s with pending := rest }) h t

end Sys2Proof.Machine
end

section
/-! PROOFS. The order of the access check (10 R291, R293, R295, R298-R300). -/

namespace Sys2Proof.Machine

/-! ### Pages of shared SRAM -/

theorem pageKind_sram {p : Nat} (h : p < 0x2000) : pageKind p = .none := by
  have hlow : ∀ {n : Nat}, 0x2000 ≤ n → ¬ n ≤ p := fun hn => by omega
  have hne : ∀ {n : Nat}, 0x2000 ≤ n → p ≠ n := fun hn => by omega
  unfold pageKind
  simp [hlow, hne]

theorem regionOf_sram {p : Nat} : regionOf p = .sram ↔ p < 0x2000 := by
  unfold regionOf
  repeat' split
  all_goals simp_all

theorem keyPageShut_sram (i : Ini) (k : TxnKind) {p : Nat} (h : p < 0x2000) : keyPageShut i k p = false := by
  unfold keyPageShut
  rw [pageKind_sram h]
  rfl

/-! ### The steps of the check, in their order -/

/-- Step 2 passes: the page is no keeper page, or the initiator belongs to the keeper world. -/
def keeperPasses (d : Dev) (i : Ini) (p : Nat) : Prop := iniKeeper d i.id = true ∨ keeperAddr d p = false

/-- Steps 2 and 3 pass: what is left is the access table and the default map. -/
structure reachesTable (d : Dev) (i : Ini) (k : TxnKind) (p : Nat) : Prop where
  keeper : keeperPasses d i p
  key : keyPageShut i k p = false
  owner : regionOf p = .sram → potAdmits d i k p = true

/-- What is left of the check: the winning entry decides, and without one the privilege and the default map. -/
def tableRule (d : Dev) (i : Ini) (k : TxnKind) (p : Nat) : Option Nat :=
  match aclWinner d i p with
  | some (n, e) => if permits (bit e.w3 2) (bit e.w3 1) (bit e.w3 0) k then none else some n
  | none => if !i.priv then some 0x401 else if defaultMap i p k then none else some 0x400

section
variable {d : Dev} {i : Ini} {k : TxnKind} {p : Nat}

theorem keeperPasses_iff : keeperPasses d i p ↔ ¬ (!iniKeeper d i.id && keeperAddr d p) = true := by
  unfold keeperPasses
  cases iniKeeper d i.id <;> cases keeperAddr d p <;> decide

theorem denyRule_keeper (hini : iniKeeper d i.id = false) (hpage : keeperAddr d p = true) : denyRule d i k p = some 0x402 := by
  unfold denyRule
  rw [if_pos (by rw [hini, hpage]; rfl)]

theorem denyRule_key (hkeeper : keeperPasses d i p) (hkey : keyPageShut i k p = true) : denyRule d i k p = some 0x400 := by
  unfold denyRule
  rw [if_neg (keeperPasses_iff.mp hkeeper), if_pos hkey]

theorem denyRule_owner (hkeeper : keeperPasses d i p) (hsram : regionOf p = .sram) (howner : potAdmits d i k p = false) :
    denyRule d i k p = some 0x403 := by
  unfold denyRule
  rw [if_neg (keeperPasses_iff.mp hkeeper), keyPageShut_sram i k (regionOf_sram.mp hsram), if_neg Bool.false_ne_true, hsram, howner]
  rfl

/-- Past the pages' own rules the access table and the default map decide. -/
theorem denyRule_table (h : reachesTable d i k p) : denyRule d i k p = tableRule d i k p := by
  have hkey : ¬ keyPageShut i k p = true := Bool.eq_false_iff.mp h.key
  have howner : ¬ (regionOf p = .sram && !potAdmits d i k p) = true := by
    simpa using h.owner
  exact (if_neg (keeperPasses_iff.mp h.keeper)).trans ((if_neg hkey).trans (if_neg howner))

theorem denyRule_winner {n : Nat} {e : AclEnt} (h : reachesTable d i k p) (hwin : aclWinner d i p = some (n, e)) :
    denyRule d i k p = if permits (bit e.w3 2) (bit e.w3 1) (bit e.w3 0) k then none else some n := by
  rw [denyRule_table h, tableRule, hwin]

theorem denyRule_unprivileged (h : reachesTable d i k p) (hwin : aclWinner d i p = none) (hpriv : i.priv = false) :
    denyRule d i k p = some 0x401 := by
  rw [denyRule_table h, tableRule, hwin, hpriv]
  rfl

theorem denyRule_default (h : reachesTable d i k p) (hwin : aclWinner d i p = none) (hpriv : i.priv = true) :
    denyRule d i k p = if defaultMap i p k then none else some 0x400 := by
  rw [denyRule_table h, tableRule, hwin, hpriv]
  rfl

end

/-- No entry of the porter section matches a transaction of the keeper world. -/
theorem keeper_entry_of_match {i : Ini} {p n : Nat} {e : AclEnt} (h : aclMatch true i p n e = true) : 768 ≤ n := by
  unfold aclMatch at h
  simp only [Bool.and_eq_true, Bool.not_eq_true', Bool.true_and, decide_eq_false_iff_not] at h
  omega

theorem aclWinner_matches {d : Dev} {i : Ini} {p n : Nat} {e : AclEnt} (h : aclWinner d i p = some (n, e)) :
    aclMatch (iniKeeper d i.id) i p n e = true :=
  (List.mem_filter.mp (List.mem_of_getLast? h)).2

/-- Settles O32: each step of the check decides once the steps before it pass. -/
theorem accessCheck : Obligations.AccessCheck := by
  unfold Obligations.AccessCheck
  refine ⟨fun d i k p => denyRule_keeper, fun d i k p => denyRule_key, fun d i k p => denyRule_owner, ?winner, ?unprivileged, ?default, ?keeperSection⟩
  case winner => exact fun d i k p n e hkeeper hkey howner => denyRule_winner ⟨hkeeper, hkey, howner⟩
  case unprivileged => exact fun d i k p hkeeper hkey howner => denyRule_unprivileged ⟨hkeeper, hkey, howner⟩
  case default => exact fun d i k p hkeeper hkey howner => denyRule_default ⟨hkeeper, hkey, howner⟩
  case keeperSection =>
    intro d i p n e hwin hini
    have hmatch := aclWinner_matches hwin
    rw [hini] at hmatch
    exact keeper_entry_of_match hmatch

end Sys2Proof.Machine
end

section
/-! PROOFS. Accesses to shared SRAM through the fabric (10 R291, R292, R295, R303). -/

namespace Sys2Proof.Machine

/-! ### Pages of shared SRAM lie in no Switchable domain -/

section
variable {p : Nat} (h : p < 0x2000)
include h

theorem pageDomain_sram : pageDomain p = none := by
  unfold pageDomain
  rw [pageKind_sram h]

theorem asleep_sram (d : Dev) : asleep d p = none := by
  unfold asleep
  rw [pageDomain_sram h]

theorem touchPage_sram (d : Dev) : touchPage d p = d := by
  unfold touchPage
  rw [pageDomain_sram h]

end

/-! ### An access within one page -/

/-- An access that lies within one page is one piece. -/
theorem txnPieces_onePage {t : Txn} (hlen : 0 < t.len) (hpage : t.addr.toNat % 0x1000 + t.len ≤ 0x1000) :
    txnPieces t = [(t.addr.toNat, t.len, t.data.take t.len)] := by
  have hmin : min t.len (0x1000 - t.addr.toNat % 0x1000) = t.len := by omega
  unfold txnPieces
  simp only [pieces, hmin, Nat.ne_of_gt hlen, Nat.sub_self, if_true, if_false]

theorem countChecked_quiet (d : Dev) (t : Txn) : (countChecked d t).quiet = d.quiet := by
  unfold countChecked
  refine foldl_same Dev.quiet _ (fun a x => ?_) _ _
  dsimp only
  repeat' split
  all_goals simp only [pmcFabric_quiet]

/-- The check looks at nothing that event reporting changes. -/
theorem denyRule_of_quiet {a b : Dev} (h : a.quiet = b.quiet) (i : Ini) (k : TxnKind) (p : Nat) : denyRule a i k p = denyRule b i k p := by
  have := congrArg (fun d => denyRule d i k p) h; exact this

theorem violRecord_of_quiet {a b : Dev} (h : a.quiet = b.quiet) (i : Ini) (addr len : Nat) (k : TxnKind) (x : Bool) (r m : Nat) :
    violRecord a i addr len k x r m = violRecord b i addr len k x r m := by
  have := congrArg (fun d => violRecord d i addr len k x r m) h; exact this

/-- The state in which a checked access is carried out or denied. -/
def checkedState (s : State) (t : Txn) : State := s.withDev (countChecked s.dev t)

theorem checkedState_quiet (s : State) (t : Txn) : (checkedState s t).dev.quiet = s.dev.quiet := countChecked_quiet _ _

section
variable {s : State} {t : Txn} (h : sramAccess s t)
include h

theorem sramAccess_pieces : txnPieces t = [(t.addr.toNat, t.len, t.data.take t.len)] := by
  obtain ⟨-, -, -, -, hlen, hpage, -, -⟩ := h
  exact txnPieces_onePage hlen hpage

theorem sramAccess_page : t.addr.toNat / 0x1000 < 0x2000 := by
  obtain ⟨-, -, -, -, -, -, hsram, -⟩ := h
  exact hsram

/-- An access to shared SRAM meets the check as it stands. -/
theorem transact_sram (hburst : t.burst = false) : transact s t = checkOne s t := by
  have hpieces := sramAccess_pieces h
  obtain ⟨hini, hdebug, hmmio, hsys, hlen, -, -, -⟩ := h
  have hhost : (isFnId t.ini.id && t.mmio) = false := by
    cases hf : isFnId t.ini.id with
    | false => rfl
    | true => exact hmmio hf
  have hdecoded : decoded t = some t := by
    unfold decoded
    rw [hhost]
    rfl
  unfold transact onFabric
  simp only [hdecoded, hhost, hdebug, hburst, hpieces, Nat.not_le.mpr hini, Nat.ne_of_gt hlen, beq_false_of_ne hsys, List.length_singleton,
    Nat.lt_irrefl, decide_false, Bool.false_and, Bool.and_false, Bool.or_false, Bool.false_eq_true, if_false]

theorem exec_sram (hburst : t.burst = false) : exec (.fabricTransaction t) s = .next (checkOne s t) := by
  rw [exec, execFabricTransaction, transact_sram h hburst]

theorem checkOne_denied {r : Nat} (hdeny : denyRule s.dev (txnIni t) t.kind (t.addr.toNat / 0x1000) = some r) :
    checkOne s t = deny (checkedState s t) t r := by
  have hcounted := (denyRule_of_quiet (countChecked_quiet s.dev t) (txnIni t) t.kind (t.addr.toNat / 0x1000)).trans hdeny
  unfold checkOne
  simp only [sramAccess_pieces h, List.findSome?_cons, hcounted]
  rfl

/-- A permitted access of a page that awaits no wipe is carried out at once. -/
theorem checkOne_permitted (hdeny : denyRule s.dev (txnIni t) t.kind (t.addr.toNat / 0x1000) = none) :
    checkOne s t = (let r := doPiece t (checkedState s t, true, []) (t.addr.toNat, t.len, t.data.take t.len)
      respond r.1 t r.2.1 r.2.2) := by
  have hcounted := (denyRule_of_quiet (countChecked_quiet s.dev t) (txnIni t) t.kind (t.addr.toNat / 0x1000)).trans hdeny
  have hpieces := sramAccess_pieces h
  have hpot : (countChecked s.dev t).pot = s.dev.pot := quiet_pot (countChecked_quiet _ _)
  obtain ⟨-, -, -, -, -, -, hsram, hwipe⟩ := h
  have hwaits : pieceWaits (countChecked s.dev t) t (countChecked s.dev t).pot.commits t.addr.toNat = none := by
    have hnone : (s.dev.pot.wipes.any fun w => w.1 == t.addr.toNat / 0x1000 && decide (w.2 ≤ s.dev.pot.commits)) = false := by
      rw [List.any_eq_false]
      intro w hw hmatch
      simp only [Bool.and_eq_true, beq_iff_eq] at hmatch
      exact hwipe (List.mem_map.mpr ⟨w, hw, hmatch.1⟩)
    unfold pieceWaits
    simp only [hpot, hnone, asleep_sram hsram, Bool.and_false, Bool.false_eq_true, if_false, ite_self]
  unfold checkOne carry
  simp only [hpieces, List.findSome?_cons, List.findSome?_nil, hcounted, hwaits, List.foldl_cons, List.foldl_nil]
  rfl

end

/-! ### One piece in shared SRAM -/

section
variable {t : Txn} {s : State} {a n : Nat} {bs : List Byte} (hpage : a / 0x1000 < 0x2000)
include hpage

theorem doPiece_sramWrite (hkind : t.kind = .write) (ok : Bool) (out : List Byte) :
    doPiece t (s, ok, out) (a, n, bs) =
      (let w := partWrite s (txnIni t) a (fit n bs)
       (w.withDev (pmcFabric w.dev 0x14 n (txnIni t) (a / 0x1000)), ok, out)) := by
  unfold doPiece
  simp [hkind, touchPage_sram hpage, State.withDev]

theorem doPiece_sramRead (hkind : t.kind = .read) (ok : Bool) (out : List Byte) :
    doPiece t (s, ok, out) (a, n, bs) =
      (s.withDev (pmcFabric s.dev 0x13 n (txnIni t) (a / 0x1000)), ok && !poisonIn s.dev a n, out ++ sramBytes s a n) := by
  have hread : partRead s (txnIni t) a n = (!poisonIn s.dev a n, sramBytes s a n, s.dev) := by
    unfold partRead
    rw [regionOf_sram.mpr hpage]
  unfold doPiece
  simp [hkind, touchPage_sram hpage, asleep_sram hpage, hread, State.withDev]

/-- The bytes that are written; a word written whole loses its poison. -/
theorem partWrite_sram (i : Ini) : ∃ poison, partWrite s i a bs =
    { s with mem := memPutBytes s.mem a bs, dev := { s.dev with pot := { s.dev.pot with poison := poison } } } := by
  unfold partWrite
  rw [regionOf_sram.mpr hpage]
  exact ⟨_, rfl⟩

end

theorem sramBytes_of_quiet {s u : State} (hmem : u.mem = s.mem) (h : u.dev.quiet = s.dev.quiet) (a n : Nat) :
    sramBytes u a n = sramBytes s a n := by
  unfold sramBytes
  rw [hmem, quiet_pot h]

theorem poisonIn_of_quiet {d e : Dev} (h : e.quiet = d.quiet) (a n : Nat) : poisonIn e a n = poisonIn d a n := by
  have := congrArg (fun d => poisonIn d a n) h; exact this

theorem repoisoned_of_quiet {d e : Dev} (h : e.quiet = d.quiet) (poison : List Nat) :
    ({ e with pot := { e.pot with poison := poison } } : Dev).quiet = ({ d with pot := { d.pot with poison := poison } } : Dev).quiet :=
  congrArg (fun d : Dev => { d with pot := { d.pot with poison := poison } }) h

theorem fit_length (n : Nat) (bs : List Byte) : (fit n bs).length = n := slice_length _ _ _

/-- Bytes cut to a length hold what the string holds, and zeros past its end. -/
theorem fit_take_getD {n k : Nat} (bs : List Byte) (hk : k < n) : (fit n (bs.take n)).getD k 0 = bs.getD k 0 := by
  have hpast : ¬ k < min n bs.length → bs[k]? = none := fun h => List.getElem?_eq_none (by omega)
  unfold fit slice
  simp only [List.drop_zero, List.take_take, Nat.min_self, List.getD_eq_getElem?_getD, List.getElem?_append, List.getElem?_take,
    List.length_take, List.getElem?_replicate, hk, if_true]
  split
  · rfl
  · next h => rw [hpast h, if_pos (by omega)]; rfl

theorem respond_quiet (s : State) (t : Txn) (ok : Bool) (bs : List Byte) : (respond s t ok bs).dev.quiet = s.dev.quiet := by
  unfold respond; split <;> rfl

theorem respond_fuse (s : State) (t : Txn) (ok : Bool) (bs : List Byte) : (respond s t ok bs).fuse = s.fuse := by
  unfold respond; split <;> rfl

/-- An access that is no posted write gets its response last. -/
theorem respond_egress {t : Txn} (h : isPosted t = false) (s : State) (ok : Bool) (bs : List Byte) :
    (respond s t ok bs).dev.egress.getLast? = some (.fabric t.ini.id ok bs) := by
  unfold respond
  rw [h, if_neg Bool.false_ne_true]
  exact List.getLast?_concat

/-! ### The four clauses -/

/-- The bytes after a permitted write; what it puts on the ports is event reporting alone. -/
theorem checkOne_sramWrite {s : State} {t : Txn} (h : sramAccess s t) (hkind : t.kind = .write)
    (hdeny : denyRule s.dev (txnIni t) .write (t.addr.toNat / 0x1000) = none) :
    (checkOne s t).pending = s.pending ∧ (checkOne s t).fuse = s.fuse ∧
    (checkOne s t).mem = memPutBytes s.mem t.addr.toNat (fit t.len (t.data.take t.len)) ∧
    (checkOne s t).dev.quiet = { s.dev with pot := { s.dev.pot with poison := (checkOne s t).dev.pot.poison } }.quiet := by
  have hpage := sramAccess_page h
  obtain ⟨poison, hwrite⟩ := partWrite_sram (s := checkedState s t) (bs := fit t.len (t.data.take t.len)) hpage (txnIni t)
  have hdev : (checkOne s t).dev.quiet = { s.dev with pot := { s.dev.pot with poison := poison } }.quiet := by
    rw [checkOne_permitted h (hkind ▸ hdeny), doPiece_sramWrite hpage hkind, hwrite, respond_quiet]
    exact (pmcFabric_quiet _ _ _ _ _).trans (repoisoned_of_quiet (checkedState_quiet s t) poison)
  have hpoison : (checkOne s t).dev.pot.poison = poison := congrArg Pot.poison (quiet_pot hdev)
  refine ⟨checkOne_pending s t, ?_, ?_, hpoison ▸ hdev⟩
  · rw [checkOne_permitted h (hkind ▸ hdeny), doPiece_sramWrite hpage hkind, hwrite, respond_fuse]
    rfl
  · rw [checkOne_permitted h (hkind ▸ hdeny), doPiece_sramWrite hpage hkind, hwrite, respond_mem]
    rfl

/-- A denied access changes nothing but reports. -/
theorem deny_frame (s : State) (t : Txn) (r : Nat) : s.sameOutside (deny s t r) ∧ (deny s t r).dev.unlogged = s.dev.unlogged := by
  refine ⟨⟨respond_pending _ _ _ _, respond_mem _ _ _ _, respond_fuse _ _ _ _⟩, ?_⟩
  unfold deny
  rw [unlogged_of_silent (silent_of_quiet (respond_quiet _ _ _ _)), violate_unlogged,
    unlogged_of_silent (silent_of_quiet (pmcFabric_quiet _ _ _ _ _))]

/-- Outside GJ-5100 mode a precise violation takes the next slot of the ring. -/
theorem violate_precise {d : Dev} (h : d.acl.compat = false) (i : Ini) (a n : Nat) (k : TxnKind) (r : Nat) :
    (violate d i a n k true r).acl = ringPush d.acl (violRecord d i a n k true r 0) := by
  unfold violate
  simp only [evLog_acl, h, if_true, Bool.false_eq_true, if_false]

theorem deny_acl {s : State} {t : Txn} (hcompat : s.dev.acl.compat = false) (hposted : isPosted t = false) (r : Nat) :
    (deny s t r).dev.acl = ringPush s.dev.acl (violRecord s.dev (txnIni t) t.addr.toNat (max 1 t.len) t.kind true r 0) := by
  have hcount : (pmcFabric s.dev 0x15 1 (txnIni t) (t.addr.toNat / 0x1000)).quiet = s.dev.quiet := pmcFabric_quiet _ _ _ _ _
  unfold deny
  rw [quiet_acl (respond_quiet _ _ _ _)]
  dsimp only
  rw [hposted, Bool.not_false, violate_precise ((congrArg Acl.compat (quiet_acl hcount)).trans hcompat), quiet_acl hcount,
    violRecord_of_quiet hcount]

/-- Settles O31: an access within one page of shared SRAM is checked as one piece, and the piece read, written or denied. -/
theorem sharedSram : Obligations.SharedSram := by
  unfold Obligations.SharedSram
  refine ⟨?write, ?read, ?denied, ?unmapped⟩
  case write =>
    intro s t h hburst hkind hdeny hwf
    obtain ⟨hpending, hfuse, hmem, hdev⟩ := checkOne_sramWrite h hkind hdeny
    refine ⟨_, exec_sram h hburst, hpending, hfuse, fun k hk => ?_, fun a ha => ?_, hdev⟩
    · rw [hmem, memGet_putBytes_same _ _ _ _ hwf (by rw [fit_length]; exact hk), ← fit_take_getD t.data hk, List.getD_eq_getElem]
    · rw [hmem, memGet_putBytes_other _ _ _ _ (by rw [fit_length]; exact ha)]
  case read =>
    intro s t h hburst hkind hdeny
    have hpage := sramAccess_page h
    have hcheck := (checkOne_permitted h (hkind ▸ hdeny)).trans (by rw [doPiece_sramRead hpage hkind])
    have hcounted := checkedState_quiet s t
    have hposted : isPosted t = false := by unfold isPosted; rw [hkind]; rfl
    refine ⟨_, exec_sram h hburst, ?_⟩
    rw [hcheck]
    refine ⟨⟨respond_pending _ _ _ _, respond_mem _ _ _ _, respond_fuse _ _ _ _⟩, ?_, ?_⟩
    · rw [respond_quiet]
      exact (pmcFabric_quiet _ _ _ _ _).trans hcounted
    · rw [respond_egress hposted, Bool.true_and, poisonIn_of_quiet hcounted, List.nil_append, sramBytes_of_quiet (s := s) (u := checkedState s t) rfl hcounted]
  case denied =>
    intro s t r h hburst hdeny hposted
    have hcounted := checkedState_quiet s t
    have hacl : (checkedState s t).dev.acl = s.dev.acl := quiet_acl hcounted
    have hlen : max 1 t.len = t.len := by obtain ⟨-, -, -, -, hlen, -⟩ := h; omega
    obtain ⟨houtside, hdev⟩ := deny_frame (checkedState s t) t r
    refine ⟨_, exec_sram h hburst, ?_⟩
    rw [checkOne_denied h hdeny]
    refine ⟨houtside, hdev.trans (unlogged_of_silent (silent_of_quiet hcounted)), ?_, fun hcompat => ?_⟩
    · rw [deny, respond_egress hposted]
      simp
    · rw [deny_acl ((congrArg Acl.compat hacl).trans hcompat) hposted, hacl, violRecord_of_quiet hcounted, hlen]
      exact ⟨rfl, tabGet_put_same _ _ _ _⟩
  case unmapped =>
    intro s t hfn hmmio hlen hpage hbar
    have hdecoded : decoded t = none := by
      unfold decoded
      rw [hfn, hmmio, hbar]
      rfl
    rw [exec, execFabricTransaction, transact, hdecoded, if_neg (by simp; omega)]
    unfold respond
    simp only [beq_iff_eq]
    split <;> rfl

end Sys2Proof.Machine
end

section
/-! PROOFS. Commits of the access table and of the page owner table, and page wipes (10 R296, R297, R299, R302). -/

namespace Sys2Proof.Machine

/-! ### Reads of filled and filtered tables -/

theorem tabGet_filter {α : Type} (p : Nat → Bool) (t : Tab α) (k : Nat) (d : α) :
    tabGet (t.filter fun e => p e.1) k d = if p k then tabGet t k d else d := by
  induction t with
  | nil => simp [tabGet]
  | cons e r ih =>
    obtain ⟨j, v⟩ := e
    rw [List.filter_cons]
    by_cases hjk : j = k
    · subst hjk
      cases hp : p j <;> simp [tabGet, ih, hp]
    · split <;> simp [tabGet, ih, hjk]

/-- Entries put in place from the last to the first read as the list itself does. -/
theorem tabGet_putAll {α : Type} (l t : Tab α) (k : Nat) (d : α) :
    tabGet (l.foldr (fun e (t : Tab α) => tabPut t e.1 e.2) t) k d = tabGet l k (tabGet t k d) := by
  induction l with
  | nil => rfl
  | cons e r ih =>
    obtain ⟨j, v⟩ := e
    rw [List.foldr_cons, tabGet]
    split
    · next h => rw [h, tabGet_put_same]
    · next h => rw [tabGet_put_other _ _ _ (Ne.symm h), ih]

/-! ### Commits of the access table (10 R299, R302) -/

/-- One section of the current table is that of the next one, and the other stays. -/
theorem aclGet_aclSection (a : Acl) (keeper : Bool) (n : Nat) :
    aclGet (aclSection a keeper).cur n = if decide (768 ≤ n) == keeper then aclGet a.next n else aclGet a.cur n := by
  unfold aclSection aclGet
  dsimp only
  rw [tabGet_putAll, tabGet_filter fun k => decide (768 ≤ k) == keeper, tabGet_filter fun k => !(decide (768 ≤ k) == keeper)]
  cases decide (768 ≤ n) == keeper <;> rfl

theorem aclCommit_only (d : Dev) (keeper : Bool) : aclCommit d keeper =
    { d with acl := { d.acl with cur := (aclCommit d keeper).acl.cur, drained := d.acl.stalled.isEmpty,
                                 stalled := (aclCommit d keeper).acl.stalled } } := rfl

theorem exec_aclCommitk {ini : Ini} (h : keeperOnly ini = true) (s : State) :
    exec (.aclCommitk ini) s = .next (s.withDev (aclCommit s.dev true)) := by
  rw [exec, execAclCommitk, act, aclCommitK, if_pos h]
  rfl

theorem exec_aclCommitp {ini : Ini} (h : coreOnly ini = true) (s : State) :
    exec (.aclCommitp ini) s = .next (s.withDev (aclCommit s.dev false)) := by
  rw [exec, execAclCommitp, act, aclCommitP, if_pos h]
  rfl

theorem exec_fvalidClear {ini : Ini} (h : coreOnly ini = true) (s : State) :
    exec (.fvalidClear ini) s = .next (s.withDev { s.dev with acl := { s.dev.acl with fvalid := false } }) := by
  rw [exec, execFvalidClear, act, fvalidClear, if_pos h]
  rfl

/-! ### POT apply (10 R296, R315) -/

theorem potRange_nodup (first count : Nat) : (potRange first count).Nodup := by
  unfold potRange
  split
  · exact List.nodup_nil
  · exact List.nodup_range.map (add_right_injective first)

theorem potGet_put (t : Tab Word) (k p : Nat) (v : Word) : potGet (tabPut t k v) p = if p = k then v else potGet t p := by
  unfold potGet
  split
  · next h => rw [h, tabGet_put_same]
  · next h => exact tabGet_put_other _ _ _ h

/-- Each page of the range takes the value, and no other page changes. -/
theorem potGet_potWrite {ks : List Nat} (h : ks.Nodup) (t : Tab Word) (v : Word) (p : Nat) :
    potGet (potWrite t ks v) p = if ks.contains p then potValue (potGet t p) v else potGet t p := by
  induction ks generalizing t with
  | nil => rfl
  | cons k r ih =>
    obtain ⟨hk, hr⟩ := List.nodup_cons.mp h
    refine (ih hr _).trans ?_
    rw [potGet_put]
    by_cases hp : p = k
    · subst hp
      simp [hk]
    · simp [hp]

/-- A list with the members of another that it lacks. -/
def joinedPages (l ks : List Nat) : List Nat := l ++ ks.filter fun k => !l.contains k

theorem potApply_keeper {d : Dev} {i : Ini} (hini : keeperOnly i = true)
    (hfixed : ∀ p ∈ potRange d.pot.kfirst.toNat d.pot.kcount.toNat, potFixed d.pot p d.pot.kval = false) :
    potApply d i true = { d with pot := { d.pot with
      next := potWrite d.pot.next (potRange d.pot.kfirst.toNat d.pot.kcount.toNat) d.pot.kval
      kTouch := joinedPages d.pot.kTouch (potRange d.pot.kfirst.toNat d.pot.kcount.toNat) } } := by
  unfold potApply
  dsimp only
  rw [if_neg (by simp [hini]), if_neg (by simpa using hfixed)]
  rfl

theorem potApply_porter {d : Dev} {i : Ini} (hini : coreOnly i = true)
    (hfree : ∀ p ∈ potRange d.pot.pfirst.toNat d.pot.pcount.toNat, potFixed d.pot p d.pot.pval = false ∧
      potWorld (potGet d.pot.cur p) = false ∧ potWorld (potGet d.pot.next p) = false) (hworld : potWorld d.pot.pval = false) :
    potApply d i false = { d with pot := { d.pot with
      next := potWrite d.pot.next (potRange d.pot.pfirst.toNat d.pot.pcount.toNat) d.pot.pval
      pTouch := joinedPages d.pot.pTouch (potRange d.pot.pfirst.toNat d.pot.pcount.toNat) } } := by
  have hnone : ((potRange d.pot.pfirst.toNat d.pot.pcount.toNat).any fun k => potFixed d.pot k d.pot.pval ||
      (!false && !keeperOnly i && (potWorld (potGet d.pot.cur k) || potWorld (potGet d.pot.next k) || potWorld d.pot.pval))) = false := by
    rw [List.any_eq_false]
    intro p hp
    obtain ⟨hfixed, hcur, hnext⟩ := hfree p hp
    simp [hfixed, hcur, hnext, hworld]
  unfold potApply
  dsimp only
  rw [if_neg (by simp [hini])]
  simp only [Bool.false_eq_true, if_false]
  rw [hnone]
  rfl

/-- An apply that would change a page which the boot loader fixed is ignored. -/
theorem potApply_fixed {d : Dev} {p : Nat} (hp : p ∈ potRange d.pot.kfirst.toNat d.pot.kcount.toNat)
    (hfixed : potFixed d.pot p d.pot.kval = true) (i : Ini) : potApply d i true = ignored d i (regAddr potPage 0x054) := by
  unfold potApply
  simp only [if_true]
  by_cases hini : keeperOnly i = true
  · rw [if_neg (by simp [hini]), if_pos (List.any_eq_true.mpr ⟨p, hp, by simp [hfixed]⟩)]
  · rw [if_pos (by simpa using hini)]

/-! ### POT commits (10 R297, R302) -/

/-- The pages that a window has applied since its last commit. -/
def Pot.touched (p : Pot) (keeper : Bool) : List Nat := if keeper then p.kTouch else p.pTouch

theorem potGet_putEach (g : Nat → Word) (ks : List Nat) (t : Tab Word) (p : Nat) :
    potGet (ks.foldl (fun (t : Tab Word) k => tabPut t k (g k)) t) p = if ks.contains p then g p else potGet t p := by
  induction ks generalizing t with
  | nil => rfl
  | cons k r ih =>
    refine (ih _).trans ?_
    rw [potGet_put]
    by_cases hp : p = k
    · subst hp
      simp
    · simp [hp]

theorem potGet_potCommit (d : Dev) (keeper : Bool) (p : Nat) : potGet (potCommit d keeper).pot.cur p =
    if (d.pot.touched keeper).contains p then potGet d.pot.next p else potGet d.pot.cur p :=
  potGet_putEach _ _ _ _

theorem wantWipes_mem {d : Dev} {ps : List Nat} {p : Nat} (h : p ∈ ps) : (p, d.pot.commits) ∈ (wantWipes d ps).pot.wipes := by
  unfold wantWipes
  dsimp only
  by_cases hw : (p, d.pot.commits) ∈ d.pot.wipes
  · exact List.mem_append_left _ hw
  · exact List.mem_append_right _ (List.mem_map.mpr ⟨p, List.mem_filter.mpr ⟨h, by simp [hw]⟩, rfl⟩)

/-- Every page that changes owner awaits its wipe. -/
theorem potCommit_wipes {d : Dev} {keeper : Bool} {p : Nat} (hp : p ∈ d.pot.touched keeper)
    (hchange : potOwnerChange (potGet d.pot.cur p) (potGet d.pot.next p) = true) :
    (p, d.pot.commits + 1) ∈ (potCommit d keeper).pot.wipes := by
  unfold potCommit
  exact wantWipes_mem (List.mem_filter.mpr ⟨hp, hchange⟩)

theorem exec_potCommitk {ini : Ini} (h : keeperOnly ini = true) (s : State) :
    exec (.potCommitk ini) s = .next (s.withDev (potCommit s.dev true)) := by
  rw [exec, execPotCommitk, act, potCommitK, if_pos h]
  rfl

theorem exec_potCommitp {ini : Ini} (h : coreOnly ini = true) (s : State) :
    exec (.potCommitp ini) s = .next (s.withDev (potCommit s.dev false)) := by
  rw [exec, execPotCommitp, act, potCommitP, if_pos h]
  rfl

/-! ### Page wipes (10 R297) -/

theorem uncaused_acl {a b : Dev} (h : a.uncaused = b.uncaused) : a.acl = b.acl := by
  have := congrArg Dev.acl h; exact this
theorem uncaused_pot {a b : Dev} (h : a.uncaused = b.uncaused) : a.pot = b.pot := by
  have := congrArg Dev.pot h; exact this

theorem potWithdraw_stalled (d : Dev) (k : Nat) : (potWithdraw d k).acl.stalled = d.acl.stalled := by
  unfold potWithdraw
  dsimp only
  split
  · rw [uncaused_acl (setCause_uncaused _ _), evLog_acl]
  · rw [evLog_acl]

theorem potWithdraw_wipes (d : Dev) (k : Nat) : (potWithdraw d k).pot.wipes = d.pot.wipes := by
  unfold potWithdraw
  dsimp only
  split
  · rw [uncaused_pot (setCause_uncaused _ _), evLog_pot]
  · rw [evLog_pot]

theorem wipePage_stalled (d : Dev) (k c : Nat) (ok : Bool) : (wipePage d k c ok).acl.stalled = d.acl.stalled := by
  unfold wipePage
  dsimp only
  split
  · exact potWithdraw_stalled _ _
  · rfl

theorem wipePage_wipes (d : Dev) (k c : Nat) (ok : Bool) : (wipePage d k c ok).pot.wipes = d.pot.wipes.filter (· != (k, c)) := by
  unfold wipePage
  dsimp only
  split
  · exact potWithdraw_wipes _ _
  · rfl

/-- With no transaction that waits for it, what ends a wait settles the drained bits alone. -/
theorem resume_nobody {s : State} {code : Nat} (h : ∀ x ∈ s.dev.acl.stalled, x.domain ≠ code) :
    resume s code = s.withDev (settleDrained s.dev) := by
  have hmine : s.dev.acl.stalled.filter (fun x => x.domain == code) = [] := by simpa using h
  have hkept : s.dev.acl.stalled.filter (fun x => x.domain != code) = s.dev.acl.stalled := by simpa using h
  unfold resume
  rw [hmine, hkept]
  rfl

theorem exec_pageWipe {s : State} {page : BitVec 13} {c : Nat} (hready : wipeReady s.dev page.toNat = some c)
    (hstalled : ∀ x ∈ s.dev.acl.stalled, x.domain ≠ 255) (ok : Bool) :
    exec (.pageWipe page ok) s = .next { s with mem := memWipe s.mem (0x1000 * page.toNat) 0x1000,
                                                dev := settleDrained (wipePage s.dev page.toNat c ok) } := by
  have hwaits : ∀ x ∈ (wipePage s.dev page.toNat c ok).acl.stalled, x.domain ≠ 255 := by
    rw [wipePage_stalled]
    exact hstalled
  rw [exec, execPageWipe, pageWiped, hready]
  dsimp only
  rw [resume_nobody hwaits]
  rfl

/-- Settles O33, command by command. -/
theorem tableCommits : Obligations.TableCommits := by
  unfold Obligations.TableCommits
  refine ⟨?aclKeeper, ?aclPorter, ?applyKeeper, ?applyPorter, ?fixed, ?potKeeper, ?potPorter, fun s ini h => exec_fvalidClear h s, ?wipe⟩
  case aclKeeper =>
    intro s ini h
    refine ⟨_, exec_aclCommitk h s, ⟨rfl, rfl, rfl⟩, fun n hn => ?_, fun n hn => ?_, aclCommit_only s.dev true⟩
    · exact (aclGet_aclSection _ _ _).trans (if_pos (by simp [hn]))
    · exact (aclGet_aclSection _ _ _).trans (if_neg (by simp [hn]))
  case aclPorter =>
    intro s ini h
    refine ⟨_, exec_aclCommitp h s, ⟨rfl, rfl, rfl⟩, fun n hn => ?_, fun n hn => ?_, aclCommit_only s.dev false⟩
    · exact (aclGet_aclSection _ _ _).trans (if_pos (by simp [hn]))
    · exact (aclGet_aclSection _ _ _).trans (if_neg (by simp [hn]))
  case applyKeeper =>
    intro s ini hini hfixed
    have hexec : exec (.potKapply ini) s = .next (s.withDev (potApply s.dev ini true)) := rfl
    rw [potApply_keeper hini hfixed] at hexec
    exact ⟨_, hexec, ⟨rfl, rfl, rfl⟩, fun p => potGet_potWrite (potRange_nodup _ _) _ _ p, rfl, rfl⟩
  case applyPorter =>
    intro s ini hini _ hfree hworld
    have hexec : exec (.potPapply ini) s = .next (s.withDev (potApply s.dev ini false)) := rfl
    rw [potApply_porter hini hfree hworld] at hexec
    exact ⟨_, hexec, ⟨rfl, rfl, rfl⟩, fun p => potGet_potWrite (potRange_nodup _ _) _ _ p, rfl, rfl⟩
  case fixed =>
    intro s ini p hp hfixed
    have hexec : exec (.potKapply ini) s = .next (s.withDev (potApply s.dev ini true)) := rfl
    rw [potApply_fixed hp hfixed] at hexec
    exact ⟨_, hexec, ⟨rfl, rfl, rfl⟩, ignored_pot _ _ _⟩
  case potKeeper =>
    intro s ini h
    exact ⟨_, exec_potCommitk h s, ⟨rfl, rfl, rfl⟩, potGet_potCommit s.dev true, fun p hp hc => potCommit_wipes (keeper := true) hp hc,
      rfl, rfl, rfl⟩
  case potPorter =>
    intro s ini h
    exact ⟨_, exec_potCommitp h s, ⟨rfl, rfl, rfl⟩, potGet_potCommit s.dev false, fun p hp hc => potCommit_wipes (keeper := false) hp hc,
      rfl, rfl, rfl⟩
  case wipe =>
    intro s page c hready hstalled
    refine ⟨_, exec_pageWipe hready hstalled true, rfl, rfl, fun a => ?_, ?_⟩
    · refine (memGet_wipe _ _ _ _).trans ?_
      by_cases ha : a / 0x1000 = page.toNat
      · rw [if_pos ha, if_pos (by omega)]
      · rw [if_neg ha, if_neg (by omega)]
    · show (page.toNat, c) ∉ (wipePage s.dev page.toNat c true).pot.wipes
      rw [wipePage_wipes]
      simp

end Sys2Proof.Machine
end

section
/-! PROOFS. The jobs of the keeper world at its restart (10 R310, 04 R131). -/

namespace Sys2Proof.Machine

/-! ### A job of which something holds -/

/-- There is a job of a number, and it is as said. -/
def Dev.jobIs (d : Dev) (id : JobId) (P : Job → Prop) : Prop := ∃ y, findJob d id = some y ∧ P y

theorem find?_updateFirst_other {α : Type} {p q : α → Bool} {f : α → α} (hpq : ∀ a, p a = true → q a = false ∧ q (f a) = false)
    (l : List α) : (updateFirst p f l).find? q = l.find? q := by
  induction l with
  | nil => rfl
  | cons a r ih =>
    unfold updateFirst
    cases hp : p a with
    | true => simp [hpq a hp]
    | false => simp [List.find?_cons, ih]

theorem findJob_modJob_other (d : Dev) {id n : JobId} (h : id ≠ n) {f : Job → Job} (hf : ∀ j, (f j).id = j.id) :
    findJob (modJob d n f) id = findJob d id := by
  refine find?_updateFirst_other (fun j hj => ?_) d.jobs
  have hid : j.id = n := by simpa using hj
  rw [hf j, hid]
  exact ⟨beq_false_of_ne (Ne.symm h), beq_false_of_ne (Ne.symm h)⟩

section
variable {d : Dev} {id : JobId} {P : Job → Prop}

theorem modJob_jobIs {f : Job → Job} (hf : ∀ j, (f j).id = j.id) (hP : ∀ j, P j → P (f j)) (n : JobId) (h : d.jobIs id P) :
    (modJob d n f).jobIs id P := by
  obtain ⟨y, hy, hPy⟩ := h
  by_cases hn : id = n
  · subst hn
    exact ⟨f y, by rw [findJob_modJob d id hf, hy]; rfl, hP y hPy⟩
  · exact ⟨y, by rw [findJob_modJob_other d hn hf, hy], hPy⟩

/-- A change of the job itself. -/
theorem modJob_jobIs_changed {Q : Job → Prop} {f : Job → Job} (hf : ∀ j, (f j).id = j.id) (hPQ : ∀ j, P j → Q (f j)) (h : d.jobIs id P) :
    (modJob d id f).jobIs id Q := by
  obtain ⟨y, hy, hPy⟩ := h
  exact ⟨f y, by rw [findJob_modJob d id hf, hy]; rfl, hPQ y hPy⟩

/-- A job that has ended with an outcome. -/
def Job.ended (j : Job) (o : OutcomeRec) : Job := { j with stage := .done, res := o, claim := false, rngHeld := false }

theorem finishJob_jobIs {o : OutcomeRec} (hP : ∀ j, P j → jobEnded j = false → P (j.ended o)) (n : JobId) (h : d.jobIs id P) :
    (finishJob d n o).jobIs id P := by
  refine modJob_jobIs (by intro j; split <;> rfl) (fun j hj => ?_) n h
  split
  · exact hj
  · next hend => exact hP j hj (Bool.eq_false_iff.mpr hend)

/-! ### Seeds that are handed out -/

section
variable (hP : ∀ j o, P j → jobEnded j = false → P (j.ended o))
include hP

theorem giveSeed_jobIs (t : SeedTaker) (s : Seed) (h : d.jobIs id P) : (giveSeed d t s).jobIs id P := by
  unfold giveSeed
  dsimp only
  split
  · split
    · split
      · exact finishJob_jobIs (fun j => hP j _) _ h
      · exact h
    · exact h
  · split <;> exact h

theorem seedLoop_jobIs (n : Nat) (h : d.jobIs id P) : (seedLoop n d).jobIs id P := by
  induction n generalizing d with
  | zero => exact h
  | succ n ih =>
    unfold seedLoop
    split
    · exact ih (giveSeed_jobIs hP _ _ h)
    · exact h

/-- Handing out seeds ends jobs that wait for one, and leaves those that have ended. -/
theorem rngFeed_jobIs (h : d.jobIs id P) : (rngFeed d).jobIs id P := by
  unfold rngFeed
  split
  · exact seedLoop_jobIs hP _ h
  · exact h

end

/-! ### A job that the restart stops -/

/-- What holds of a job whatever the restart does to it. -/
structure stopKeeps (P : Job → Prop) : Prop where
  verify : ∀ j, P j → P { j with vCommit := none }
  absent : ∀ j, P j → P { j with absent := true }
  loads : ∀ j, P j → jobEnded j = false → P { j with loads := [] }
  ends : ∀ j, P j → jobEnded j = false → P (j.ended (outcome stKeeper 0))

theorem emptyVerify_jobIs (hP : ∀ j, P j → P { j with vCommit := none }) (n : JobId) (h : d.jobIs id P) : (emptyVerify d n).jobIs id P :=
  modJob_jobIs (by intro j; rfl) hP n (d := { d with wings := _ }) h

theorem keeperStops_jobIs (hP : stopKeeps P) (x : Job) (h : d.jobIs id P) : (keeperStops d x).jobIs id P := by
  have hverify := emptyVerify_jobIs hP.verify x.id h
  unfold keeperStops
  dsimp only
  split
  · exact modJob_jobIs (by intro j; rfl) hP.absent _ hverify
  · refine finishJob_jobIs hP.ends _ (modJob_jobIs (by intro j; split <;> rfl) (fun j hj => ?_) _ hverify)
    split
    · exact hj
    · next hend => exact hP.loads j hj (Bool.eq_false_iff.mpr hend)

end

/-- A job that ended with KEEPER_ABSENT. -/
def Job.stopped (j : Job) : Prop := j.stage = .done ∧ j.res.status = 0x08

/-- A job that has no outcome but KEEPER_ABSENT. -/
def Job.stoppable (j : Job) : Prop := jobEnded j = false ∨ j.stopped

theorem jobEnded_of_stopped {j : Job} (h : j.stopped) : jobEnded j = true := by
  unfold jobEnded
  rw [h.1]
  rfl

theorem ended_stopped (j : Job) : (j.ended (outcome stKeeper 0)).stopped := ⟨rfl, rfl⟩

theorem stopKeeps_stopped : stopKeeps Job.stopped where
  verify _ h := h
  absent _ h := h
  loads _ h _ := h
  ends j _ _ := ended_stopped j

theorem stopKeeps_stoppable : stopKeeps Job.stoppable where
  verify _ h := h
  absent _ h := h
  loads _ h _ := h
  ends j _ _ := .inr (ended_stopped j)

theorem stopKeeps_absent : stopKeeps fun j => j.absent = true where
  verify _ h := h
  absent _ _ := rfl
  loads _ h _ := h
  ends _ h _ := h

theorem stopKeeps_true : stopKeeps fun _ => True := ⟨fun _ h => h, fun _ h => h, fun _ h _ => h, fun _ h _ => h⟩

/-! ### What is placed of a job -/

theorem inPlans_of_emptyVerify {d : Dev} {n : JobId} {j : Job} (h : inPlans (emptyVerify d n) j = true) : inPlans d j = true := by
  have hplaced : ∀ p : Placed, ((if p.job == n && p.kind == .verify then { p with kind := .empty } else p : Placed).job == j.id &&
      (if p.job == n && p.kind == .verify then { p with kind := .empty } else p : Placed).kind != .empty) = true →
      (p.job == j.id && p.kind != .empty) = true := by
    intro p hp
    split at hp
    · simp at hp
    · exact hp
  unfold inPlans at h ⊢
  simp only [emptyVerify, modJob, List.any_append, Bool.or_eq_true, List.any_eq_true, List.mem_map] at h ⊢
  rcases h with (hcur | ⟨_, ⟨p, hp, rfl⟩, hnext⟩) | hrandom
  · exact .inl (.inl hcur)
  · exact .inl (.inr ⟨p, hp, hplaced p hnext⟩)
  · exact .inr hrandom

theorem inPlans_of_planCur {d : Dev} {j : Job} (h : ∃ p ∈ d.wings.planCur, p.job = j.id ∧ p.kind ≠ .empty) : inPlans d j = true := by
  obtain ⟨p, hp, hjob, hkind⟩ := h
  have hany : (d.wings.planCur ++ d.wings.planNext).any (fun p => p.job == j.id && p.kind != .empty) = true :=
    List.any_eq_true.mpr ⟨p, List.mem_append_left _ hp, by simp [hjob, hkind]⟩
  unfold inPlans
  rw [hany, Bool.true_or]

theorem keeperStops_wings (d : Dev) (x : Job) : (keeperStops d x).wings = (emptyVerify d x.id).wings := by
  unfold keeperStops
  dsimp only
  split <;> rfl

theorem inPlans_keeperStops {d : Dev} {j : Job} (h : inPlans d j = false) (x : Job) : inPlans (keeperStops d x) j = false := by
  have hwings : inPlans (keeperStops d x) j = inPlans (emptyVerify d x.id) j := by
    unfold inPlans
    rw [keeperStops_wings]
  rw [hwings, Bool.eq_false_iff]
  exact fun hverify => Bool.eq_false_iff.mp h (inPlans_of_emptyVerify hverify)

theorem planCur_keeperStops (d : Dev) (x : Job) : (keeperStops d x).wings.planCur = d.wings.planCur := by
  rw [keeperStops_wings]
  rfl

/-! ### All jobs of the keeper world -/

/-- Of a fold that keeps `J`, the step at `x` brings about `K` from `J`, and `K` stays. -/
theorem foldl_reaches {α β : Type} {J K : α → Prop} {f : α → β → α} {l : List β} {x : β} (hx : x ∈ l) (hJ : ∀ a b, J a → J (f a b))
    (hJK : ∀ a, J a → K (f a x)) (hK : ∀ a b, K a → K (f a b)) {a : α} (h : J a) : K (l.foldl f a) := by
  induction l generalizing a with
  | nil => cases hx
  | cons b r ih =>
    rcases List.mem_cons.mp hx with rfl | hr
    · exact foldl_holds K f hK r _ (hJK a h)
    · exact ih hr (hJ a b h)

/-- The jobs of the keeper world, stopped one after the other. -/
def allStopped (d : Dev) : Dev := (d.jobs.filter keeperWork).foldl keeperStops d

theorem jobEnded_of_keeperWork {j : Job} (hwork : keeperWork j = true) : jobEnded j = false := by
  unfold keeperWork at hwork
  simp only [Bool.and_eq_true, Bool.not_eq_true'] at hwork
  exact hwork.1

section
variable {d : Dev} {id : JobId} {j : Job} (hj : findJob d id = some j) (hwork : keeperWork j = true)
include hj hwork

theorem mem_keeperJobs : j ∈ d.jobs.filter keeperWork := List.mem_filter.mpr ⟨List.mem_of_find?_eq_some hj, hwork⟩

/-- A job of which nothing is placed ends with KEEPER_ABSENT. -/
theorem allStopped_ends (hplans : inPlans d j = false) : (allStopped d).jobIs id Job.stopped := by
  obtain rfl := id_of_findJob hj
  refine foldl_reaches (J := fun e : Dev => e.jobIs j.id Job.stoppable ∧ inPlans e j = false) (K := fun e => e.jobIs j.id Job.stopped)
    (mem_keeperJobs hj hwork) ?keeps ?ends
    (fun e x => keeperStops_jobIs stopKeeps_stopped x) ⟨⟨j, hj, .inl (jobEnded_of_keeperWork hwork)⟩, hplans⟩
  case keeps => exact fun e x ⟨hjob, hfree⟩ => ⟨keeperStops_jobIs stopKeeps_stoppable x hjob, inPlans_keeperStops hfree x⟩
  case ends =>
    intro e ⟨hjob, hfree⟩
    have hverify : inPlans (emptyVerify e j.id) j ≠ true := fun h => Bool.eq_false_iff.mp hfree (inPlans_of_emptyVerify h)
    have hloads : (modJob (emptyVerify e j.id) j.id fun j => if jobEnded j then j else { j with loads := [] }).jobIs j.id Job.stoppable :=
      modJob_jobIs (by intro j; split <;> rfl) (by intro j h; split <;> exact h) _ (emptyVerify_jobIs stopKeeps_stoppable.verify _ hjob)
    unfold keeperStops
    dsimp only
    rw [if_neg hverify]
    refine modJob_jobIs_changed (by intro j; split <;> rfl) (fun y hy => ?_) hloads
    rcases hy with hy | hy
    · rw [if_neg (Bool.eq_false_iff.mp hy)]
      exact ended_stopped y
    · rw [if_pos (jobEnded_of_stopped hy)]
      exact hy

/-- A job of which something is placed in the running plan is marked, and its result will be discarded. -/
theorem allStopped_marks (hplaced : ∃ p ∈ d.wings.planCur, p.job = id ∧ p.kind ≠ .empty) : (allStopped d).jobIs id fun j => j.absent = true := by
  obtain rfl := id_of_findJob hj
  refine foldl_reaches (J := fun e : Dev => e.jobIs j.id (fun _ => True) ∧ e.wings.planCur = d.wings.planCur)
    (K := fun e => e.jobIs j.id fun j => j.absent = true) (mem_keeperJobs hj hwork) ?keeps ?marks
    (fun e x => keeperStops_jobIs stopKeeps_absent x) ⟨⟨j, hj, trivial⟩, rfl⟩
  case keeps => exact fun e x ⟨hjob, hcur⟩ => ⟨keeperStops_jobIs stopKeeps_true x hjob, (planCur_keeperStops e x).trans hcur⟩
  case marks =>
    intro e ⟨hjob, hcur⟩
    have hplans : inPlans (emptyVerify e j.id) j = true := inPlans_of_planCur (by rw [← hcur] at hplaced; exact hplaced)
    unfold keeperStops
    dsimp only
    rw [if_pos hplans]
    exact modJob_jobIs_changed (by intro j; rfl) (fun _ _ => rfl) (emptyVerify_jobIs stopKeeps_true.verify _ hjob)

end

end Sys2Proof.Machine
end

section
/-! PROOFS. Watchdogs, restarts and starts of the two worlds (10 R309-R314). -/

namespace Sys2Proof.Machine

/-! ### The keeper's restart in its steps (10 R310) -/

/-- The world leaves its state: the loads end, the lineage is cleared and its random numbers are unseeded. -/
def worldDown (d : Dev) : Dev :=
  let d := settleDraws d
  { d with
    acl := { d.acl with keeper := 3, krestarts := satInc d.acl.krestarts, kReadyDue := false }
    keys := { d.keys with loads := [], lineage := none, sweeps := 0 }
    rng := { d.rng with insts := tabPut d.rng.insts 257 { drbgReset with istate := 1 } } }

/-- What waits in its name is dropped and its pages are to be wiped. -/
def worldSwept (d : Dev) : Dev := wantWipes (dropStalled d fun t => isKeeperCore t.ini.id) (worldPages d true)

/-- A debug session in the keeper world ends with it. -/
def worldDebugEnds (d : Dev) : Dev := if d.lcs.active && d.lcs.dbgKeeper then endDebug d else d

/-- Sessions close, and the keeper's own pages and the card slots are reset. -/
def worldReset (d : Dev) : Dev :=
  cardsCleared (resetKeeping (worldDebugEnds (closeSession d fun _ => true)) (keyPage :: (List.range 4).map crdPage))

/-- Seeds are handed out, and superseded records freed. -/
def worldCleared (d : Dev) : Dev := freeOld (rngFeed (worldReset d))

/-- The device of a keeper restart before its next image is taken. -/
def keeperDown (d : Dev) : Dev := worldCleared (worldSwept (worldDown (allStopped d)))

theorem keeperRestart_down {d : Dev} (h : d.acl.keeper = 1 ∨ d.acl.keeper = 2) : keeperRestart d = nextImage (keeperDown d) := by
  have hrun : ¬ (d.acl.keeper != 2 && d.acl.keeper != 1) = true := by rcases h with h | h <;> rw [h] <;> decide
  unfold keeperRestart
  rw [if_neg hrun]
  rfl

/-! ### What the steps leave -/

/-- A device without its jobs and its next plan. -/
def Dev.workless (d : Dev) : Dev := { d with wings := { d.wings with planNext := [] }, jobs := [] }

theorem keeperStops_workless (d : Dev) (x : Job) : (keeperStops d x).workless = d.workless := by
  unfold keeperStops
  dsimp only
  split <;> rfl

theorem allStopped_workless (d : Dev) : (allStopped d).workless = d.workless := foldl_same Dev.workless _ keeperStops_workless _ _

/-- The part of the device that reporting, sessions, card slots, debug and random numbers are not, with the jobs beside it. -/
def Dev.lasting (d : Dev) : (Acl × Keys × Pot × Nv × Tab FnSt × Wings × Mgt) × List Job :=
  ((d.acl, d.keys, d.pot, { d.nv with evNext := 0, evHigh := 0, old := [] }, d.fns, d.wings, d.mgt), d.jobs)

theorem lasting_of_silent {a b : Dev} (h : a.silent = b.silent) : a.lasting = b.lasting := by
  have := congrArg Dev.lasting h; exact this

theorem endDebug_lasting (d : Dev) : (endDebug d).lasting = d.lasting := by
  unfold endDebug
  split
  · exact (lasting_of_silent (evLog_silent _ _ _ _ _)).trans ((lasting_of_silent (raise_silent _ _ _)).trans rfl)
  · rfl

theorem worldDebugEnds_lasting (d : Dev) : (worldDebugEnds d).lasting = d.lasting := by
  unfold worldDebugEnds
  split
  · exact endDebug_lasting d
  · rfl

theorem closeSession_lasting (d : Dev) (p : Session → Bool) : (closeSession d p).lasting = d.lasting := by
  unfold closeSession
  split
  · split <;> rfl
  · rfl

theorem resetKeeping_lasting (d : Dev) (ps : List Nat) : (resetKeeping d ps).lasting = d.lasting := by
  unfold resetKeeping
  refine (foldl_same Dev.lasting _ (fun r p => ?_) _ _).trans rfl
  dsimp only
  split <;> rfl

theorem cardsCleared_lasting (d : Dev) : (cardsCleared d).lasting = d.lasting := rfl

theorem worldReset_lasting (d : Dev) : (worldReset d).lasting = d.lasting := by
  unfold worldReset
  rw [cardsCleared_lasting, resetKeeping_lasting, worldDebugEnds_lasting, closeSession_lasting]

theorem freeOld_lasting (d : Dev) : (freeOld d).lasting = d.lasting := rfl

/-- Handing out seeds leaves all of it but jobs. -/
theorem rngFeed_lasting (d : Dev) : (rngFeed d).lasting.1 = d.lasting.1 := by rw [rngFeed_only]; rfl

theorem worldCleared_lasting (d : Dev) : (worldCleared d).lasting.1 = d.lasting.1 := by
  unfold worldCleared
  rw [freeOld_lasting, rngFeed_lasting, worldReset_lasting]

theorem worldCleared_old (d : Dev) : (worldCleared d).nv.old = [] := rfl

theorem jobIs_congr {d e : Dev} (h : e.jobs = d.jobs) {id : JobId} {P : Job → Prop} (hd : d.jobIs id P) : e.jobIs id P := by
  obtain ⟨y, hy, hP⟩ := hd
  exact ⟨y, (findJob_congr h id).trans hy, hP⟩

/-- Of the jobs, the clearing can only end some that have not ended. -/
theorem worldCleared_jobIs {d : Dev} {id : JobId} {P : Job → Prop} (hP : ∀ j o, P j → jobEnded j = false → P (j.ended o))
    (h : d.jobIs id P) : (worldCleared d).jobIs id P := by
  unfold worldCleared
  exact jobIs_congr (congrArg Prod.snd (freeOld_lasting _)) (rngFeed_jobIs hP (jobIs_congr (congrArg Prod.snd (worldReset_lasting d)) h))

theorem nextImage_only (d : Dev) : nextImage d = { d with
    keys := { d.keys with svn := (nextImage d).keys.svn, signer := (nextImage d).keys.signer }, mgt := (nextImage d).mgt } := by
  unfold nextImage
  split <;> rfl

theorem nextImage_image {d : Dev} {i : Image} (h : d.mgt.nextIlmel = some i) :
    (nextImage d).keys.svn = i.svn ∧ (nextImage d).keys.signer = i.signer := by
  unfold nextImage
  rw [h]
  exact ⟨rfl, rfl⟩

/-! ### The keeper's restart as a whole -/

/-- The lasting part of the device after the keeper world has stopped, before its next image is taken. -/
structure keeperStopped (d e : Dev) : Prop where
  acl : e.acl = { d.acl with keeper := 3, krestarts := satInc d.acl.krestarts, kReadyDue := false,
                             drained := e.acl.drained, stalled := e.acl.stalled }
  keys : e.keys = { d.keys with loads := [], lineage := none, sweeps := 0 }
  nv : { e.nv with evNext := 0, evHigh := 0, old := [] } = { d.nv with evNext := 0, evHigh := 0, old := [] }
  fns : e.fns = d.fns
  pk : e.wings.pk = d.wings.pk
  mgt : e.mgt = d.mgt
  wipes : ∀ p ∈ worldPages d true, (p, d.pot.commits) ∈ e.pot.wipes

theorem worldSwept_only (d : Dev) : worldSwept d = { d with
    acl := { d.acl with drained := (worldSwept d).acl.drained, stalled := (worldSwept d).acl.stalled }
    pot := (worldSwept d).pot } := rfl

theorem worldSwept_wipes (d : Dev) {p : Nat} (h : p ∈ worldPages d true) : (p, d.pot.commits) ∈ (worldSwept d).pot.wipes :=
  wantWipes_mem (d := dropStalled d _) h

theorem worldSwept_jobs (d : Dev) : (worldSwept d).jobs = d.jobs := rfl
theorem worldDown_jobs (d : Dev) : (worldDown d).jobs = d.jobs := rfl

theorem worldDown_acl (d : Dev) : (worldDown d).acl = { d.acl with keeper := 3, krestarts := satInc d.acl.krestarts, kReadyDue := false } := rfl
theorem worldDown_keys (d : Dev) : (worldDown d).keys = { d.keys with loads := [], lineage := none, sweeps := 0 } := rfl

theorem worldSwept_stopped (d : Dev) : keeperStopped d (worldSwept (worldDown d)) where
  acl := by rw [worldSwept_only, worldDown_acl]
  keys := by rw [worldSwept_only, worldDown_keys]
  nv := by rw [worldSwept_only]; rfl
  fns := by rw [worldSwept_only]; rfl
  pk := by rw [worldSwept_only]; rfl
  mgt := by rw [worldSwept_only]; rfl
  wipes p hp := worldSwept_wipes (worldDown d) hp

theorem stopped_of_workless {d e b : Dev} (h : keeperStopped e b) (he : e.workless = d.workless) : keeperStopped d b := by
  have hpk : e.wings.pk = d.wings.pk := by have := congrArg (fun x : Dev => x.wings.pk) he; exact this
  have hpot : e.pot = d.pot := by have := congrArg Dev.pot he; exact this
  have hnv : e.nv = d.nv := by have := congrArg Dev.nv he; exact this
  have hacl : e.acl = d.acl := by have := congrArg Dev.acl he; exact this
  have hkeys : e.keys = d.keys := by have := congrArg Dev.keys he; exact this
  have hfns : e.fns = d.fns := by have := congrArg Dev.fns he; exact this
  have hmgt : e.mgt = d.mgt := by have := congrArg Dev.mgt he; exact this
  refine ⟨hacl ▸ h.acl, hkeys ▸ h.keys, hnv ▸ h.nv, hfns ▸ h.fns, hpk ▸ h.pk, hmgt ▸ h.mgt, ?_⟩
  intro p hp
  rw [← hpot]
  exact h.wipes p (by unfold worldPages at hp ⊢; rw [hpot]; exact hp)

theorem stopped_of_lasting {d e b : Dev} (h : keeperStopped d e) (hb : b.lasting.1 = e.lasting.1) : keeperStopped d b := by
  obtain ⟨hacl, hkeys, hpot, hnv, hfns, hwings, hmgt⟩ : b.acl = e.acl ∧ b.keys = e.keys ∧ b.pot = e.pot ∧
      { b.nv with evNext := 0, evHigh := 0, old := [] } = { e.nv with evNext := 0, evHigh := 0, old := [] } ∧ b.fns = e.fns ∧
      b.wings = e.wings ∧ b.mgt = e.mgt := by
    simpa only [Dev.lasting, Prod.mk.injEq] using hb
  exact ⟨by rw [hacl]; exact h.acl, hkeys.trans h.keys, hnv.trans h.nv, hfns.trans h.fns, hwings ▸ h.pk, hmgt.trans h.mgt,
    by rw [hpot]; exact h.wipes⟩

theorem keeperDown_stopped (d : Dev) : keeperStopped d (keeperDown d) :=
  stopped_of_lasting (stopped_of_workless (worldSwept_stopped _) (allStopped_workless d)) (worldCleared_lasting _)

/-- MRAM values that agree but for the recorder's numbers and the superseded records. -/
theorem nv_numbers {n m : Nv} (h : { n with evNext := 0, evHigh := 0, old := [] } = { m with evNext := 0, evHigh := 0, old := [] })
    (hold : n.old = []) : n = { m with evNext := n.evNext, evHigh := n.evHigh, old := [] } := by
  have hagree := congrArg (fun x : Nv => { x with evNext := n.evNext, evHigh := n.evHigh }) h
  rw [← hold] at hagree ⊢
  exact hagree

theorem keeperDown_nv (d : Dev) : (keeperDown d).nv =
    { d.nv with evNext := (keeperDown d).nv.evNext, evHigh := (keeperDown d).nv.evHigh, old := [] } :=
  nv_numbers (keeperDown_stopped d).nv (worldCleared_old _)

theorem keeperDown_jobIs {d : Dev} {id : JobId} {P : Job → Prop} (hP : ∀ j o, P j → jobEnded j = false → P (j.ended o))
    (h : (allStopped d).jobIs id P) : (keeperDown d).jobIs id P :=
  worldCleared_jobIs hP (jobIs_congr ((worldSwept_jobs _).trans (worldDown_jobs _)) h)

theorem nextImage_acl (d : Dev) : (nextImage d).acl = d.acl := by rw [nextImage_only]
theorem nextImage_pot (d : Dev) : (nextImage d).pot = d.pot := by rw [nextImage_only]
theorem nextImage_nv (d : Dev) : (nextImage d).nv = d.nv := by rw [nextImage_only]
theorem nextImage_fns (d : Dev) : (nextImage d).fns = d.fns := by rw [nextImage_only]
theorem nextImage_wings (d : Dev) : (nextImage d).wings = d.wings := by rw [nextImage_only]
theorem nextImage_jobs (d : Dev) : (nextImage d).jobs = d.jobs := by rw [nextImage_only]
theorem nextImage_keys (d : Dev) : (nextImage d).keys =
    { d.keys with svn := (nextImage d).keys.svn, signer := (nextImage d).keys.signer } := congrArg Dev.keys (nextImage_only d)

section
variable {d : Dev} (h : d.acl.keeper = 1 ∨ d.acl.keeper = 2)
include h

theorem keeperRestart_acl : (keeperRestart d).acl =
    { d.acl with keeper := 3, krestarts := satInc d.acl.krestarts, kReadyDue := false,
                 drained := (keeperRestart d).acl.drained, stalled := (keeperRestart d).acl.stalled } := by
  rw [keeperRestart_down h, nextImage_acl]
  exact (keeperDown_stopped d).acl

theorem keeperRestart_keys : (keeperRestart d).keys =
    { d.keys with loads := [], lineage := none, sweeps := 0,
                  svn := (keeperRestart d).keys.svn, signer := (keeperRestart d).keys.signer } := by
  have hkeys := nextImage_keys (keeperDown d)
  rw [(keeperDown_stopped d).keys, ← keeperRestart_down h] at hkeys
  exact hkeys

/-- The next start runs the image that an update left (08 R222, 14 R398). -/
theorem keeperRestart_image {i : Image} (hi : d.mgt.nextIlmel = some i) :
    (keeperRestart d).keys.svn = i.svn ∧ (keeperRestart d).keys.signer = i.signer := by
  rw [keeperRestart_down h]
  exact nextImage_image (by rw [(keeperDown_stopped d).mgt, hi])

theorem keeperRestart_nv : (keeperRestart d).nv =
    { d.nv with evNext := (keeperRestart d).nv.evNext, evHigh := (keeperRestart d).nv.evHigh, old := [] } := by
  rw [keeperRestart_down h, nextImage_nv]
  exact keeperDown_nv d

theorem keeperRestart_fns : (keeperRestart d).fns = d.fns := by
  rw [keeperRestart_down h, nextImage_fns, (keeperDown_stopped d).fns]

theorem keeperRestart_pk : (keeperRestart d).wings.pk = d.wings.pk := by
  rw [keeperRestart_down h, nextImage_wings, (keeperDown_stopped d).pk]

theorem keeperRestart_wipes {p : Nat} (hp : p ∈ worldPages d true) : (p, d.pot.commits) ∈ (keeperRestart d).pot.wipes := by
  rw [keeperRestart_down h, nextImage_pot]
  exact (keeperDown_stopped d).wipes p hp

theorem keeperRestart_jobIs {id : JobId} {P : Job → Prop} (hP : ∀ j o, P j → jobEnded j = false → P (j.ended o))
    (hjob : (allStopped d).jobIs id P) : (keeperRestart d).jobIs id P := by
  rw [keeperRestart_down h]
  exact jobIs_congr (nextImage_jobs _) (keeperDown_jobIs hP hjob)

theorem keeperRestart_ends {id : JobId} {j : Job} (hj : findJob d id = some j) (hwork : keeperWork j = true) (hplans : inPlans d j = false) :
    (keeperRestart d).jobIs id Job.stopped := by
  refine keeperRestart_jobIs h (fun y o hy hend => ?_) (allStopped_ends hj hwork hplans)
  rw [jobEnded_of_stopped hy] at hend
  cases hend

theorem keeperRestart_marks {id : JobId} {j : Job} (hj : findJob d id = some j) (hwork : keeperWork j = true)
    (hplaced : ∃ p ∈ d.wings.planCur, p.job = id ∧ p.kind ≠ .empty) : (keeperRestart d).jobIs id fun y => y.absent = true :=
  keeperRestart_jobIs h (fun _ _ hy _ => hy) (allStopped_marks hj hwork hplaced)

end

/-! ### The porter's restart (10 R312) -/

section
variable {d : Dev} (h : d.acl.porter = 1 ∨ d.acl.porter = 2 ∨ d.acl.porter = 3)
include h

/-- A porter world that is neither OFF nor FAILED restarts: what waits in its name is dropped, and its pages are to be wiped. -/
theorem porterRestart_steps : porterRestart d =
    (let e := { d with acl := { d.acl with porter := 3, prestarts := satInc d.acl.prestarts, pReadyDue := false } }
     wantWipes (dropStalled e fun t => isPorterCore t.ini.id) (worldPages e false)) := by
  have hrun : ¬ (d.acl.porter == 0 || d.acl.porter == 4) = true := by rcases h with h | h | h <;> rw [h] <;> decide
  unfold porterRestart
  rw [if_neg hrun]

theorem porterRestart_acl : (porterRestart d).acl =
    { d.acl with porter := 3, prestarts := satInc d.acl.prestarts, pReadyDue := false, drained := (porterRestart d).acl.drained,
                 stalled := d.acl.stalled.filter fun x => !isPorterCore x.t.ini.id } := by
  rw [porterRestart_steps h]
  rfl

theorem porterRestart_only : porterRestart d = { d with
    acl := (porterRestart d).acl
    pot := { d.pot with wipes := (porterRestart d).pot.wipes, drained := (porterRestart d).pot.drained } } := by
  rw [porterRestart_steps h]
  rfl

theorem porterRestart_wipes {p : Nat} (hp : p ∈ worldPages d false) : (p, d.pot.commits) ∈ (porterRestart d).pot.wipes := by
  rw [porterRestart_steps h]
  exact wantWipes_mem (d := dropStalled { d with acl := _ } _) hp

end

/-! ### Commands of the two worlds -/

theorem exec_krestart {s : State} {ini : Ini} (hini : keeperOnly ini = true) (h : s.dev.acl.keeper = 1 ∨ s.dev.acl.keeper = 2) :
    exec (.krestart ini) s = .next (s.withDev (keeperRestart s.dev)) := by
  have hrun : (keeperOnly ini && (s.dev.acl.keeper == 1 || s.dev.acl.keeper == 2)) = true := by
    rw [hini]; rcases h with h | h <;> rw [h] <;> rfl
  rw [exec, execKrestart, act, krestartCommand, if_pos hrun]
  rfl

theorem exec_prestart {s : State} {ini : Ini} (hini : coreOnly ini = true)
    (h : s.dev.acl.porter = 1 ∨ s.dev.acl.porter = 2 ∨ s.dev.acl.porter = 3) :
    exec (.prestart ini) s = .next (s.withDev (porterRestart s.dev)) := by
  have hrun : (coreOnly ini && (s.dev.acl.porter == 1 || s.dev.acl.porter == 2 || s.dev.acl.porter == 3)) = true := by
    rw [hini]; rcases h with h | h | h <;> rw [h] <;> rfl
  rw [exec, execPrestart, act, prestartCommand, if_pos hrun]
  rfl

theorem keeperExpire_expired {d : Dev} (hready : d.acl.keeper = 2) (hivl : kwdogTicks d ≠ 0)
    (htime : d.acl.kPet.toNat + kwdogTicks d ≤ d.tick.toNat) : keeperExpire d = keeperRestart d := by
  unfold keeperExpire
  rw [if_pos (by simp [hready, hivl, htime])]

theorem keeperExpire_running {d : Dev} (htime : d.tick.toNat < d.acl.kPet.toNat + kwdogTicks d) : keeperExpire d = d := by
  unfold keeperExpire
  rw [if_neg (by simp; omega)]

theorem porterExpire_expired {d : Dev} (hready : d.acl.porter = 2) (hivl : pwdogTicks d ≠ 0)
    (htime : d.acl.pPet.toNat + pwdogTicks d ≤ d.tick.toNat) : porterExpire d = porterRestart d := by
  unfold porterExpire
  rw [if_pos (by simp [hready, hivl, htime])]

theorem porterExpire_running {d : Dev} (htime : d.tick.toNat < d.acl.pPet.toNat + pwdogTicks d) : porterExpire d = d := by
  unfold porterExpire
  rw [if_neg (by simp; omega)]

theorem exec_keeperWatchdogExpire (s : State) : exec .keeperWatchdogExpire s = .next (s.withDev (keeperExpire s.dev)) := rfl
theorem exec_porterWatchdogExpire (s : State) : exec .porterWatchdogExpire s = .next (s.withDev (porterExpire s.dev)) := rfl

/-- A world that starts or restarts. -/
theorem starts_of {w : BitVec 3} (h : w = 1 ∨ w = 3) : (w == 1 || w == 3) = true := by
  rcases h with rfl | rfl <;> rfl

/-- A write of ready by a privileged porter core, whose world starts, is due at the next boundary. -/
theorem exec_worldReady_porter {s : State} {i : Ini} (hcore : isPorterCore i.id = true) (hpriv : i.priv = true)
    (h : s.dev.acl.porter = 1 ∨ s.dev.acl.porter = 3) :
    exec (.worldReady i) s = .next (s.withDev { s.dev with acl := { s.dev.acl with pReadyDue := true } }) := by
  have hcoreOnly : coreOnly i = true := by unfold coreOnly; rw [hcore, hpriv]; simp
  rw [exec, execWorldReady, actFuse]
  unfold worldReady
  simp only [hcoreOnly, hcore, starts_of h, Bool.not_true, Bool.false_eq_true, if_false, if_true]
  rfl

/-- Settles O34: the restarts by their steps, the other commands by their own equations. -/
theorem worlds : Obligations.Worlds := by
  unfold Obligations.Worlds
  refine ⟨?keeperPet, ?porterPet, ?krestart, ?prestart, ?keeperExpires, ?keeperRuns, ?porterExpires, ?porterRuns, ?fails, ?ready⟩
  case keeperPet =>
    intro s ini hini
    rw [exec, execAclKpet, act, keeperPet, if_pos hini]
    rfl
  case porterPet =>
    intro s ini hini
    rw [exec, execAclPpet, act, porterPet, if_pos hini]
    rfl
  case krestart =>
    intro s ini hini h
    have hacl := keeperRestart_acl h
    have hkeys := keeperRestart_keys h
    exact ⟨_, exec_krestart hini h, ⟨rfl, rfl, rfl⟩, congrArg Acl.keeper hacl, congrArg Acl.krestarts hacl, (congrArg Acl.porter hacl :),
      congrArg Keys.lineage hkeys, congrArg Keys.loads hkeys, (congrArg Keys.cache hkeys :), (congrArg Acl.cur hacl :), (congrArg Acl.next hacl :),
      fun i => keeperRestart_image h, fun p => keeperRestart_wipes h, keeperRestart_nv h, keeperRestart_fns h, keeperRestart_pk h,
      fun id j hj hwork => ⟨keeperRestart_ends h hj hwork, keeperRestart_marks h hj hwork⟩⟩
  case prestart =>
    intro s ini hini h
    exact ⟨_, exec_prestart hini h, ⟨rfl, rfl, rfl⟩, porterRestart_acl h, porterRestart_only h, fun p => porterRestart_wipes h⟩
  case keeperExpires =>
    intro s hready hivl htime
    refine ⟨_, exec_keeperWatchdogExpire s, ⟨rfl, rfl, rfl⟩, ?_⟩
    rw [withDev_dev, keeperExpire_expired hready hivl htime]
    exact congrArg Acl.keeper (keeperRestart_acl (.inr hready))
  case keeperRuns =>
    intro s htime
    rw [exec_keeperWatchdogExpire, keeperExpire_running htime]
    rfl
  case porterExpires =>
    intro s hready hivl htime
    refine ⟨_, exec_porterWatchdogExpire s, ⟨rfl, rfl, rfl⟩, ?_⟩
    rw [withDev_dev, porterExpire_expired hready hivl htime]
    exact congrArg Acl.porter (porterRestart_acl (.inr (.inl hready)))
  case porterRuns =>
    intro s htime
    rw [exec_porterWatchdogExpire, porterExpire_running htime]
    rfl
  case fails =>
    intro s w h
    cases w with
    | keeper =>
      rw [exec, execWorldStartFail, act, worldFail, if_pos (starts_of (w := s.dev.acl.keeper) h)]
      rfl
    | porter =>
      rw [exec, execWorldStartFail, act, worldFail, if_pos (starts_of (w := s.dev.acl.porter) h)]
      rfl
  case ready =>
    intro s ini hcore hpriv h
    exact ⟨_, exec_worldReady_porter hcore hpriv h, ⟨rfl, rfl, rfl⟩, rfl⟩

end Sys2Proof.Machine
end

section
/-! PROOFS. The commands that change one card slot, and a card from its insertion to its removal (11 R316-R318, R334). -/

namespace Sys2Proof.Machine

/-! ### Setting a slot -/

theorem slot_cases : ∀ i : BitVec 2, i = 0 ∨ i = 1 ∨ i = 2 ∨ i = 3 := by decide

@[simp] theorem setSlot_setSlot (d : Dev) (i : BitVec 2) (x y : CardSlot) : setSlot (setSlot d i x) i y = setSlot d i y := by
  rcases slot_cases i with rfl | rfl | rfl | rfl <;> rfl

theorem setSlot_quiet (d : Dev) (i : BitVec 2) (x : CardSlot) : (setSlot d i x).quiet = setSlot d.quiet i x := by
  rcases slot_cases i with rfl | rfl | rfl | rfl <;> rfl

theorem emit_silent (d : Dev) (e : Egress) : (emit d e).silent = d.silent := rfl

@[simp] theorem emit_getSlot (d : Dev) (e : Egress) (j : BitVec 2) : getSlot (emit d e) j = getSlot d j := rfl

/-- What differs from a device by one slot in its cards has that slot. -/
theorem slot_of_crd {d e : Dev} {i : BitVec 2} {x : CardSlot} (h : e.crd = (setSlot d i x).crd) : getSlot e i = x := by
  rw [getSlot_congr h, getSlot_setSlot]

/-- What differs from a device by one slot in its cards has the other slots and the sessions of that device. -/
theorem others_of_crd {d e : Dev} {i : BitVec 2} {x : CardSlot} (h : e.crd = (setSlot d i x).crd) :
    (∀ j, j ≠ i → getSlot e j = getSlot d j) ∧ e.crd.session = d.crd.session ∧ e.crd.before = d.crd.before := by
  rw [h, setSlot_session, setSlot_before]
  exact ⟨fun j hj => by rw [getSlot_congr h, getSlot_setSlot_other _ _ hj], rfl, rfl⟩

/-! ### The frames of a command on one slot -/

theorem oneSlot_of {s : State} {i : BitVec 2} {x : CardSlot} {es : List Egress} : s.oneSlot (s.withDev { setSlot s.dev i x with egress := es }) i :=
  ⟨⟨rfl, rfl, rfl⟩, congrArg (fun d : Dev => { d with egress := es }) (setSlot_only s.dev i x), others_of_crd rfl⟩

/-- A command that sets one slot and reports nothing. -/
theorem completes_setSlot {c : Instr} {s : State} {i : BitVec 2} {x : CardSlot} (h : exec c s = .next (s.withDev (setSlot s.dev i x))) :
    Completes c s fun t => s.oneSlot t i ∧ getSlot t.dev i = x ∧ t.dev.egress = s.dev.egress :=
  ⟨_, h, oneSlot_of, getSlot_setSlot _ _ _, setSlot_egress _ _ _⟩

/-- A command that sets one slot and puts something on its contacts. -/
theorem completes_emit {c : Instr} {s : State} {i : BitVec 2} {x : CardSlot} {e : Egress}
    (h : exec c s = .next (s.withDev (emit (setSlot s.dev i x) e))) :
    Completes c s fun t => s.oneSlot t i ∧ getSlot t.dev i = x ∧ t.dev.egress = s.dev.egress ++ [e] :=
  ⟨_, h, oneSlot_of, getSlot_setSlot _ _ _, congrArg (· ++ [e]) (setSlot_egress s.dev i x)⟩

theorem Completes.imp {c : Instr} {s : State} {p q : State → Prop} (h : Completes c s p) (hpq : ∀ t, p t → q t) : Completes c s q := by
  obtain ⟨t, ht, hp⟩ := h
  exact ⟨t, ht, hpq t hp⟩

theorem quiet_only {s : State} {d : Dev} {i : BitVec 2} {x : CardSlot} (h : d.quiet = (setSlot s.dev i x).quiet) :
    d.quiet = { s.dev with crd := d.crd }.quiet := by
  rw [h, quiet_crd h, ← setSlot_only]

theorem silent_only {s : State} {d : Dev} {i : BitVec 2} {x : CardSlot} (h : d.silent = (setSlot s.dev i x).silent) :
    d.silent = { s.dev with crd := d.crd }.silent := by
  rw [h, silent_crd h, ← setSlot_only]

theorem oneSlotLoud_of {s : State} {d : Dev} {i : BitVec 2} {x : CardSlot} (h : d.quiet = (setSlot s.dev i x).quiet) :
    s.oneSlotLoud (s.withDev d) i :=
  ⟨⟨rfl, rfl, rfl⟩, quiet_only h, others_of_crd (quiet_crd h)⟩

theorem oneSlotLogged_of {s : State} {d : Dev} {i : BitVec 2} {x : CardSlot} (h : d.silent = (setSlot s.dev i x).silent) :
    s.oneSlotLogged (s.withDev d) i :=
  ⟨⟨rfl, rfl, rfl⟩, silent_only h, others_of_crd (silent_crd h)⟩

/-! ### Rejection, fallback and activation (11 R317) -/

/-- A slot whose card is rejected. -/
def rejected (x : CardSlot) (err : Byte) : CardSlot := { slotOff x with state := 7, err := err }

/-- A slot whose card is being activated. -/
def activated (x : CardSlot) : CardSlot := { slotOff x with state := 2, cls := if x.clsSel == 2 then 2 else 1, err := 0 }

theorem slotReject_quiet (d : Dev) (i : BitVec 2) (err : Byte) (b : Nat) :
    (slotReject d i err (some b)).quiet = (setSlot d i (rejected (getSlot d i) err)).quiet := raise_quiet _ _ _

theorem slotReject_event (d : Dev) (i : BitVec 2) (err : Byte) {b : Nat} (hb : b < 32) :
    (slotReject d i err (some b)).event (crdPage i.toNat) b = true := raise_event _ _ _ hb

theorem slotReject_mute (d : Dev) (i : BitVec 2) (err : Byte) :
    slotReject d i err none = emit (setSlot d i (rejected (getSlot d i) err)) (.cardPins i false) := rfl

/-- A slot at class C that may go on to class B waits for it. -/
theorem slotFallback_classC {d : Dev} {i : BitVec 2} (hcls : (getSlot d i).cls = 1) (hsel : (getSlot d i).clsSel ≠ 1) (err : Byte) :
    slotFallback d i err = emit (setSlot d i { slotOff (getSlot d i) with state := 2, retryB := true }) (.cardPins i false) :=
  if_pos (by rw [hcls, bne_iff_ne.mpr hsel]; rfl)

/-- A slot with no other class left rejects its card. -/
theorem slotFallback_last {d : Dev} {i : BitVec 2} (h : (getSlot d i).cls ≠ 1 ∨ (getSlot d i).clsSel = 1) (err : Byte) :
    slotFallback d i err = slotReject d i err (some 2) :=
  if_neg (by
    rw [Bool.and_eq_true, beq_iff_eq, bne_iff_ne]
    exact fun ⟨hcls, hsel⟩ => h.elim (fun hne => hne hcls) hsel)

theorem slotActivate_due {d : Dev} {i : BitVec 2} {x : CardSlot} (hx : getSlot d i = x) (hpresent : x.present = true)
    (hdebounced : x.debounced = true) (hstate : x.state = 1) (hon : domOn d 15 = true) :
    slotActivate d i = emit (setSlot d i (activated x)) (.cardPins i true) := by
  subst hx
  exact if_pos (by simp [hpresent, hdebounced, hstate, hon])

/-- Before the end of its debounce a card is not activated. -/
theorem slotActivate_bouncing {d : Dev} {i : BitVec 2} (h : (getSlot d i).debounced = false) : slotActivate d i = d :=
  if_neg (by simp [h])

/-! ### Insertion and class selection (11 R317) -/

theorem exec_cardDetectClose {s : State} {i : BitVec 2} (h : (getSlot s.dev i).present = false) :
    exec (.cardDetectClose i) s = .next (s.withDev (setSlot s.dev i
      { getSlot s.dev i with present := true, debounced := false, state := 1, err := 0 })) := by
  rw [exec, execCardDetectClose, act, h]
  rfl

theorem exec_cardDebounceEnd_again {s : State} {i : BitVec 2} (h : (getSlot s.dev i).debounced = true) :
    exec (.cardDebounceEnd i) s = .next s := by
  rw [exec, execCardDebounceEnd, act, if_neg (by simp [h])]

/-- The device whose slot has passed its debounce, with the insertion reported. -/
def debounceEnded (d : Dev) (i : BitVec 2) : Dev := raise (setSlot d i { getSlot d i with debounced := true }) (slotPage i) 0

theorem debounceEnded_slot (d : Dev) (i : BitVec 2) : getSlot (debounceEnded d i) i = { getSlot d i with debounced := true } := by
  unfold debounceEnded; rw [raise_getSlot, getSlot_setSlot]

theorem debounceEnded_domOn (d : Dev) (i : BitVec 2) (n : Nat) : domOn (debounceEnded d i) n = domOn d n := by
  unfold debounceEnded domOn; rw [raise_getDom, getDom_congr (setSlot_pwr d i _)]

theorem setSlot_debounceEnded_quiet (d : Dev) (i : BitVec 2) (x : CardSlot) : (setSlot (debounceEnded d i) i x).quiet = (setSlot d i x).quiet := by
  unfold debounceEnded; simp only [setSlot_quiet, raise_quiet, setSlot_setSlot]

/-- The end of a debounce reports the insertion and begins the activation. -/
theorem exec_cardDebounceEnd {s : State} {i : BitVec 2} (hpresent : (getSlot s.dev i).present = true)
    (hdebounced : (getSlot s.dev i).debounced = false) (hstate : (getSlot s.dev i).state = 1) (hon : domOn s.dev 15 = true) :
    exec (.cardDebounceEnd i) s = .next (s.withDev (emit
      (setSlot (debounceEnded s.dev i) i (activated { getSlot s.dev i with debounced := true })) (.cardPins i true))) := by
  have hactivate := slotActivate_due (debounceEnded_slot s.dev i) hpresent rfl hstate ((debounceEnded_domOn s.dev i 15).trans hon)
  rw [exec, execCardDebounceEnd, act, if_pos (by simp [hpresent, hdebounced])]
  exact congrArg (fun d => Host.Outcome.next (s.withDev d)) hactivate

theorem debounceEnded_event (d : Dev) (i : BitVec 2) (x : CardSlot) : (setSlot (debounceEnded d i) i x).event (crdPage i.toNat) 0 = true := by
  rw [event_of_pages (setSlot_pages _ _ _)]
  exact raise_event _ _ _ (by decide)

theorem exec_atrTimeout {s : State} {i : BitVec 2} (hstate : (getSlot s.dev i).state = 2) (hretry : (getSlot s.dev i).retryB = false) :
    exec (.atrTimeout i) s = .next (s.withDev (slotFallback s.dev i 0x01)) := by
  rw [exec, execAtrTimeout, act, if_pos (by simp [hstate, hretry])]
  rfl

theorem exec_cardClassBRetry {s : State} {i : BitVec 2} (hstate : (getSlot s.dev i).state = 2) (hretry : (getSlot s.dev i).retryB = true) :
    exec (.cardClassBRetry i) s = .next (s.withDev
      (emit (setSlot s.dev i { getSlot s.dev i with retryB := false, cls := 2 }) (.cardPins i true))) := by
  rw [exec, execCardClassBRetry, act, if_pos (by simp [hstate, hretry])]
  rfl

/-! ### Removal (11 R318) -/

/-- A slot whose card has been taken out. -/
def emptied (x : CardSlot) : CardSlot :=
  { slotOff x with present := false, debounced := false, state := 0, err := if x.ins = 0 then x.err else 0x05 }

/-- The removal of a card reports it and records it, with the command in progress. -/
theorem slotRemove_logged {d : Dev} {i : BitVec 2} (h : (getSlot d i).present = true) :
    (slotRemove d i).silent = (setSlot d i (emptied (getSlot d i))).silent ∧ (slotRemove d i).event (crdPage i.toNat) 1 = true := by
  have hraise := raise_event (emit (setSlot d i (emptied (getSlot d i))) (.cardPins i false)) (crdPage i.toNat) 1 (by decide)
  have hfirst := fun c l f bs => evLog_latched _ c l f bs _ _ hraise
  unfold slotRemove
  rw [if_neg (by simp [h])]
  dsimp only
  split
  · exact ⟨by simp only [evLog_silent, raise_silent, emit_silent]; rfl, evLog_latched _ _ _ _ _ _ _ (hfirst _ _ _ _)⟩
  · exact ⟨by simp only [evLog_silent, raise_silent, emit_silent]; rfl, hfirst _ _ _ _⟩

/-! ### Activation and deactivation by the keeper (11 R334) -/

theorem hostSees_core {ini : Ini} (h : isKeeperCore ini.id = true) (p : Nat) : hostSees ini p = true := by
  unfold isKeeperCore at h
  simp only [Bool.and_eq_true, decide_eq_true_eq] at h
  have hfn : isFnId ini.id = false := decide_eq_false (by omega)
  unfold hostSees
  rw [hfn]
  rfl

/-- A keeper core's write of a slot's control register, on a page that is awake and unlocked. -/
theorem slotWrite_reaches {d : Dev} {ini : Ini} {i : BitVec 2} (hini : isKeeperCore ini.id = true) (hawake : asleep d (crdPage i.toNat) = none)
    (hlock : (getPage d (crdPage i.toNat)).lock = false) (v : Word) (k : Dev → Dev) :
    wakeWrite d ini (regAddr (slotPage i) 0x040) v (fun d => unlessLocked d ini (slotPage i) 0x040 k) = k (touchPage d (crdPage i.toNat)) := by
  unfold wakeWrite
  rw [regAddr_div (by decide), hostSees_core hini, slotPage, hawake]
  exact unlessLocked_unlocked (by rwa [getPage_touchPage]) _ _ _

theorem touchPage_getSlot (d : Dev) (p : Nat) (j : BitVec 2) : getSlot (touchPage d p) j = getSlot d j :=
  getSlot_congr (by rw [touchPage_only]) j

/-- A touched page's domain stays in its state. -/
theorem touchPage_domOn (d : Dev) (p n : Nat) : domOn (touchPage d p) n = domOn d n := by
  unfold touchPage
  split
  · next m _ =>
    unfold domOn
    rw [modDom_eq]
    by_cases hn : n = m
    · rw [hn, getDom_setDom]
    · rw [getDom_setDom_other _ _ hn]
  · rfl

/-- A command of the keeper that sets one slot of a page that is awake. -/
theorem completes_touched {c : Instr} {s : State} {i : BitVec 2} {x : CardSlot} {e : Egress}
    (h : exec c s = .next (s.withDev (emit (setSlot (touchPage s.dev (crdPage i.toNat)) i x) e))) :
    Completes c s fun t => s.sameOutside t ∧
      t.dev = { s.dev with crd := t.dev.crd, pwr := (touchPage s.dev (crdPage i.toNat)).pwr, egress := s.dev.egress ++ [e] } ∧
      (∀ j, j ≠ i → getSlot t.dev j = getSlot s.dev j) ∧ getSlot t.dev i = x := by
  refine ⟨_, h, ⟨rfl, rfl, rfl⟩, ?_, fun j hj => ?_, getSlot_setSlot _ _ _⟩
  · rw [withDev_dev, setSlot_only, touchPage_only]
    rfl
  · rw [withDev_dev, emit_getSlot, getSlot_setSlot_other _ _ hj, touchPage_getSlot]

/-- The device whose slot has been asked for a class, at a page that is touched. -/
def classAsked (d : Dev) (i cls : BitVec 2) : Dev := setSlot (touchPage d (crdPage i.toNat)) i { getSlot d i with clsSel := cls }

theorem classAsked_slot (d : Dev) (i cls : BitVec 2) : getSlot (classAsked d i cls) i = { getSlot d i with clsSel := cls } :=
  getSlot_setSlot _ _ _

theorem classAsked_domOn (d : Dev) (i cls : BitVec 2) (n : Nat) : domOn (classAsked d i cls) n = domOn d n := by
  rw [← touchPage_domOn d (crdPage i.toNat) n]
  unfold classAsked domOn
  rw [getDom_congr (setSlot_pwr _ i _)]

theorem setSlot_classAsked (d : Dev) (i cls : BitVec 2) (x : CardSlot) :
    setSlot (classAsked d i cls) i x = setSlot (touchPage d (crdPage i.toNat)) i x := setSlot_setSlot _ _ _ _

theorem classAsked_egress (d : Dev) (i cls : BitVec 2) : (classAsked d i cls).egress = d.egress := by
  unfold classAsked; rw [setSlot_egress, touchPage_only]

theorem exec_crdAct {s : State} {ini : Ini} {i : BitVec 2} (hini : isKeeperCore ini.id = true) (hawake : asleep s.dev (crdPage i.toNat) = none)
    (hlock : (getPage s.dev (crdPage i.toNat)).lock = false) (cls : BitVec 2) :
    exec (.crdAct ini i cls) s = .next (s.withDev (slotActivate (classAsked s.dev i cls) i)) := by
  rw [exec, execCrdAct, act, if_pos hini, slotWrite_reaches hini hawake hlock, modSlot_eq, touchPage_getSlot]
  rfl

theorem exec_crdAct_denied {ini : Ini} (hini : isKeeperCore ini.id = false) (s : State) (i cls : BitVec 2) :
    exec (.crdAct ini i cls) s = .next (s.withDev (keeperDenied s.dev ini (regAddr (slotPage i) 0x040))) := by
  rw [exec, execCrdAct, act, if_neg (by simp [hini])]
  rfl

/-- A card that has passed its debounce is activated with the class asked for. -/
theorem exec_crdAct_due {s : State} {ini : Ini} {i : BitVec 2} (hini : isKeeperCore ini.id = true) (hawake : asleep s.dev (crdPage i.toNat) = none)
    (hlock : (getPage s.dev (crdPage i.toNat)).lock = false) (hpresent : (getSlot s.dev i).present = true)
    (hdebounced : (getSlot s.dev i).debounced = true) (hstate : (getSlot s.dev i).state = 1) (hon : domOn s.dev 15 = true) (cls : BitVec 2) :
    exec (.crdAct ini i cls) s = .next (s.withDev (emit
      (setSlot (touchPage s.dev (crdPage i.toNat)) i (activated { getSlot s.dev i with clsSel := cls })) (.cardPins i true))) := by
  rw [exec_crdAct hini hawake hlock, slotActivate_due (classAsked_slot s.dev i cls) hpresent hdebounced hstate ((classAsked_domOn s.dev i cls 15).trans hon),
    setSlot_classAsked]

theorem exec_crdDeact {s : State} {ini : Ini} {i : BitVec 2} (hini : isKeeperCore ini.id = true) (hawake : asleep s.dev (crdPage i.toNat) = none)
    (hlock : (getPage s.dev (crdPage i.toNat)).lock = false) (hlow : 2 ≤ (getSlot s.dev i).state.toNat) (hhigh : (getSlot s.dev i).state.toNat ≤ 6) :
    exec (.crdDeact ini i) s = .next (s.withDev (emit
      (setSlot (touchPage s.dev (crdPage i.toNat)) i { slotOff (getSlot s.dev i) with state := 1 }) (.cardPins i false))) := by
  have hactive : slotDeactivate (touchPage s.dev (crdPage i.toNat)) i =
      emit (setSlot (touchPage s.dev (crdPage i.toNat)) i { slotOff (getSlot s.dev i) with state := 1 }) (.cardPins i false) := by
    unfold slotDeactivate
    rw [touchPage_getSlot]
    exact if_pos (by simp [hlow, hhigh])
  rw [exec, execCrdDeact, act, if_neg (by simp [hini]), slotWrite_reaches hini hawake hlock, hactive]
  rfl

/-- Settles O35: each step of a card's stay in a slot by the one slot it sets. -/
theorem cardInsertion : Obligations.CardInsertion := by
  unfold Obligations.CardInsertion
  refine ⟨?insert, ?again, ?debounce, ?classC, ?reject, ?classB, ?remove, ?activate, ?deactivate, ?bouncing, ?denied⟩
  case insert => exact fun s i h => completes_setSlot (exec_cardDetectClose h)
  case again => exact fun s i _ h => exec_cardDebounceEnd_again h
  case debounce =>
    intro s i hpresent hdebounced hstate hon
    have hquiet := setSlot_debounceEnded_quiet s.dev i (activated { getSlot s.dev i with debounced := true })
    have hslot := slot_of_crd (quiet_crd hquiet)
    refine ⟨_, exec_cardDebounceEnd hpresent hdebounced hstate hon, oneSlotLoud_of hquiet, debounceEnded_event _ _ _,
      congrArg CardSlot.state hslot, (congrArg CardSlot.present hslot).trans hpresent, ?_, List.getLast?_concat⟩
    rw [withDev_dev, emit_getSlot, hslot]
    simp [activated]
  case classC =>
    intro s i hstate hretry hcls hsel
    refine (completes_emit (by rw [exec_atrTimeout hstate hretry, slotFallback_classC hcls hsel])).imp fun t ht => ?_
    obtain ⟨hone, hslot, hpins⟩ := ht
    exact ⟨hone, congrArg CardSlot.state hslot, congrArg CardSlot.retryB hslot, congrArg CardSlot.cls hslot, hpins⟩
  case reject =>
    intro s i hstate hretry hlast
    have hquiet := slotReject_quiet s.dev i 0x01 2
    have hslot := slot_of_crd (quiet_crd hquiet)
    rw [← slotFallback_last hlast] at hquiet hslot
    exact ⟨_, exec_atrTimeout hstate hretry, oneSlotLoud_of hquiet, congrArg CardSlot.state hslot, congrArg CardSlot.err hslot,
      congrArg CardSlot.cls hslot, by rw [withDev_dev, slotFallback_last hlast]; exact slotReject_event _ _ _ (by decide)⟩
  case classB => exact fun s i hstate hretry => completes_emit (exec_cardClassBRetry hstate hretry)
  case remove =>
    intro s i hpresent
    obtain ⟨hsilent, hevent⟩ := slotRemove_logged hpresent
    have hslot := slot_of_crd (silent_crd hsilent)
    exact ⟨_, rfl, oneSlotLogged_of hsilent, congrArg CardSlot.present hslot, congrArg CardSlot.state hslot, congrArg CardSlot.cls hslot,
      congrArg CardSlot.chan hslot, congrArg CardSlot.err hslot, hevent⟩
  case activate =>
    intro s ini i cls hini hawake hlock hpresent hdebounced hstate hon
    refine (completes_touched (exec_crdAct_due hini hawake hlock hpresent hdebounced hstate hon cls)).imp fun t ht => ?_
    obtain ⟨hsame, hdev, hothers, hslot⟩ := ht
    refine ⟨hsame, hdev, hothers, congrArg CardSlot.state hslot, congrArg CardSlot.clsSel hslot, ?_⟩
    rw [hslot]
    simp [activated]
  case deactivate =>
    intro s ini i hini hawake hlock hlow hhigh
    refine (completes_touched (exec_crdDeact hini hawake hlock hlow hhigh)).imp fun t ht => ?_
    obtain ⟨hsame, hdev, hothers, hslot⟩ := ht
    exact ⟨hsame, hdev, hothers, congrArg CardSlot.state hslot, congrArg CardSlot.cls hslot, congrArg CardSlot.chan hslot⟩
  case bouncing =>
    intro s ini i cls hini hawake hlock hdebounced
    have hbouncing : (getSlot (classAsked s.dev i cls) i).debounced = false := by rw [classAsked_slot]; exact hdebounced
    have hexec := exec_crdAct hini hawake hlock cls
    rw [slotActivate_bouncing hbouncing] at hexec
    exact ⟨_, hexec, ⟨rfl, rfl, rfl⟩, classAsked_slot _ _ _, classAsked_egress _ _ _⟩
  case denied => exact fun s ini i cls hini => ⟨_, exec_crdAct_denied hini s i cls, ⟨rfl, rfl, rfl⟩, violate_unlogged _ _ _ _ _ _ _⟩

end Sys2Proof.Machine
end

section
/-! PROOFS. The ATR of a card and the parameters it sets (11 R316, R317). -/

namespace Sys2Proof.Machine

/-! ### The bytes of an ATR -/

/-- What the slot assumes before it has read an ATR's interface bytes. -/
def atrBlank : AtrInfo := { ta1 := none, ta2 := none, tc1 := 0, t1 := false, ifsc := 32, tb3 := 0x4D, crc := false, glob := none }

theorem leAt_second (a b : Byte) (bs : List Byte) : leAt (a :: b :: bs) 1 1 = b.toNat := by
  simp [leAt, slice, leNat]

/-- T0 with presence nibble 9: TA1 and TD1 follow. -/
theorem atrNibble_ta1_td1 {k : Byte} (h : k.toNat < 16) : (0x90 ||| k).toNat / 16 = 9 := by
  have hshift := Nat.shiftRight_or_distrib (a := 0x90) (b := k.toNat) (i := 4)
  rw [Nat.shiftRight_eq_div_pow, Nat.shiftRight_eq_div_pow k.toNat, Nat.div_eq_of_lt (by omega : k.toNat < 2 ^ 4)] at hshift
  rw [BitVec.toNat_or]
  exact hshift

/-- What the interface bytes of an ATR say, and whether any of them offers T=1. -/
def atrInfo (atr : List Byte) : AtrInfo × Bool :=
  (atrGroups 33 1 0 (leAt atr 1 1 / 16) (atr.drop 2) atrBlank, atrOffers 33 (leAt atr 1 1 / 16) (atr.drop 2))

theorem atrInfo_ta1_td1 {k : Byte} (h : k.toNat < 16) (ta : Byte) (hist : List Byte) :
    atrInfo (0x3B :: (0x90 ||| k) :: ta :: 0x01 :: hist) = ({ atrBlank with ta1 := some ta.toNat }, true) := by
  unfold atrInfo
  rw [leAt_second, atrNibble_ta1_td1 h]
  rfl

theorem atrInfo_none {k : Byte} (h : k.toNat < 16) (hist : List Byte) : atrInfo (0x3B :: k :: hist) = (atrBlank, false) := by
  unfold atrInfo
  rw [leAt_second, Nat.div_eq_of_lt h]
  rfl

/-- The supported factors are read from TA1 as they are. -/
theorem atrFactors_supported : ∀ f ∈ cardFactors,
    (atrFactors (some f.1.toNat)).map (fun p => (BitVec.ofNat 11 p.1, BitVec.ofNat 5 p.2)) = some f.2 := by
  simp [cardFactors, atrFactors]

/-! ### What the slot does with an ATR -/

/-- The slot that has noted the length of its ATR. -/
def atrNoted (x : CardSlot) (atr : List Byte) : CardSlot := { x with atrLen := BitVec.ofNat 6 (min 33 atr.length) }

section
variable {d : Dev} {i : BitVec 2} {atr : List Byte} (hstate : (getSlot d i).state = 2) (hretry : (getSlot d i).retryB = false)
include hstate hretry

/-- An ATR that offers T=1 and says nothing else but its factors sets the slot's parameters and makes it READY. -/
theorem slotAtr_factors {ta : Option Nat} {n m : Nat} (hinfo : atrInfo atr = ({ atrBlank with ta1 := ta }, true)) (hf : atrFactors ta = some (n, m)) :
    slotAtr d i atr = setSlot d i { slotIdle (atrNoted (getSlot d i) atr) with
      fi := BitVec.ofNat 11 n, di := BitVec.ofNat 5 m, tc1 := 0, ifsc := 32, bwi := 4, cwi := 13, stopInd := 0, err := 0 } := by
  unfold atrInfo atrBlank at hinfo
  obtain ⟨hgroups, hoffers⟩ := Prod.mk.inj hinfo
  unfold slotAtr
  dsimp only
  rw [if_neg (by simp [hstate, hretry]), hgroups, hoffers]
  dsimp only
  rw [if_neg (by simp), if_neg (by simp), hf, modSlot_eq, getSlot_setSlot, setSlot_setSlot]
  rfl

/-- An ATR without T=1 rejects its card. -/
theorem slotAtr_refused (hinfo : atrInfo atr = (atrBlank, false)) :
    slotAtr d i atr = slotReject (setSlot d i (atrNoted (getSlot d i) atr)) i 0x02 (some 2) := by
  unfold atrInfo atrBlank at hinfo
  obtain ⟨hgroups, hoffers⟩ := Prod.mk.inj hinfo
  unfold slotAtr
  dsimp only
  rw [if_neg (by simp [hstate, hretry]), hgroups, hoffers]
  dsimp only
  rw [if_neg (by simp)]
  exact if_pos rfl

/-- The rejection shows error 2 and is reported. -/
theorem slotAtr_reports (hinfo : atrInfo atr = (atrBlank, false)) :
    (slotAtr d i atr).quiet = (setSlot d i (rejected (atrNoted (getSlot d i) atr) 0x02)).quiet ∧
      (slotAtr d i atr).event (crdPage i.toNat) 2 = true := by
  rw [slotAtr_refused hstate hretry hinfo]
  exact ⟨by rw [slotReject_quiet, getSlot_setSlot, setSlot_setSlot], slotReject_event _ _ _ (by decide)⟩

end

/-- Settles O36: the ATR with TA1 and TD1 by the parameters it sets, the one without interface bytes by its rejection. -/
theorem atrParameters : Obligations.AtrParameters := by
  unfold Obligations.AtrParameters
  refine ⟨?supported, ?refused⟩
  case supported =>
    intro s i k hist ta fi di hstate hretry hf hk
    obtain ⟨⟨n, m⟩, hread, hfactors⟩ := Option.map_eq_some_iff.mp (atrFactors_supported _ hf)
    obtain ⟨hfi, hdi⟩ := Prod.mk.inj hfactors
    have hatr := slotAtr_factors hstate hretry (atrInfo_ta1_td1 hk ta hist) hread
    have hcrd := congrArg Dev.crd hatr
    have hslot := slot_of_crd hcrd
    refine ⟨_, rfl, rfl, rfl, ?_, (others_of_crd hcrd).1, congrArg CardSlot.state hslot, (congrArg CardSlot.fi hslot).trans hfi,
      (congrArg CardSlot.di hslot).trans hdi, congrArg CardSlot.ifsc hslot, congrArg CardSlot.err hslot, (congrArg CardSlot.cls hslot :), rfl⟩
    dsimp only
    rw [hatr]
    exact setSlot_only _ _ _
  case refused =>
    intro s i k hist hstate hretry hk
    obtain ⟨hquiet, hevent⟩ := slotAtr_reports hstate hretry (atrInfo_none hk hist)
    have hcrd := quiet_crd hquiet
    have hslot := slot_of_crd hcrd
    exact ⟨_, rfl, rfl, rfl, quiet_only hquiet, (others_of_crd hcrd).1, congrArg CardSlot.state hslot, congrArg CardSlot.err hslot,
      congrArg CardSlot.cls hslot, hevent⟩

end Sys2Proof.Machine
end

section
/-! PROOFS. The commands sent to a card, and the timing of a slot (11 R316-R324). -/

namespace Sys2Proof.Machine

/-! ### Sending a command (11 R322, R324) -/

/-- A slot that has sent a command. -/
def sent (x : CardSlot) (ins : Byte) : CardSlot :=
  { x with state := 4, ins := ins, clkstop := false, rspDone := false, rspErr := false, tries := 0, resynced := false }

theorem slotSend_eq (d : Dev) (i : BitVec 2) (ins : Byte) (body : List Byte) :
    slotSend d i ins body = emit (setSlot d i (sent (getSlot d i) ins)) (.apdu i ins body) := rfl

/-- The bytes of a command under the channel: the cipher text of its plain text and the tag. -/
def channelBody (x : CardSlot) (pt : List Byte) : List Byte :=
  gcmCrypt x.kd (beBytes 12 x.ctr) pt ++ gcmTag x.kd (beBytes 12 x.ctr) [] (gcmCrypt x.kd (beBytes 12 x.ctr) pt)

/-- A command under the channel takes one value of the channel's counter. -/
theorem slotSeal_eq (d : Dev) (i : BitVec 2) (ins : Byte) (pt : List Byte) :
    slotSeal d i ins pt =
      emit (setSlot d i (sent { getSlot d i with ctr := (getSlot d i).ctr + 1 } ins)) (.apdu i ins (channelBody (getSlot d i) pt)) := by
  unfold slotSeal
  rw [slotSend_eq, getSlot_setSlot, setSlot_setSlot]
  rfl

/-! ### The commands that need no draw -/

theorem exec_wake {s : State} {i : BitVec 2} (hfree : slotFree s.dev i 0x02 = true) (hchan : (getSlot s.dev i).chan = false) :
    exec (.wake i) s = .next (s.withDev (emit (setSlot s.dev i (sent (getSlot s.dev i) 0x02))
      (.apdu i 0x02 (beBytes 4 (getSlot s.dev i).ctr)))) := by
  rw [exec, execWake, act]
  dsimp only
  rw [if_neg (by simp only [hfree, Bool.not_true, Bool.false_eq_true, not_false_iff]), if_neg (by simp [hchan]), slotSend_eq]
  rfl

theorem exec_identify {s : State} {i : BitVec 2} (hfree : slotFree s.dev i 0x10 = true) :
    exec (.identify i) s = .next (s.withDev (emit (setSlot s.dev i (sent (getSlot s.dev i) 0x10)) (.apdu i 0x10 []))) := by
  rw [exec, execIdentify, act, if_pos hfree, slotSend_eq]
  rfl

theorem exec_close {s : State} {i : BitVec 2} (hfree : slotFree s.dev i 0x60 = true) :
    exec (.close i) s = .next (s.withDev (emit (setSlot s.dev i (sent (getSlot s.dev i) 0x60)) (.apdu i 0x60 []))) := by
  rw [exec, execClose, act, if_pos hfree, slotSend_eq]
  rfl

theorem exec_shareRelease {s : State} {i : BitVec 2} {c : Custody} (hc : custodyOf s.dev.nv = some c) (hfree : slotFree s.dev i 0x30 = true)
    (hchan : (getSlot s.dev i).chan = true) :
    exec (.shareRelease i) s = .next (s.withDev (emit
      (setSlot s.dev i (sent { getSlot s.dev i with ctr := (getSlot s.dev i).ctr + 1 } 0x30))
      (.apdu i 0x30 (channelBody (getSlot s.dev i) (beBytes 4 c.version.toNat))))) := by
  rw [exec, execShareRelease, act, hc]
  dsimp only
  rw [if_pos (by rw [hfree, hchan]; rfl), slotSeal_eq]
  rfl

/-! ### SHARE_WRITE (11 R320, R333) -/

/-- Only a satisfied session of a custody change draws a new polynomial. -/
theorem enterEnrolling_idle {d : Dev} {se : Session} (hse : d.crd.session = some se) (h : ¬ (se.state = 1 ∧ 0x1000 ≤ se.code.toNat)) :
    enterEnrolling d = d := by
  have hidle : ¬ (decide (se.state = 1) && decide (0x1000 ≤ se.code.toNat)) = true := by
    rw [← Bool.decide_and, decide_eq_true_iff]; exact h
  unfold enterEnrolling
  rw [hse]
  exact if_neg hidle

theorem enterEnrolling_entered {d : Dev} {se : Session} (hse : d.crd.session = some se) (hstate : se.state = 5) : enterEnrolling d = d :=
  enterEnrolling_idle hse fun h => absurd (hstate.symm.trans h.1) (by decide)

/-- The plain text of SHARE_WRITE: target version, version to keep, index and share. -/
def sharePlain (nv : Nv) (se : Session) (ix : Nat) : List Byte :=
  beBytes 4 (nextVersion nv) ++ beBytes 4 (nextVersion nv - 1) ++ beBytes 1 ix ++ beBytes 32 (sharePoly se.qs se.coeffs ix)

theorem exec_shareWrite {s : State} {i : BitVec 2} {se : Session} (hse : s.dev.crd.session = some se) (hstate : se.state = 5)
    (hfree : slotFree s.dev i 0x40 = true) (hchan : (getSlot s.dev i).chan = true)
    (hix : enrolIndex se (getSlot s.dev i).cardId ≤ custodyN se.code) :
    exec (.shareWrite i) s = .next (s.withDev (emit
      (setSlot s.dev i (sent { getSlot s.dev i with wIndex := enrolIndex se (getSlot s.dev i).cardId, ctr := (getSlot s.dev i).ctr + 1 } 0x40))
      (.apdu i 0x40 (channelBody (getSlot s.dev i) (sharePlain s.dev.nv se (enrolIndex se (getSlot s.dev i).cardId)))))) := by
  rw [exec, execShareWrite, act]
  dsimp only
  rw [enterEnrolling_entered hse hstate, hse]
  dsimp only
  rw [if_pos (by rw [hstate, hfree, hchan, decide_eq_true hix]; rfl), slotSeal_eq, getSlot_setSlot, setSlot_setSlot]
  rfl

/-! ### OPEN_CHANNEL (11 R323) -/

theorem takeDraw_only {d e : Dev} {k n : Nat} {bs : List Byte} (h : takeDraw d k n = some (bs, e)) : e = { d with rng := e.rng } := by
  simp only [takeDraw, instGenerate] at h
  split at h
  · split at h
    · next hg =>
      split at hg
      · cases hg; cases h; rfl
      · cases hg
    · cases h
  · cases h

/-- A draw of the keeper world changes the random number block and the jobs that wait for it. -/
theorem keeperDraw_only {d e : Dev} {n : Nat} {bs : List Byte} (h : keeperDraw d n = some (bs, e)) :
    e = { d with rng := e.rng, jobs := e.jobs } := by
  unfold keeperDraw at h
  split at h
  · next ht =>
    cases h
    rw [rngFeed_only, takeDraw_only ht]
  · cases h

theorem keeperDraw_getSlot {d e : Dev} {n : Nat} {bs : List Byte} (h : keeperDraw d n = some (bs, e)) (j : BitVec 2) : getSlot e j = getSlot d j :=
  getSlot_congr (by rw [keeperDraw_only h]) j

/-- The point whose scalar the draw gives, held apart from its computation. -/
def ephemeralPoint (bs : List Byte) : List Byte := pointBytes p256 (ecMul p256 (scalarOf p256 (bs.take 40)) (ecBase p256))

/-- A slot that has drawn its ephemeral scalar and its nonce. -/
def ephemeral (x : CardSlot) (bs : List Byte) : CardSlot :=
  { x with ephD := beBytes 32 (scalarOf p256 (bs.take 40)), devNonce := bs.drop 40 }

theorem exec_openChannel {s : State} {i : BitVec 2} {bs : List Byte} {d : Dev} (hfree : slotFree s.dev i 0x20 = true)
    (hkey : cardKey s.dev (getSlot s.dev i) ≠ none) (hdraw : keeperDraw s.dev 56 = some (bs, d)) :
    exec (.openChannel i) s = .next (s.withDev (emit (setSlot d i (sent (ephemeral (getSlot s.dev i) bs) 0x20))
      (.apdu i 0x20 (ephemeralPoint bs ++ bs.drop 40)))) := by
  rw [exec, execOpenChannel, act, if_neg (by simp only [hfree, Bool.not_true, Bool.false_eq_true, not_false_iff]), if_neg (by simp [hkey]), hdraw]
  dsimp only
  rw [modSlot_eq, slotSend_eq, getSlot_setSlot, setSlot_setSlot, keeperDraw_getSlot hdraw]
  rfl

/-! ### Programming holds, waiting times and the clock (11 R316, R319, R321) -/

theorem exec_cardIoLow {s : State} {i : BitVec 2} (hstate : (getSlot s.dev i).state = 4) (hins : (getSlot s.dev i).ins = 0x40) :
    exec (.cardIoLow i) s = .next (s.withDev (setSlot s.dev i { getSlot s.dev i with state := 5, busy := true })) := by
  rw [exec, execCardIoLow, act, if_pos (by simp [hstate, hins])]
  rfl

theorem exec_cardIoRise {s : State} {i : BitVec 2} (hstate : (getSlot s.dev i).state = 5) :
    exec (.cardIoRise i) s = .next (s.withDev (setSlot s.dev i { getSlot s.dev i with state := 4, busy := false })) := by
  rw [exec, execCardIoRise, act, if_pos (by simp [hstate])]
  rfl

theorem exec_cardBusyTimeout {s : State} {i : BitVec 2} (hstate : (getSlot s.dev i).state = 5) :
    exec (.cardBusyTimeout i) s = .next (s.withDev (slotReject s.dev i 0x04 (some 4))) := by
  rw [exec, execCardBusyTimeout, act, if_pos (by simp [hstate])]
  rfl

theorem exec_blockWaitingTimeExpire (s : State) (i : BitVec 2) :
    exec (.blockWaitingTimeExpire i) s = .next (s.withDev (blockTimeout s.dev i)) := rfl

/-- The waiting time of a block that cannot be asked for again rejects the card. -/
theorem blockTimeout_resynced {d : Dev} {i : BitVec 2} (hstate : (getSlot d i).state = 4) (hresynced : (getSlot d i).resynced = true) :
    blockTimeout d i = emit (setSlot d i (rejected (getSlot d i) 0x03)) (.cardPins i false) := by
  unfold blockTimeout
  rw [if_neg (by simp [hstate]), if_pos hresynced, slotReject_mute]

/-- A slot after its block is sent again, or asked to resynchronise once three transmissions are spent. -/
def askedAgain (x : CardSlot) : CardSlot := if x.tries < 3 then { x with tries := x.tries + 1 } else { x with resynced := true }

theorem blockTimeout_again {d : Dev} {i : BitVec 2} (hstate : (getSlot d i).state = 4) (hresynced : (getSlot d i).resynced = false) :
    blockTimeout d i = setSlot d i (askedAgain (getSlot d i)) := by
  unfold blockTimeout askedAgain
  rw [if_neg (by simp [hstate]), if_neg (by simp [hresynced]), apply_ite (setSlot d i)]

theorem exec_cardClockStop {s : State} {i : BitVec 2} (hstate : (getSlot s.dev i).state = 3) (hind : (getSlot s.dev i).stopInd ≠ 0)
    (hidle : (getSlot s.dev i).idleMs ≠ 0) :
    exec (.cardClockStop i) s = .next (s.withDev (setSlot s.dev i { getSlot s.dev i with state := 6, clkstop := true, wakeDue := true })) := by
  rw [exec, execCardClockStop, act]
  dsimp only
  rw [if_pos (by rw [hstate, bne_iff_ne.mpr hind, bne_iff_ne.mpr hidle]; rfl)]
  rfl

/-- A card that does not allow its clock to stop keeps it. -/
theorem exec_cardClockStop_never {s : State} {i : BitVec 2} (hind : (getSlot s.dev i).stopInd = 0) : exec (.cardClockStop i) s = .next s := by
  rw [exec, execCardClockStop, act]
  dsimp only
  rw [if_neg (by simp [hind])]

/-- Settles O37: each command by the APDU it sends, each timing by the slot it sets. -/
theorem cardCommands : Obligations.CardCommands := by
  unfold Obligations.CardCommands
  refine ⟨?wake, ?identify, ?openChannel, ?shareRelease, ?shareWrite, ?close, ?ioLow, ?ioRise, ?busyTimeout, ?waitingTime, ?clockStop, ?clockRuns⟩
  case wake =>
    intro s i hfree hchan
    refine (completes_emit (exec_wake hfree hchan)).imp fun t ht => ?_
    obtain ⟨hone, hslot, hapdu⟩ := ht
    exact ⟨hone, congrArg CardSlot.state hslot, congrArg CardSlot.ins hslot, congrArg CardSlot.clkstop hslot, hapdu⟩
  case identify =>
    intro s i hfree
    refine (completes_emit (exec_identify hfree)).imp fun t ht => ?_
    obtain ⟨hone, hslot, hapdu⟩ := ht
    exact ⟨hone, congrArg CardSlot.state hslot, congrArg CardSlot.ins hslot, hapdu⟩
  case openChannel =>
    intro s i bs d hfree hkey hdraw
    have hslot : getSlot (setSlot d i (sent (ephemeral (getSlot s.dev i) bs) 0x20)) i = _ := getSlot_setSlot _ _ _
    refine ⟨_, exec_openChannel hfree hkey hdraw, ⟨rfl, rfl, rfl⟩, ?_, fun j hj => ?_, congrArg CardSlot.state hslot, congrArg CardSlot.ins hslot,
      congrArg CardSlot.devNonce hslot, congrArg CardSlot.ephD hslot⟩
    · rw [withDev_dev, setSlot_only]
      rfl
    · rw [withDev_dev, emit_getSlot, getSlot_setSlot_other _ _ hj, keeperDraw_getSlot hdraw]
  case shareRelease =>
    intro s i c hc hfree hchan
    refine (completes_emit (exec_shareRelease hc hfree hchan)).imp fun t ht => ?_
    obtain ⟨hone, hslot, hapdu⟩ := ht
    exact ⟨hone, congrArg CardSlot.state hslot, congrArg CardSlot.ins hslot, congrArg CardSlot.ctr hslot, hapdu⟩
  case shareWrite =>
    intro s i se hse hstate hfree hchan hix
    refine (completes_emit (exec_shareWrite hse hstate hfree hchan hix)).imp fun t ht => ?_
    obtain ⟨hone, hslot, hapdu⟩ := ht
    exact ⟨hone, congrArg CardSlot.state hslot, congrArg CardSlot.ins hslot, congrArg CardSlot.wIndex hslot, _, _, hapdu, rfl, rfl⟩
  case close =>
    intro s i hfree
    refine (completes_emit (exec_close hfree)).imp fun t ht => ?_
    obtain ⟨hone, hslot, hapdu⟩ := ht
    exact ⟨hone, congrArg CardSlot.state hslot, congrArg CardSlot.ins hslot, hapdu⟩
  case ioLow => exact fun s i hstate hins => completes_setSlot (exec_cardIoLow hstate hins)
  case ioRise => exact fun s i hstate => completes_setSlot (exec_cardIoRise hstate)
  case busyTimeout =>
    intro s i hstate
    have hquiet := slotReject_quiet s.dev i 0x04 4
    have hslot := slot_of_crd (quiet_crd hquiet)
    exact ⟨_, exec_cardBusyTimeout hstate, oneSlotLoud_of hquiet, congrArg CardSlot.state hslot, congrArg CardSlot.err hslot,
      congrArg CardSlot.busy hslot, congrArg CardSlot.chan hslot, slotReject_event _ _ _ (by decide)⟩
  case waitingTime =>
    intro s i hstate
    cases hresynced : (getSlot s.dev i).resynced with
    | true =>
      refine (completes_emit (by rw [exec_blockWaitingTimeExpire, blockTimeout_resynced hstate hresynced])).imp fun t ht => ?_
      obtain ⟨hone, hslot, -⟩ := ht
      exact ⟨hone, nofun, nofun, fun _ => ⟨congrArg CardSlot.state hslot, congrArg CardSlot.err hslot⟩⟩
    | false =>
      refine (completes_setSlot (by rw [exec_blockWaitingTimeExpire, blockTimeout_again hstate hresynced])).imp fun t ht => ?_
      obtain ⟨hone, hslot, -⟩ := ht
      exact ⟨hone, fun _ htries => hslot.trans (if_pos htries), fun _ htries => hslot.trans (if_neg (Nat.not_lt.mpr htries)), nofun⟩
  case clockStop => exact fun s i hstate hind hidle => completes_setSlot (exec_cardClockStop hstate hind hidle)
  case clockRuns => exact fun s i hind => exec_cardClockStop_never hind

end Sys2Proof.Machine
end

section
/-! PROOFS. What a card answers, and the end of a session's window (11 R322, R323, R328, R329). -/

namespace Sys2Proof.Machine

/-! ### A response in its steps (11 R322) -/

theorem exec_apduResponse {s : State} {i : BitVec 2} (hstate : (getSlot s.dev i).state = 4) (data : List Byte) (sw : BitVec 16) :
    exec (.apduResponse i data sw) s =
      .next { s with dev := cardResponse s.dev i data sw, mem := cardBuffer s i 0x800 (data ++ beBytes 2 sw.toNat) } := by
  rw [exec, execApduResponse, if_pos (by simp [hstate])]

theorem exec_apduResponse_unawaited {s : State} {i : BitVec 2} (hstate : (getSlot s.dev i).state ≠ 4) (data : List Byte) (sw : BitVec 16) :
    exec (.apduResponse i data sw) s = .next s := by
  rw [exec, execApduResponse, if_neg (by rw [beq_iff_eq]; exact hstate)]

/-- A slot that has its response. -/
def answered (x : CardSlot) (data : List Byte) (err : Bool) : CardSlot :=
  { slotIdle x with rspDone := true, rspErr := err, rspLen := BitVec.ofNat 12 (data.length + 2) }

/-- The device that shows a response in its slot and reports it. -/
def cardAnswered (d : Dev) (i : BitVec 2) (data : List Byte) (err : Bool) : Dev :=
  raise (setSlot d i (answered (getSlot d i) data err)) (crdPage i.toNat) 3

theorem cardAnswered_quiet (d : Dev) (i : BitVec 2) (data : List Byte) (err : Bool) :
    (cardAnswered d i data err).quiet = (setSlot d i (answered (getSlot d i) data err)).quiet := raise_quiet _ _ _

theorem cardAnswered_event (d : Dev) (i : BitVec 2) (data : List Byte) (err : Bool) :
    (cardAnswered d i data err).event (crdPage i.toNat) 3 = true := raise_event _ _ _ (by decide)

theorem cardAnswered_getSlot (d : Dev) (i : BitVec 2) (data : List Byte) (err : Bool) :
    getSlot (cardAnswered d i data err) i = answered (getSlot d i) data err := slot_of_crd (quiet_crd (cardAnswered_quiet d i data err))

section
variable {d : Dev} {i : BitVec 2} (hstate : (getSlot d i).state = 4)
include hstate

theorem cardResponse_accepted (data : List Byte) :
    cardResponse d i data 0x9000 = cardAccepted (cardAnswered d i data false) i (getSlot d i).ins data 0x9000 := by
  unfold cardResponse
  dsimp only
  rw [if_neg (by simp [hstate]), if_pos rfl]
  rfl

theorem cardResponse_failed (data : List Byte) {sw : BitVec 16} (hsw : sw ≠ 0x9000) :
    cardResponse d i data sw = cardFailed (cardAnswered d i data true) i (getSlot d i).ins sw := by
  unfold cardResponse
  dsimp only
  rw [if_neg (by simp [hstate]), if_neg hsw, bne_iff_ne.mpr hsw]
  rfl

end

/-- New contents of the slot replace the answered ones, the report beside. -/
theorem setSlot_cardAnswered_quiet (d : Dev) (i : BitVec 2) (data : List Byte) (err : Bool) (x : CardSlot) :
    (setSlot (cardAnswered d i data err) i x).quiet = (setSlot d i x).quiet := by
  rw [setSlot_quiet, cardAnswered_quiet, setSlot_quiet, setSlot_setSlot, ← setSlot_quiet]

/-- The slot of a card that has identified itself. -/
def identified (x : CardSlot) (data : List Byte) : CardSlot :=
  { x with cardId := slice data 0 16, cardPub := slice data 16 64,
           vers0 := BitVec.ofNat 32 (beNat (slice data 80 4)), vers1 := BitVec.ofNat 32 (beNat (slice data 84 4)) }

/-- The slot whose channel is closed. -/
def unchannelled (x : CardSlot) : CardSlot := { x with chan := false, kd := [], km := [], ctr := 0 }

theorem cardAccepted_identify (d : Dev) (i : BitVec 2) (data : List Byte) (sw : BitVec 16) :
    cardAccepted d i 0x10 data sw = setSlot d i (identified (getSlot d i) data) := by
  unfold cardAccepted
  rw [if_neg (by decide), if_pos rfl]
  rfl

theorem cardAccepted_close (d : Dev) (i : BitVec 2) (data : List Byte) (sw : BitVec 16) :
    cardAccepted d i 0x60 data sw = setSlot d i (unchannelled (getSlot d i)) := by
  unfold cardAccepted
  rw [if_neg (by decide), if_neg (by decide), if_neg (by decide), if_neg (by decide), if_neg (by decide), if_pos rfl]
  rfl

/-- The failure of a command other than WAKE is recorded and changes nothing else. -/
theorem cardFailed_recorded {ins : Byte} (hins : ins ≠ 0x02) (d : Dev) (i : BitVec 2) (sw : BitVec 16) :
    (cardFailed d i ins sw).silent = d.silent ∧ d.latched (cardFailed d i ins sw) := by
  unfold cardFailed
  rw [if_neg hins]
  exact ⟨evLog_silent _ _ _ _ _, evLog_latched _ _ _ _ _⟩

/-! ### The window of a session (11 R329) -/

theorem exec_quorumWindowExpire (s : State) : exec .quorumWindowExpire s = .next (s.withDev (windowExpire s.dev)) := rfl

theorem windowExpire_ended {d : Dev} {se : Session} (hse : d.crd.session = some se) (hlive : se.state = 0 ∨ se.state = 1 ∨ se.state = 5)
    (hend : se.windowEnd ≤ d.bat.rtc.toNat) : windowExpire d = setSession d { sessionWiped se with state := 3 } := by
  unfold windowExpire
  rw [hse]
  exact if_pos (by rcases hlive with h | h | h <;> rw [h, decide_eq_true hend] <;> rfl)

theorem windowExpire_running {d : Dev} {se : Session} (hse : d.crd.session = some se) (hrun : d.bat.rtc.toNat < se.windowEnd) :
    windowExpire d = d := by
  unfold windowExpire
  rw [hse]
  exact if_neg (by simp [hrun])

/-- Settles O38: the responses by their steps, the session by its window. -/
theorem cardResponses : Obligations.CardResponses := by
  unfold Obligations.CardResponses
  refine ⟨?identify, ?close, ?failed, ?unawaited, ?windowEnds, ?windowRuns⟩
  case identify =>
    intro s i data hstate hins
    have hdev := cardResponse_accepted hstate data
    rw [hins, cardAccepted_identify, cardAnswered_getSlot] at hdev
    have hquiet := (congrArg Dev.quiet hdev).trans (setSlot_cardAnswered_quiet _ _ _ _ _)
    have hcrd := quiet_crd hquiet
    have hslot := slot_of_crd hcrd
    have hevent := cardAnswered_event s.dev i data false
    refine ⟨_, exec_apduResponse hstate data 0x9000, rfl, rfl, rfl, quiet_only hquiet, (others_of_crd hcrd).1, ?_, congrArg CardSlot.state hslot,
      congrArg CardSlot.rspDone hslot, congrArg CardSlot.rspErr hslot, congrArg CardSlot.rspLen hslot, congrArg CardSlot.cardId hslot,
      congrArg CardSlot.cardPub hslot⟩
    dsimp only
    rwa [hdev, event_of_pages (setSlot_pages _ _ _)]
  case close =>
    intro s i data hstate hins
    have hdev := cardResponse_accepted hstate data
    rw [hins, cardAccepted_close, cardAnswered_getSlot] at hdev
    have hquiet := (congrArg Dev.quiet hdev).trans (setSlot_cardAnswered_quiet _ _ _ _ _)
    have hcrd := quiet_crd hquiet
    have hslot := slot_of_crd hcrd
    exact ⟨_, exec_apduResponse hstate data 0x9000, rfl, rfl, quiet_only hquiet, (others_of_crd hcrd).1, congrArg CardSlot.state hslot,
      congrArg CardSlot.chan hslot, congrArg CardSlot.kd hslot, congrArg CardSlot.km hslot⟩
  case failed =>
    intro s i data sw hstate hins hsw
    obtain ⟨hfailed, hlatched⟩ := cardFailed_recorded hins (cardAnswered s.dev i data true) i sw
    rw [← cardResponse_failed hstate data hsw] at hfailed hlatched
    have hsilent := hfailed.trans (silent_of_quiet (cardAnswered_quiet s.dev i data true))
    have hcrd := silent_crd hsilent
    have hslot := slot_of_crd hcrd
    obtain ⟨hothers, hsession, -⟩ := others_of_crd hcrd
    exact ⟨_, exec_apduResponse hstate data sw, rfl, rfl, silent_only hsilent, hsession, hothers, congrArg CardSlot.state hslot,
      congrArg CardSlot.rspDone hslot, congrArg CardSlot.rspErr hslot, hlatched _ _ (cardAnswered_event s.dev i data true)⟩
  case unawaited => exact fun s i data sw hstate => exec_apduResponse_unawaited hstate data sw
  case windowEnds =>
    intro s se hse hlive hend
    rw [exec_quorumWindowExpire, windowExpire_ended hse hlive hend]
    rfl
  case windowRuns =>
    intro s se hse hrun
    rw [exec_quorumWindowExpire, windowExpire_running hse hrun]
    rfl

end Sys2Proof.Machine
end

section
/-! PROOFS. The counting of quorum shares (11 R329, R330). -/

namespace Sys2Proof.Machine

/-- The share that a card's response holds, with the identity of its card and its index. -/
def shareOf (d : Dev) (i : BitVec 2) (e : CardEntry) (pt : List Byte) : List Byte × Nat × List Byte :=
  ((getSlot d i).cardId, e.index, slice pt 1 32)

/-- A session that has counted one share more. -/
def counting (se : Session) (share : List Byte × Nat × List Byte) : Session := { se with counted := se.counted ++ [share] }

/-- A session that its shares satisfy: they are wiped, and the window in which it may be used starts. -/
def satisfied (se : Session) (now : Nat) : Session := { sessionWiped se with state := 1, windowEnd := now + window120 }

/-- A card that the custody record does not list is recorded and counts for nothing. -/
theorem countShare_outsider {d : Dev} {i : BitVec 2} {c : Custody} (hc : custodyOf d.nv = some c)
    (hcard : custodyCard c (getSlot d i).cardId = none) (pt : List Byte) : countShare d i pt = notCounted d i 0 := by
  unfold countShare
  simp only [hc, hcard, Option.bind_some, Option.map_none]

theorem notCounted_silent (d : Dev) (i : BitVec 2) (reason : Byte) : (notCounted d i reason).silent = d.silent := evLog_silent _ _ _ _ _

theorem not_counted_before {se : Session} {id : List Byte} (hnew : ∀ k ∈ se.counted, k.1 ≠ id) :
    ¬ (se.counted.any fun k => k.1 == id) = true := by
  rw [List.any_eq_true]
  rintro ⟨k, hk, hid⟩
  exact hnew k hk (beq_iff_eq.mp hid)

section
variable {d : Dev} {i : BitVec 2} {pt : List Byte} {c : Custody} {se : Session} {e : CardEntry}
  (hc : custodyOf d.nv = some c) (hse : d.crd.session = some se) (hopen : se.state = 0) (hrun : d.bat.rtc.toNat < se.windowEnd)
  (hcard : custodyCard c (getSlot d i).cardId = some e) (hix : e.index = leAt pt 0 1)
  (hcheck : shareCheck c.version.toNat e.index (slice pt 1 32) = e.check)
include hc hse hopen hrun hcard hix hcheck

/-- A share of a custodian's card that checks, in an open session whose window runs, comes to be counted unless its card has been. -/
theorem countShare_checked : countShare d i pt =
    if se.counted.any fun k => k.1 == (getSlot d i).cardId then d
    else if (counting se (shareOf d i e pt)).counted.length < c.m then
      setSession d (counting se (shareOf d i e pt))
    else if quorumDigest c.version.toNat (shareJoin (((counting se (shareOf d i e pt)).counted.take c.m).map
        fun k => (k.2.1, beNat k.2.2))) != c.digest then
      notCounted (setSession d { sessionWiped (counting se (shareOf d i e pt)) with state := 3 }) i 3
    else enterEnrolling (setSession d (satisfied (counting se (shareOf d i e pt)) d.bat.rtc.toNat)) := by
  have hvalid : ¬ (e.index != leAt pt 0 1 || shareCheck c.version.toNat (leAt pt 0 1) (slice pt 1 32) != e.check) = true := by
    rw [← hix, hcheck]; simp
  unfold countShare
  simp only [hc, hcard, Option.bind_some, Option.map_some]
  rw [if_neg hvalid, hse]
  dsimp only
  rw [if_neg (by simp [hopen]), if_neg (Nat.not_le.mpr hrun), ← hix]
  rfl

/-- A card's second share is not counted again. -/
theorem countShare_again (hold : ∃ k ∈ se.counted, k.1 = (getSlot d i).cardId) : countShare d i pt = d := by
  rw [countShare_checked hc hse hopen hrun hcard hix hcheck]
  refine if_pos (List.any_eq_true.mpr ?_)
  obtain ⟨k, hk, hid⟩ := hold
  exact ⟨k, hk, beq_iff_eq.mpr hid⟩

section
variable (hnew : ∀ k ∈ se.counted, k.1 ≠ (getSlot d i).cardId)
include hnew

/-- A first share is counted while more are needed. -/
theorem countShare_adds (hfew : se.counted.length + 1 < c.m) : countShare d i pt = setSession d (counting se (shareOf d i e pt)) := by
  rw [countShare_checked hc hse hopen hrun hcard hix hcheck, if_neg (not_counted_before hnew)]
  exact if_pos (by simpa [counting] using hfew)

/-- The last share that is needed satisfies the session, if the shares join to the custody digest. -/
theorem countShare_satisfies (hall : c.m ≤ se.counted.length + 1) (hcode : se.code.toNat < 0x1000)
    (hdigest : quorumDigest c.version.toNat (shareJoin (((counting se (shareOf d i e pt)).counted.take c.m).map fun k => (k.2.1, beNat k.2.2))) = c.digest) :
    countShare d i pt = setSession d (satisfied (counting se (shareOf d i e pt)) d.bat.rtc.toNat) := by
  have hlength : ¬ (counting se (shareOf d i e pt)).counted.length < c.m := by simpa [counting] using hall
  rw [countShare_checked hc hse hopen hrun hcard hix hcheck, if_neg (not_counted_before hnew), if_neg hlength, if_neg (by rw [hdigest]; simp)]
  exact enterEnrolling_idle rfl fun h => Nat.not_le.mpr hcode h.2

end

end

/-- Settles O39: a share by the branch of `countShare_checked` that takes it, an outsider's by its record alone. -/
theorem shareCounting : Obligations.ShareCounting := by
  unfold Obligations.ShareCounting
  refine ⟨?adds, ?again, ?satisfies, ?outsider⟩
  case adds =>
    exact fun d i pt c se e hc hse hopen hrun hcard hix hcheck hnew hfew => countShare_adds hc hse hopen hrun hcard hix hcheck hnew hfew
  case again =>
    exact fun d i pt c se e hc hse hopen hrun hcard hix hcheck hold => countShare_again hc hse hopen hrun hcard hix hcheck hold
  case satisfies =>
    exact fun d i pt c se e hc hse hopen hrun hcard hix hcheck hnew hall hcode hdigest =>
      countShare_satisfies hc hse hopen hrun hcard hix hcheck hnew hall hcode hdigest
  case outsider =>
    intro d i pt c se hc _ hcard
    rw [countShare_outsider hc hcard]
    exact notCounted_silent _ _ _

end Sys2Proof.Machine
end

section
/-! PROOFS. The level of PWR_FAIL_N through the work that leaves it alone: a rule per function (14 R392). -/

namespace Sys2Proof.Machine

/-! ### Choices and folds -/

@[simp] theorem ite_pfLevel (c : Prop) [Decidable c] (a b : Dev) :
    (if c then a else b).pwr.pfLevel = if c then a.pwr.pfLevel else b.pwr.pfLevel := apply_ite (fun d : Dev => d.pwr.pfLevel) _ _ _
@[simp] theorem foldl_pfLevel {β : Type} (f : Dev → β → Dev) (h : ∀ (d : Dev) (b : β), (f d b).pwr.pfLevel = d.pwr.pfLevel)
    (l : List β) (d : Dev) :
    (l.foldl f d).pwr.pfLevel = d.pwr.pfLevel := foldl_same (fun d : Dev => d.pwr.pfLevel) f h l d
@[simp] theorem foldl_setUnit_pfLevel {β : Type} (u : Dev → β → Nat) (x : Dev → β → UnitSt) (l : List β) (d : Dev) :
    (l.foldl (fun d b => setUnit d (u d b) (x d b)) d).pwr.pfLevel = d.pwr.pfLevel :=
  foldl_pfLevel (fun d b => setUnit d (u d b) (x d b)) (fun _ _ => rfl) l d

/-! ### The shared operations -/

theorem foldl_modUnit_pfLevel {β : Type} (u : Dev → β → Nat) (x : Dev → β → UnitSt → UnitSt) (l : List β) (d : Dev) :
    (l.foldl (fun d b => modUnit d (u d b) (x d b)) d).pwr.pfLevel = d.pwr.pfLevel :=
  foldl_pfLevel (fun d b => modUnit d (u d b) (x d b)) (fun _ _ => rfl) l d

@[simp] theorem setDom_pfLevel (d : Dev) (n : Nat) (x : Domain) : (setDom d n x).pwr.pfLevel = d.pwr.pfLevel := rfl

@[simp] theorem emitWrites_pfLevel (d : Dev) (fn : FnNo) (addr : DWord) (bytes : List Byte) :
    (emitWrites d fn addr bytes).pwr.pfLevel = d.pwr.pfLevel := by
  refine foldl_pfLevel _ (fun _ _ => ?_) _ _
  rfl

@[simp] theorem blockReset_pfLevel (d : Dev) (ps : List Nat) : (blockReset d ps).pwr.pfLevel = d.pwr.pfLevel := rfl
@[simp] theorem pmcFabric_pfLevel (d : Dev) (cls n : Nat) (i : Ini) (page : Nat) :
    (pmcFabric d cls n i page).pwr.pfLevel = d.pwr.pfLevel := congrArg Pwr.pfLevel (quiet_pwr (pmcFabric_quiet _ _ _ _ _))
@[simp] theorem setRate_pfLevel (d : Dev) (i : Nat) (r : RateSt) : (setRate d i r).pwr.pfLevel = d.pwr.pfLevel := rfl
@[simp] theorem evrCreate_pfLevel (d : Dev) (r : EvRec) :
    (evrCreate d r).pwr.pfLevel = d.pwr.pfLevel := congrArg Pwr.pfLevel (silent_pwr (evrCreate_silent _ _))
@[simp] theorem rateClose_pfLevel (d : Dev) (i : Nat) :
    (rateClose d i).pwr.pfLevel = d.pwr.pfLevel := congrArg Pwr.pfLevel (silent_pwr (rateClose_silent _ _))

theorem unlessLocked_pfLevel (d : Dev) (i : Ini) (page off : Nat) {k : Dev → Dev} (hk : (k d).pwr.pfLevel = d.pwr.pfLevel) :
    (unlessLocked d i page off k).pwr.pfLevel = d.pwr.pfLevel := by
  unfold unlessLocked
  split
  · simp
  · exact hk

/-! ### Guarded registers -/

@[simp] theorem setGuard_pfLevel (d : Dev) (a : Nat) (g : Guard) : (setGuard d a g).pwr.pfLevel = d.pwr.pfLevel := rfl
@[simp] theorem guardWrite_pfLevel (d : Dev) (a : Nat) (v : Word) : (guardWrite d a v).pwr.pfLevel = d.pwr.pfLevel := rfl
@[simp] theorem guardCommit_pfLevel (d : Dev) (a : Nat) (v : Word) : (guardCommit d a v).pwr.pfLevel = d.pwr.pfLevel := rfl
@[simp] theorem svcPin_pfLevel (d : Dev) : (svcPin d).pwr.pfLevel = d.pwr.pfLevel := by simp [svcPin]
@[simp] theorem setCause_pfLevel (d : Dev) (c : Nat) : (setCause d c).pwr.pfLevel = d.pwr.pfLevel := by simp [setCause]

/-! ### Jobs -/

@[simp] theorem modJob_pfLevel (d : Dev) (id : JobId) (f : Job → Job) : (modJob d id f).pwr.pfLevel = d.pwr.pfLevel := rfl
@[simp] theorem finishJob_pfLevel (d : Dev) (id : JobId) (o : OutcomeRec) : (finishJob d id o).pwr.pfLevel = d.pwr.pfLevel := rfl
@[simp] theorem dropJob_pfLevel (d : Dev) (id : JobId) : (dropJob d id).pwr.pfLevel = d.pwr.pfLevel := rfl
@[simp] theorem settleDraws_pfLevel (d : Dev) : (settleDraws d).pwr.pfLevel = d.pwr.pfLevel := rfl
@[simp] theorem twnSend_pfLevel (d : Dev) (ftype : Byte) (id m : DWord) (objs : List MirrorObj) (heads : List JournalEntry) :
    (twnSend d ftype id m objs heads).pwr.pfLevel = d.pwr.pfLevel := rfl
@[simp] theorem twnSendBytes_pfLevel (d : Dev) (ftype : Byte) (bs : List Byte) : (twnSendBytes d ftype bs).pwr.pfLevel = d.pwr.pfLevel := rfl
@[simp] theorem twnState_pfLevel (d : Dev) (st : BitVec 3) : (twnState d st).pwr.pfLevel = d.pwr.pfLevel := by simp [twnState]

/-! ### The random number generator -/

theorem instGenerate_pfLevel {d e : Dev} {i n : Nat} {bs : List Byte} (h : instGenerate d i n = some (bs, e)) : e.pwr.pfLevel = d.pwr.pfLevel := by
  simp only [instGenerate, Option.ite_none_right_eq_some, Option.some.injEq, Prod.mk.injEq] at h
  obtain ⟨_, _, rfl⟩ := h
  rfl

theorem takeDraw_pfLevel {d e : Dev} {i n : Nat} {bs : List Byte} (h : takeDraw d i n = some (bs, e)) : e.pwr.pfLevel = d.pwr.pfLevel := by
  rw [takeDraw_only h]
@[simp] theorem rngUnavailable_pfLevel (d : Dev) (j : Job) : (rngUnavailable d j).pwr.pfLevel = d.pwr.pfLevel := rfl
@[simp] theorem rngFeed_pfLevel (d : Dev) : (rngFeed d).pwr.pfLevel = d.pwr.pfLevel := by
  rw [rngFeed_only]
@[simp] theorem enterNoService_pfLevel (d : Dev) (source : Nat) (log : Bool) :
    (enterNoService d source log).pwr.pfLevel = d.pwr.pfLevel := by simp [enterNoService]
@[simp] theorem wipeDraws_pfLevel (d : Dev) : (wipeDraws d).pwr.pfLevel = d.pwr.pfLevel := rfl

@[simp] theorem healthFailures_pfLevel (d : Dev) (failed : List Nat) : (healthFailures d failed).pwr.pfLevel = d.pwr.pfLevel := by
  unfold healthFailures
  dsimp only
  split
  · rfl
  · rw [ite_pfLevel, setCause_pfLevel, ite_self, foldl_pfLevel _ ?log, ite_pfLevel, enterNoService_pfLevel, ite_self]
    case log => simp
    rw [raise_pwr, raise_pwr, settleDraws_pfLevel, wipeDraws_pfLevel, foldl_pfLevel _ rngUnavailable_pfLevel]
    refine foldl_pfLevel _ (fun _ _ => ?_) _ _
    rfl

@[simp] theorem rngKat_pfLevel (d : Dev) (k : KatIn) : (rngKat d k).pwr.pfLevel = d.pwr.pfLevel := by simp [rngKat]
@[simp] theorem rngLeft_pfLevel (d : Dev) : (rngLeft d).pwr.pfLevel = d.pwr.pfLevel := by simp [rngLeft]
@[simp] theorem pairMismatch_pfLevel (d : Dev) (m : PairMismatch) : (pairMismatch d m).pwr.pfLevel = d.pwr.pfLevel := by simp [pairMismatch]
@[simp] theorem instUnseeded_pfLevel (d : Dev) (i : Nat) : (instUnseeded d i).pwr.pfLevel = d.pwr.pfLevel := by simp [instUnseeded]

@[simp] theorem makeDraw_pfLevel (d : Dev) (id : JobId) : (makeDraw d id).pwr.pfLevel = d.pwr.pfLevel := by
  unfold makeDraw
  split
  · rfl
  · dsimp only
    split
    · split
      · next h => simp [instGenerate_pfLevel h]
      · rfl
    · rfl

@[simp] theorem stagePr_pfLevel (d : Dev) (j : Job) : (stagePr d j).pwr.pfLevel = d.pwr.pfLevel := by simp [stagePr]

@[simp] theorem stageDraw_pfLevel (d : Dev) (id : JobId) : (stageDraw d id).pwr.pfLevel = d.pwr.pfLevel := by
  unfold stageDraw
  split <;> simp

@[simp] theorem alarmAt_pfLevel (d : Dev) (i n : Nat) (proportion : Bool) :
    (alarmAt d i n proportion).1.pwr.pfLevel = d.pwr.pfLevel := by simp [alarmAt]

@[simp] theorem sourceSamples_pfLevel (d : Dev) (i : Nat) (bits : List Bool) : (sourceSamples d i bits).1.pwr.pfLevel = d.pwr.pfLevel := by
  unfold sourceSamples
  dsimp only
  split
  · exact alarmAt_pfLevel _ _ _ _
  · rfl

@[simp] theorem rawRead_pfLevel (d : Dev) (f : Fuse) (arrived : List Bool) : (rawRead d f arrived).2.pwr.pfLevel = d.pwr.pfLevel := by
  unfold rawRead
  dsimp only
  (repeat' split) <;> simp

/-! ### Keys -/

@[simp] theorem wipeEntry_pfLevel (d : Dev) (e : CacheEnt) : (wipeEntry d e).pwr.pfLevel = d.pwr.pfLevel := rfl

@[simp] theorem nonceForget_pfLevel (d : Dev) (key : Word) (v : BitVec 16) : (nonceForget d key v).pwr.pfLevel = d.pwr.pfLevel := by
  unfold nonceForget
  split <;> simp

@[simp] theorem wipeKey_pfLevel (d : Dev) (e : CacheEnt) : (wipeKey d e).pwr.pfLevel = d.pwr.pfLevel := by simp [wipeKey]
@[simp] theorem dropEntry_pfLevel (d : Dev) (e : CacheEnt) : (dropEntry d e).pwr.pfLevel = d.pwr.pfLevel := by simp [dropEntry]
@[simp] theorem placeVolatile_pfLevel (d : Dev) (f : FnNo) (kind : CacheKind) (k : KeyVal) (slot : Nat) :
    (placeVolatile d f kind k slot).1.pwr.pfLevel = d.pwr.pfLevel := rfl

theorem placeReserved_pfLevel {d e : Dev} {j : Job} {kind : CacheKind} {k x : KeyVal} {h : DWord}
    (hp : placeReserved d j kind k = some (e, h, x)) : e.pwr.pfLevel = d.pwr.pfLevel := by
  unfold placeReserved at hp
  split at hp
  · contradiction
  · obtain rfl : _ = e := congrArg Prod.fst (Option.some.inj hp)
    simp

@[simp] theorem touchKey_pfLevel (d : Dev) (slot : Nat) : (touchKey d slot).pwr.pfLevel = d.pwr.pfLevel := rfl
@[simp] theorem setNonce_pfLevel (d : Dev) (n : NonceSt) : (setNonce d n).pwr.pfLevel = d.pwr.pfLevel := rfl
@[simp] theorem reserveStart_pfLevel (d : Dev) (record : Word) (twin : Bool) :
    (reserveStart d record twin).pwr.pfLevel = d.pwr.pfLevel := by simp [reserveStart]

@[simp] theorem reserveSettle_pfLevel (d : Dev) (n : NonceSt) : (reserveSettle d n).pwr.pfLevel = d.pwr.pfLevel := by
  unfold reserveSettle
  split <;> simp

@[simp] theorem nonceAssign_pfLevel (d : Dev) (record : Word) : (nonceAssign d record).2.pwr.pfLevel = d.pwr.pfLevel := by
  unfold nonceAssign
  split <;> simp

@[simp] theorem freeOld_pfLevel (d : Dev) : (freeOld d).pwr.pfLevel = d.pwr.pfLevel := rfl
@[simp] theorem putRecord_pfLevel (d : Dev) (i : RecImage) : (putRecord d i).pwr.pfLevel = d.pwr.pfLevel := by simp [putRecord]
@[simp] theorem moveRecord_pfLevel (d : Dev) (r : CellarRec) (st : Byte) : (moveRecord d r st).pwr.pfLevel = d.pwr.pfLevel := by simp [moveRecord]
@[simp] theorem moveRecords_pfLevel (d : Dev) (key : Word) (from_ : List Byte) (st : Byte) :
    (moveRecords d key from_ st).pwr.pfLevel = d.pwr.pfLevel := by simp [moveRecords]
@[simp] theorem sweepMark_pfLevel (d : Dev) : (sweepMark d).pwr.pfLevel = d.pwr.pfLevel := rfl

/-! ### The mirror -/

@[simp] theorem noteMirror_pfLevel (d : Dev) (objs : List MirrorObj) (m : DWord) : (noteMirror d objs m).pwr.pfLevel = d.pwr.pfLevel := rfl
@[simp] theorem unbindTenant_pfLevel (d : Dev) (no : BitVec 16) : (unbindTenant d no).pwr.pfLevel = d.pwr.pfLevel := rfl

@[simp] theorem applyObj_pfLevel (d : Dev) (o : MirrorObj) : (applyObj d o).pwr.pfLevel = d.pwr.pfLevel := by
  unfold applyObj
  split <;> simp

@[simp] theorem settleKey_pfLevel (d : Dev) (key : Word) : (settleKey d key).pwr.pfLevel = d.pwr.pfLevel := by simp [settleKey]
@[simp] theorem applyObjs_pfLevel (d : Dev) (objs : List MirrorObj) : (applyObjs d objs).pwr.pfLevel = d.pwr.pfLevel := by simp [applyObjs]
@[simp] theorem putChange_pfLevel (d : Dev) (objs own : List MirrorObj) (job : JobId) :
    (putChange d objs own job).1.pwr.pfLevel = d.pwr.pfLevel := rfl
@[simp] theorem bindEntry_pfLevel (d : Dev) (e : List Byte) : (bindEntry d e).pwr.pfLevel = d.pwr.pfLevel := rfl

@[simp] theorem jobBinds_pfLevel (d : Dev) (id : JobId) : (jobBinds d id).pwr.pfLevel = d.pwr.pfLevel := by
  unfold jobBinds
  split <;> simp

@[simp] theorem mirrorJob_pfLevel (d : Dev) (id : JobId) (objs own : List MirrorObj) (o : OutcomeRec) :
    (mirrorJob d id objs own o).pwr.pfLevel = d.pwr.pfLevel := by simp [mirrorJob]

/-! ### The outcomes of jobs -/

@[simp] theorem emptyVerify_pfLevel (d : Dev) (id : JobId) : (emptyVerify d id).pwr.pfLevel = d.pwr.pfLevel := rfl
@[simp] theorem haltJob_pfLevel (d : Dev) (j : Job) : (haltJob d j).pwr.pfLevel = d.pwr.pfLevel := by simp [haltJob]
@[simp] theorem haltFunction_pfLevel (d : Dev) (fn : FnNo) (q : QNo) (code : Byte) (sqpos : Word) :
    (haltFunction d fn q code sqpos).pwr.pfLevel = d.pwr.pfLevel := by simp [haltFunction]
@[simp] theorem dmaFault_pfLevel (d : Dev) (j : Job) (detail : Byte) : (dmaFault d j detail).pwr.pfLevel = d.pwr.pfLevel := by simp [dmaFault]

/-! ### The plan -/

@[simp] theorem stick_pfLevel (c : Cut) (j : Job) : (stick c j).d.pwr.pfLevel = c.d.pwr.pfLevel := rfl

theorem foldl_stick_pfLevel {β : Type} (j : β → Job) (l : List β) (c : Cut) :
    (l.foldl (fun c x => stick c (j x)) c).d.pwr.pfLevel = c.d.pwr.pfLevel :=
  foldl_same (fun c : Cut => c.d.pwr.pfLevel) (fun c x => stick c (j x)) (fun _ _ => rfl) l c

@[simp] theorem usePk_pfLevel (c : Cut) (r : Req) : (usePk c r).d.pwr.pfLevel = c.d.pwr.pfLevel := by
  unfold usePk
  split <;> rfl

@[simp] theorem signPlaced_pfLevel (d : Dev) (at_ : BitVec 48) (id : JobId) (u : UnitNo) : (signPlaced d at_ id u).pwr.pfLevel = d.pwr.pfLevel := rfl

theorem placeFirst_pfLevel (shelves : List Nat) (c : Cut) (x : Job × PartKind) : (placeFirst shelves c x).d.pwr.pfLevel = c.d.pwr.pfLevel := by
  unfold placeFirst
  dsimp only
  split
  · split <;> rfl
  · simp

theorem cutPk_pfLevel (shelves : List Nat) (grants : Tab Nat) (c : Cut) (r : Req) : (cutPk shelves grants c r).d.pwr.pfLevel = c.d.pwr.pfLevel := by
  unfold cutPk
  split
  · rfl
  · dsimp only
    split_ifs
    · rfl
    · rfl
    all_goals
      split
      · rfl
      · simp

@[simp] theorem assignIv_pfLevel (d : Dev) (j : Job) : (assignIv d j).pwr.pfLevel = d.pwr.pfLevel := by
  unfold assignIv
  dsimp only
  (repeat' split) <;> simp

@[simp] theorem hitPad_pfLevel (d : Dev) (at_ : BitVec 48) (j : Job) (h : Nat) : (hitPad d at_ j h).pwr.pfLevel = d.pwr.pfLevel := by
  unfold hitPad
  split <;> simp

@[simp] theorem placeKeyed_pfLevel (d : Dev) (at_ : BitVec 48) (j : Job) (pads : Bool) (hit : Bool) :
    (placeKeyed d at_ j pads hit).pwr.pfLevel = d.pwr.pfLevel := by
  unfold placeKeyed
  split <;> simp

theorem cutStream_pfLevel (w : Wing) (shelves : List Nat) (grants : Tab Nat) (c : Cut) (r : Req) :
    (cutStream w shelves grants c r).d.pwr.pfLevel = c.d.pwr.pfLevel := by
  unfold cutStream
  split
  · rfl
  · extract_lets +onlyGivenNames f left n step
    clear_value step
    split
    · rfl
    · split
      · rfl
      · extract_lets +onlyGivenNames twice
        split
        · rfl
        · simp only [apply_ite (fun c : Cut => c.d.pwr.pfLevel), stick_pfLevel, placeKeyed_pfLevel, ite_pfLevel, assignIv_pfLevel, ite_self]

theorem placeGroupOn_pfLevel (c : Cut) (u first n : Nat) (ms : List Member) :
    (placeGroupOn c u first n ms).d.pwr.pfLevel = c.d.pwr.pfLevel := by simp [placeGroupOn]

theorem cutGroups_pfLevel (shelves : List Nat) (grant f n : Nat) (c : Cut) (rest : List (Req × Job)) :
    (cutGroups shelves grant f n c rest).d.pwr.pfLevel = c.d.pwr.pfLevel := by
  induction n generalizing c rest with
  | zero => exact foldl_stick_pfLevel _ _ _
  | succ n ih =>
    unfold cutGroups
    dsimp only
    split
    · exact foldl_stick_pfLevel _ _ _
    · split
      · exact foldl_stick_pfLevel _ _ _
      · split
        · split_ifs
          · exact foldl_stick_pfLevel _ _ _
          · exact (ih _ _).trans (placeGroupOn_pfLevel _ _ _ _ _)
          · exact (foldl_stick_pfLevel _ _ _).trans (placeGroupOn_pfLevel _ _ _ _ _)
        · exact foldl_stick_pfLevel _ _ _

theorem cutFn_pfLevel (w : Wing) (shelves : List Nat) (grants : Tab Nat) (c : Cut) (reqs : List Req) :
    (cutFn w shelves grants c reqs).d.pwr.pfLevel = c.d.pwr.pfLevel := by
  unfold cutFn
  refine foldl_same (fun acc : Cut × Bool => acc.1.d.pwr.pfLevel) _ (fun acc r => ?_) _ _
  dsimp only
  split
  · split
    · rfl
    · exact cutGroups_pfLevel _ _ _ _ _ _
  · split
    · exact cutPk_pfLevel _ _ _ _
    · exact cutStream_pfLevel _ _ _ _ _

@[simp] theorem verifyDraws_pfLevel (d : Dev) (plan : List Placed) : (verifyDraws d plan).1.pwr.pfLevel = d.pwr.pfLevel := by
  unfold verifyDraws
  refine foldl_same (fun acc : Dev × List Placed => acc.1.pwr.pfLevel) _ (fun acc p => ?_) _ _
  dsimp only
  split
  · next h => exact (takeDraw_pfLevel (Option.ite_none_right_eq_some.mp h).2 :)
  · rfl

/-! ### Memory of jobs -/

@[simp] theorem useWindows_pfLevel (d : Dev) (plan : List Placed) : (useWindows d plan).pwr.pfLevel = d.pwr.pfLevel := by
  refine foldl_pfLevel _ (fun e u => ?_) _ _
  split <;> simp

@[simp] theorem loadShelves_pfLevel (d : Dev) : (loadShelves d).pwr.pfLevel = d.pwr.pfLevel := by
  unfold loadShelves
  dsimp only
  refine (foldl_pfLevel _ (fun e p => ?_) _ _).trans rfl
  split <;> rfl

@[simp] theorem dropCtx_pfLevel (d : Dev) (id : JobId) : (dropCtx d id).pwr.pfLevel = d.pwr.pfLevel := rfl
@[simp] theorem writeCtx_pfLevel (d : Dev) (u : Nat) (j : Job) (bytes : List Byte) : (writeCtx d u j bytes).pwr.pfLevel = d.pwr.pfLevel := rfl
@[simp] theorem moveCtxs_pfLevel (d : Dev) : (moveCtxs d).pwr.pfLevel = d.pwr.pfLevel := rfl

/-! ### Functions -/

@[simp] theorem createFn_pfLevel (d : Dev) (f : Nat) : (createFn d f).pwr.pfLevel = d.pwr.pfLevel := by simp [createFn]

@[simp] theorem undoChange_pfLevel (d : Dev) (id : DWord) : (undoChange d id).pwr.pfLevel = d.pwr.pfLevel := by
  unfold undoChange
  dsimp only
  split <;> simp

@[simp] theorem resetJob_pfLevel (d : Dev) (j : Job) : (resetJob d j).pwr.pfLevel = d.pwr.pfLevel := by simp [resetJob]

@[simp] theorem closeSession_pfLevel (d : Dev) (p : Session → Bool) : (closeSession d p).pwr.pfLevel = d.pwr.pfLevel := by
  unfold closeSession
  split <;> simp

@[simp] theorem monsReset_pfLevel (d : Dev) (f : Nat) (release : Bool) : (monsReset d f release).pwr.pfLevel = d.pwr.pfLevel := rfl
@[simp] theorem setMbox_pfLevel (d : Dev) (k : Bool) (m : Mailbox) : (setMbox d k m).pwr.pfLevel = d.pwr.pfLevel := by simp [setMbox]
@[simp] theorem mboxReset_pfLevel (d : Dev) (k : Bool) : (mboxReset d k).pwr.pfLevel = d.pwr.pfLevel := by simp [mboxReset]
@[simp] theorem resetSides_pfLevel (d : Dev) (f : Nat) (release : Bool) : (resetSides d f release).pwr.pfLevel = d.pwr.pfLevel := by simp [resetSides]
@[simp] theorem landReset_pfLevel (d : Dev) (f : Nat) (release : Bool) : (landReset d f release).pwr.pfLevel = d.pwr.pfLevel := by simp [landReset]
@[simp] theorem configReset_pfLevel (d : Dev) (f : Nat) : (configReset d f).pwr.pfLevel = d.pwr.pfLevel := by simp [configReset]
@[simp] theorem flrOne_pfLevel (d : Dev) (f : Nat) : (flrOne d f).pwr.pfLevel = d.pwr.pfLevel := by simp [flrOne]
@[simp] theorem funcCommand_pfLevel (d : Dev) (i : Ini) (f cmd : Nat) : (funcCommand d i f cmd).pwr.pfLevel = d.pwr.pfLevel := by simp [funcCommand]

/-! ### Queues -/

@[simp] theorem writeIndex_pfLevel (d : Dev) (f q : Nat) : (writeIndex d f q).pwr.pfLevel = d.pwr.pfLevel := by simp [writeIndex]
@[simp] theorem readIndex_pfLevel (d : Dev) (f q : Nat) : (readIndex d f q).pwr.pfLevel = d.pwr.pfLevel := by simp [readIndex]
@[simp] theorem ringHatch_pfLevel (d : Dev) (f q : Nat) : (ringHatch d f q).pwr.pfLevel = d.pwr.pfLevel := by simp [ringHatch]
@[simp] theorem enableQueue_pfLevel (d : Dev) (i : Ini) (f q : Nat) : (enableQueue d i f q).pwr.pfLevel = d.pwr.pfLevel := by simp [enableQueue]
@[simp] theorem disableQueue_pfLevel (d : Dev) (i : Ini) (f q : Nat) : (disableQueue d i f q).pwr.pfLevel = d.pwr.pfLevel := by simp [disableQueue]
@[simp] theorem writePieces_pfLevel (d : Dev) (j : Job) (ps : List (Nat × DWord × List Byte)) :
    (writePieces d j ps).pwr.pfLevel = d.pwr.pfLevel := by simp [writePieces]

/-! ### Collectors -/

@[simp] theorem spareCauses_pfLevel (d : Dev) (w : Wing) : (spareCauses d w).pwr.pfLevel = d.pwr.pfLevel := by simp [spareCauses]
@[simp] theorem recordRole_pfLevel (d : Dev) (u : Nat) (r : BitVec 2) : (recordRole d u r).pwr.pfLevel = d.pwr.pfLevel := rfl

@[simp] theorem enterActive_pfLevel (d : Dev) (u : Nat) (replaced : Option Nat) : (enterActive d u replaced).pwr.pfLevel = d.pwr.pfLevel := by
  unfold enterActive
  split <;> simp

@[simp] theorem retireUnit_pfLevel (d : Dev) (u cause : Nat) : (retireUnit d u cause).pwr.pfLevel = d.pwr.pfLevel := by
  unfold retireUnit
  dsimp only
  (repeat' split) <;> simp

@[simp] theorem rackEvents_pfLevel (before d : Dev) : (rackEvents before d).pwr.pfLevel = d.pwr.pfLevel := by simp [rackEvents]

@[simp] theorem epochsOnce_pfLevel (before d : Dev) : (epochsOnce before d).pwr.pfLevel = d.pwr.pfLevel := by
  refine foldl_pfLevel _ (fun _ _ => ?_) _ _
  rfl

@[simp] theorem suspectUnit_pfLevel (d : Dev) (u kind : Nat) : (suspectUnit d u kind).pwr.pfLevel = d.pwr.pfLevel := by simp [suspectUnit]
@[simp] theorem strikeUnit_pfLevel (d : Dev) (u : Nat) : (strikeUnit d u).pwr.pfLevel = d.pwr.pfLevel := rfl

@[simp] theorem endTest_pfLevel (d : Dev) (failed : Nat → Bool) (u : Nat) : (endTest d failed u).pwr.pfLevel = d.pwr.pfLevel := by
  unfold endTest
  dsimp only
  split <;> simp

@[simp] theorem recordTest_pfLevel (d : Dev) (u : Nat) : (recordTest d u).pwr.pfLevel = d.pwr.pfLevel := rfl

@[simp] theorem setRotation_pfLevel (d : Dev) (w : Wing) (r : Option Rotation) : (setRotation d w r).pwr.pfLevel = d.pwr.pfLevel := by
  unfold setRotation
  split <;> simp

@[simp] theorem rotSpareEnd_pfLevel (d : Dev) (w : Wing) (r : Rotation) (failed goes : Bool) :
    (rotSpareEnd d w r failed goes).pwr.pfLevel = d.pwr.pfLevel := by simp [rotSpareEnd]
@[simp] theorem rotLost_pfLevel (d : Dev) (w : Wing) (r : Rotation) (failed : Nat → Bool) :
    (rotLost d w r failed).pwr.pfLevel = d.pwr.pfLevel := by simp [rotLost]

@[simp] theorem rotStep_pfLevel (d : Dev) (failed hit : Nat → Bool) (w : Wing) : (rotStep d failed hit w).pwr.pfLevel = d.pwr.pfLevel := by
  unfold rotStep
  split <;> simp

@[simp] theorem drainUnit_pfLevel (d : Dev) (u : Nat) : (drainUnit d u).pwr.pfLevel = d.pwr.pfLevel := by simp [drainUnit]
@[simp] theorem serviceUnit_pfLevel (just : Nat → Bool) (d : Dev) (u : Nat) :
    (serviceUnit just d u).pwr.pfLevel = d.pwr.pfLevel := by simp [serviceUnit]
@[simp] theorem requestService_pfLevel (d : Dev) (u : Nat) (v : Word) : (requestService d u v).pwr.pfLevel = d.pwr.pfLevel := by
  rw [requestService_only]
@[simp] theorem idleLater_pfLevel (d : Dev) (id : JobId) : (idleLater d id).pwr.pfLevel = d.pwr.pfLevel := rfl
@[simp] theorem replaceJob_pfLevel (d : Dev) (j : Job) (drew : Bool) : (replaceJob d j drew).pwr.pfLevel = d.pwr.pfLevel := by simp [replaceJob]

@[simp] theorem finishWithKey_pfLevel (d : Dev) (j : Job) (kind : CacheKind) (k : KeyVal) (out : DWord → OutcomeRec) :
    (finishWithKey d j kind k out).pwr.pfLevel = d.pwr.pfLevel := by
  unfold finishWithKey
  split
  · next h => exact (finishJob_pfLevel _ _ _).trans (placeReserved_pfLevel h)
  · exact finishJob_pfLevel _ _ _

@[simp] theorem finishPk_pfLevel (d : Dev) (j : Job) (o : OutcomeRec) : (finishPk d j o).pwr.pfLevel = d.pwr.pfLevel := rfl
@[simp] theorem nextPart_pfLevel (d : Dev) (j : Job) : (nextPart d j).pwr.pfLevel = d.pwr.pfLevel := rfl
@[simp] theorem failPart_pfLevel (d : Dev) (j : Job) (o : OutcomeRec) : (failPart d j o).pwr.pfLevel = d.pwr.pfLevel := by simp [failPart]

@[simp] theorem unwrapDone_pfLevel (d : Dev) (j : Job) : (unwrapDone d j).pwr.pfLevel = d.pwr.pfLevel := by
  unfold unwrapDone
  split
  · simp
  · split
    · simp
    · split
      · simp
      · split
        · simp
        · split
          · next h => simp [placeReserved_pfLevel h]
          · simp

@[simp] theorem tripDone_pfLevel (d : Dev) (j : Job) (ok : Bool) (det : Byte) : (tripDone d j ok det).pwr.pfLevel = d.pwr.pfLevel := by
  unfold tripDone
  split <;> simp

@[simp] theorem signDone_pfLevel (d : Dev) (j : Job) (p : Placed) : (signDone d j p).pwr.pfLevel = d.pwr.pfLevel := by
  unfold signDone
  split <;> [skip; split] <;> simp

@[simp] theorem verifyDone_pfLevel (d : Dev) (j : Job) (p : Placed) (bad : List UnitNo) : (verifyDone d j p bad).pwr.pfLevel = d.pwr.pfLevel := by
  unfold verifyDone
  dsimp only
  (repeat' split) <;> simp

@[simp] theorem pkDone_pfLevel (d : Dev) (j : Job) (bad : Bool) : (pkDone d j bad).pwr.pfLevel = d.pwr.pfLevel := by
  unfold pkDone
  dsimp only
  (repeat' split) <;> simp

@[simp] theorem deriveDone_pfLevel (d : Dev) (j : Job) : (deriveDone d j).pwr.pfLevel = d.pwr.pfLevel := by simp [deriveDone]

@[simp] theorem writeOut_pfLevel (d : Dev) (j : Job) (out : List Byte) : (writeOut d j out).pwr.pfLevel = d.pwr.pfLevel := by
  unfold writeOut
  split <;> simp

@[simp] theorem symDone_pfLevel (d : Dev) (j : Job) (p : Placed) (bad : Bool) : (symDone d j p bad).pwr.pfLevel = d.pwr.pfLevel := by
  unfold symDone
  dsimp only
  (repeat' split) <;> simp

@[simp] theorem fillPad_pfLevel (d : Dev) (j : Job) : (fillPad d j).pwr.pfLevel = d.pwr.pfLevel := by
  unfold fillPad
  dsimp only
  (repeat' split) <;> simp

@[simp] theorem hashDone_pfLevel (d : Dev) (j : Job) (p : Placed) (bad : Bool) :
    (hashDone d j p bad).pwr.pfLevel = d.pwr.pfLevel := by simp [hashDone]

@[simp] theorem releaseOne_pfLevel (b : BoundaryIn) (d : Dev) (j : Job) (p : Placed) : (releaseOne b d j p).pwr.pfLevel = d.pwr.pfLevel := by
  unfold releaseOne
  split <;> simp

@[simp] theorem countRelease_pfLevel (d : Dev) (before : Job) (p : Placed) : (countRelease d before p).pwr.pfLevel = d.pwr.pfLevel := by
  unfold countRelease
  dsimp only
  (repeat' split) <;> simp

@[simp] theorem restAfter_pfLevel (d : Dev) (lost : List Nat) (j : Job) (p : Placed) :
    (restAfter d lost j p).pwr.pfLevel = d.pwr.pfLevel := by simp [restAfter]

@[simp] theorem collectOne_pfLevel (b : BoundaryIn) (lost resting : List Nat) (last : Nat → Nat → Option JobId) (d : Dev) (p : Placed) :
    (collectOne b lost resting last d p).pwr.pfLevel = d.pwr.pfLevel := by
  unfold collectOne
  split
  · rfl
  · next j hj =>
    extract_lets +onlyGivenNames units lostHere ownFault ends
    have hends (e : Dev) (o : OutcomeRec) : (ends e o).pwr.pfLevel = e.pwr.pfLevel := by simp [ends]
    clear_value ends ownFault lostHere
    split
    · split <;> simp
    · split
      · split <;> simp
      · split
        · rfl
        · split
          · split <;> simp [hends]
          · split
            · split <;> simp [hends]
            · split
              · simp [hends]
              · split
                · dsimp only
                  split
                  · simp
                  · split <;> simp
                · split
                  · dsimp only
                    split <;> simp [hends]
                  · simp

@[simp] theorem dmaOutcomes_pfLevel (bad : List JobId) (d : Dev) : (dmaOutcomes bad d).pwr.pfLevel = d.pwr.pfLevel := by
  refine foldl_pfLevel _ (fun e j => ?_) _ _
  split <;> simp

@[simp] theorem fillsLost_pfLevel (d : Dev) : (fillsLost d).pwr.pfLevel = d.pwr.pfLevel := by
  refine foldl_pfLevel _ (fun e p => ?_) _ _
  split
  · rfl
  · dsimp only
    split <;> simp

@[simp] theorem withdraw_pfLevel (d : Dev) (p : Placed) : (withdraw d p).pwr.pfLevel = d.pwr.pfLevel := rfl

@[simp] theorem amendWing_pfLevel (lost : List Nat) (again : List JobId) (d : Dev) (w : Wing) :
    (amendWing lost again d w).pwr.pfLevel = d.pwr.pfLevel := by
  unfold amendWing
  dsimp only
  rw [verifyDraws_pfLevel, foldl_same (fun c : Cut => c.d.pwr.pfLevel) _ (fun c e => cutFn_pfLevel _ _ _ c _),
    foldl_same (fun c : Cut => c.d.pwr.pfLevel) _ (fun c x => placeFirst_pfLevel _ c x)]
  rw [foldl_same (fun c : Cut => c.d.pwr.pfLevel) _ ?h]
  · rw [foldl_modUnit_pfLevel, foldl_pfLevel _ withdraw_pfLevel, foldl_modUnit_pfLevel, foldl_pfLevel _ withdraw_pfLevel]
  · intro c p
    split
    · split <;> rfl
    · rfl

@[simp] theorem wingsBoundary_pfLevel (d : Dev) (b : BoundaryIn) : (wingsBoundary d b).pwr.pfLevel = d.pwr.pfLevel := by simp [wingsBoundary]

/-! ### Power -/

@[simp] theorem keeperDenied_pfLevel (d : Dev) (i : Ini) (addr : Nat) : (keeperDenied d i addr).pwr.pfLevel = d.pwr.pfLevel := by simp [keeperDenied]
@[simp] theorem settleDrained_pfLevel (d : Dev) : (settleDrained d).pwr.pfLevel = d.pwr.pfLevel := rfl
@[simp] theorem dropStalled_pfLevel (d : Dev) (gone : Txn → Bool) : (dropStalled d gone).pwr.pfLevel = d.pwr.pfLevel := rfl
@[simp] theorem portReset_pfLevel (d : Dev) (p : Bool) : (portReset_ d p).pwr.pfLevel = d.pwr.pfLevel := by simp [portReset_]
@[simp] theorem rngPowerOff_pfLevel (d : Dev) : (rngPowerOff d).pwr.pfLevel = d.pwr.pfLevel := rfl
@[simp] theorem rngPowerOn_pfLevel (d : Dev) : (rngPowerOn d).pwr.pfLevel = d.pwr.pfLevel := by simp [rngPowerOn]
@[simp] theorem cardsCleared_pfLevel (d : Dev) : (cardsCleared d).pwr.pfLevel = d.pwr.pfLevel := rfl
@[simp] theorem twinOff_pfLevel (d : Dev) : (twinOff d).pwr.pfLevel = d.pwr.pfLevel := by simp [twinOff]
@[simp] theorem domOff_pfLevel (d : Dev) (n : Nat) : (domOff d n).pwr.pfLevel = d.pwr.pfLevel := by simp [domOff]

@[simp] theorem domReady_pfLevel (d : Dev) (n : Nat) : (domReady d n).pwr.pfLevel = d.pwr.pfLevel := by
  unfold domReady
  dsimp only
  split
  · rfl
  · split_ifs
    · simp
    · simp
    · simp
    · rw [foldl_setUnit_pfLevel, foldl_setUnit_pfLevel]
      simp

@[simp] theorem domUpdate_pfLevel (d : Dev) (n : Nat) : (domUpdate d n).pwr.pfLevel = d.pwr.pfLevel := by simp [domUpdate]
@[simp] theorem setVote_pfLevel (d : Dev) (n client : Nat) (v : Bool) : (setVote d n client v).pwr.pfLevel = d.pwr.pfLevel := by simp [setVote]

@[simp] theorem voteWrite_pfLevel (d : Dev) (i : Ini) (n : Nat) (v : Word) : (voteWrite d i n v).pwr.pfLevel = d.pwr.pfLevel := by
  unfold voteWrite
  split <;> simp

@[simp] theorem pvoteWrite_pfLevel (d : Dev) (i : Ini) (v : Word) : (pvoteWrite d i v).pwr.pfLevel = d.pwr.pfLevel := by
  unfold pvoteWrite
  split <;> simp

@[simp] theorem hwVote_pfLevel (d : Dev) (n : Nat) : (hwVote d n).pwr.pfLevel = d.pwr.pfLevel := by simp [hwVote]

@[simp] theorem touchPage_pfLevel (d : Dev) (p : Nat) : (touchPage d p).pwr.pfLevel = d.pwr.pfLevel := by
  unfold touchPage
  split <;> simp

@[simp] theorem stallTxn_pfLevel (d : Dev) (x : Stalled) : (stallTxn d x).pwr.pfLevel = d.pwr.pfLevel := by simp [stallTxn]
@[simp] theorem avsWrite_pfLevel (d : Dev) (p : BitVec 2) : (avsWrite d p).pwr.pfLevel = d.pwr.pfLevel := rfl
@[simp] theorem oppStart_pfLevel (d : Dev) (p : BitVec 2) (fio : Bool) : (oppStart d p fio).pwr.pfLevel = d.pwr.pfLevel := by simp [oppStart]
@[simp] theorem oppKick_pfLevel (d : Dev) : (oppKick d).pwr.pfLevel = d.pwr.pfLevel := by simp [oppKick]
@[simp] theorem voltStep_pfLevel (d : Dev) : (voltStep d).pwr.pfLevel = d.pwr.pfLevel := rfl
@[simp] theorem voltChanged_pfLevel (d : Dev) (p : Nat) : (voltChanged d p).pwr.pfLevel = d.pwr.pfLevel := by simp [voltChanged]

@[simp] theorem oppreqWrite_pfLevel (d : Dev) (i : Ini) (v : Word) : (oppreqWrite d i v).pwr.pfLevel = d.pwr.pfLevel := by
  unfold oppreqWrite
  split <;> simp

@[simp] theorem evrFlush_pfLevel (d : Dev) : (evrFlush d).pwr.pfLevel = d.pwr.pfLevel := rfl
@[simp] theorem standbyCommand_pfLevel (d : Dev) (i : Ini) (v : Word) : (standbyCommand d i v).pwr.pfLevel = d.pwr.pfLevel := by simp [standbyCommand]

/-! ### The worlds -/

@[simp] theorem wantWipes_pfLevel (d : Dev) (ps : List Nat) : (wantWipes d ps).pwr.pfLevel = d.pwr.pfLevel := rfl
@[simp] theorem endDebug_pfLevel (d : Dev) : (endDebug d).pwr.pfLevel = d.pwr.pfLevel := by simp [endDebug]
@[simp] theorem keeperEnds_pfLevel (d : Dev) (j : Job) (st det : Byte) : (keeperEnds d j st det).pwr.pfLevel = d.pwr.pfLevel := rfl
@[simp] theorem keeperStops_pfLevel (d : Dev) (j : Job) : (keeperStops d j).pwr.pfLevel = d.pwr.pfLevel := by simp [keeperStops]
@[simp] theorem resetKeeping_pfLevel (d : Dev) (ps : List Nat) : (resetKeeping d ps).pwr.pfLevel = d.pwr.pfLevel := by simp [resetKeeping]

@[simp] theorem nextImage_pfLevel (d : Dev) : (nextImage d).pwr.pfLevel = d.pwr.pfLevel := by
  unfold nextImage
  split <;> simp

@[simp] theorem keeperRestart_pfLevel (d : Dev) : (keeperRestart d).pwr.pfLevel = d.pwr.pfLevel := by simp [keeperRestart]
@[simp] theorem porterRestart_pfLevel (d : Dev) : (porterRestart d).pwr.pfLevel = d.pwr.pfLevel := by simp [porterRestart]
@[simp] theorem worldsOff_pfLevel (d : Dev) : (worldsOff d).pwr.pfLevel = d.pwr.pfLevel := by simp [worldsOff]
@[simp] theorem keeperPet_pfLevel (d : Dev) (i : Ini) : (keeperPet d i).pwr.pfLevel = d.pwr.pfLevel := by simp [keeperPet]
@[simp] theorem porterPet_pfLevel (d : Dev) (i : Ini) : (porterPet d i).pwr.pfLevel = d.pwr.pfLevel := by simp [porterPet]
@[simp] theorem krestartCommand_pfLevel (d : Dev) (i : Ini) : (krestartCommand d i).pwr.pfLevel = d.pwr.pfLevel := by simp [krestartCommand]
@[simp] theorem prestartCommand_pfLevel (d : Dev) (i : Ini) : (prestartCommand d i).pwr.pfLevel = d.pwr.pfLevel := by simp [prestartCommand]

@[simp] theorem worldFail_pfLevel (d : Dev) (w : World) : (worldFail d w).pwr.pfLevel = d.pwr.pfLevel := by
  unfold worldFail
  split <;> simp

@[simp] theorem coresTested_pfLevel (d : Dev) (bad : BitVec 16) : (coresTested d bad).pwr.pfLevel = d.pwr.pfLevel := by simp [coresTested]
@[simp] theorem startTests_pfLevel (d : Dev) (bad : BitVec 16) : (startTests d bad).pwr.pfLevel = d.pwr.pfLevel := by simp [startTests]

/-! ### Tamper -/

@[simp] theorem wipeCache_pfLevel (d : Dev) : (wipeCache d).pwr.pfLevel = d.pwr.pfLevel := rfl

@[simp] theorem zeroizeAll_pfLevel (d : Dev) : (zeroizeAll d).pwr.pfLevel = d.pwr.pfLevel := by
  unfold zeroizeAll
  dsimp only
  exact (foldl_pfLevel _ (fun _ _ => keeperEnds_pfLevel _ _ _ _) _ _).trans (by simp)

@[simp] theorem lockDevice_pfLevel (d : Dev) : (lockDevice d).pwr.pfLevel = d.pwr.pfLevel := by
  unfold lockDevice
  dsimp only
  exact (foldl_pfLevel _ (fun _ _ => keeperEnds_pfLevel _ _ _ _) _ _).trans (by simp)

@[simp] theorem clearCache_pfLevel (d : Dev) : (clearCache d).pwr.pfLevel = d.pwr.pfLevel := by simp [clearCache]
@[simp] theorem alarmClear_pfLevel (d : Dev) (i : Ini) (v : Word) : (alarmClear d i v).pwr.pfLevel = d.pwr.pfLevel := by simp [alarmClear]

/-! ### The life cycle -/

theorem keeperDraw_pfLevel {d e : Dev} {n : Nat} {bs : List Byte} (h : keeperDraw d n = some (bs, e)) : e.pwr.pfLevel = d.pwr.pfLevel := by
  rw [keeperDraw_only h]
@[simp] theorem addRecord_pfLevel (d : Dev) (i : RecImage) : (addRecord d i).pwr.pfLevel = d.pwr.pfLevel := by simp [addRecord]

theorem prodActions_pfLevel {d e : Dev} (h : prodActions d = some e) : e.pwr.pfLevel = d.pwr.pfLevel := by
  unfold prodActions at h
  dsimp only at h
  split at h
  · contradiction
  · next hbbk =>
    split at h
    · contradiction
    · next hkey =>
      cases h
      rw [addRecord_pfLevel, keeperDraw_pfLevel hkey, keeperDraw_pfLevel hbbk]
      rfl

@[simp] theorem newDebugNonce_pfLevel (d : Dev) : (newDebugNonce d).pwr.pfLevel = d.pwr.pfLevel := by
  unfold newDebugNonce
  split
  · next h => exact (keeperDraw_pfLevel h :)
  · rfl

/-! ### Cards -/

@[simp] theorem slotActivate_pfLevel (d : Dev) (i : BitVec 2) : (slotActivate d i).pwr.pfLevel = d.pwr.pfLevel := by simp [slotActivate]
@[simp] theorem slotSend_pfLevel (d : Dev) (i : BitVec 2) (ins : Byte) (body : List Byte) :
    (slotSend d i ins body).pwr.pfLevel = d.pwr.pfLevel := by simp [slotSend]
@[simp] theorem setSession_pfLevel (d : Dev) (s : Session) : (setSession d s).pwr.pfLevel = d.pwr.pfLevel := rfl

@[simp] theorem windowExpire_pfLevel (d : Dev) : (windowExpire d).pwr.pfLevel = d.pwr.pfLevel := by
  unfold windowExpire
  split <;> simp

@[simp] theorem slotDeactivate_pfLevel (d : Dev) (i : BitVec 2) : (slotDeactivate d i).pwr.pfLevel = d.pwr.pfLevel := by simp [slotDeactivate]

/-! ### The twin -/

@[simp] theorem setOutbox_pfLevel (d : Dev) (l : List TwinChange) : (setOutbox d l).pwr.pfLevel = d.pwr.pfLevel := rfl
@[simp] theorem dropChange_pfLevel (d : Dev) (id : DWord) : (dropChange d id).pwr.pfLevel = d.pwr.pfLevel := rfl

@[simp] theorem commitChange_pfLevel (d : Dev) (c : TwinChange) (m : DWord) : (commitChange d c m).pwr.pfLevel = d.pwr.pfLevel := by
  unfold commitChange
  dsimp only
  (repeat' split) <;> simp

@[simp] theorem settleOne_pfLevel (d : Dev) (c : TwinChange) : (settleOne d c).pwr.pfLevel = d.pwr.pfLevel := by simp [settleOne]
@[simp] theorem settleOutbox_pfLevel (d : Dev) : (settleOutbox d).pwr.pfLevel = d.pwr.pfLevel := by simp [settleOutbox]
@[simp] theorem settleAlone_pfLevel (d : Dev) : (settleAlone d).pwr.pfLevel = d.pwr.pfLevel := by simp [settleAlone]
@[simp] theorem releaseTry_pfLevel (d : Dev) : (releaseTry d).pwr.pfLevel = d.pwr.pfLevel := by simp [releaseTry]
@[simp] theorem retrainLink_pfLevel (d : Dev) : (retrainLink d).pwr.pfLevel = d.pwr.pfLevel := by simp [retrainLink]

@[simp] theorem startHandshake_pfLevel (d : Dev) : (startHandshake d).pwr.pfLevel = d.pwr.pfLevel := by
  unfold startHandshake
  split
  · rfl
  · split
    · rfl
    · next h => simp [keeperDraw_pfLevel h]

@[simp] theorem setDoubt_pfLevel (d : Dev) (l : List TwinChange) : (setDoubt d l).pwr.pfLevel = d.pwr.pfLevel := rfl
@[simp] theorem undoOne_pfLevel (d : Dev) (c : TwinChange) : (undoOne d c).pwr.pfLevel = d.pwr.pfLevel := by simp [undoOne]
@[simp] theorem acceptGrant_pfLevel (d : Dev) (g : Grant) (ix : Bool) : (acceptGrant d g ix).pwr.pfLevel = d.pwr.pfLevel := by simp [acceptGrant]

@[simp] theorem grantCommand_pfLevel (d : Dev) (f : Fuse) (i : Ini) : (grantCommand d f i).pwr.pfLevel = d.pwr.pfLevel := by
  unfold grantCommand
  split <;> [skip; split] <;> simp

@[simp] theorem releaseCommand_pfLevel (d : Dev) (i : Ini) (v : Word) : (releaseCommand d i v).pwr.pfLevel = d.pwr.pfLevel := by simp [releaseCommand]
@[simp] theorem parkCommand_pfLevel (d : Dev) (i : Ini) (v : Word) : (parkCommand d i v).pwr.pfLevel = d.pwr.pfLevel := by simp [parkCommand]
@[simp] theorem retrainCommand_pfLevel (d : Dev) (i : Ini) : (retrainCommand d i).pwr.pfLevel = d.pwr.pfLevel := by simp [retrainCommand]

/-! ### The keeper -/

@[simp] theorem bundleEffect_pfLevel (d : Dev) : (bundleEffect d).pwr.pfLevel = d.pwr.pfLevel := by
  unfold bundleEffect
  split <;> simp

/-! ### The recorder -/

@[simp] theorem setWin_pfLevel (d : Dev) (w : BitVec 2) (x : SnapWin) : (setWin d w x).pwr.pfLevel = d.pwr.pfLevel := by
  unfold setWin
  split <;> simp

@[simp] theorem snapFetch_pfLevel (d : Dev) (i : Ini) (w : BitVec 2) : (snapFetch d i w).pwr.pfLevel = d.pwr.pfLevel := by simp [snapFetch]
@[simp] theorem monCtl_pfLevel (d : Dev) (m : Nat) (en clr : Bool) : (monCtl d m en clr).pwr.pfLevel = d.pwr.pfLevel := rfl
@[simp] theorem monBind_pfLevel (d : Dev) (i : Ini) (m : Nat) (v : Word) : (monBind d i m v).pwr.pfLevel = d.pwr.pfLevel := by simp [monBind]
@[simp] theorem dumpsMake_pfLevel (d : Dev) (tick : BitVec 48) : (dumpsMake d tick).pwr.pfLevel = d.pwr.pfLevel := by simp [dumpsMake]

/-! ### Register reads -/

@[simp] theorem regReadEffect_pfLevel (d : Dev) (f : Fuse) (i : Ini) (p off len : Nat) :
    (regReadEffect d f i p off len).pwr.pfLevel = d.pwr.pfLevel := by
  unfold regReadEffect
  split <;> simp

/-! ### Access control -/

@[simp] theorem aclCommit_pfLevel (d : Dev) (keeper : Bool) : (aclCommit d keeper).pwr.pfLevel = d.pwr.pfLevel := rfl
@[simp] theorem aclCommitK_pfLevel (d : Dev) (i : Ini) : (aclCommitK d i).pwr.pfLevel = d.pwr.pfLevel := by simp [aclCommitK]
@[simp] theorem aclCommitP_pfLevel (d : Dev) (i : Ini) : (aclCommitP d i).pwr.pfLevel = d.pwr.pfLevel := by simp [aclCommitP]
@[simp] theorem potApply_pfLevel (d : Dev) (i : Ini) (keeper : Bool) : (potApply d i keeper).pwr.pfLevel = d.pwr.pfLevel := by simp [potApply]
@[simp] theorem potCommit_pfLevel (d : Dev) (keeper : Bool) : (potCommit d keeper).pwr.pfLevel = d.pwr.pfLevel := rfl
@[simp] theorem potCommitK_pfLevel (d : Dev) (i : Ini) : (potCommitK d i).pwr.pfLevel = d.pwr.pfLevel := by simp [potCommitK]
@[simp] theorem potCommitP_pfLevel (d : Dev) (i : Ini) : (potCommitP d i).pwr.pfLevel = d.pwr.pfLevel := by simp [potCommitP]
@[simp] theorem potWithdraw_pfLevel (d : Dev) (k : Nat) : (potWithdraw d k).pwr.pfLevel = d.pwr.pfLevel := by simp [potWithdraw]
@[simp] theorem wipePage_pfLevel (d : Dev) (k c : Nat) (ok : Bool) : (wipePage d k c ok).pwr.pfLevel = d.pwr.pfLevel := by simp [wipePage]
@[simp] theorem fvalidClear_pfLevel (d : Dev) (i : Ini) : (fvalidClear d i).pwr.pfLevel = d.pwr.pfLevel := by simp [fvalidClear]

/-! ### Boot -/

@[simp] theorem gapRecord_pfLevel (d : Dev) : (gapRecord d).pwr.pfLevel = d.pwr.pfLevel := by simp [gapRecord]
@[simp] theorem copyAlarms_pfLevel (d : Dev) : (copyAlarms d).pwr.pfLevel = d.pwr.pfLevel := by simp [copyAlarms]
@[simp] theorem recorderStart_pfLevel (d : Dev) : (recorderStart d).pwr.pfLevel = d.pwr.pfLevel := by simp [recorderStart]
@[simp] theorem lcCompleted_pfLevel (d : Dev) (f : Fuse) : (lcCompleted d f).pwr.pfLevel = d.pwr.pfLevel := by simp [lcCompleted]
@[simp] theorem coldCommand_pfLevel (d : Dev) (i : Ini) (v : Word) : (coldCommand d i v).pwr.pfLevel = d.pwr.pfLevel := by simp [coldCommand]

@[simp] theorem restoreVolts_pfLevel (d : Dev) : (restoreVolts d).pwr.pfLevel = d.pwr.pfLevel := by
  refine foldl_pfLevel _ (fun _ _ => ?_) _ _
  rfl

/-! ### Service -/

@[simp] theorem reqsetSet_pfLevel (d : Dev) (i : Ini) (v : Word) : (reqsetSet d i v).pwr.pfLevel = d.pwr.pfLevel := by simp [reqsetSet]
@[simp] theorem reqsetClear_pfLevel (d : Dev) (f : Fuse) (i : Ini) (v : Word) :
    (reqsetClear d f i v).pwr.pfLevel = d.pwr.pfLevel := by simp [reqsetClear]

/-! ### Management commands -/

@[simp] theorem mboxSend_pfLevel (d : Dev) (i : Ini) (k : Bool) : (mboxSend d i k).pwr.pfLevel = d.pwr.pfLevel := by simp [mboxSend]
@[simp] theorem mboxAck_pfLevel (d : Dev) (i : Ini) (k : Bool) : (mboxAck d i k).pwr.pfLevel = d.pwr.pfLevel := by simp [mboxAck]
@[simp] theorem mboxReply_pfLevel (d : Dev) (i : Ini) (k : Bool) : (mboxReply d i k).pwr.pfLevel = d.pwr.pfLevel := by simp [mboxReply]
@[simp] theorem setI3c_pfLevel (d : Dev) (x : I3c) : (setI3c d x).pwr.pfLevel = d.pwr.pfLevel := rfl

/-! ### Register writes -/

@[simp] theorem guardEffect_pfLevel (d : Dev) (a : Nat) : (guardEffect d a).pwr.pfLevel = d.pwr.pfLevel := by
  unfold guardEffect
  split <;> simp

@[simp] theorem guardPend_pfLevel (d : Dev) (f : Fuse) (i : Ini) (a : Nat) (v : Word) : (guardPend d f i a v).pwr.pfLevel = d.pwr.pfLevel := by
  refine unlessLocked_pfLevel _ _ _ _ ?_
  split <;> simp

@[simp] theorem guardShadow_pfLevel (d : Dev) (f : Fuse) (i : Ini) (a : Nat) (v : Word) : (guardShadow d f i a v).pwr.pfLevel = d.pwr.pfLevel := by
  refine unlessLocked_pfLevel _ _ _ _ ?_
  dsimp only
  split <;> simp

@[simp] theorem funcWrite_pfLevel (d : Dev) (i : Ini) (f off : Nat) (v : Word) :
    (funcWrite d i f off v).pwr.pfLevel = d.pwr.pfLevel := by simp [funcWrite]
@[simp] theorem queWrite_pfLevel (d : Dev) (i : Ini) (f q off : Nat) (v : Word) :
    (queWrite d i f q off v).pwr.pfLevel = d.pwr.pfLevel := by simp [queWrite]
@[simp] theorem msixWrite_pfLevel (d : Dev) (i : Ini) (f off : Nat) (v : Word) :
    (msixWrite d i f off v).pwr.pfLevel = d.pwr.pfLevel := by simp [msixWrite]
@[simp] theorem dumpWrite_pfLevel (d : Dev) (i : Ini) (f off : Nat) (v : Word) :
    (dumpWrite d i f off v).pwr.pfLevel = d.pwr.pfLevel := by simp [dumpWrite]

@[simp] theorem routeWrite_pfLevel (d : Dev) (i : Ini) (k off : Nat) (v : Word) : (routeWrite d i k off v).pwr.pfLevel = d.pwr.pfLevel := by
  unfold routeWrite
  split <;> simp

@[simp] theorem mboxWrite_pfLevel (d : Dev) (i : Ini) (off : Nat) (v : Word) : (mboxWrite d i off v).pwr.pfLevel = d.pwr.pfLevel := by
  unfold mboxWrite
  split <;> simp

@[simp] theorem i3cRegWrite_pfLevel (d : Dev) (i : Ini) (off : Nat) (v : Word) :
    (i3cRegWrite d i off v).pwr.pfLevel = d.pwr.pfLevel := by simp [i3cRegWrite]
@[simp] theorem aclNext_pfLevel (d : Dev) (idx : Word) (k : Nat) (v : Word) : (aclNext d idx k v).pwr.pfLevel = d.pwr.pfLevel := rfl
@[simp] theorem potRegWrite_pfLevel (d : Dev) (i : Ini) (off : Nat) (v : Word) :
    (potRegWrite d i off v).pwr.pfLevel = d.pwr.pfLevel := by simp [potRegWrite]
@[simp] theorem rngWrite_pfLevel (d : Dev) (f : Fuse) (i : Ini) (off : Nat) (v : Word) :
    (rngWrite d f i off v).pwr.pfLevel = d.pwr.pfLevel := by simp [rngWrite]

@[simp] theorem evrWrite_pfLevel (d : Dev) (i : Ini) (off : Nat) (v : Word) : (evrWrite d i off v).pwr.pfLevel = d.pwr.pfLevel := by
  unfold evrWrite
  dsimp only
  (repeat' split) <;> simp

@[simp] theorem svcWrite_pfLevel (d : Dev) (f : Fuse) (i : Ini) (off : Nat) (v : Word) :
    (svcWrite d f i off v).pwr.pfLevel = d.pwr.pfLevel := by simp [svcWrite]
@[simp] theorem twnWrite_pfLevel (d : Dev) (f : Fuse) (i : Ini) (off : Nat) (v : Word) :
    (twnWrite d f i off v).pwr.pfLevel = d.pwr.pfLevel := by simp [twnWrite]
@[simp] theorem pmcWrite_pfLevel (d : Dev) (i : Ini) (m off : Nat) (v : Word) :
    (pmcWrite d i m off v).pwr.pfLevel = d.pwr.pfLevel := by simp [pmcWrite]
theorem alarmSet_pfLevel (d : Dev) (a : BitVec 48) (on : Bool) :
    ({ d with pwr := { d.pwr with alm := a, almEn := on } } : Dev).pwr.pfLevel = d.pwr.pfLevel := rfl

@[simp] theorem pwrWrite_pfLevel (d : Dev) (i : Ini) (n off : Nat) (v : Word) : (pwrWrite d i n off v).pwr.pfLevel = d.pwr.pfLevel := by
  unfold pwrWrite
  split
  · split <;> rfl
  · split
    · exact standbyCommand_pfLevel _ _ _
    · split
      · exact pvoteWrite_pfLevel _ _ _
      · split
        · split
          · exact alarmSet_pfLevel d _ _
          · simp
        · split
          · split
            · exact alarmSet_pfLevel d _ _
            · simp
          · rfl

@[simp] theorem clkWrite_pfLevel (d : Dev) (i : Ini) (c off : Nat) (v : Word) :
    (clkWrite d i c off v).pwr.pfLevel = d.pwr.pfLevel := by simp [clkWrite]
@[simp] theorem crdRaw_pfLevel (d : Dev) (mem : List Host.Cell) (k : BitVec 2) (len : Nat) :
    (crdRaw d mem k len).pwr.pfLevel = d.pwr.pfLevel := by simp [crdRaw]
@[simp] theorem crdWrite_pfLevel (d : Dev) (mem : List Host.Cell) (i : Ini) (k off : Nat) (v : Word) :
    (crdWrite d mem i k off v).pwr.pfLevel = d.pwr.pfLevel := by simp [crdWrite]
@[simp] theorem evtClear_pfLevel (d : Dev) (p : Nat) (v : Word) : (evtClear d p v).pwr.pfLevel = d.pwr.pfLevel := by simp [evtClear]
@[simp] theorem evtEnable_pfLevel (d : Dev) (p : Nat) (v : Word) : (evtEnable d p v).pwr.pfLevel = d.pwr.pfLevel := by simp [evtEnable]

@[simp] theorem evtSet_pfLevel (d : Dev) (f : Fuse) (i : Ini) (p : Nat) (v : Word) : (evtSet d f i p v).pwr.pfLevel = d.pwr.pfLevel := by
  unfold evtSet
  split
  · rfl
  · split <;> simp

@[simp] theorem lockWrite_pfLevel (d : Dev) (i : Ini) (p : Nat) (v : Word) : (lockWrite d i p v).pwr.pfLevel = d.pwr.pfLevel := by simp [lockWrite]

@[simp] theorem headWrite_pfLevel (d : Dev) (f : Fuse) (i : Ini) (p off : Nat) (v : Word) :
    (headWrite d f i p off v).pwr.pfLevel = d.pwr.pfLevel := by
  unfold headWrite
  split_ifs
  case pos => simp
  case pos => simp
  case pos => simp
  case pos =>
    split
    · split <;> simp
    · rfl
  case pos => simp
  case neg => rfl

/-! ### The interconnect -/

@[simp] theorem stallCycles_pfLevel (d : Dev) : (stallCycles d).pwr.pfLevel = d.pwr.pfLevel := by simp [stallCycles]

/-! ### The tick boundary -/

@[simp] theorem countTick_pfLevel (d : Dev) : (countTick d).pwr.pfLevel = d.pwr.pfLevel := by simp [countTick]
@[simp] theorem cycleWraps_pfLevel (before after : Dev) : (cycleWraps before after).pwr.pfLevel = after.pwr.pfLevel := by simp [cycleWraps]
@[simp] theorem latchMons_pfLevel (d : Dev) : (latchMons d).pwr.pfLevel = d.pwr.pfLevel := by simp [latchMons]

@[simp] theorem uncorrected_pfLevel (d : Dev) (mem : Nat) (addr : Option Nat) : (uncorrected d mem addr).pwr.pfLevel = d.pwr.pfLevel := by
  unfold uncorrected
  split <;> simp

@[simp] theorem remapLine_pfLevel (d : Dev) : (remapLine d).pwr.pfLevel = d.pwr.pfLevel := by simp [remapLine]

@[simp] theorem slotLost_pfLevel (d : Dev) (slot : Nat) : (slotLost d slot).pwr.pfLevel = d.pwr.pfLevel := by
  unfold slotLost
  split
  · rfl
  · dsimp only
    rw [wipeKey_pfLevel]
    exact foldl_pfLevel _ (fun _ _ => finishJob_pfLevel _ _ _) _ _

@[simp] theorem memError_pfLevel (d : Dev) (e : MemError) : (memError d e).pwr.pfLevel = d.pwr.pfLevel := by
  unfold memError
  dsimp only
  (repeat' split) <;> simp

@[simp] theorem wearTick_pfLevel (d : Dev) (lines : Word) : (wearTick d lines).pwr.pfLevel = d.pwr.pfLevel := by simp [wearTick]
@[simp] theorem background_pfLevel (d : Dev) (b : BoundaryIn) : (background d b).pwr.pfLevel = d.pwr.pfLevel := by simp [background]

@[simp] theorem randomDone_pfLevel (d : Dev) (j : Job) : (randomDone d j).pwr.pfLevel = d.pwr.pfLevel := by
  unfold randomDone
  split
  · simp
  · split
    · simp
    · split
      · next h =>
        split at h
        · simp [instGenerate_pfLevel h]
        · contradiction
      · split <;> simp

@[simp] theorem rngBoundary_pfLevel (d : Dev) (b : BoundaryIn) : (rngBoundary d b).pwr.pfLevel = d.pwr.pfLevel := by simp [rngBoundary]
@[simp] theorem timePasses_pfLevel (d : Dev) (b : BoundaryIn) : (timePasses d b).pwr.pfLevel = d.pwr.pfLevel := rfl
@[simp] theorem rateEnds_pfLevel (d : Dev) : (rateEnds d).pwr.pfLevel = d.pwr.pfLevel := by simp [rateEnds]

end Sys2Proof.Machine
end

section
/-! PROOFS. The fuse array: bits only burn, and none while PWR_FAIL_N is low (12 R338, R339, R340, 13 R364). -/

namespace Sys2Proof.Machine

/-! ### Bits that only burn -/

@[simp] theorem keeps_refl {w : Nat} (f : BitVec w) : keeps f f := BitVec.and_self

theorem keeps_trans {w : Nat} {f g h : BitVec w} (hfg : keeps f g) (hgh : keeps g h) : keeps f h := by
  unfold keeps at *
  rw [← hfg, BitVec.and_assoc, hgh]

@[simp] theorem keeps_or {w : Nat} (f x : BitVec w) : keeps f (f ||| x) := by
  unfold keeps
  ext k hk
  simpa using Or.inl

@[simp] theorem keeps_ones (w : Word) : keeps w 0xFFFFFFFF#32 := BitVec.and_allOnes

@[simp] theorem keeps_burnTorn (w : Word) : keeps w (burnTorn w) := by
  unfold burnTorn
  split <;> simp

theorem onlyBurns_refl (f : Fuse) : f.onlyBurns f := by simp [Fuse.onlyBurns]

theorem onlyBurns_trans {f g h : Fuse} (hfg : f.onlyBurns g) (hgh : g.onlyBurns h) : f.onlyBurns h := by
  obtain ⟨a1, a2, a3, a4, a5, a6, a7, a8, a9, a10, a11, a12, a13⟩ := hfg
  obtain ⟨b1, b2, b3, b4, b5, b6, b7, b8, b9, b10, b11, b12, b13⟩ := hgh
  exact ⟨keeps_trans a1 b1, keeps_trans a2 b2, keeps_trans a3 b3, keeps_trans a4 b4, keeps_trans a5 b5, keeps_trans a6 b6,
    keeps_trans a7 b7, keeps_trans a8 b8, keeps_trans a9 b9, keeps_trans a10 b10, keeps_trans a11 b11, keeps_trans a12 b12,
    fun k => keeps_trans (a13 k) (b13 k)⟩

theorem burnFirst_onlyBurns (f : Fuse) (t : Nat) : f.onlyBurns (burnFirst f t) := by
  unfold burnFirst
  split_ifs <;> simp [Fuse.onlyBurns]

theorem burnRest_onlyBurns (f : Fuse) (t : Nat) : f.onlyBurns (burnRest f t) := by
  unfold burnRest
  split_ifs <;> simp [Fuse.onlyBurns]

theorem burnAll_onlyBurns (f : Fuse) : f.onlyBurns (burnAll f) := by simp [burnAll, Fuse.onlyBurns]

theorem fuseWrite_onlyBurns (f : Fuse) (i : Nat) (v : Word) : f.onlyBurns (fuseWrite f i v) := by
  unfold fuseWrite
  dsimp only
  split_ifs <;> simp [Fuse.onlyBurns]

theorem setOff_onlyBurns (f : Fuse) (n : Nat) : f.onlyBurns { f with off := f.off.set n 0xFFFFFFFF } := by
  simp only [Fuse.onlyBurns, keeps_refl, true_and]
  intro k
  rw [List.getD_eq_getElem?_getD, List.getD_eq_getElem?_getD, List.getElem?_set]
  split_ifs with hn hlt
  · exact keeps_ones _
  · rw [List.getElem?_eq_none (by omega)]
    exact keeps_refl _
  · exact keeps_refl _

theorem tornOff_onlyBurns (f : Fuse) : f.onlyBurns { f with off := f.off.map burnTorn } := by
  simp only [Fuse.onlyBurns, keeps_refl, true_and]
  intro k
  rw [List.getD_eq_getElem?_getD, List.getD_eq_getElem?_getD, List.getElem?_map]
  cases f.off[k]? with
  | none => exact keeps_refl _
  | some w => exact keeps_burnTorn w

/-! ### The tamper counter -/

theorem moreCounted_onlyBurns (f : Fuse) (x : BitVec 8192) : f.onlyBurns { f with counter := f.counter ||| x } := by simp [Fuse.onlyBurns]

theorem counterBurn_onlyBurns {f g : Fuse} {bad : List Nat} (h : counterBurn f bad = some g) : f.onlyBurns g := by
  unfold counterBurn at h
  generalize List.find? _ _ = o at h
  cases o with
  | none => contradiction
  | some k =>
    injection h with h
    subst h
    exact moreCounted_onlyBurns f _

theorem counterStep_onlyBurns (d : Dev) (f : Fuse) (bad : List Nat) : f.onlyBurns (counterStep d f bad).2 := by
  unfold counterStep
  split
  · exact onlyBurns_refl f
  · next h => exact counterBurn_onlyBurns h

theorem counterDrain_onlyBurns (n : Nat) (d : Dev) (f : Fuse) (bad : List Nat) : f.onlyBurns (counterDrain n d f bad).2 := by
  induction n generalizing d f with
  | zero => exact onlyBurns_refl f
  | succ n ih => exact onlyBurns_trans (counterStep_onlyBurns d f bad) (ih _ _)

/-! ### Pulses and PWR_FAIL_N -/

/-- What may become of the fuse array at a level of PWR_FAIL_N: bits only burn, and none while it is low (12 R338, R339). -/
def pulses (level : Bool) (f g : Fuse) : Prop := f.onlyBurns g ∧ (level = false → g = f)

theorem pulses_refl (level : Bool) (f : Fuse) : pulses level f f := ⟨onlyBurns_refl f, fun _ => rfl⟩

theorem pulses_trans {level : Bool} {f g h : Fuse} (hfg : pulses level f g) (hgh : pulses level g h) : pulses level f h :=
  ⟨onlyBurns_trans hfg.1 hgh.1, fun hlow => (hgh.2 hlow).trans (hfg.2 hlow)⟩

theorem pulses_high {level : Bool} {f g : Fuse} (hhigh : level = true) (h : f.onlyBurns g) : pulses level f g :=
  ⟨h, fun hlow => nomatch hhigh.symm.trans hlow⟩

theorem pulses_ite {level : Bool} {c : Prop} [Decidable c] {f : Fuse} {a b : Dev × Fuse} (ha : c → pulses level f a.2)
    (hb : ¬ c → pulses level f b.2) : pulses level f (if c then a else b).2 := by
  split
  · next h => exact ha h
  · next h => exact hb h

/-- A count on the tamper counter: burnt while power is good, pending while it fails (13 R365, R366). -/
theorem alarmCount_pulses {d e : Dev} (he : e.pwr.pfLevel = d.pwr.pfLevel) (f : Fuse) (c : Bool) (p : Dev) :
    pulses d.pwr.pfLevel f (if c then (if e.pwr.pfLevel then counterStep e f [] else (p, f)) else (e, f)).2 := by
  refine pulses_ite (fun _ => pulses_ite (fun hhigh => ?_) fun _ => pulses_refl _ f) fun _ => pulses_refl _ f
  exact pulses_high (he.symm.trans hhigh) (counterStep_onlyBurns e f [])

theorem alarmMain_pulses (d : Dev) (f : Fuse) (m : BitVec 23) (stop : Bool) : pulses d.pwr.pfLevel f (alarmMain d f m stop).2 := by
  unfold alarmMain
  extract_lets ns u b d1 d2 d3 d4 d5 d6 d7
  refine pulses_ite (fun _ => pulses_refl _ f) fun _ => alarmCount_pulses ?_ f _ _
  have h6 : d6.pwr.pfLevel = d5.pwr.pfLevel := foldl_pfLevel _ (fun _ _ => congrArg Pwr.pfLevel (evLog_pwr _ _ _ _ _)) _ _
  simp [d7, h6, d5, d4, d3, d2, d1]

theorem tamperSample_pulses (d : Dev) (f : Fuse) (t : TamperIn) : pulses d.pwr.pfLevel f (tamperSample d f t).2 :=
  pulses_ite (fun _ => pulses_refl _ f) fun _ => alarmMain_pulses _ f _ _

theorem sourcesAlarm_pulses (d : Dev) (f : Fuse) (sources : BitVec 23) : pulses d.pwr.pfLevel f (sourcesAlarm d f sources).2 :=
  pulses_ite (fun _ => pulses_refl _ f) fun _ => alarmMain_pulses _ f _ _

theorem guardMismatch_pulses (d : Dev) (f : Fuse) (addr : Nat) : pulses d.pwr.pfLevel f (guardMismatch d f addr).2 := by
  refine pulses_ite (fun _ => pulses_refl _ f) fun _ => ?_
  split
  · exact alarmMain_pulses _ f _ _
  · exact alarmMain_pulses _ f _ _

/-! ### Work that keeps the level -/

/-- Work on the device and the fuses that keeps the level of PWR_FAIL_N, with the pulses of that level. -/
def steady (x y : Dev × Fuse) : Prop := y.1.pwr.pfLevel = x.1.pwr.pfLevel ∧ pulses x.1.pwr.pfLevel x.2 y.2

theorem steady_dev {d e : Dev} (h : e.pwr.pfLevel = d.pwr.pfLevel) (f : Fuse) : steady (d, f) (e, f) := ⟨h, pulses_refl _ f⟩

theorem steady_refl (x : Dev × Fuse) : steady x x := steady_dev rfl x.2

theorem steady_trans {x y z : Dev × Fuse} (hxy : steady x y) (hyz : steady y z) : steady x z := by
  obtain ⟨hlevel, hpulses⟩ := hxy
  obtain ⟨klevel, kpulses⟩ := hyz
  exact ⟨klevel.trans hlevel, pulses_trans hpulses (hlevel ▸ kpulses)⟩

theorem steady_ite {c : Prop} [Decidable c] {x a b : Dev × Fuse} (ha : steady x a) (hb : steady x b) : steady x (if c then a else b) := by
  split
  · exact ha
  · exact hb

theorem steady_foldl {β : Type} (g : Dev × Fuse → β → Dev × Fuse) (h : ∀ x b, steady x (g x b)) (l : List β) (x : Dev × Fuse) :
    steady x (l.foldl g x) := by
  induction l generalizing x with
  | nil => exact steady_refl x
  | cons b r ih => exact steady_trans (h x b) (ih _)

theorem steady_ignored (d : Dev) (f : Fuse) (i : Ini) (a : Nat) : steady (d, f) (ignored d i a, f) :=
  steady_dev (congrArg Pwr.pfLevel (ignored_pwr d i a)) f

/-! ### Provisioning and the source words -/

theorem drsStep_steady (d : Dev) (f : Fuse) : steady (d, f) (drsStep d f) := by
  unfold drsStep
  split
  · next bs e h =>
    obtain ⟨hhigh, hdraw⟩ := Option.ite_none_right_eq_some.mp h
    exact ⟨(keeperDraw_pfLevel hdraw :), pulses_high hhigh (by simp [Fuse.onlyBurns])⟩
  · exact steady_dev rfl f

theorem genDrs_steady (d : Dev) (f : Fuse) (i : Ini) : steady (d, f) (genDrs d f i) :=
  steady_ite (steady_ignored d f i _) (steady_ite (steady_dev rfl f) (drsStep_steady d f))

theorem genDrsWaits_steady (d : Dev) (f : Fuse) : steady (d, f) (genDrsWaits d f) :=
  steady_ite (steady_refl _) (steady_ite (steady_dev rfl f) (drsStep_steady d f))

theorem fuseProgram_steady (d : Dev) (f : Fuse) (i : Ini) : steady (d, f) (fuseProgram d f i) := by
  unfold fuseProgram
  dsimp only
  refine steady_ite (steady_ignored d f i _) (steady_ite (steady_ignored d f i _) ?_)
  split
  · exact steady_refl _
  · next hhigh => exact ⟨rfl, pulses_high (by simpa using hhigh) (fuseWrite_onlyBurns f _ _)⟩

theorem fuseOff_steady (d : Dev) (f : Fuse) (i : Ini) (v : Word) : steady (d, f) (fuseOff d f i v) := by
  unfold fuseOff
  dsimp only
  split
  · exact steady_ignored d f i _
  · next h =>
    simp only [Bool.or_eq_true, not_or, Bool.not_eq_true, Bool.not_eq_eq_eq_not] at h
    exact ⟨rfl, pulses_high (by simpa using h.1.1.1.1.2) (setOff_onlyBurns f _)⟩

/-! ### The keeper world's start -/

theorem ilmelStart_steady {d : Dev} {f : Fuse} {r : Dev × Fuse} (h : ilmelStart d f = some r) : steady (d, f) r := by
  unfold ilmelStart at h
  extract_lets +onlyGivenNames due f1 step at h
  have hstep : ∀ x, step = some x → steady (d, f) x := by
    intro x hx
    dsimp only [step] at hx
    split at hx
    · cases hx
      exact steady_refl _
    · split at hx
      · contradiction
      · next hhigh =>
        split at hx
        · contradiction
        · next e he =>
          cases hx
          exact ⟨by simp [prodActions_pfLevel he], pulses_high (by simpa using hhigh) (by simp [f1, Fuse.onlyBurns])⟩
  cases hs : step with
  | none =>
    rw [hs] at h
    contradiction
  | some x =>
    rw [hs] at h
    obtain rfl := Option.some.inj h
    exact steady_trans (hstep x hs) (steady_dev (by simp) x.2)

theorem worldReady_steady (d : Dev) (f : Fuse) (i : Ini) : steady (d, f) (worldReady d f i) := by
  unfold worldReady
  refine steady_ite (steady_ignored d f i _) (steady_ite (steady_ite (steady_dev rfl f) (steady_ignored d f i _)) ?_)
  refine steady_ite ?_ (steady_ignored d f i _)
  cases h : ilmelStart d f with
  | none => exact steady_refl _
  | some r => exact ilmelStart_steady h

/-! ### Registers -/

theorem aclWrite_steady (d : Dev) (f : Fuse) (i : Ini) (off : Nat) (v : Word) : steady (d, f) (aclWrite d f i off v) := by
  unfold aclWrite
  extract_lets a no core keeper d1 t d3 d4
  have hno : steady (d, f) no := steady_ignored d f i _
  have hcore (e : Dev) (he : e.pwr.pfLevel = d.pwr.pfLevel) : steady (d, f) (core e) := steady_ite (steady_dev he f) hno
  have hkeeper (e : Dev) (he : e.pwr.pfLevel = d.pwr.pfLevel) : steady (d, f) (keeper e) := steady_ite (steady_dev he f) hno
  refine steady_ite (steady_dev ?_ f) ?_
  · simp [d1]
  refine steady_ite (hkeeper _ rfl) (steady_ite (hkeeper _ (aclNext_pfLevel d _ _ v)) (steady_ite (hcore _ rfl) ?_))
  refine steady_ite (steady_ite hno (hcore _ (aclNext_pfLevel d _ _ v))) (steady_ite (hcore _ rfl) ?_)
  refine steady_ite (steady_ite (steady_dev (fvalidClear_pfLevel d i) f) (steady_refl _)) (steady_ite ?_ ?_)
  · have hrestarts : steady (d, f) (d4, f) := steady_dev (by simp [d4, d3]) f
    exact steady_ite (steady_trans hrestarts (worldReady_steady d4 f i)) hrestarts
  refine steady_ite (steady_ite hno (hcore _ rfl)) (steady_ite (steady_dev (keeperPet_pfLevel d i) f) ?_)
  exact steady_ite (steady_dev (porterPet_pfLevel d i) f) (steady_ite (hkeeper _ rfl) (steady_refl _))

theorem lcsWrite_steady (d : Dev) (f : Fuse) (i : Ini) (off : Nat) (v : Word) : steady (d, f) (lcsWrite d f i off v) := by
  unfold lcsWrite
  dsimp only
  have hno := steady_ignored d f i (regAddr lcsPage off)
  exact steady_ite (steady_ite (steady_dev rfl f) hno) (steady_ite (steady_ite (steady_dev rfl f) hno)
    (steady_ite (steady_ite (genDrs_steady d f i) (steady_ite (fuseProgram_steady d f i) (steady_refl _))) (steady_refl _)))

theorem tmpWrite_steady (d : Dev) (f : Fuse) (i : Ini) (off : Nat) (v : Word) : steady (d, f) (tmpWrite d f i off v) :=
  steady_ite (steady_dev (alarmClear_pfLevel d i v) f) (steady_ite (fuseOff_steady d f i v) (steady_refl _))

theorem bodyWrite_steady (d : Dev) (f : Fuse) (mem : List Host.Cell) (i : Ini) (p off : Nat) (v : Word) :
    steady (d, f) (bodyWrite d f mem i p off v) := by
  unfold bodyWrite
  cases pageKind p
  case func k => exact steady_dev (funcWrite_pfLevel d i k off v) f
  case que k => exact steady_dev (queWrite_pfLevel d i k _ _ v) f
  case msixTab k => exact steady_dev (msixWrite_pfLevel d i k off v) f
  case dump k => exact steady_dev (dumpWrite_pfLevel d i k off v) f
  case route k => exact steady_dev (routeWrite_pfLevel d i k off v) f
  case mbox => exact steady_dev (mboxWrite_pfLevel d i off v) f
  case i3c => exact steady_dev (i3cRegWrite_pfLevel d i off v) f
  case acl => exact aclWrite_steady d f i off v
  case pot => exact steady_dev (potRegWrite_pfLevel d i off v) f
  case rng => exact steady_dev (rngWrite_pfLevel d f i off v) f
  case lcs => exact lcsWrite_steady d f i off v
  case evr => exact steady_dev (evrWrite_pfLevel d i off v) f
  case svc => exact steady_dev (svcWrite_pfLevel d f i off v) f
  case twn => exact steady_dev (twnWrite_pfLevel d f i off v) f
  case pmc m => exact steady_dev (pmcWrite_pfLevel d i m off v) f
  case pwr n => exact steady_dev (pwrWrite_pfLevel d i n off v) f
  case clk c => exact steady_dev (clkWrite_pfLevel d i c off v) f
  case rst =>
    refine steady_dev ?_ f
    split
    · exact coldCommand_pfLevel d i v
    · rfl
  case crd k => exact steady_dev (crdWrite_pfLevel d mem i k off v) f
  case tmp => exact tmpWrite_steady d f i off v
  all_goals exact steady_refl _

theorem regWrite_steady (d : Dev) (f : Fuse) (mem : List Host.Cell) (i : Ini) (p off : Nat) (v : Word) :
    steady (d, f) (regWrite d f mem i p off v) := by
  unfold regWrite
  dsimp only
  have hbody := bodyWrite_steady d f mem i p off v
  have hlocked : steady (d, f) (lockHit d i p off, f) := steady_dev (congrArg Pwr.pfLevel (lockHit_pwr d i p off)) f
  refine steady_ite (steady_ignored d f i _) (steady_ite hbody (steady_ite (steady_dev (headWrite_pfLevel d f i p off v) f)
    (steady_ite (steady_ite hlocked hbody) (steady_ite ?_ (steady_ite ?_ (steady_ite hlocked hbody))))))
  · exact steady_ite (steady_dev (guardShadow_pfLevel d f i _ v) f) (steady_refl _)
  · exact steady_dev (guardPend_pfLevel d f i _ v) f

theorem registers_steady (mem : List Host.Cell) (i : Ini) (p : Nat) (regs : List (Nat × Word)) (x : Dev × Fuse) :
    steady x (regs.foldl (fun r w => regWrite r.1 r.2 mem i p w.1 w.2) x) := by
  refine steady_foldl _ (fun y w => ?_) regs x
  exact regWrite_steady y.1 y.2 mem i p w.1 w.2

theorem regBytesWrite_steady (d : Dev) (f : Fuse) (mem : List Host.Cell) (i : Ini) (p off : Nat) (data : List Byte) :
    steady (d, f) (regBytesWrite d f mem i p off data) := by
  have hregs := registers_steady mem i p (wholeRegs off data)
  unfold regBytesWrite
  dsimp only
  split
  · refine steady_dev ?_ f
    split
    · rfl
    · exact foldl_pfLevel _ (fun d q => ringHatch_pfLevel d _ q) _ d
  · exact steady_ite (hregs _) (steady_ignored d f i _)
  · refine steady_trans (steady_dev ?_ f) (hregs _)
    refine foldl_pfLevel _ (fun e o => ?_) _ d
    exact congrArg Pwr.pfLevel (ignored_pwr e i _)

/-! ### The interconnect -/

/-- The same of two states: PWR_FAIL_N keeps its level, and the fuses have its pulses. -/
def State.steady (s t : State) : Prop := Machine.steady (s.dev, s.fuse) (t.dev, t.fuse)

theorem stateSteady_dev {s t : State} (hdev : t.dev.pwr.pfLevel = s.dev.pwr.pfLevel) (hfuse : t.fuse = s.fuse) :
    s.steady t :=
  ⟨hdev, hfuse ▸ pulses_refl _ _⟩

theorem stateSteady_trans {s t u : State} (h : s.steady t) (k : t.steady u) : s.steady u := steady_trans h k

theorem stateSteady_foldl {α β : Type} (get : α → State) (g : α → β → α) (h : ∀ a b, (get a).steady (get (g a b)))
    (l : List β) (a : α) : (get a).steady (get (l.foldl g a)) := by
  induction l generalizing a with
  | nil => exact steady_refl _
  | cons b r ih => exact stateSteady_trans (h a b) (ih _)

theorem respond_steady (s : State) (t : Txn) (ok : Bool) (bs : List Byte) : s.steady (respond s t ok bs) := by
  unfold respond
  split
  · exact steady_refl _
  · exact steady_dev rfl _

theorem partWrite_steady (s : State) (i : Ini) (a : Nat) (bs : List Byte) : s.steady (partWrite s i a bs) := by
  unfold partWrite
  split
  · exact steady_dev rfl _
  · exact steady_refl _
  · exact steady_refl _
  · exact steady_refl _
  · exact regBytesWrite_steady s.dev s.fuse s.mem i _ _ bs

theorem partRead_pfLevel (s : State) (i : Ini) (a n : Nat) : (partRead s i a n).2.2.pwr.pfLevel = s.dev.pwr.pfLevel := by
  unfold partRead
  split
  · rfl
  · rfl
  · rfl
  · rfl
  · exact regReadEffect_pfLevel s.dev s.fuse i _ _ n

theorem doPiece_steady (t : Txn) (acc : State × Bool × List Byte) (x : Nat × Nat × List Byte) : acc.1.steady (doPiece t acc x).1 := by
  unfold doPiece
  extract_lets i s p mirrored s1 m r s2 s3 d d1
  have h1 : s.steady s1 := by
    dsimp only [s1]
    split
    · exact steady_refl _
    · exact stateSteady_dev (touchPage_pfLevel s.dev p) rfl
  have h2 : s1.steady s2 := by
    refine stateSteady_dev ?_ rfl
    dsimp only [s2, r]
    split
    · rfl
    · split
      · rfl
      · exact partRead_pfLevel s1 i x.1 x.2.1
  have h3 : s2.steady s3 := by
    dsimp only [s3]
    split
    · exact partWrite_steady s2 i x.1 _
    · exact steady_refl _
  have hd : d1.pwr.pfLevel = s3.dev.pwr.pfLevel := by simp [d1, d]
  exact stateSteady_trans h1 (stateSteady_trans h2 (stateSteady_trans h3 (stateSteady_dev hd rfl)))

theorem carry_steady (s : State) (t : Txn) (o : Bool) (n : Nat) : s.steady (carry s t o n) := by
  unfold carry
  dsimp only
  split
  · exact stateSteady_dev (stallTxn_pfLevel s.dev _) rfl
  · exact stateSteady_trans (stateSteady_foldl (fun acc : State × Bool × List Byte => acc.1) (doPiece t) (doPiece_steady t) _ (s, true, []))
      (respond_steady _ _ _ _)

theorem deny_steady (s : State) (t : Txn) (rule : Nat) : s.steady (deny s t rule) := by
  refine stateSteady_trans ?_ (respond_steady _ _ _ _)
  exact stateSteady_dev (by simp) rfl

theorem checkOne_steady (s : State) (t : Txn) : s.steady (checkOne s t) := by
  have hcounted : s.steady { s with dev := countChecked s.dev t } :=
    stateSteady_dev (congrArg Pwr.pfLevel (quiet_pwr (countChecked_quiet s.dev t))) rfl
  unfold checkOne
  dsimp only
  split
  · exact stateSteady_trans hcounted (deny_steady _ _ _)
  · exact stateSteady_trans hcounted (carry_steady _ _ _ _)

theorem onFabric_steady (s : State) (t : Txn) : s.steady (onFabric s t) := by
  unfold onFabric
  dsimp only
  split
  · exact steady_refl _
  split
  · exact steady_refl _
  split
  · exact respond_steady _ _ _ _
  split
  · refine stateSteady_trans ?_ (respond_steady _ _ _ _)
    exact stateSteady_dev (by simp) rfl
  split
  · refine stateSteady_foldl (fun u : State => u) _ (fun u x => ?_) _ s
    exact checkOne_steady u _
  · exact checkOne_steady s t

theorem transact_steady (s : State) (t : Txn) : s.steady (transact s t) := by
  unfold transact
  split
  · exact steady_refl _
  · split
    · exact onFabric_steady s _
    · exact respond_steady _ _ _ _

theorem resume_steady (s : State) (code : Nat) : s.steady (resume s code) := by
  have hcarried (l : List Stalled) (u : State) : u.steady (l.foldl (fun (s : State) (x : Stalled) => carry s x.t x.oldAcl x.potAt) u) :=
    stateSteady_foldl (fun u : State => u) _ (fun u x => carry_steady u x.t x.oldAcl x.potAt) l u
  unfold resume
  extract_lets l kept d a s1 t
  have h1 : s.steady s1 := stateSteady_dev rfl rfl
  exact stateSteady_trans (stateSteady_trans h1 (hcarried l s1)) (stateSteady_dev (settleDrained_pfLevel t.dev) rfl)

theorem pageWiped_steady (s : State) (k : Nat) (ok : Bool) : s.steady (pageWiped s k ok) := by
  unfold pageWiped
  split
  · refine stateSteady_trans ?_ (resume_steady _ 255)
    exact stateSteady_dev (wipePage_pfLevel s.dev k _ ok) rfl
  · exact steady_refl _

/-! ### Life-cycle transitions -/

theorem prodFinish_pulses (d : Dev) (f : Fuse) : pulses d.pwr.pfLevel f (prodFinish d f).2 := by
  unfold prodFinish
  split
  · split
    · next h =>
      simp only [Bool.and_eq_true] at h
      split
      · exact pulses_high h.2 (by simp [Fuse.onlyBurns])
      · exact pulses_refl _ f
    · exact pulses_refl _ f
  · exact pulses_refl _ f

theorem runTransition_pulses (d : Dev) (f : Fuse) (j : Job) : pulses d.pwr.pfLevel f (runTransition d f j).2 := by
  unfold runTransition
  dsimp only
  split
  · exact pulses_ite (fun _ => prodFinish_pulses d f) fun _ => pulses_refl _ f
  · refine pulses_ite (fun _ => pulses_refl _ f) fun _ => pulses_ite (fun _ => pulses_refl _ f) fun _ => ?_
    refine pulses_ite (fun _ => pulses_refl _ f) fun _ => pulses_ite (fun _ => pulses_refl _ f) fun _ => ?_
    refine pulses_ite (fun _ => pulses_refl _ f) fun hhigh => ?_
    exact pulses_high (by simpa using hhigh) (burnFirst_onlyBurns f _)

theorem keeperDone_pulses (d : Dev) (f : Fuse) (id : JobId) : pulses d.pwr.pfLevel f (keeperDone d f id).2 := by
  unfold keeperDone
  split
  · exact pulses_refl _ f
  · refine pulses_ite (fun _ => pulses_refl _ f) fun _ => pulses_ite (fun _ => pulses_refl _ f) fun _ => ?_
    unfold keeperRun
    split
    · exact runTransition_pulses d f _
    · exact pulses_refl _ f

theorem eraseDone_pulses (d : Dev) (f : Fuse) : pulses d.pwr.pfLevel f (eraseDone d f).2 := by
  refine pulses_ite (fun _ => pulses_refl _ f) fun h => ?_
  simp only [Bool.or_eq_true, not_or, Bool.not_eq_eq_eq_not, Bool.not_true, Bool.not_eq_false] at h
  exact pulses_high h.2 (onlyBurns_trans (burnRest_onlyBurns f 3) (by simp [Fuse.onlyBurns]))

theorem lcBoundary_pulses (d : Dev) (f : Fuse) : pulses d.pwr.pfLevel f (lcBoundary d f).2 := by
  unfold lcBoundary
  split
  · exact pulses_refl _ f
  · next t _ =>
    refine pulses_ite (fun _ => pulses_refl _ f) fun h => ?_
    simp only [Bool.or_eq_true, not_or, Bool.not_eq_eq_eq_not, Bool.not_true, Bool.not_eq_false] at h
    dsimp only
    split
    · exact pulses_high h.1 (burnRest_onlyBurns f _)
    · exact pulses_high h.1 (burnRest_onlyBurns f _)

/-! ### The tick boundary -/

theorem tickBoundary_pulses (d : Dev) (f : Fuse) (b : BoundaryIn) : pulses d.pwr.pfLevel f (tickBoundary d f b).2 := by
  refine pulses_ite (fun _ => pulses_refl _ f) fun _ => ?_
  extract_lets d1 d2 d3 r1 r2 d4
  have h3 : d3.pwr.pfLevel = d.pwr.pfLevel := by simp [d3, d2, d1]
  have h1 : steady (d3, f) r1 := genDrsWaits_steady d3 f
  have h2 : pulses r1.1.pwr.pfLevel r1.2 r2.2 := lcBoundary_pulses r1.1 r1.2
  clear_value r1 r2 d3
  obtain ⟨hlevel, hdrawn⟩ := h1
  rw [hlevel] at h2
  exact h3 ▸ pulses_trans hdrawn h2

/-! ### The pulses of a command -/

/-- What a command may leave of a state's fuses: the pulses at the state's level of PWR_FAIL_N. -/
def State.pulses (s t : State) : Prop := Machine.pulses s.dev.pwr.pfLevel s.fuse t.fuse

theorem statePulses_of_fuse {s t : State} (h : t.fuse = s.fuse) : s.pulses t := by
  unfold State.pulses
  exact h ▸ pulses_refl _ _

theorem writeAt_pulses (s : State) (i : Ini) (a : Nat) (bs : List Byte) (k : Dev → Dev × Fuse) (hk : ∀ d, steady (d, s.fuse) (k d)) :
    Ensures (writeAt s i a bs k) s.pulses := by
  unfold writeAt
  refine ensures_ite (ensures_next (statePulses_of_fuse rfl)) (ensures_ite (ensures_next (statePulses_of_fuse rfl)) ?_)
  split
  · exact ensures_next (statePulses_of_fuse rfl)
  · have hact := (hk (touchPage s.dev (a / 0x1000))).2
    rw [touchPage_pfLevel] at hact
    exact ensures_next hact

theorem kept_pulses (s : State) : Ensures (.next s) s.pulses := ensures_next (statePulses_of_fuse rfl)

theorem writeAt_regWrite_pulses (s : State) (i : Ini) (a : Nat) (bs : List Byte) (p off : Nat) (v : Word) :
    Ensures (writeAt s i a bs fun d => regWrite d s.fuse s.mem i p off v) s.pulses :=
  writeAt_pulses s i a bs _ fun d => regWrite_steady d s.fuse s.mem i p off v

theorem tickBoundary_settled_pulses (s : State) (b : BoundaryIn) : Ensures (exec (.tickBoundary b) s) s.pulses := by
  refine ensures_next ?_
  have hfuse := (stageSettle_spec { s with dev := (tickBoundary s.dev s.fuse b).1, fuse := (tickBoundary s.dev s.fuse b).2 }).1.2.1
  have hpulses := tickBoundary_pulses s.dev s.fuse b
  unfold State.pulses
  rwa [hfuse]

theorem resumed_pulses (s : State) (n : Nat) : s.pulses (resume { s with dev := domReady s.dev n } n) := by
  have hready : s.steady { s with dev := domReady s.dev n } := stateSteady_dev (domReady_pfLevel s.dev n) rfl
  exact (stateSteady_trans hready (resume_steady _ n)).2

/-- The commands that may program a fuse, one by one. -/
theorem exec_burns_pulses {c : Instr} (s : State) (hburns : burnsFuses c = true) (hpower : restoresPower c = false) :
    Ensures (exec c s) s.pulses := by
  cases c
  all_goals try exact absurd hburns Bool.false_ne_true
  all_goals try exact absurd hpower.symm Bool.false_ne_true
  case fabricTransaction t => exact ensures_next (transact_steady s t).2
  case domainReady n => exact ensures_ite ensures_fault (ensures_ite (kept_pulses s) (ensures_next (resumed_pulses s _)))
  case pageWipe p ok => exact ensures_next (pageWiped_steady s _ ok).2
  case registerWrite => exact writeAt_pulses s _ _ _ _ fun d => regBytesWrite_steady d s.fuse s.mem _ _ _ _
  case guardedRegisterWrite => exact ensures_ite (writeAt_regWrite_pulses s _ _ _ _ _ _) (kept_pulses s)
  case guardedShadowWrite => exact ensures_ite (writeAt_regWrite_pulses s _ _ _ _ _ _) (kept_pulses s)
  case pgEvtSetWrite => exact ensures_ite (kept_pulses s) (writeAt_regWrite_pulses s _ _ _ _ _ _)
  case pgLockWrite => exact ensures_ite (kept_pulses s) (writeAt_regWrite_pulses s _ _ _ _ _ _)
  case lcsFuseProgram i => exact ensures_next (fuseProgram_steady s.dev s.fuse i).2
  case lcsGendrs i => exact ensures_next (genDrs_steady s.dev s.fuse i).2
  case tmpFuseoff i v => exact ensures_next (fuseOff_steady s.dev s.fuse i v).2
  case eraseEngineDone => exact ensures_next (eraseDone_pulses s.dev s.fuse)
  case worldReady i => exact ensures_next (worldReady_steady s.dev s.fuse i).2
  case kprKeeperDone id => exact ensures_next (keeperDone_pulses s.dev s.fuse id)
  case tickBoundary b => exact tickBoundary_settled_pulses s b
  case tamperAlarm x => exact ensures_next (sourcesAlarm_pulses s.dev s.fuse x)
  case tamperSample x => exact ensures_next (tamperSample_pulses s.dev s.fuse x)
  case guardMismatch a => exact ensures_next (guardMismatch_pulses s.dev s.fuse _)

theorem exec_pulses {c : Instr} (s : State) (hpower : restoresPower c = false) : Ensures (exec c s) s.pulses := by
  cases hburns : burnsFuses c with
  | true => exact exec_burns_pulses s hburns hpower
  | false => exact fun t ht => statePulses_of_fuse (exec_fuse c s hburns t ht)

/-! ### Power back up -/

theorem pfRise_onlyBurns (d : Dev) (f : Fuse) : f.onlyBurns (pfRise d f).2 := by
  unfold pfRise
  split
  · exact onlyBurns_refl f
  · exact counterDrain_onlyBurns _ _ f []

theorem counterBoot_onlyBurns (d : Dev) (f : Fuse) (bad : List Nat) : f.onlyBurns (counterBoot d f bad).2 :=
  onlyBurns_trans (tornOff_onlyBurns f) (counterDrain_onlyBurns _ _ _ bad)

theorem coldStart_onlyBurns (old : Dev) (f : Fuse) (b : BootIn) : f.onlyBurns (coldStart old f b).2 := by
  unfold coldStart
  extract_lets +onlyGivenNames wake nv guards bat cold pwr twn named pinned d
  clear_value d
  have hcounted := counterBoot_onlyBurns d f b.badBits
  generalize counterBoot d f b.badBits = counted at hcounted ⊢
  have hburnt : f.onlyBurns (lcBoot counted.1 counted.2).2 := onlyBurns_trans hcounted (burnAll_onlyBurns counted.2)
  dsimp only
  generalize lcBoot counted.1 counted.2 = booted at hburnt ⊢
  split
  · exact hburnt
  · exact hburnt

theorem exec_onlyBurns (c : Instr) (s : State) : Ensures (exec c s) fun t => s.fuse.onlyBurns t.fuse := by
  cases hpower : restoresPower c with
  | false => exact fun t ht => (exec_pulses s hpower t ht).1
  | true =>
    cases c
    all_goals try exact absurd hpower Bool.false_ne_true
    case pwrFailNRise => exact ensures_next (pfRise_onlyBurns s.dev s.fuse)
    case coldReset b => exact ensures_ite (ensures_next (onlyBurns_refl _)) (ensures_next (coldStart_onlyBurns s.dev s.fuse b))

/-- Settles O6: a step is the command at the front of the queue, and every command only burns bits. -/
theorem fusesOnlyBurn : Obligations.FusesOnlyBurn := by
  unfold Obligations.FusesOnlyBurn
  intro s t
  unfold step
  split
  · exact ensures_next (p := fun t => s.fuse.onlyBurns t.fuse) (onlyBurns_refl s.fuse) t
  · next c rest _ => exact exec_onlyBurns c { s with pending := rest } t

/-! ### The life-cycle state -/

theorem getLsbD_of_keeps {w : Nat} {f g : BitVec w} (h : keeps f g) {k : Nat} (hk : f.getLsbD k = true) : g.getLsbD k = true := by
  have hand : (f &&& g).getLsbD k = true := h.symm ▸ hk
  rw [BitVec.getLsbD_and, Bool.and_eq_true] at hand
  exact hand.2

theorem popCount_mono {w : Nat} {f g : BitVec w} (h : keeps f g) : popCount f ≤ popCount g := by
  simp only [popCount, ← List.countP_eq_length_filter]
  exact List.countP_mono_left fun _ _ => getLsbD_of_keeps h

theorem wordSet_of_keeps {f g : Word} (h : keeps f g) (hf : wordSet f = true) : wordSet g = true := by
  simp only [wordSet, decide_eq_true_eq] at *
  exact hf.trans (popCount_mono h)

theorem lcState_mono {f g : Fuse} (h : f.onlyBurns g) : (lcState f).toNat ≤ (lcState g).toNat := by
  obtain ⟨htest, hprod, heol, _⟩ := h
  replace htest := wordSet_of_keeps htest
  replace hprod := wordSet_of_keeps hprod
  replace heol := wordSet_of_keeps heol
  unfold lcState
  cases he : wordSet f.wEol with
  | true => simp [heol he]
  | false =>
    cases hp : wordSet f.wProd with
    | true =>
      simp only [hprod hp, Bool.false_eq_true, if_true, if_false]
      split_ifs <;> decide
    | false =>
      cases ht : wordSet f.wTest with
      | true =>
        simp only [htest ht, Bool.false_eq_true, if_true, if_false]
        split_ifs <;> decide
      | false => exact Nat.zero_le _

/-- Settles O7: a step only burns bits (`fusesOnlyBurn`), and the state decoded from the words rises with them. -/
theorem lifeCycleForward : Obligations.LifeCycleForward := by
  unfold Obligations.LifeCycleForward
  exact fun s t ht => lcState_mono (fusesOnlyBurn s t ht)

/-- Settles O8: only PWR_FAIL_N's rise and a cold reset may program a fuse while it is low. -/
theorem noPulseWhileLow : Obligations.NoPulseWhileLow := by
  unfold Obligations.NoPulseWhileLow
  intro c s t hlow hpower ht
  exact (exec_pulses s hpower t ht).2 hlow

end Sys2Proof.Machine
end

section
/-! PROOFS. The denial of a transition to PRODUCTION (12 R342). -/

namespace Sys2Proof.Machine

/-- What a table does not answer by its default stands in it. -/
theorem tabGet_mem_of_ne {α : Type} {t : Tab α} {k : Nat} {d : α} (h : tabGet t k d ≠ d) : (k, tabGet t k d) ∈ t := by
  induction t with
  | nil => exact absurd rfl h
  | cons p r ih =>
    obtain ⟨j, v⟩ := p
    unfold tabGet at h ⊢
    split
    · next hj => exact hj ▸ List.mem_cons_self
    · next hj => exact List.mem_cons_of_mem _ (ih (by rwa [if_neg hj] at h))

/-- A function in a state other than ABSENT stands in the table of functions. -/
theorem fns_any_of_present {d : Dev} {f k : Nat} (hne : f ≠ k) (hstate : (getFn d f).state ≠ 0) :
    (d.fns.any fun p => p.1 != k && p.2.state != 0) = true := by
  have hmem : (f, getFn d f) ∈ d.fns := tabGet_mem_of_ne fun h => hstate (congrArg FnSt.state h)
  exact List.any_eq_true.mpr ⟨_, hmem, by simpa [hne] using hstate⟩

theorem lifeDenied_production {fuse : Fuse} {j : Job} {d : Dev} {f : Nat} (hkind : j.kind = .lifecycleTransition) (hlc : lcState fuse = 1)
    (hpf : j.e.fn = 0 ∨ j.e.fn = 128) (htarget : opLe j.e 0 1 = 2) (hne : f ≠ j.e.fn.toNat) (hstate : (getFn d f).state ≠ 0) :
    lifeDenied d fuse j = some 0x02 := by
  have hsubmits : (j.e.fn == 0 || j.e.fn == 128) = true := by simpa using hpf
  have hother := fns_any_of_present hne hstate
  unfold lifeDenied
  dsimp only
  rw [hlc, hsubmits, hkind, htarget, hother, if_neg (by simp), if_neg (by simp), if_pos (by simp)]

/-- Settles O10: the life cycle denies the job by `lifeDenied_production`, and `fetchJob_denied` says what its entry becomes. -/
theorem productionDenied : Obligations.ProductionDenied := by
  unfold Obligations.ProductionDenied
  intro s e f hopen hm hpf hbme hfree hlc htarget hne hstate
  have hdenied : lifeDenied s.dev s.fuse (blankJob s.dev .lifecycleTransition e 0 0) = some 0x02 :=
    lifeDenied_production rfl hlc hpf htarget hne hstate
  obtain ⟨x, hjobs, hx⟩ := fetchJob_denied hopen hm hbme hfree hdenied
  obtain ⟨t, ht, hbeside, stage, hdev⟩ := exec_fetches (c := .lifecycleTransition e) rfl s
  refine ⟨t, ht, hbeside, x, ?_, hx⟩
  rw [hdev]
  exact hjobs

end Sys2Proof.Machine
end

section
/-! PROOFS. Fuse programming, DRS generation, the erase engine and the end of debug (12 R344, R346, R349, R351). -/

namespace Sys2Proof.Machine

/-! ### The words of a field of the fuse array -/

theorem fieldWord_eq_extract {n : Nat} (x : BitVec n) (k : Nat) : fieldWord x k = x.extractLsb' (32 * k) 32 := rfl

/-- A word of a field that is programmed takes the data over what stands there. -/
theorem fieldWord_program_same {n : Nat} (x : BitVec n) (v : Word) {k : Nat} (hk : 32 * k + 32 ≤ n) :
    fieldWord (x ||| (v.setWidth n <<< (32 * k))) k = fieldWord x k ||| v := by
  simp only [fieldWord_eq_extract]
  ext b hb
  simp [show 32 * k + b < n by omega, BitVec.getLsbD_eq_getElem hb]

/-- The other words of the field stay. -/
theorem fieldWord_program_other {n : Nat} (x : BitVec n) (v : Word) {k j : Nat} (h : j ≠ k) :
    fieldWord (x ||| (v.setWidth n <<< (32 * k))) j = fieldWord x j := by
  simp only [fieldWord_eq_extract]
  ext b hb
  have hbit : 32 * j + b < 32 * k ∨ 32 ≤ 32 * j + b - 32 * k := by omega
  obtain hbelow | habove := hbit
  · simp [hbelow]
  · simp [BitVec.getLsbD_of_ge v _ habove]

/-- The four fields that LCS_FUSECMD programs: the three token digests and the product words (12 R337, R344). -/
theorem fuseWrite_cases (f : Fuse) (v : Word) {k : Nat} (hk : 22 ≤ k) :
    (k < 34 ∧ fuseWrite f k v = { f with tProd := f.tProd ||| (v.setWidth 384 <<< (32 * (k - 22))) }) ∨
    (34 ≤ k ∧ k < 46 ∧ fuseWrite f k v = { f with tEol := f.tEol ||| (v.setWidth 384 <<< (32 * (k - 34))) }) ∨
    (46 ≤ k ∧ k < 58 ∧ fuseWrite f k v = { f with tDbg := f.tDbg ||| (v.setWidth 384 <<< (32 * (k - 46))) }) ∨
    (58 ≤ k ∧ fuseWrite f k v = { f with product := f.product ||| (v.setWidth 192 <<< (32 * (k - 58))) }) := by
  unfold fuseWrite
  dsimp only
  rw [if_neg (by omega)]
  split_ifs with h1 h2 h3
  · exact .inl ⟨h1, rfl⟩
  · exact .inr (.inl ⟨by omega, h2, rfl⟩)
  · exact .inr (.inr (.inl ⟨by omega, h3, rfl⟩))
  · exact .inr (.inr (.inr ⟨by omega, rfl⟩))

theorem fuseRead_fuseWrite_same (f : Fuse) (v : Word) {k : Nat} (hk : 22 ≤ k) (hmax : k < 64) :
    fuseRead (fuseWrite f k v) k = fuseRead f k ||| v := by
  obtain ⟨h, hw⟩ | ⟨h, h', hw⟩ | ⟨h, h', hw⟩ | ⟨h, hw⟩ := fuseWrite_cases f v hk
  all_goals
    rw [hw]
    simp (disch := omega) only [fuseRead, if_pos, if_neg, fieldWord_program_same]

/-- A word reads the same while the word of its own field does. -/
theorem fuseRead_congr (f : Fuse) {p e b : BitVec 384} {q : BitVec 192} {j : Nat}
    (hp : 22 ≤ j → fieldWord p (j - 22) = fieldWord f.tProd (j - 22)) (he : 34 ≤ j → fieldWord e (j - 34) = fieldWord f.tEol (j - 34))
    (hb : 46 ≤ j → fieldWord b (j - 46) = fieldWord f.tDbg (j - 46)) (hq : 58 ≤ j → fieldWord q (j - 58) = fieldWord f.product (j - 58)) :
    fuseRead { f with tProd := p, tEol := e, tDbg := b, product := q } j = fuseRead f j := by
  by_cases hlow : j < 22
  · simp (disch := omega) only [fuseRead, if_pos]
  · simp (disch := omega) only [fuseRead, if_neg]
    rw [hp (by omega)]
    split_ifs with h1 h2 h3
    · rfl
    · exact he (by omega)
    · exact hb (by omega)
    · exact hq (by omega)

theorem fuseRead_fuseWrite_other (f : Fuse) (v : Word) {k j : Nat} (hk : 22 ≤ k) (hj : j ≠ k) :
    fuseRead (fuseWrite f k v) j = fuseRead f j := by
  obtain ⟨h, hw⟩ | ⟨h, h', hw⟩ | ⟨h, h', hw⟩ | ⟨h, hw⟩ := fuseWrite_cases f v hk
  · rw [hw]
    exact fuseRead_congr f (fun _ => fieldWord_program_other _ v (by omega)) (fun _ => rfl) (fun _ => rfl) fun _ => rfl
  · rw [hw]
    exact fuseRead_congr f (fun _ => rfl) (fun _ => fieldWord_program_other _ v (by omega)) (fun _ => rfl) fun _ => rfl
  · rw [hw]
    exact fuseRead_congr f (fun _ => rfl) (fun _ => rfl) (fun _ => fieldWord_program_other _ v (by omega)) fun _ => rfl
  · rw [hw]
    exact fuseRead_congr f (fun _ => rfl) (fun _ => rfl) (fun _ => rfl) fun _ => fieldWord_program_other _ v (by omega)

theorem fuseWrite_frame (f : Fuse) (k : Nat) (v : Word) :
    (fuseWrite f k v).drs = f.drs ∧ (fuseWrite f k v).counter = f.counter ∧ (fuseWrite f k v).off = f.off := by
  unfold fuseWrite
  dsimp only
  split_ifs <;> exact ⟨rfl, rfl, rfl⟩

/-! ### Provisioning in TEST -/

section
variable {d : Dev} {i : Ini} {f : Fuse} (hkeeper : keeperOnly i = true) (htest : lcState f = 1)
include hkeeper htest

theorem fuseProgram_unprogrammed (hidx : 22 ≤ d.lcs.fuseIdx.toNat) (hclear : fuseRead f d.lcs.fuseIdx.toNat = 0)
    (hpower : d.pwr.pfLevel = true) : fuseProgram d f i = (d, fuseWrite f d.lcs.fuseIdx.toNat d.lcs.fuseData) := by
  simp [fuseProgram, hkeeper, htest, hclear, hpower, Nat.not_lt.mpr hidx]

theorem fuseProgram_programmed (hidx : 22 ≤ d.lcs.fuseIdx.toNat) (hset : fuseRead f d.lcs.fuseIdx.toNat ≠ 0) :
    fuseProgram d f i = (ignored d i (regAddr lcsPage 0x068), f) := by
  unfold fuseProgram
  dsimp only
  rw [hkeeper, htest, bne_iff_ne.mpr hset, decide_eq_false (Nat.not_lt.mpr hidx)]
  rfl

theorem genDrs_unprogrammed (hdrs : f.drs = 0) (hmark : f.mDrs = 0) : genDrs d f i = drsStep d f := by
  simp [genDrs, hkeeper, htest, hdrs, hmark]

theorem genDrs_programmed (h : f.drs ≠ 0 ∨ f.mDrs ≠ 0) : genDrs d f i = ({ d with lcs := { d.lcs with gdfail := true } }, f) := by
  have hset : (f.drs != 0 || f.mDrs != 0) = true := by simpa using h
  unfold genDrs
  rw [hkeeper, htest, hset]
  rfl
end

theorem drsStep_draws {d e : Dev} {f : Fuse} {bs : List Byte} (hpower : d.pwr.pfLevel = true) (hdraw : keeperDraw d 64 = some (bs, e))
    (hdrs : f.drs = 0) :
    drsStep d f = ({ e with lcs := { e.lcs with gdDue := false } }, { f with drs := BitVec.ofNat 512 (beNat bs), mDrs := 0xFFFFFFFF }) := by
  have hor : f.drs ||| BitVec.ofNat 512 (beNat bs) = BitVec.ofNat 512 (beNat bs) := by
    rw [hdrs]
    exact BitVec.zero_or
  unfold drsStep
  rw [if_pos hpower, hdraw]
  dsimp only
  rw [hor]

theorem drsStep_waits {d : Dev} (h : d.pwr.pfLevel = false ∨ keeperDraw d 64 = none) (f : Fuse) :
    drsStep d f = ({ d with lcs := { d.lcs with gdDue := true } }, f) := by
  have hnone : (if d.pwr.pfLevel then keeperDraw d 64 else none) = none := by
    obtain hlow | hdry := h
    · rw [hlow]
      rfl
    · rw [hdry, ite_self]
  unfold drsStep
  rw [hnone]

/-! ### The end of debug -/

theorem endDebug_active {d : Dev} (h : d.lcs.active = true) :
    (endDebug d).event lcsPage 3 = true ∧
    (endDebug d).silent = { d with lcs := { d.lcs with active := false, scope := 0, dbgKeeper := false } }.silent := by
  unfold endDebug
  rw [if_pos h]
  dsimp only
  exact ⟨evLog_latched _ _ _ _ _ _ _ (raise_event _ lcsPage 3 (by decide)), (evLog_silent _ _ _ _ _).trans (raise_silent _ _ _)⟩

/-! ### The erase engine -/

/-- The device with its stores erased and END_OF_LIFE committed. -/
def erased (d : Dev) : Dev :=
  { d with nv := { d.nv with cellar := [], old := [], tenants := [], journal := [], custodyA := none, custodyB := none, lostKeys := [] },
           lcs := { d.lcs with trans := none, erasing := false } }

/-- The job whose transition the erase engine completes. -/
def erasesFor (d : Dev) : Option JobId := match d.lcs.trans with | some t => t.job | none => none

theorem eraseDone_erasing {d : Dev} (herasing : d.lcs.erasing = true) (hpower : d.pwr.pfLevel = true) (f : Fuse) :
    eraseDone d f = (finishMaybe (erased d) (erasesFor d) (outcome stOk 0), { f with wEol := 0xFFFFFFFF, dEol := 0xFFFFFFFF }) := by
  unfold eraseDone
  rw [herasing, hpower]
  rfl

/-- The end of that job changes the jobs alone. -/
theorem finishMaybe_erased (d : Dev) (job : Option JobId) (o : OutcomeRec) :
    (finishMaybe (erased d) job o).nv = (erased d).nv ∧ (finishMaybe (erased d) job o).lcs = (erased d).lcs ∧
    finishMaybe (erased d) job o = { d with nv := (erased d).nv, lcs := (erased d).lcs, jobs := (finishMaybe (erased d) job o).jobs } := by
  cases job with
  | none => exact ⟨rfl, rfl, rfl⟩
  | some id => exact ⟨rfl, rfl, rfl⟩

/-! ### The commands -/

theorem exec_lcsFuseProgram {s : State} {i : Ini} {r : Dev × Fuse} (h : fuseProgram s.dev s.fuse i = r) :
    exec (.lcsFuseProgram i) s = .next { s with dev := r.1, fuse := r.2 } := by
  rw [exec, execLcsFuseProgram, actFuse, h]

theorem exec_lcsGendrs {s : State} {i : Ini} {r : Dev × Fuse} (h : genDrs s.dev s.fuse i = r) :
    exec (.lcsGendrs i) s = .next { s with dev := r.1, fuse := r.2 } := by
  rw [exec, execLcsGendrs, actFuse, h]

theorem exec_eraseEngineDone {s : State} {r : Dev × Fuse} (h : eraseDone s.dev s.fuse = r) :
    exec .eraseEngineDone s = .next { s with dev := r.1, fuse := r.2 } := by
  rw [exec, execEraseEngineDone, actFuse, h]

theorem exec_debugSessionEnd (s : State) :
    exec .debugSessionEnd s =
      .next (s.withDev (if s.dev.lcs.active && decide (s.dev.lcs.dbgEnd.toNat ≤ s.dev.tick.toNat) then endDebug s.dev else s.dev)) := rfl

/-- Settles O40: the fuse words by `fuseRead_fuseWrite_same` and `fuseRead_fuseWrite_other`, the other parts by the equations of each case. -/
theorem provisioning : Obligations.Provisioning := by
  unfold Obligations.Provisioning
  refine ⟨?programs, ?programmed, ?draws, ?waits, ?generated, ?ends, ?goesOn, ?erases⟩
  case programs =>
    intro s i hkeeper htest hidx hclear hpower
    obtain ⟨hdrs, hcounter, hoff⟩ := fuseWrite_frame s.fuse s.dev.lcs.fuseIdx.toNat s.dev.lcs.fuseData
    have hprograms := exec_lcsFuseProgram (fuseProgram_unprogrammed hkeeper htest hidx hclear hpower)
    refine ⟨_, hprograms, rfl, rfl, rfl, ?_, fun k hk => ?_, hdrs, hcounter, hoff⟩
    · dsimp only
      rw [fuseRead_fuseWrite_same _ _ hidx s.dev.lcs.fuseIdx.isLt, hclear]
      exact BitVec.zero_or
    · exact fuseRead_fuseWrite_other _ _ hidx hk
  case programmed =>
    intro s i hkeeper htest hidx hset
    exact ⟨_, exec_lcsFuseProgram (fuseProgram_programmed hkeeper htest hidx hset), ⟨rfl, rfl, rfl⟩, ignored_unlogged s.dev i _⟩
  case draws =>
    intro s i bs d hkeeper htest hdrs hmark hpower hdraw
    exact exec_lcsGendrs ((genDrs_unprogrammed hkeeper htest hdrs hmark).trans (drsStep_draws hpower hdraw hdrs))
  case waits =>
    intro s i hkeeper htest hdrs hmark h
    exact exec_lcsGendrs ((genDrs_unprogrammed hkeeper htest hdrs hmark).trans (drsStep_waits h s.fuse))
  case generated =>
    intro s i hkeeper htest h
    exact exec_lcsGendrs (genDrs_programmed hkeeper htest h)
  case ends =>
    intro s hactive hend
    refine ⟨_, exec_debugSessionEnd s, ⟨rfl, rfl, rfl⟩, ?_⟩
    rw [withDev_dev, hactive, decide_eq_true hend]
    exact endDebug_active hactive
  case goesOn =>
    intro s hlater
    rw [exec_debugSessionEnd, decide_eq_false (Nat.not_le.mpr hlater), Bool.and_false]
    rfl
  case erases =>
    intro s herasing hpower
    have hdone := eraseDone_erasing herasing hpower s.fuse
    obtain ⟨hnv, hlcs, hdev⟩ := finishMaybe_erased s.dev (erasesFor s.dev) (outcome stOk 0)
    refine ⟨_, exec_eraseEngineDone hdone, rfl, rfl, rfl, hnv, hlcs, ?_, fun tr id j htr hid hj hend => ?_⟩
    · dsimp only
      rw [hnv, hlcs]
      exact hdev
    · have hfor : erasesFor s.dev = some id := by
        unfold erasesFor
        rw [htr]
        exact hid
      dsimp only
      rw [hfor]
      exact ⟨_, findJob_finishJob (d := erased s.dev) hj hend _, rfl, rfl⟩

end Sys2Proof.Machine
end

section
/-! PROOFS. Life-cycle transitions by token (12 R340, R341, R343, R351). -/

namespace Sys2Proof.Machine

/-! ### The state that the words decode to -/

/-- A word whose first pulse has burnt counts as set. -/
theorem wordSet_firstPulse (w : Word) : wordSet (w ||| 255#32) = true := by
  have hkept : keeps 255#32 (w ||| 255#32) := by
    rw [BitVec.or_comm]
    exact keeps_or _ _
  exact wordSet_of_keeps hkept (by decide)

theorem later_words_clear {f : Fuse} (h : lcState f = 0 ∨ lcState f = 1) : wordSet f.wEol = false ∧ wordSet f.wProd = false := by
  unfold lcState at h
  split_ifs at h with heol hprod
  · exact absurd h (by decide)
  · exact absurd h (by decide)
  all_goals exact ⟨by simpa using heol, by simpa using hprod⟩

/-- The transitions that exist, save the one to END_OF_LIFE. -/
theorem lcAllowed_target {lc : BitVec 2} {t : Nat} (h : lcAllowed lc t = true) (ht : t ≠ 3) : (lc = 0 ∧ t = 1) ∨ (lc = 1 ∧ t = 2) := by
  simpa [lcAllowed, ht] using h

/-- The first pulse brings the device into the target state. -/
theorem lcState_burnFirst {f : Fuse} {t : Nat} (h : lcAllowed (lcState f) t = true) (ht : t ≠ 3) :
    lcState (burnFirst f t) = BitVec.ofNat 2 t := by
  obtain ⟨hlc, rfl⟩ | ⟨hlc, rfl⟩ := lcAllowed_target h ht
  · obtain ⟨heol, hprod⟩ := later_words_clear (.inl hlc)
    simp [lcState, burnFirst, heol, hprod, wordSet_firstPulse]
  · obtain ⟨heol, -⟩ := later_words_clear (.inr hlc)
    simp [lcState, burnFirst, heol, wordSet_firstPulse]

/-! ### The keeper world's part of a transition -/

/-- The commit of a transition that does not end the device's life. -/
theorem lcCommit_dev {d : Dev} {t : Nat} (ht : t ≠ 3) (f : Fuse) (job : Option JobId) :
    (lcCommit d f t job).1.jobs = d.jobs ∧ (lcCommit d f t job).1.event lcsPage 0 = true ∧
    (lcCommit d f t job).1.lcs.trans = some { target := BitVec.ofNat 2 t, job := job, pulses := 1, actions := false } := by
  unfold lcCommit
  extract_lets old g lcs held rng quiet up logged
  have hquiet : quiet.jobs = d.jobs ∧ quiet.lcs = held.lcs := by
    dsimp only [quiet]
    split
    · exact ⟨rfl, rfl⟩
    · exact ⟨rfl, rfl⟩
  rw [if_neg ht]
  refine ⟨?_, ?_, ?_⟩
  · simp [logged, up, hquiet]
  · exact evLog_latched up _ _ _ _ _ _ (raise_event quiet lcsPage 0 (by decide))
  · simp [logged, up, hquiet, held]

theorem authFailed_token (d : Dev) :
    (authFailed d false).jobs = d.jobs ∧ (authFailed d false).lcs.tokenFails = satInc d.lcs.tokenFails ∧
    (authFailed d false).event lcsPage 1 = true := by
  unfold authFailed
  extract_lets lcs counted n
  refine ⟨by simp [counted], by simp [counted], ?_⟩
  exact evLog_latched _ _ _ _ _ _ _ (raise_event counted lcsPage 1 (by decide))

/-- A device that is not locked carries a transition whose turn has come. -/
theorem keeperDone_transition {d : Dev} {id : JobId} {j : Job} (hj : findJob d id = some j) (hstage : j.stage = .keeper)
    (hpart : jobPart j = .keeper) (hpresent : keeperPresent d = true) (hreads : readsDone j = true)
    (hkind : j.kind = .lifecycleTransition) (hlock : d.bat.locked = false) (f : Fuse) :
    keeperDone d f id = runTransition d f j := by
  have hbusy : hierBusy d j = false := by simp [hierBusy, isHierarchy, hkind]
  have hwrite : needsWrite j.kind = false := by simp [needsWrite, isHierarchy, hkind]
  have hrun : keeperRun d f j = runTransition d f j := by
    unfold keeperRun
    rw [hkind]
  unfold keeperDone
  rw [hj]
  dsimp only
  rw [hrun, hbusy, hwrite, hlock, hstage, hpart, hpresent, hreads]
  rfl

section
variable {d : Dev} {j : Job} (hfree : d.lcs.trans = none) (f : Fuse)
include hfree

theorem runTransition_none (h : lcAllowed (lcState f) (opLe j.e 0 1) = false) :
    runTransition d f j = (finishJob d j.id (outcome stInput 0x0C), f) := by
  unfold runTransition
  dsimp only
  rw [hfree, h]
  rfl

variable (hallowed : lcAllowed (lcState f) (opLe j.e 0 1) = true) (hdigest : allZero (tokenDigest f (opLe j.e 0 1)) = false)
  (hfails : d.lcs.tokenFails.toNat < 16)
include hallowed hdigest hfails

theorem runTransition_wrongToken
    (htoken : sha384 ([0x47, 0x4A, 0x2D, 0x4C, 0x43, 0x54, 0x00, BitVec.ofNat 8 (opLe j.e 0 1)] ++ opAt j.e 32 32) ≠
      tokenDigest f (opLe j.e 0 1)) :
    runTransition d f j = (finishJob (authFailed d false) j.id (outcome stAuth 0x04), f) := by
  unfold runTransition
  dsimp only
  rw [hfree, hallowed, hdigest, bne_iff_ne.mpr htoken]
  dsimp only
  rw [if_neg (by decide), if_neg (by omega), if_neg (by decide), if_pos rfl]

theorem runTransition_rightToken (hpower : d.pwr.pfLevel = true)
    (htoken : sha384 ([0x47, 0x4A, 0x2D, 0x4C, 0x43, 0x54, 0x00, BitVec.ofNat 8 (opLe j.e 0 1)] ++ opAt j.e 32 32) =
      tokenDigest f (opLe j.e 0 1)) :
    runTransition d f j = lcCommit d f (opLe j.e 0 1) (some j.id) := by
  unfold runTransition
  dsimp only
  rw [hfree, hallowed, hdigest, htoken, hpower, bne_self_eq_false]
  dsimp only
  rw [if_neg (by decide), if_neg (by omega), if_neg (by decide), if_neg (by decide), if_neg (by decide)]
end

theorem exec_kprKeeperDone_is {s : State} {job : JobId} {r : Dev × Fuse} (h : keeperDone s.dev s.fuse job = r) :
    exec (.kprKeeperDone job) s = .next { s with dev := r.1, fuse := r.2 } := by
  rw [exec, execKprKeeperDone, actFuse, h]

/-- Settles O41: the keeper world runs the job by `keeperDone_transition`; a refused one ends by `findJob_finishJob`, and the first pulse
of a commit decodes by `lcState_burnFirst`. -/
theorem lifeCycleCommit : Obligations.LifeCycleCommit := by
  unfold Obligations.LifeCycleCommit
  refine ⟨?noTransition, ?wrongToken, ?rightToken⟩
  case noTransition =>
    intro s job j hj hstage hpart hpresent hreads hkind hlock hfree hallowed
    obtain rfl := id_of_findJob hj
    have hrun := (keeperDone_transition hj hstage hpart hpresent hreads hkind hlock s.fuse).trans (runTransition_none hfree s.fuse hallowed)
    exact ⟨_, exec_kprKeeperDone_is hrun, ⟨rfl, rfl, rfl⟩, _, findJob_finishJob hj (jobEnded_keeper hstage) _, rfl, rfl⟩
  case wrongToken =>
    intro s job j hj hstage hpart hpresent hreads hkind hlock hfree hallowed hdigest hfails htoken
    obtain rfl := id_of_findJob hj
    have hrun := (keeperDone_transition hj hstage hpart hpresent hreads hkind hlock s.fuse).trans
      (runTransition_wrongToken hfree s.fuse hallowed hdigest hfails htoken)
    obtain ⟨hjobs, hcount, hevent⟩ := authFailed_token s.dev
    have hj' : findJob (authFailed s.dev false) j.id = some j := (findJob_congr hjobs _).trans hj
    exact ⟨_, exec_kprKeeperDone_is hrun, ⟨rfl, rfl, rfl⟩, hcount, hevent, _, findJob_finishJob hj' (jobEnded_keeper hstage) _, rfl, rfl⟩
  case rightToken =>
    intro s job j hj hstage hpart hpresent hreads hkind hlock hfree hallowed hend hdigest hfails hpower htoken
    obtain rfl := id_of_findJob hj
    have hrun := (keeperDone_transition hj hstage hpart hpresent hreads hkind hlock s.fuse).trans
      (runTransition_rightToken hfree s.fuse hallowed hdigest hfails hpower htoken)
    obtain ⟨hjobs, hevent, htrans⟩ := lcCommit_dev (d := s.dev) hend s.fuse (some j.id)
    exact ⟨_, exec_kprKeeperDone_is hrun, rfl, rfl, lcState_burnFirst hallowed hend, burnFirst_onlyBurns s.fuse _, hevent, hjobs, htrans⟩

end Sys2Proof.Machine
end

section
/-! PROOFS. Guarded registers and their shadows (00 R11, 13 R369, 18 R470). -/

namespace Sys2Proof.Machine

/-! ### Where guarded registers stand -/

/-- A guarded register stands behind the header, below the shadows, and on no QUE page. -/
theorem isGuarded_place {a : Nat} (h : isGuarded a = true) :
    0x040 ≤ a % 0x1000 ∧ a % 0x1000 < 0x800 ∧ isQue (a / 0x1000) = false := by
  unfold isGuarded guardDefault at h
  unfold isQue
  dsimp only at h
  have hnone : ¬ (none : Option Word).isSome = true := by simp
  split at h
  case h_8 => exact absurd h hnone
  all_goals
    next hk =>
    rw [hk]
    split_ifs at h
    all_goals simp_all
    all_goals omega

/-! ### What the commit of a pair leaves -/

/-- A step to a point changes the power state and what is put on the ports. -/
theorem oppStart_only (d : Dev) (p : BitVec 2) (fio : Bool) :
    oppStart d p fio = { d with pwr := (oppStart d p fio).pwr, egress := (oppStart d p fio).egress } := by
  unfold oppStart
  dsimp only
  split_ifs <;> rfl

theorem oppKick_only (d : Dev) : oppKick d = { d with pwr := (oppKick d).pwr, egress := (oppKick d).egress } := by
  unfold oppKick
  split_ifs
  · rfl
  · exact oppStart_only _ _ _
  · rfl
  · rfl
  · exact oppStart_only _ _ _

theorem voltChanged_only (d : Dev) (p : Nat) :
    voltChanged d p = { d with pwr := (voltChanged d p).pwr, egress := (voltChanged d p).egress } := by
  unfold voltChanged
  split_ifs
  · rfl
  · rfl
  · rfl

theorem spareCauses_guards (d : Dev) (w : Wing) : (spareCauses d w).guards = d.guards := by
  unfold spareCauses
  dsimp only
  split_ifs <;> simp only [setCause_guards]

/-- What a commit does beside the register's value changes no pair. -/
theorem guardEffect_guards (d : Dev) (a : Nat) : (guardEffect d a).guards = d.guards := by
  unfold guardEffect
  dsimp only
  split
  · rw [requestService_only]
  · split_ifs
    · rw [oppStart_only]
    · rfl
    · rw [oppKick_only]
    · rw [voltChanged_only]
    · rfl
  · split_ifs
    · rw [svcPin_only]
    · exact foldl_same Dev.guards _ spareCauses_guards _ _
  · rfl

theorem getGuard_setGuard_other (d : Dev) {a b : Nat} (g : Guard) (h : b ≠ a) : getGuard (setGuard d a g) b = getGuard d b :=
  tabGet_put_other _ _ _ h

theorem touchPage_guards (d : Dev) (p : Nat) : (touchPage d p).guards = d.guards := by rw [touchPage_only]

theorem getGuard_touchPage (d : Dev) (p a : Nat) : getGuard (touchPage d p) a = getGuard d a :=
  getGuard_congr (touchPage_guards d p) a

/-! ### The two registers of a pair -/

theorem pageShut_of_reaches {d : Dev} {i : Ini} {p : Nat} (h : writeReaches d i p = true) : pageShut i p = false ∧ headless p = false := by
  obtain ⟨hhead, -, -, hshut, -⟩ := writeReaches_iff.mp h
  exact ⟨hshut, hhead⟩

theorem exec_guardedRegisterWrite {s : State} {i : Ini} {addr : BitVec 40} (hg : isGuarded addr.toNat = true)
    (hr : writeReaches s.dev i (addr.toNat / 0x1000) = true) (v : Word) :
    exec (.guardedRegisterWrite i addr v) s =
      .next (s.withDev (guardPend (touchPage s.dev (addr.toNat / 0x1000)) s.fuse i addr.toNat v)) := by
  obtain ⟨hlo, hhi, hque⟩ := isGuarded_place hg
  obtain ⟨hshut, hhead⟩ := pageShut_of_reaches hr
  have hreg : regAddr (addr.toNat / 0x1000) (addr.toNat % 0x1000) = addr.toNat := Nat.div_add_mod' _ _
  rw [exec, execGuardedRegisterWrite, if_pos hg, writeAt_reaches rfl hr, regWrite, if_neg (by simp [hshut]), if_neg (by simp [hhead]),
    if_neg (by omega), if_neg (by simp [hque]), if_neg (by omega), hreg, if_pos hg]
  rfl

theorem exec_guardedShadowWrite {s : State} {i : Ini} {addr : BitVec 40} (hg : isGuarded (addr.toNat - 0x800) = true)
    (hoff : 0x800 ≤ addr.toNat % 0x1000) (hr : writeReaches s.dev i (addr.toNat / 0x1000) = true) (v : Word) :
    exec (.guardedShadowWrite i addr v) s =
      .next (s.withDev (guardShadow (touchPage s.dev (addr.toNat / 0x1000)) s.fuse i (addr.toNat - 0x800) v)) := by
  obtain ⟨-, -, hque⟩ := isGuarded_place hg
  obtain ⟨hshut, hhead⟩ := pageShut_of_reaches hr
  have hpage : (addr.toNat - 0x800) / 0x1000 = addr.toNat / 0x1000 := by omega
  have hreg : regAddr (addr.toNat / 0x1000) (addr.toNat % 0x1000 - 0x800) = addr.toNat - 0x800 := by
    unfold regAddr
    omega
  rw [hpage] at hque
  rw [exec, execGuardedShadowWrite, if_pos (by simp [hg, hoff]), writeAt_reaches rfl hr, regWrite, if_neg (by simp [hshut]),
    if_neg (by simp [hhead]), if_neg (by omega), if_neg (by simp [hque]), if_pos hoff, hreg, if_pos hg]
  rfl

/-- The shadow's write of an initiator with the right, on an unlocked page, commits a value that the block takes. -/
theorem guardShadow_commits {d : Dev} {f : Fuse} {i : Ini} {a : Nat} (hlock : (getPage d (a / 0x1000)).lock = false)
    (hright : guardRight f i a = true) (htaken : guardRefused d f a ((getGuard d a).pend.getD (getGuard d a).val) = false) (v : Word) :
    guardShadow d f i a v = guardEffect (guardCommit d a v) a := by
  unfold guardShadow
  rw [unlessLocked_unlocked hlock]
  dsimp only
  rw [hright, htaken]
  rfl

theorem guardRefused_touchPage (d : Dev) (f : Fuse) (p a : Nat) (v : Word) : guardRefused (touchPage d p) f a v = guardRefused d f a v := by
  unfold guardRefused touchPage
  split <;> rfl

theorem getGuard_committed (d : Dev) (a : Nat) (v : Word) :
    getGuard (guardEffect (guardCommit d a v) a) a = { val := (getGuard d a).pend.getD (getGuard d a).val, shadow := v, pend := none } := by
  rw [getGuard_congr (guardEffect_guards _ _)]
  exact getGuard_setGuard _ _ _

theorem getGuard_committed_other (d : Dev) {a b : Nat} (h : b ≠ a) (v : Word) :
    getGuard (guardEffect (guardCommit d a v) a) b = getGuard d b := by
  rw [getGuard_congr (guardEffect_guards _ _)]
  exact getGuard_setGuard_other _ _ h

/-- Settles O16: the register's write by `exec_guardedRegisterWrite`, the shadow's by `guardShadow_commits`. -/
theorem guardedPair : Obligations.GuardedPair := by
  unfold Obligations.GuardedPair
  refine ⟨?pends, ?commits, ?locked⟩
  case pends =>
    intro s ini addr v hg hr hlock hright
    rw [exec_guardedRegisterWrite hg hr, guardPend, unlessLocked_unlocked (by rwa [getPage_touchPage]), if_pos hright, guardWrite,
      getGuard_touchPage]
  case commits =>
    intro s ini addr v hg hoff hr hlock hright htaken
    have hpage : (addr.toNat - 0x800) / 0x1000 = addr.toNat / 0x1000 := by omega
    refine ⟨_, exec_guardedShadowWrite hg hoff hr v, ⟨rfl, rfl, rfl⟩, ?_⟩
    rw [← hpage, ← getPage_touchPage s.dev (addr.toNat / 0x1000)] at hlock
    rw [guardVal, ← guardRefused_touchPage s.dev s.fuse (addr.toNat / 0x1000), ← getGuard_touchPage s.dev (addr.toNat / 0x1000)] at htaken
    rw [withDev_dev, guardShadow_commits hlock hright htaken]
    refine ⟨?_, fun b hb => ?_⟩
    · rw [getGuard_committed, getGuard_touchPage, guardVal]
    · rw [getGuard_committed_other _ hb, getGuard_touchPage]
  case locked =>
    intro s ini addr v hg hr hlock
    refine ⟨_, exec_guardedRegisterWrite hg hr v, ⟨rfl, rfl, rfl⟩, ?_⟩
    rw [withDev_dev, guardPend, unlessLocked, getPage_touchPage, if_pos hlock, lockHit_silent]

end Sys2Proof.Machine
end

section
/-! PROOFS. Single bits of a vector, the tamper counter and the fuses of the sources (13 R364-R368). -/

namespace Sys2Proof.Machine

/-! ### One bit of a vector -/

theorem getLsbD_oneBit {w : Nat} (k j : Nat) : (BitVec.ofNat w (1 <<< k)).getLsbD j = (decide (j < w) && decide (j = k)) := by
  rw [BitVec.getLsbD_ofNat, Nat.one_shiftLeft, Nat.testBit_two_pow]
  simp only [eq_comm]

theorem getLsbD_setBit {w : Nat} (x : BitVec w) {k : Nat} (hk : k < w) (j : Nat) :
    (x ||| BitVec.ofNat w (1 <<< k)).getLsbD j = (x.getLsbD j || decide (j = k)) := by
  rw [BitVec.getLsbD_or, getLsbD_oneBit]
  by_cases h : j = k
  · simp [h, hk]
  · simp [h]

theorem getLsbD_clearBit {w : Nat} (x : BitVec w) (k : Nat) {j : Nat} (hj : j < w) :
    (x &&& ~~~ BitVec.ofNat w (1 <<< k)).getLsbD j = (x.getLsbD j && j != k) := by
  rw [BitVec.getLsbD_and, BitVec.getLsbD_not, getLsbD_oneBit]
  by_cases h : j = k <;> simp [h, hj]

theorem countP_range_insert {p : Nat → Bool} {k n : Nat} (hk : k < n) (hp : p k = false) :
    (List.range n).countP (fun j => p j || decide (j = k)) = (List.range n).countP p + 1 := by
  induction n with
  | zero => exact absurd hk (Nat.not_lt_zero k)
  | succ n ih =>
    simp only [List.range_succ, List.countP_append, List.countP_singleton]
    obtain hlt | rfl := Nat.lt_succ_iff_lt_or_eq.mp hk
    · rw [ih hlt]
      simp only [Nat.ne_of_gt hlt, decide_false, Bool.or_false]
      omega
    · have hsame : (List.range k).countP (fun j => p j || decide (j = k)) = (List.range k).countP p :=
        List.countP_congr fun j hj => by simp [Nat.ne_of_lt (List.mem_range.mp hj)]
      simp [hsame, hp]

/-- A bit that joins those that are set counts once. -/
theorem popCount_setBit {w : Nat} (x : BitVec w) {k : Nat} (hk : k < w) (hclear : x.getLsbD k = false) :
    popCount (x ||| BitVec.ofNat w (1 <<< k)) = popCount x + 1 := by
  simp only [popCount, ← List.countP_eq_length_filter, getLsbD_setBit x hk]
  exact countP_range_insert hk hclear

/-! ### The highest bit of the counter -/

theorem find?_reverse_range_some {p : Nat → Bool} {n h : Nat} (hf : (List.range n).reverse.find? p = some h) :
    p h = true ∧ h < n ∧ ∀ k, k < n → p k = true → k ≤ h := by
  induction n with
  | zero => exact absurd hf (by simp)
  | succ n ih =>
    rw [List.range_succ, List.reverse_append, List.reverse_singleton, List.singleton_append, List.find?_cons] at hf
    cases hn : p n with
    | true =>
      rw [hn] at hf
      obtain rfl : n = h := by simpa using hf
      exact ⟨hn, Nat.lt_succ_self n, fun k hk _ => Nat.le_of_lt_succ hk⟩
    | false =>
      rw [hn] at hf
      obtain ⟨hp, hlt, hmax⟩ := ih hf
      refine ⟨hp, Nat.lt_succ_of_lt hlt, fun k hk hpk => ?_⟩
      obtain hlt' | rfl := Nat.lt_succ_iff_lt_or_eq.mp hk
      · exact hmax k hlt' hpk
      · exact absurd (hn.symm.trans hpk) (by decide)

/-- The index that the counter goes on from stands right above its highest set bit. -/
theorem counterTop_above (f : Fuse) : (∀ k, f.counter.getLsbD k = true → k < counterTop f) ∧
    (counterTop f = 0 ∨ ∃ h, f.counter.getLsbD h = true ∧ counterTop f = h + 1) := by
  unfold counterTop
  split
  · next h hf =>
    obtain ⟨hbit, -, hmax⟩ := find?_reverse_range_some hf
    exact ⟨fun k hk => Nat.lt_succ_of_le (hmax k (BitVec.lt_of_getLsbD hk) hk), .inr ⟨h, hbit, rfl⟩⟩
  · next hf =>
    refine ⟨fun k hk => ?_, .inl rfl⟩
    exact absurd hk (List.find?_eq_none.mp hf k (List.mem_reverse.mpr (List.mem_range.mpr (BitVec.lt_of_getLsbD hk))))

theorem lt_counterTop {f : Fuse} {k : Nat} (hk : f.counter.getLsbD k = true) : k < counterTop f := (counterTop_above f).1 k hk

theorem counterTop_le {f : Fuse} {m : Nat} (hm : ∀ k, f.counter.getLsbD k = true → k < m) : counterTop f ≤ m := by
  obtain hzero | ⟨h, hbit, htop⟩ := (counterTop_above f).2
  · exact hzero ▸ Nat.zero_le m
  · exact htop ▸ hm h hbit

theorem clear_from_counterTop {f : Fuse} {k : Nat} (hk : counterTop f ≤ k) : f.counter.getLsbD k = false := by
  cases hbit : f.counter.getLsbD k with
  | false => rfl
  | true => exact absurd (lt_counterTop hbit) (Nat.not_lt.mpr hk)

/-- The counter with one bit burnt. -/
def countedAt (f : Fuse) (k : Nat) : Fuse := { f with counter := f.counter ||| BitVec.ofNat 8192 (1 <<< k) }

theorem counterTop_countedAt {f : Fuse} {k : Nat} (htop : counterTop f ≤ k) (hk : k < 8192) : counterTop (countedAt f k) = k + 1 := by
  refine Nat.le_antisymm (counterTop_le fun j hj => ?_) (lt_counterTop ?_)
  · rw [countedAt, getLsbD_setBit _ hk, Bool.or_eq_true, decide_eq_true_eq] at hj
    obtain hold | rfl := hj
    · have := lt_counterTop hold
      omega
    · exact Nat.lt_succ_self j
  · rw [countedAt, getLsbD_setBit _ hk]
    simp

/-! ### The bit that a step burns -/

theorem counterBurn_find (f : Fuse) (bad : List Nat) : counterBurn f bad =
    (((List.range (8192 - counterTop f)).map fun i => counterTop f + i).find? fun k => !bad.contains k).map (countedAt f) := by
  unfold counterBurn
  split
  · next h => rw [h]; rfl
  · next h => rw [h]; rfl

theorem counterBurn_first {f : Fuse} {bad : List Nat} {k : Nat} (htop : counterTop f ≤ k) (hk : k < 8192) (hgood : k ∉ bad)
    (hbad : ∀ j, counterTop f ≤ j → j < k → j ∈ bad) : counterBurn f bad = some (countedAt f k) := by
  rw [counterBurn_find, List.find?_map, (List.find?_range_eq_some (i := k - counterTop f)).mpr]
  · rw [Option.map_some, Nat.add_sub_cancel' htop, Option.map_some]
  · refine ⟨?_, List.mem_range.mpr (by omega), fun j hj => ?_⟩
    · simp [Nat.add_sub_cancel' htop, hgood]
    · simp [hbad (counterTop f + j) (by omega) (by omega)]

theorem counterBurn_none {f : Fuse} {bad : List Nat} (hbad : ∀ k, counterTop f ≤ k → k < 8192 → k ∈ bad) : counterBurn f bad = none := by
  rw [counterBurn_find, List.find?_map, List.find?_range_eq_none.mpr]
  · rfl
  · intro j hj
    simp [hbad (counterTop f + j) (by omega) (by omega)]

theorem counterBurn_next {f : Fuse} (htop : counterTop f < 8192) : counterBurn f [] = some (countedAt f (counterTop f)) :=
  counterBurn_first (Nat.le_refl _) htop (by simp) fun j hj hlt => by omega

theorem counterStep_fuse {f g : Fuse} {bad : List Nat} (h : counterBurn f bad = some g) (d : Dev) : (counterStep d f bad).2 = g := by
  unfold counterStep
  rw [h]

theorem uncaused_bat {a b : Dev} (h : a.uncaused = b.uncaused) : a.bat = b.bat := by
  have := congrArg Dev.bat h; exact this
theorem setCause_bat (d : Dev) (c : Nat) : (setCause d c).bat = d.bat := uncaused_bat (setCause_uncaused d c)

theorem counterFull_bat (d : Dev) : (counterFull d).bat = { d.bat with full := true, locked := true } := setCause_bat _ _

theorem counterStep_full {f : Fuse} {bad : List Nat} (h : counterBurn f bad = none) (d : Dev) : counterStep d f bad = (counterFull d, f) := by
  unfold counterStep
  rw [h]

theorem counterStep_low {f g : Fuse} {bad : List Nat} (h : counterBurn f bad = some g) (hlow : 8192 - counterTop g < 256) (d : Dev) :
    (counterStep d f bad).1.event tmpPage 4 = true := by
  unfold counterStep
  rw [h]
  dsimp only
  rw [if_pos hlow]
  exact setCause_latched _ _ _ _ (raise_event _ tmpPage 4 (by decide))

/-- Settles O45: the bit a step burns by `counterBurn_first`, what it counts by `popCount_setBit`. -/
theorem tamperCounter : Obligations.TamperCounter := by
  unfold Obligations.TamperCounter
  refine ⟨fun f k => lt_counterTop, ?next, ?skips, ?full, ?low⟩
  case next =>
    intro d f htop
    rw [counterStep_fuse (counterBurn_next htop)]
    exact ⟨rfl, popCount_setBit _ htop (clear_from_counterTop (Nat.le_refl _)), counterTop_countedAt (Nat.le_refl _) htop⟩
  case skips =>
    intro d f bad k htop hk hgood hbad
    exact counterStep_fuse (counterBurn_first htop hk hgood hbad) d
  case full =>
    intro d f bad hbad
    rw [counterStep_full (counterBurn_none hbad), counterFull_bat]
    exact ⟨rfl, rfl, rfl⟩
  case low =>
    intro d f hlow htop
    refine counterStep_low (counterBurn_next htop) ?_ d
    rw [counterTop_countedAt (Nat.le_refl _) htop]
    omega

/-! ### The fuses of the sources (13 R368) -/

theorem exec_tmpFuseoff {s : State} {i : Ini} {v : Word} {r : Dev × Fuse} (h : fuseOff s.dev s.fuse i v = r) :
    exec (.tmpFuseoff i v) s = .next { s with dev := r.1, fuse := r.2 } := by
  rw [exec, execTmpFuseoff, actFuse, h]

/-- The device with the alarm and the condition of one source cleared. -/
def sourceCleared (d : Dev) (n : Nat) : Dev :=
  { d with bat := { d.bat with alarm := d.bat.alarm &&& ~~~ BitVec.ofNat 23 (1 <<< n) },
           tmp := { d.tmp with cond := d.tmp.cond &&& ~~~ BitVec.ofNat 23 (1 <<< n) } }

theorem fuseOff_burns {d : Dev} {f : Fuse} {i : Ini} {v : Word} (hcore : isKeeperCore i.id = true) (hpower : d.pwr.pfLevel = true)
    (hkey : bits v 16 16 = 0x7A3C) (hn : bits v 0 5 ≤ 11) (hlc : lcState f = 1 ∨ lcState f = 2) :
    fuseOff d f i v = (sourceCleared d (bits v 0 5), { f with off := f.off.set (bits v 0 5) 0xFFFFFFFF }) := by
  have hno : (lcState f == 0 || lcState f == 3) = false := by
    obtain h | h := hlc <;> rw [h] <;> decide
  unfold fuseOff
  dsimp only
  rw [if_neg (by simpa [hcore, hpower, hkey, Nat.not_lt.mpr hn] using hno)]
  rfl

theorem fuseOff_ignored {d : Dev} {f : Fuse} {i : Ini} {v : Word} (h : isKeeperCore i.id = false ∨ d.pwr.pfLevel = false ∨
    bits v 16 16 ≠ 0x7A3C ∨ 11 < bits v 0 5 ∨ lcState f = 0 ∨ lcState f = 3) :
    fuseOff d f i v = (ignored d i (regAddr tmpPage 0x058), f) := by
  unfold fuseOff
  dsimp only
  rw [if_pos]
  simpa [or_assoc] using h

theorem fusedOff_set {f : Fuse} {m : Nat} (hm : m ≤ 11) (hlen : f.off.length = 12) (n : Nat) :
    fusedOff { f with off := f.off.set m 0xFFFFFFFF } n = if n = m then true else fusedOff f n := by
  unfold fusedOff
  simp only [List.getD_eq_getElem?_getD, List.getElem?_set]
  by_cases h : m = n
  · subst h
    have hset : wordSet 4294967295#32 = true := by decide
    simp [hlen, show m < 12 by omega, hset]
  · simp [h, Ne.symm h]

/-- Settles O44: the keeper's keyed write by `fuseOff_burns`, every other by `fuseOff_ignored`. -/
theorem sourceFuses : Obligations.SourceFuses := by
  unfold Obligations.SourceFuses
  refine ⟨?burns, ?others⟩
  case burns =>
    intro s ini v hcore hpower hkey hn hlc hlen
    refine ⟨_, exec_tmpFuseoff (fuseOff_burns hcore hpower hkey hn hlc), rfl, rfl, rfl, fusedOff_set hn hlen, rfl, fun n h => ?_⟩
    exact ⟨getLsbD_clearBit _ _ h, getLsbD_clearBit _ _ h⟩
  case others =>
    intro s ini v h
    exact ⟨_, exec_tmpFuseoff (fuseOff_ignored h), ⟨rfl, rfl, rfl⟩, ignored_unlogged _ _ _⟩

end Sys2Proof.Machine
end

section
/-! PROOFS. Tamper alarms, their responses, and the battery domain (13 R352-R365). -/

namespace Sys2Proof.Machine

/-! ### Sets of sources -/

/-- The set of a list of sources that pass. -/
theorem getLsbD_foldl_pick {p : Nat → Bool} {j : Nat} (hj : j < 23) (l : List Nat) (x : BitVec 23) :
    (l.foldl (fun (b : BitVec 23) n => if p n then b ||| BitVec.ofNat 23 (1 <<< n) else b) x).getLsbD j =
      (x.getLsbD j || (l.contains j && p j)) := by
  induction l generalizing x with
  | nil => simp
  | cons n r ih =>
    rw [List.foldl_cons, ih]
    cases hp : p n with
    | true =>
      rw [if_pos rfl, BitVec.getLsbD_or, getLsbD_oneBit]
      by_cases h : j = n
      · subst h; simp [hj, hp]
      · simp [h]
    | false =>
      rw [if_neg (by decide)]
      by_cases h : j = n
      · subst h; simp [hp]
      · simp [h]

theorem getLsbD_foldl_join {j : Nat} (hj : j < 23) (l : List Nat) (x : BitVec 23) :
    (l.foldl (fun (b : BitVec 23) n => b ||| BitVec.ofNat 23 (1 <<< n)) x).getLsbD j = (x.getLsbD j || l.contains j) := by
  have h := getLsbD_foldl_pick (p := fun _ => true) hj l x
  simpa using h

theorem mem_alarmList {m : BitVec 23} {n : Nat} : n ∈ alarmList m ↔ m.getLsbD n = true := by
  unfold alarmList
  rw [List.mem_filter, List.mem_range]
  exact ⟨fun h => h.2, fun h => ⟨BitVec.lt_of_getLsbD h, h⟩⟩

theorem contains_alarmList (m : BitVec 23) (n : Nat) : (alarmList m).contains n = m.getLsbD n := by
  rw [Bool.eq_iff_iff, List.contains_iff_mem, mem_alarmList]

/-- The sources of a set that run a response: switched on, and without an alarm so far. -/
def newAlarms (d : Dev) (f : Fuse) (m : BitVec 23) : List Nat :=
  (alarmList m).filter fun n => !fusedOff f n && !d.bat.alarm.getLsbD n

theorem mem_newAlarms {d : Dev} {f : Fuse} {m : BitVec 23} {n : Nat} :
    n ∈ newAlarms d f m ↔ m.getLsbD n = true ∧ fusedOff f n = false ∧ d.bat.alarm.getLsbD n = false := by
  unfold newAlarms
  rw [List.mem_filter, mem_alarmList]
  simp

theorem newAlarms_empty {d : Dev} {f : Fuse} {m : BitVec 23}
    (h : ∀ n, m.getLsbD n = true → fusedOff f n = true ∨ d.bat.alarm.getLsbD n = true) : newAlarms d f m = [] := by
  refine List.eq_nil_iff_forall_not_mem.mpr fun n hn => ?_
  obtain ⟨hm, hon, hnew⟩ := mem_newAlarms.mp hn
  obtain hoff | hold := h n hm
  · exact absurd (hon.symm.trans hoff) (by decide)
  · exact absurd (hnew.symm.trans hold) (by decide)

/-- The alarms that stand after those of a set have joined them. -/
def alarmsJoined (d : Dev) (f : Fuse) (m : BitVec 23) : BitVec 23 :=
  (newAlarms d f m).foldl (fun (b : BitVec 23) n => b ||| BitVec.ofNat 23 (1 <<< n)) d.bat.alarm

theorem alarmsJoined_old {d : Dev} {n : Nat} (h : d.bat.alarm.getLsbD n = true) (f : Fuse) (m : BitVec 23) :
    (alarmsJoined d f m).getLsbD n = true := by
  rw [alarmsJoined, getLsbD_foldl_join (BitVec.lt_of_getLsbD h), h, Bool.true_or]

theorem alarmsJoined_new {d : Dev} {f : Fuse} {m : BitVec 23} {n : Nat} (hm : m.getLsbD n = true) (hon : fusedOff f n = false) :
    (alarmsJoined d f m).getLsbD n = true := by
  cases hold : d.bat.alarm.getLsbD n with
  | true => exact alarmsJoined_old hold f m
  | false =>
    have hmem : n ∈ newAlarms d f m := mem_newAlarms.mpr ⟨hm, hon, hold⟩
    rw [alarmsJoined, getLsbD_foldl_join (BitVec.lt_of_getLsbD hm), hold, Bool.false_or]
    exact List.contains_iff_mem.mpr hmem

theorem alarmsJoined_other {d : Dev} {m : BitVec 23} {n : Nat} (hm : m.getLsbD n = false) (f : Fuse) :
    (alarmsJoined d f m).getLsbD n = d.bat.alarm.getLsbD n := by
  by_cases hlt : n < 23
  · have hmem : (newAlarms d f m).contains n = false := by
      rw [Bool.eq_false_iff, Ne, List.contains_iff_mem, mem_newAlarms]
      rintro ⟨hset, -⟩
      exact absurd (hm.symm.trans hset) (by decide)
    rw [alarmsJoined, getLsbD_foldl_join hlt, hmem, Bool.or_false]
  · rw [BitVec.getLsbD_of_ge _ _ (Nat.not_lt.mp hlt), BitVec.getLsbD_of_ge _ _ (Nat.not_lt.mp hlt)]

theorem getLsbD_foldl_or_mono {n k : Nat} {g : Nat → BitVec 4} (l : List Nat) (x : BitVec 4)
    (h : x.getLsbD k = true ∨ (n ∈ l ∧ (g n).getLsbD k = true)) : (l.foldl (fun m n => m ||| g n) x).getLsbD k = true := by
  induction l generalizing x with
  | nil =>
    obtain h | ⟨h, -⟩ := h
    · exact h
    · cases h
  | cons a r ih =>
    refine ih _ ?_
    rw [BitVec.getLsbD_or, Bool.or_eq_true]
    obtain h | ⟨hmem, h⟩ := h
    · exact .inl (.inl h)
    · obtain rfl | hr := List.mem_cons.mp hmem
      · exact .inl (.inr h)
      · exact .inr ⟨hr, h⟩

/-- The union of the responses holds the classes of each source. -/
theorem alarmUnion_class {d : Dev} {ns : List Nat} {n k : Nat} (hn : n ∈ ns) (h : (tamperResp d n).getLsbD k = true) :
    (alarmUnion d ns).getLsbD k = true := getLsbD_foldl_or_mono ns 0 (.inr ⟨hn, h⟩)

/-! ### What the sources find -/

/-- The sources of a set that are live: switched on, and CLK_REF only once it is armed (log entry 62). -/
def liveSources (d : Dev) (f : Fuse) (sources : BitVec 23) : BitVec 23 :=
  (alarmList sources).foldl (fun (b : BitVec 23) n =>
    if fusedOff f n || (n == 17 && !d.tmp.refArmed) then b else b ||| BitVec.ofNat 23 (1 <<< n)) 0

theorem getLsbD_liveSources {d : Dev} {f : Fuse} {sources : BitVec 23} {n : Nat} :
    (liveSources d f sources).getLsbD n = true ↔
      sources.getLsbD n = true ∧ fusedOff f n = false ∧ (n = 17 → d.tmp.refArmed = true) := by
  have hpick : liveSources d f sources = (alarmList sources).foldl (fun (b : BitVec 23) n =>
      if !(fusedOff f n || (n == 17 && !d.tmp.refArmed)) then b ||| BitVec.ofNat 23 (1 <<< n) else b) 0 := by
    unfold liveSources
    congr 1
    funext b n
    cases fusedOff f n || (n == 17 && !d.tmp.refArmed) <;> rfl
  by_cases hlt : n < 23
  · rw [hpick, getLsbD_foldl_pick hlt, contains_alarmList]
    simp only [BitVec.ofNat_eq_ofNat, BitVec.getLsbD_zero, Bool.false_or, Bool.and_eq_true, Bool.not_eq_true', Bool.or_eq_false_iff, Bool.and_eq_false_iff,
      beq_eq_false_iff_ne, Bool.not_eq_false']
    exact and_congr_right fun _ => and_congr_right fun _ => ⟨fun h he => h.resolve_left (fun hne => hne he), fun h => by
      by_cases he : n = 17
      · exact .inr (h he)
      · exact .inl he⟩
  · constructor
    · exact fun h => absurd (BitVec.lt_of_getLsbD h) hlt
    · exact fun h => absurd (BitVec.lt_of_getLsbD h.1) hlt

/-- A source that a sample finds is switched on. -/
theorem sampledCond_on {d : Dev} {f : Fuse} {t : TamperIn} {battery : Bool} {n : Nat}
    (h : (sampledCond d f t battery).getLsbD n = true) : fusedOff f n = false := by
  have hlt := BitVec.lt_of_getLsbD h
  unfold sampledCond at h
  dsimp only at h
  rw [getLsbD_foldl_pick hlt, BitVec.ofNat_eq_ofNat, BitVec.getLsbD_zero, Bool.false_or, Bool.and_eq_true] at h
  cases hoff : fusedOff f n with
  | false => rfl
  | true =>
    rw [hoff] at h
    exact absurd h.2 (by simp)

/-! ### What a response to an alarm leaves standing -/

/-- What an alarm has brought about stays: its bits, the erased key, the locks, the stopped world and the events of the tamper page. -/
structure tamperLasts (d e : Dev) : Prop where
  alarm : e.bat.alarm = d.bat.alarm
  tmp : e.tmp = d.tmp
  bbk : d.bat.bbk = none → e.bat.bbk = none
  zeroized : d.bat.zeroized = true → e.bat.zeroized = true
  locked : d.bat.locked = true → e.bat.locked = true
  cache : d.keys.cache = [] → e.keys.cache = []
  ctxs : d.wings.ctxs = [] → e.wings.ctxs = []
  active : d.lcs.active = false → e.lcs.active = false
  keeper : d.acl.keeper ≠ 2 → e.acl.keeper ≠ 2
  event : ∀ b, d.event tmpPage b = true → e.event tmpPage b = true

theorem tamperLasts_refl (d : Dev) : tamperLasts d d := ⟨rfl, rfl, id, id, id, id, id, id, id, fun _ => id⟩

theorem tamperLasts_trans {a b c : Dev} (h : tamperLasts a b) (k : tamperLasts b c) : tamperLasts a c where
  alarm := k.alarm.trans h.alarm
  tmp := k.tmp.trans h.tmp
  bbk := k.bbk ∘ h.bbk
  zeroized := k.zeroized ∘ h.zeroized
  locked := k.locked ∘ h.locked
  cache := k.cache ∘ h.cache
  ctxs := k.ctxs ∘ h.ctxs
  active := k.active ∘ h.active
  keeper := k.keeper ∘ h.keeper
  event x := k.event x ∘ h.event x

theorem tamperLasts_foldl {β : Type} {f : Dev → β → Dev} (h : ∀ d b, tamperLasts d (f d b)) (l : List β) (d : Dev) :
    tamperLasts d (l.foldl f d) := by
  induction l generalizing d with
  | nil => exact tamperLasts_refl d
  | cons b r ih => exact tamperLasts_trans (h d b) (ih _)

theorem tamperLasts_ite {c : Prop} [Decidable c] {d a b : Dev} (ha : tamperLasts d a) (hb : tamperLasts d b) :
    tamperLasts d (if c then a else b) := by
  split
  · exact ha
  · exact hb

/-- The parts of the device that the responses are about. -/
def Dev.tampered (d : Dev) : Bat × Tmp × List CacheEnt × List Ctx × Bool × BitVec 3 :=
  (d.bat, d.tmp, d.keys.cache, d.wings.ctxs, d.lcs.active, d.acl.keeper)

theorem tamperLasts_of_latched {d e : Dev} (h : e.tampered = d.tampered) (hev : d.latched e) : tamperLasts d e := by
  obtain ⟨hbat, htmp, hcache, hctxs, hactive, hkeeper⟩ : e.bat = d.bat ∧ e.tmp = d.tmp ∧ e.keys.cache = d.keys.cache ∧
      e.wings.ctxs = d.wings.ctxs ∧ e.lcs.active = d.lcs.active ∧ e.acl.keeper = d.acl.keeper := by
    simpa only [Dev.tampered, Prod.mk.injEq] using h
  exact ⟨congrArg Bat.alarm hbat, htmp, fun x => hbat ▸ x, fun x => hbat ▸ x, fun x => hbat ▸ x, hcache.trans, hctxs.trans,
    hactive.trans, fun x => hkeeper ▸ x, fun b => hev tmpPage b⟩

theorem tamperLasts_of_pages {d e : Dev} (h : e.tampered = d.tampered) (hp : e.pages = d.pages) : tamperLasts d e :=
  tamperLasts_of_latched h (latched_of_pages hp)

theorem tampered_of_silent {a b : Dev} (h : a.silent = b.silent) : a.tampered = b.tampered := by
  have := congrArg Dev.tampered h; exact this
theorem tampered_of_uncaused {a b : Dev} (h : a.uncaused = b.uncaused) : a.tampered = b.tampered := by
  have := congrArg Dev.tampered h; exact this

theorem raise_tamperLasts (d : Dev) (p b : Nat) : tamperLasts d (raise d p b) :=
  tamperLasts_of_latched (tampered_of_silent (raise_silent d p b)) (raise_latched d p b)
theorem evLog_tamperLasts (d : Dev) (c l f : Nat) (x : List Byte) : tamperLasts d (evLog d c l f x) :=
  tamperLasts_of_latched (tampered_of_silent (evLog_silent d c l f x)) (evLog_latched d c l f x)
theorem setCause_tamperLasts (d : Dev) (c : Nat) : tamperLasts d (setCause d c) :=
  tamperLasts_of_latched (tampered_of_uncaused (setCause_uncaused d c)) (setCause_latched d c)
theorem keeperEnds_tamperLasts (d : Dev) (j : Job) (st det : Byte) : tamperLasts d (keeperEnds d j st det) :=
  tamperLasts_of_pages rfl rfl

theorem endDebug_latched (d : Dev) : d.latched (endDebug d) := by
  unfold endDebug
  split
  · exact Dev.latched_trans (latched_of_pages (by rfl)) (Dev.latched_trans (raise_latched _ lcsPage 3) (evLog_latched _ _ _ _ _))
  · exact Dev.latched_refl d

theorem endDebug_tamperLasts (d : Dev) : tamperLasts d (endDebug d) := by
  by_cases hactive : d.lcs.active = true
  · obtain ⟨halarm, htmp, hbbk, hzero, hlock, hcache, hctxs, hdebug, hkeeper, -⟩ :=
      tamperLasts_of_pages (e := { endDebug d with pages := d.pages, lcs := d.lcs }) (d := d)
        (by have := congrArg (fun x : Dev => Dev.tampered { x with lcs := d.lcs }) (endDebug_active hactive).2; exact this) rfl
    exact ⟨halarm, htmp, hbbk, hzero, hlock, hcache, hctxs, fun h => absurd (hactive.symm.trans h) (by decide), hkeeper,
      fun b => endDebug_latched d tmpPage b⟩
  · unfold endDebug
    rw [if_neg hactive]
    exact tamperLasts_refl d

theorem endDebug_inactive (d : Dev) : (endDebug d).lcs.active = false := by
  unfold endDebug
  split
  · simp
  · next h => simpa using h

/-! ### ZEROIZE_ALL (13 R359, R361) -/

/-- Keys, contexts, operand memories, seeds and working values are erased. -/
def secretsErased (d : Dev) : Dev :=
  { d with
    bat := { d.bat with bbk := none, zeroized := true }
    wings := { d.wings with ctxs := [] }
    units := tabMap (fun (x : UnitSt) => { x with opmem := [] }) d.units
    rng := { d.rng with insts := tabMap (fun _ => { drbgReset with istate := 1 }) d.rng.insts, drawBytes := 0 }
    jobs := d.jobs.map fun (j : Job) =>
      let j := { j with draw := none, meterKey := if jobPlaced j || jobEnded j then j.meterKey else [] }
      if jobPlaced j then { j with zeroed := true } else j }

/-- The device as ZEROIZE_ALL finds it, once the key cache is wiped and debug has ended. -/
def cacheEmptied (d : Dev) : Dev := endDebug (wipeCache (if d.bat.zeroized then d else raise d keyPage 0))

theorem zeroizeAll_steps (d : Dev) : ∃ held : List Job, zeroizeAll d =
    held.foldl (fun d j => keeperEnds d j stZeroized 0) (secretsErased (cacheEmptied d)) := ⟨_, rfl⟩

theorem cacheEmptied_tamperLasts (d : Dev) : tamperLasts d (cacheEmptied d) :=
  tamperLasts_trans (tamperLasts_ite (tamperLasts_refl d) (raise_tamperLasts _ _ _))
    (tamperLasts_trans (b := wipeCache _) ⟨rfl, rfl, id, id, id, fun _ => rfl, id, id, id, fun _ => id⟩ (endDebug_tamperLasts _))

theorem cacheEmptied_cache (d : Dev) : (cacheEmptied d).keys.cache = [] := (endDebug_tamperLasts _).cache rfl

theorem secretsErased_tamperLasts (d : Dev) : tamperLasts d (secretsErased d) :=
  ⟨rfl, rfl, fun _ => rfl, fun _ => rfl, id, id, fun _ => rfl, id, id, fun _ => id⟩

theorem zeroizeAll_tamperLasts (d : Dev) : tamperLasts d (zeroizeAll d) := by
  obtain ⟨held, hsteps⟩ := zeroizeAll_steps d
  rw [hsteps]
  exact tamperLasts_trans (cacheEmptied_tamperLasts d)
    (tamperLasts_trans (secretsErased_tamperLasts _) (tamperLasts_foldl (fun _ _ => keeperEnds_tamperLasts _ _ _ _) _ _))

/-- What ZEROIZE_ALL has erased. -/
structure zeroizedBy (e : Dev) : Prop where
  bbk : e.bat.bbk = none
  zeroized : e.bat.zeroized = true
  cache : e.keys.cache = []
  ctxs : e.wings.ctxs = []

theorem zeroizedBy_lasts {d e : Dev} (h : zeroizedBy d) (k : tamperLasts d e) : zeroizedBy e :=
  ⟨k.bbk h.bbk, k.zeroized h.zeroized, k.cache h.cache, k.ctxs h.ctxs⟩

theorem zeroizeAll_erases (d : Dev) : zeroizedBy (zeroizeAll d) := by
  obtain ⟨held, hsteps⟩ := zeroizeAll_steps d
  rw [hsteps]
  exact zeroizedBy_lasts (d := secretsErased (cacheEmptied d)) ⟨rfl, rfl, cacheEmptied_cache d, rfl⟩
    (tamperLasts_foldl (fun _ _ => keeperEnds_tamperLasts _ _ _ _) _ _)

/-! ### LOCK, CLEAR_CACHE, the restart and the counter -/

theorem lockDevice_steps (d : Dev) : ∃ held : List Job, lockDevice d =
    held.foldl (fun d j => keeperEnds d j stLife 0x04) (endDebug { d with bat := { d.bat with locked := true } }) := ⟨_, rfl⟩

theorem lockDevice_tamperLasts (d : Dev) : tamperLasts d (lockDevice d) := by
  obtain ⟨held, hsteps⟩ := lockDevice_steps d
  rw [hsteps]
  exact tamperLasts_trans (b := { d with bat := { d.bat with locked := true } })
    ⟨rfl, rfl, id, id, fun _ => rfl, id, id, id, id, fun _ => id⟩
    (tamperLasts_trans (endDebug_tamperLasts _) (tamperLasts_foldl (fun _ _ => keeperEnds_tamperLasts _ _ _ _) _ _))

theorem lockDevice_locks (d : Dev) : (lockDevice d).bat.locked = true ∧ (lockDevice d).lcs.active = false := by
  obtain ⟨held, hsteps⟩ := lockDevice_steps d
  have hlast := tamperLasts_foldl (fun d j => keeperEnds_tamperLasts d j stLife 0x04) held
    (endDebug { d with bat := { d.bat with locked := true } })
  rw [hsteps]
  exact ⟨hlast.locked ((endDebug_tamperLasts _).locked rfl), hlast.active (endDebug_inactive _)⟩

theorem nonceForget_tamperLasts (d : Dev) (key : Word) (v : BitVec 16) : tamperLasts d (nonceForget d key v) := by
  unfold nonceForget
  dsimp only
  split
  · exact tamperLasts_refl d
  · split
    · exact tamperLasts_of_pages rfl rfl
    · exact tamperLasts_refl d

theorem clearCache_tamperLasts (d : Dev) : tamperLasts d (clearCache d) := by
  unfold clearCache
  refine tamperLasts_trans ?marks (tamperLasts_foldl (fun _ _ => nonceForget_tamperLasts _ _ _) _ _)
  case marks => exact ⟨rfl, rfl, id, id, id, fun h => by simp [h], id, id, id, fun _ => id⟩

theorem getPage_resetKeeping {ps : List Nat} {q : Nat} (hq : q ∉ ps) (d : Dev) : getPage (resetKeeping d ps) q = getPage d q := by
  have hfold : ∀ (l : List Nat), q ∉ l → ∀ r : Dev, getPage (l.foldl (fun r p => if keeperEvents d p = 0 then r else
      { r with pages := tabPut r.pages p { pageReset p with evt := keeperEvents d p } }) r) q = getPage r q := by
    intro l
    induction l with
    | nil => intro _ r; rfl
    | cons p l ih =>
      intro hmem r
      obtain ⟨hp, hl⟩ := List.ne_and_not_mem_of_not_mem_cons hmem
      rw [List.foldl_cons, ih hl]
      split
      · rfl
      · exact tabGet_put_other _ _ _ hp
  unfold resetKeeping
  rw [hfold ps hq]
  unfold getPage blockReset
  dsimp only
  rw [tabGet_filter (fun k => !ps.contains k), if_pos (by simpa using hq)]

theorem resetKeeping_tampered (d : Dev) (ps : List Nat) : (resetKeeping d ps).tampered = d.tampered := by
  unfold resetKeeping
  refine (foldl_same Dev.tampered _ (fun r p => ?_) _ _).trans rfl
  dsimp only
  split <;> rfl

theorem resetKeeping_tamperLasts {ps : List Nat} (hq : tmpPage ∉ ps) (d : Dev) : tamperLasts d (resetKeeping d ps) := by
  obtain ⟨halarm, htmp, hbbk, hzero, hlock, hcache, hctxs, hactive, hkeeper, -⟩ :=
    tamperLasts_of_pages (e := { resetKeeping d ps with pages := d.pages }) (resetKeeping_tampered d ps) rfl
  refine ⟨halarm, htmp, hbbk, hzero, hlock, hcache, hctxs, hactive, hkeeper, fun b hb => ?_⟩
  unfold Dev.event at hb ⊢
  rwa [getPage_resetKeeping hq]

theorem closeSession_tamperLasts (d : Dev) (p : Session → Bool) : tamperLasts d (closeSession d p) := by
  unfold closeSession
  split
  · exact tamperLasts_ite (tamperLasts_of_pages rfl rfl) (tamperLasts_refl d)
  · exact tamperLasts_refl d

theorem keeperStops_tamperLasts (d : Dev) (j : Job) : tamperLasts d (keeperStops d j) := by
  unfold keeperStops
  dsimp only
  split
  · exact tamperLasts_of_pages rfl rfl
  · exact tamperLasts_of_pages rfl rfl

theorem worldDebugEnds_tamperLasts (d : Dev) : tamperLasts d (worldDebugEnds d) :=
  tamperLasts_ite (endDebug_tamperLasts d) (tamperLasts_refl d)

theorem cardsCleared_tamperLasts (d : Dev) : tamperLasts d (cardsCleared d) := tamperLasts_of_pages rfl rfl

theorem worldReset_tamperLasts (d : Dev) : tamperLasts d (worldReset d) := by
  have hreset := resetKeeping_tamperLasts (ps := keyPage :: (List.range 4).map crdPage) (by decide)
    (worldDebugEnds (closeSession d fun _ => true))
  exact tamperLasts_trans (closeSession_tamperLasts d fun _ => true) (tamperLasts_trans (worldDebugEnds_tamperLasts _)
    (tamperLasts_trans hreset (cardsCleared_tamperLasts _)))

theorem rngFeed_tamperLasts (d : Dev) : tamperLasts d (rngFeed d) := by
  rw [rngFeed_only]
  exact tamperLasts_of_pages rfl rfl

theorem freeOld_tamperLasts (d : Dev) : tamperLasts d (freeOld d) := tamperLasts_of_pages rfl rfl

theorem worldCleared_tamperLasts (d : Dev) : tamperLasts d (worldCleared d) :=
  tamperLasts_trans (worldReset_tamperLasts d) (tamperLasts_trans (rngFeed_tamperLasts _) (freeOld_tamperLasts _))

theorem worldSwept_tamperLasts (d : Dev) : tamperLasts d (worldSwept d) := by
  rw [worldSwept_only]
  exact tamperLasts_of_pages rfl rfl

theorem worldDown_keeper (d : Dev) : (worldDown d).acl.keeper ≠ 2 := by
  rw [worldDown_acl]
  exact (by decide : (3 : BitVec 3) ≠ 2)

theorem worldDown_event (d : Dev) : d.latched (worldDown d) := latched_of_pages rfl

theorem worldDown_tamperLasts (d : Dev) : tamperLasts d (worldDown d) :=
  ⟨rfl, rfl, id, id, id, id, id, id, fun _ => worldDown_keeper d, worldDown_event d tmpPage⟩

theorem nextImage_tamperLasts (d : Dev) : tamperLasts d (nextImage d) := by
  unfold nextImage
  split
  · exact tamperLasts_refl d
  · exact tamperLasts_of_pages rfl rfl

theorem keeperDown_tamperLasts (d : Dev) : tamperLasts d (keeperDown d) := by
  have hstopped : tamperLasts d (allStopped d) := tamperLasts_foldl keeperStops_tamperLasts _ d
  exact tamperLasts_trans hstopped (tamperLasts_trans (worldDown_tamperLasts _)
    (tamperLasts_trans (worldSwept_tamperLasts _) (worldCleared_tamperLasts _)))

theorem keeperRestart_absent {d : Dev} (h : ¬ (d.acl.keeper = 1 ∨ d.acl.keeper = 2)) : keeperRestart d = d := by
  have hstays : (d.acl.keeper != 2 && d.acl.keeper != 1) = true := by
    simp only [Bool.and_eq_true, bne_iff_ne]
    exact ⟨fun hready => h (.inr hready), fun hstarts => h (.inl hstarts)⟩
  unfold keeperRestart
  rw [if_pos hstays]

theorem keeperRestart_tamperLasts (d : Dev) : tamperLasts d (keeperRestart d) := by
  by_cases hrun : d.acl.keeper = 1 ∨ d.acl.keeper = 2
  · rw [keeperRestart_down hrun]
    exact tamperLasts_trans (keeperDown_tamperLasts d) (nextImage_tamperLasts _)
  · rw [keeperRestart_absent hrun]
    exact tamperLasts_refl d

theorem keeperRestart_stops (d : Dev) : (keeperRestart d).acl.keeper ≠ 2 := by
  by_cases hready : d.acl.keeper = 2
  · have hkeeper := congrArg Acl.keeper (keeperRestart_acl (.inr hready))
    rw [hkeeper]
    exact (by decide : (3 : BitVec 3) ≠ 2)
  · exact (keeperRestart_tamperLasts d).keeper hready

theorem worldsOff_stops (d : Dev) : (worldsOff d).acl.keeper ≠ 2 := by
  have hkeeper : (worldsOff d).acl.keeper = 0 := rfl
  rw [hkeeper]
  decide

theorem worldsOff_tamperLasts (d : Dev) : tamperLasts d (worldsOff d) :=
  tamperLasts_trans (closeSession_tamperLasts d fun _ => true)
    ⟨rfl, rfl, id, id, id, id, id, id, fun _ => worldsOff_stops d, fun _ => id⟩

theorem counterFull_tamperLasts (d : Dev) : tamperLasts d (counterFull d) :=
  tamperLasts_trans (b := { d with bat := { d.bat with full := true, locked := true } })
    ⟨rfl, rfl, id, id, fun _ => rfl, id, id, id, id, fun _ => id⟩ (setCause_tamperLasts _ _)

theorem counterStep_tamperLasts (d : Dev) (f : Fuse) (bad : List Nat) : tamperLasts d (counterStep d f bad).1 := by
  unfold counterStep
  split
  · exact counterFull_tamperLasts d
  · dsimp only
    refine tamperLasts_trans (tamperLasts_ite (counterFull_tamperLasts d) (tamperLasts_refl d)) (tamperLasts_ite ?low (tamperLasts_refl _))
    case low => exact tamperLasts_trans (raise_tamperLasts _ tmpPage 4) (setCause_tamperLasts _ 10)

/-! ### New alarms on main power, in their steps (13 R353, R359, R363, R365) -/

/-- The alarms are latched. -/
def alarmsLatched (d : Dev) (f : Fuse) (m : BitVec 23) : Dev := { d with bat := { d.bat with alarm := alarmsJoined d f m } }

/-- What the classes u of the alarms ask of the device before they are reported. -/
def alarmErases (u : BitVec 4) (d : Dev) : Dev := if u.getLsbD 3 then raise (zeroizeAll d) tmpPage 1 else d
def alarmLocks (u : BitVec 4) (d : Dev) : Dev := if u.getLsbD 2 then raise (lockDevice d) tmpPage 2 else d
def alarmClears (u : BitVec 4) (d : Dev) : Dev := if u.getLsbD 1 && !u.getLsbD 3 then clearCache d else d

/-- The alarms are reported and recorded. -/
def alarmsReported (ns : List Nat) (d : Dev) : Dev :=
  ns.foldl (fun d n => evLog d 0x0201 (lineAt tmpPage 0) noFn
    (leBytes 1 n ++ leBytes 1 (tamperResp d n).toNat ++ [0, 0] ++ leBytes 6 d.bat.rtc.toNat)) (raise d tmpPage 0)

/-- The keeper world stops. -/
def alarmStops (u : BitVec 4) (stop : Bool) (d : Dev) : Dev :=
  if u.getLsbD 3 then (if stop then worldsOff d else keeperRestart d) else d

/-- What counts is burnt while power is good, and else pending. -/
def alarmCounts (u : BitVec 4) (d : Dev) (f : Fuse) : Dev × Fuse :=
  if u.getLsbD 3 || u.getLsbD 2 then
    if d.pwr.pfLevel then counterStep d f [] else ({ d with bat := { d.bat with pcount := satInc d.bat.pcount } }, f)
  else (d, f)

theorem alarmMain_none {d : Dev} {f : Fuse} {m : BitVec 23} (h : newAlarms d f m = []) (stop : Bool) : alarmMain d f m stop = (d, f) := by
  unfold alarmMain
  exact if_pos (by rw [← newAlarms, h]; rfl)

theorem alarmMain_some {d : Dev} {f : Fuse} {m : BitVec 23} (h : newAlarms d f m ≠ []) (stop : Bool) :
    alarmMain d f m stop =
      (let u := alarmUnion d (newAlarms d f m)
       alarmCounts u (alarmStops u stop (alarmsReported (newAlarms d f m) (alarmClears u (alarmLocks u (alarmErases u (alarmsLatched d f m)))))) f) := by
  unfold alarmMain
  exact if_neg (by rw [← newAlarms, List.isEmpty_iff]; exact h)

theorem alarmErases_tamperLasts (u : BitVec 4) (d : Dev) : tamperLasts d (alarmErases u d) :=
  tamperLasts_ite (tamperLasts_trans (zeroizeAll_tamperLasts d) (raise_tamperLasts _ _ _)) (tamperLasts_refl d)
theorem alarmLocks_tamperLasts (u : BitVec 4) (d : Dev) : tamperLasts d (alarmLocks u d) :=
  tamperLasts_ite (tamperLasts_trans (lockDevice_tamperLasts d) (raise_tamperLasts _ _ _)) (tamperLasts_refl d)
theorem alarmClears_tamperLasts (u : BitVec 4) (d : Dev) : tamperLasts d (alarmClears u d) :=
  tamperLasts_ite (clearCache_tamperLasts d) (tamperLasts_refl d)
theorem alarmsReported_fold (ns : List Nat) (d : Dev) : tamperLasts (raise d tmpPage 0) (alarmsReported ns d) :=
  tamperLasts_foldl (fun _ _ => evLog_tamperLasts _ _ _ _ _) ns _
theorem alarmStops_tamperLasts (u : BitVec 4) (stop : Bool) (d : Dev) : tamperLasts d (alarmStops u stop d) :=
  tamperLasts_ite (tamperLasts_ite (worldsOff_tamperLasts d) (keeperRestart_tamperLasts d)) (tamperLasts_refl d)

theorem alarmCounts_tamperLasts (u : BitVec 4) (d : Dev) (f : Fuse) : tamperLasts d (alarmCounts u d f).1 := by
  unfold alarmCounts
  split
  · split
    · exact counterStep_tamperLasts d f []
    · exact ⟨rfl, rfl, id, id, id, id, id, id, id, fun _ => id⟩
  · exact tamperLasts_refl d

theorem alarmErases_zeroized {u : BitVec 4} (h : u.getLsbD 3 = true) (d : Dev) :
    zeroizedBy (alarmErases u d) ∧ (alarmErases u d).event tmpPage 1 = true := by
  unfold alarmErases
  rw [if_pos h]
  exact ⟨zeroizedBy_lasts (zeroizeAll_erases d) (raise_tamperLasts _ _ _), raise_event _ tmpPage 1 (by decide)⟩

/-- What a LOCK leaves. -/
structure lockedBy (e : Dev) : Prop where
  locked : e.bat.locked = true
  active : e.lcs.active = false
  event : e.event tmpPage 2 = true

theorem lockedBy_lasts {d e : Dev} (h : lockedBy d) (k : tamperLasts d e) : lockedBy e :=
  ⟨k.locked h.locked, k.active h.active, k.event 2 h.event⟩

theorem alarmLocks_locked {u : BitVec 4} (h : u.getLsbD 2 = true) (d : Dev) : lockedBy (alarmLocks u d) := by
  unfold alarmLocks
  rw [if_pos h]
  obtain ⟨hlocked, hactive⟩ := lockDevice_locks d
  have hraise := raise_tamperLasts (lockDevice d) tmpPage 2
  exact ⟨hraise.locked hlocked, hraise.active hactive, raise_event _ tmpPage 2 (by decide)⟩

theorem alarmStops_stopped {u : BitVec 4} (h : u.getLsbD 3 = true) (stop : Bool) (d : Dev) : (alarmStops u stop d).acl.keeper ≠ 2 := by
  unfold alarmStops
  rw [if_pos h]
  split
  · exact worldsOff_stops d
  · exact keeperRestart_stops d

/-- What the alarms of a set leave on main power. -/
structure alarmed (d : Dev) (f : Fuse) (m : BitVec 23) (e : Dev) : Prop where
  alarm : e.bat.alarm = alarmsJoined d f m
  tmp : e.tmp = d.tmp
  reported : newAlarms d f m ≠ [] → e.event tmpPage 0 = true
  zeroized : ∀ n ∈ newAlarms d f m, (tamperResp d n).getLsbD 3 = true → zeroizedBy e ∧ e.acl.keeper ≠ 2 ∧ e.event tmpPage 1 = true
  locked : ∀ n ∈ newAlarms d f m, (tamperResp d n).getLsbD 2 = true → lockedBy e

theorem alarmMain_alarmed (d : Dev) (f : Fuse) (m : BitVec 23) (stop : Bool) : alarmed d f m (alarmMain d f m stop).1 := by
  by_cases hnone : newAlarms d f m = []
  · rw [alarmMain_none hnone]
    refine ⟨?_, rfl, fun h => absurd hnone h, fun n hn => ?_, fun n hn => ?_⟩
    · rw [alarmsJoined, hnone]
      rfl
    · rw [hnone] at hn
      cases hn
    · rw [hnone] at hn
      cases hn
  · rw [alarmMain_some hnone]
    dsimp only
    generalize hu : alarmUnion d (newAlarms d f m) = u
    have hclass : ∀ k, ∀ n ∈ newAlarms d f m, (tamperResp d n).getLsbD k = true → u.getLsbD k = true :=
      fun k n hn hk => hu ▸ alarmUnion_class hn hk
    generalize hns : newAlarms d f m = ns at hnone hclass
    have herase := alarmErases_tamperLasts u (alarmsLatched d f m)
    have hlock := alarmLocks_tamperLasts u (alarmErases u (alarmsLatched d f m))
    have hclear := alarmClears_tamperLasts u (alarmLocks u (alarmErases u (alarmsLatched d f m)))
    generalize alarmClears u (alarmLocks u (alarmErases u (alarmsLatched d f m))) = c at hclear
    have hreport := alarmsReported_fold ns c
    have hafter := tamperLasts_trans (alarmStops_tamperLasts u stop (alarmsReported ns c))
      (alarmCounts_tamperLasts u (alarmStops u stop (alarmsReported ns c)) f)
    have hrest := tamperLasts_trans (raise_tamperLasts c tmpPage 0) (tamperLasts_trans hreport hafter)
    have hall := tamperLasts_trans herase (tamperLasts_trans hlock (tamperLasts_trans hclear hrest))
    refine ⟨hall.alarm, hall.tmp, fun _ => ?_, fun n hn hk => ?_, fun n hn hk => ?_⟩
    · exact (tamperLasts_trans hreport hafter).event 0 (raise_event c tmpPage 0 (by decide))
    · have hu3 := hclass 3 n (hns ▸ hn) hk
      obtain ⟨hzero, hevent⟩ := alarmErases_zeroized hu3 (alarmsLatched d f m)
      have hlater := tamperLasts_trans hlock (tamperLasts_trans hclear hrest)
      exact ⟨zeroizedBy_lasts hzero hlater,
        (alarmCounts_tamperLasts u _ f).keeper (alarmStops_stopped hu3 stop (alarmsReported ns c)), hlater.event 1 hevent⟩
    · have hu2 := hclass 2 n (hns ▸ hn) hk
      exact lockedBy_lasts (alarmLocks_locked hu2 _) (tamperLasts_trans hclear hrest)

/-! ### New alarms on battery (13 R358, R359, R365) -/

/-- An alarm's entry in the log of the BAT domain, or its count once the log is full. -/
def batteryLogged (d : Dev) (acc : List AlarmLog × Byte) (n : Nat) : List AlarmLog × Byte :=
  if acc.1.length < 16 then (acc.1 ++ [⟨n, d.bat.rtc, tamperResp d n⟩], acc.2) else (acc.1, satInc acc.2)

theorem batteryLogged_keeps (d : Dev) (ns : List Nat) (acc : List AlarmLog × Byte) :
    (ns.foldl (batteryLogged d) acc).1.take acc.1.length = acc.1 := by
  have hprefix : acc.1 <+: (ns.foldl (batteryLogged d) acc).1 := by
    induction ns generalizing acc with
    | nil => exact List.prefix_refl _
    | cons n r ih =>
      refine List.IsPrefix.trans ?_ (ih _)
      unfold batteryLogged
      split
      · exact List.prefix_append _ _
      · exact List.prefix_refl _
  exact (List.prefix_iff_eq_take.mp hprefix).symm

theorem alarmBattery_none {d : Dev} {f : Fuse} {m : BitVec 23} (h : newAlarms d f m = []) : alarmBattery d f m = d := by
  unfold alarmBattery
  exact if_pos (by rw [← newAlarms, h]; rfl)

theorem alarmBattery_some {d : Dev} {f : Fuse} {m : BitVec 23} (h : newAlarms d f m ≠ []) : alarmBattery d f m =
    (let u := alarmUnion d (newAlarms d f m)
     let l := (newAlarms d f m).foldl (batteryLogged d) (d.bat.log, d.bat.batovf)
     { d with bat := { d.bat with
        alarm := alarmsJoined d f m, log := l.1, batovf := l.2,
        bbk := if u.getLsbD 3 then none else d.bat.bbk, zeroized := d.bat.zeroized || u.getLsbD 3, locked := d.bat.locked || u.getLsbD 2,
        pcount := if u.getLsbD 3 || u.getLsbD 2 then satInc d.bat.pcount else d.bat.pcount } }) := by
  unfold alarmBattery
  exact if_neg (by rw [← newAlarms, List.isEmpty_iff]; exact h)

/-- Only the BAT domain changes, and of it neither the clock nor the supply. -/
theorem alarmBattery_only (d : Dev) (f : Fuse) (m : BitVec 23) :
    alarmBattery d f m = { d with bat := (alarmBattery d f m).bat } ∧ (alarmBattery d f m).bat.rtc = d.bat.rtc := by
  by_cases h : newAlarms d f m = []
  · rw [alarmBattery_none h]
    exact ⟨rfl, rfl⟩
  · rw [alarmBattery_some h]
    exact ⟨rfl, rfl⟩

theorem alarmBattery_alarm (d : Dev) (f : Fuse) (m : BitVec 23) : (alarmBattery d f m).bat.alarm = alarmsJoined d f m := by
  by_cases h : newAlarms d f m = []
  · rw [alarmBattery_none h, alarmsJoined, h]
    rfl
  · rw [alarmBattery_some h]

theorem alarmBattery_log (d : Dev) (f : Fuse) (m : BitVec 23) : (alarmBattery d f m).bat.log.take d.bat.log.length = d.bat.log := by
  by_cases h : newAlarms d f m = []
  · rw [alarmBattery_none h, List.take_length]
  · rw [alarmBattery_some h]
    exact batteryLogged_keeps d _ (d.bat.log, d.bat.batovf)

section
variable {d : Dev} {f : Fuse} {m : BitVec 23} {n : Nat} (hn : n ∈ newAlarms d f m)
include hn

theorem alarmBattery_zeroizes (hclass : (tamperResp d n).getLsbD 3 = true) :
    (alarmBattery d f m).bat.bbk = none ∧ (alarmBattery d f m).bat.zeroized = true := by
  rw [alarmBattery_some (List.ne_nil_of_mem hn)]
  dsimp only
  rw [alarmUnion_class hn hclass]
  exact ⟨rfl, Bool.or_true _⟩

theorem alarmBattery_locks (hclass : (tamperResp d n).getLsbD 2 = true) : (alarmBattery d f m).bat.locked = true := by
  rw [alarmBattery_some (List.ne_nil_of_mem hn)]
  dsimp only
  rw [alarmUnion_class hn hclass]
  exact Bool.or_true _

theorem alarmBattery_counts (hclass : (tamperResp d n).getLsbD 3 = true ∨ (tamperResp d n).getLsbD 2 = true) :
    (alarmBattery d f m).bat.pcount = satInc d.bat.pcount := by
  rw [alarmBattery_some (List.ne_nil_of_mem hn)]
  dsimp only
  rw [if_pos]
  rw [Bool.or_eq_true]
  exact hclass.imp (alarmUnion_class hn) (alarmUnion_class hn)

end

end Sys2Proof.Machine
end

section
/-! PROOFS. The commands of the tamper sources and of the battery domain (13 R352-R365, R370, R374). -/

namespace Sys2Proof.Machine

/-! ### The commands -/

theorem exec_tamperAlarm {s : State} {sources : BitVec 23} {r : Dev × Fuse} (h : sourcesAlarm s.dev s.fuse sources = r) :
    exec (.tamperAlarm sources) s = .next { s with dev := r.1, fuse := r.2 } := by
  rw [exec, execTamperAlarm, actFuse, h]

theorem exec_tamperSample {s : State} {t : TamperIn} {r : Dev × Fuse} (h : tamperSample s.dev s.fuse t = r) :
    exec (.tamperSample t) s = .next { s with dev := r.1, fuse := r.2 } := by
  rw [exec, execTamperSample, actFuse, h]

theorem exec_guardMismatch {s : State} {addr : BitVec 40} {r : Dev × Fuse} (h : guardMismatch s.dev s.fuse addr.toNat = r) :
    exec (.guardMismatch addr) s = .next { s with dev := r.1, fuse := r.2 } := by
  rw [exec, execGuardMismatch, actFuse, h]

theorem exec_batteryBurst (s : State) (b : BurstIn) : exec (.batteryBurst b) s = .next (s.withDev (batteryBurst s.dev s.fuse b)) := rfl

theorem exec_tmpAlarmClear (s : State) (i : Ini) (v : Word) : exec (.tmpAlarmClear i v) s = .next (s.withDev (alarmClear s.dev i v)) := rfl

/-! ### The continuous sources -/

/-- The device with other conditions shown. -/
def condSet (d : Dev) (c : BitVec 23) : Dev := { d with tmp := { d.tmp with cond := c } }

/-- The live sources that alarm on main power: BATLOSS is found at power-up alone (13 R371, log entry 62). -/
def mainSources (d : Dev) (f : Fuse) (sources : BitVec 23) : BitVec 23 := liveSources d f sources &&& ~~~ BitVec.ofNat 23 (1 <<< 22)

theorem getLsbD_mainSources {d : Dev} {f : Fuse} {sources : BitVec 23} {n : Nat} :
    (mainSources d f sources).getLsbD n = true ↔
      n ≠ 22 ∧ sources.getLsbD n = true ∧ fusedOff f n = false ∧ (n = 17 → d.tmp.refArmed = true) := by
  by_cases hlt : n < 23
  · rw [mainSources, getLsbD_clearBit _ _ hlt, Bool.and_eq_true, getLsbD_liveSources, bne_iff_ne]
    exact and_comm
  · constructor
    · exact fun h => absurd (BitVec.lt_of_getLsbD h) hlt
    · exact fun h => absurd (BitVec.lt_of_getLsbD h.2.1) hlt

/-- The conditions that stay when the continuous sources are looked at: the sampled ones, and that of LOGIC while a pair mismatches. -/
def condKept (d : Dev) : BitVec 23 :=
  sampledMask false ||| (if d.guards.any fun g => guardBad d g.1 then BitVec.ofNat 23 (1 <<< 21) else 0)

/-- The device as main power's check of the continuous sources leaves its conditions. -/
def mainNoted (d : Dev) (f : Fuse) (sources : BitVec 23) : Dev :=
  condSet d ((d.tmp.cond &&& condKept d) ||| mainSources d f sources)

theorem sourcesAlarm_main {d : Dev} (h : d.bat.onCell = false) (f : Fuse) (sources : BitVec 23) :
    sourcesAlarm d f sources = alarmMain (mainNoted d f sources) f (mainSources d f sources) false := by
  unfold sourcesAlarm
  dsimp only
  rw [if_neg (by simp [h])]
  rfl

theorem mainNoted_cond {d : Dev} {f : Fuse} {sources : BitVec 23} {n : Nat} (h : (mainSources d f sources).getLsbD n = true) :
    (mainNoted d f sources).tmp.cond.getLsbD n = true := by
  unfold mainNoted condSet
  dsimp only
  rw [BitVec.getLsbD_or, h, Bool.or_true]

/-- The live sources of the BAT domain. -/
def cellSources (d : Dev) (f : Fuse) (sources : BitVec 23) : BitVec 23 := liveSources d f sources &&& batterySources

/-- The device as the check on battery leaves its conditions. -/
def cellNoted (d : Dev) (f : Fuse) (sources : BitVec 23) : Dev :=
  condSet d ((d.tmp.cond &&& sampledMask true) ||| cellSources d f sources)

theorem sourcesAlarm_battery {d : Dev} (h : d.bat.onCell = true) (f : Fuse) (sources : BitVec 23) :
    sourcesAlarm d f sources = (alarmBattery (cellNoted d f sources) f (cellSources d f sources), f) := by
  unfold sourcesAlarm
  dsimp only
  rw [if_pos h]
  rfl

theorem getLsbD_cellSources {d : Dev} {f : Fuse} {sources : BitVec 23} {n : Nat} :
    (cellSources d f sources).getLsbD n = true ↔
      (sources.getLsbD n = true ∧ fusedOff f n = false ∧ (n = 17 → d.tmp.refArmed = true)) ∧ batterySources.getLsbD n = true := by
  rw [cellSources, BitVec.getLsbD_and, Bool.and_eq_true, getLsbD_liveSources]

/-- Sources that are off or whose alarm stands run no response. -/
theorem sourcesAlarm_old {d : Dev} {f : Fuse} {sources : BitVec 23}
    (h : ∀ n, n < 23 → sources.getLsbD n = true → fusedOff f n = true ∨ d.bat.alarm.getLsbD n = true) :
    ∃ c, sourcesAlarm d f sources = (condSet d c, f) := by
  cases hcell : d.bat.onCell with
  | false =>
    have hnone : newAlarms (mainNoted d f sources) f (mainSources d f sources) = [] := newAlarms_empty fun n hn => by
      obtain ⟨-, hsource, -, -⟩ := getLsbD_mainSources.mp hn
      exact h n (BitVec.lt_of_getLsbD hsource) hsource
    exact ⟨_, (sourcesAlarm_main hcell f sources).trans (alarmMain_none hnone false)⟩
  | true =>
    have hnone : newAlarms (cellNoted d f sources) f (cellSources d f sources) = [] := newAlarms_empty fun n hn => by
      obtain ⟨⟨hsource, -, -⟩, -⟩ := getLsbD_cellSources.mp hn
      exact h n (BitVec.lt_of_getLsbD hsource) hsource
    refine ⟨(d.tmp.cond &&& sampledMask true) ||| cellSources d f sources, ?_⟩
    rw [sourcesAlarm_battery hcell, alarmBattery_none hnone]
    rfl

theorem batterySources_in {n : Nat} (h : n < 14 ∨ n = 15 ∨ n = 18 ∨ n = 19 ∨ n = 21) : batterySources.getLsbD n = true := by
  have hall : ∀ k : Fin 23, k.val < 14 ∨ k.val = 15 ∨ k.val = 18 ∨ k.val = 19 ∨ k.val = 21 → batterySources.getLsbD k = true := by decide
  exact hall ⟨n, by omega⟩ h

theorem batterySources_out {n : Nat} (h : n = 14 ∨ n = 16 ∨ n = 17 ∨ n = 20 ∨ n = 22) : batterySources.getLsbD n = false := by
  rcases h with rfl | rfl | rfl | rfl | rfl <;> decide

/-! ### Samples and the comparison of the guarded pairs -/

theorem tamperSample_main {d : Dev} (h : d.bat.onCell = false) (f : Fuse) (t : TamperIn) :
    tamperSample d f t = alarmMain (condSet d ((d.tmp.cond &&& ~~~ sampledMask false) ||| sampledCond d f t false)) f
      (sampledCond d f t false) false := by
  unfold tamperSample
  rw [if_neg (by simp [h])]
  rfl

theorem tamperSample_battery {d : Dev} (h : d.bat.onCell = true) (f : Fuse) (t : TamperIn) : tamperSample d f t = (d, f) := by
  unfold tamperSample
  rw [if_pos h]

/-- The device once the address of a mismatch is kept and the condition of LOGIC shows. -/
def mismatchNoted (d : Dev) (addr : Nat) : Dev :=
  { d with tmp := { d.tmp with
    logicAddr := if d.bat.alarm.getLsbD 21 then d.tmp.logicAddr else BitVec.ofNat 32 addr
    cond := d.tmp.cond ||| BitVec.ofNat 23 (1 <<< 21) } }

theorem guardMismatch_alarms {d : Dev} {addr : Nat} (hcell : d.bat.onCell = false) (hg : isGuarded addr = true)
    (hbad : guardVal d addr ≠ ~~~ (getGuard d addr).shadow) (f : Fuse) :
    guardMismatch d f addr = alarmMain (mismatchNoted d addr) f (BitVec.ofNat 23 (1 <<< 21)) false := by
  have hpair : guardBad d addr = true := by
    unfold guardBad
    rw [bne_iff_ne]
    intro h
    rw [h, BitVec.not_not] at hbad
    exact hbad rfl
  unfold guardMismatch mismatchNoted
  rw [if_neg (by simp [hcell, hg, hpair])]
  dsimp only
  cases d.bat.alarm.getLsbD 21 <;> rfl

theorem guardMismatch_none {d : Dev} {addr : Nat} (h : d.bat.onCell = true ∨ guardVal d addr = ~~~ (getGuard d addr).shadow) (f : Fuse) :
    guardMismatch d f addr = (d, f) := by
  unfold guardMismatch
  rw [if_pos]
  obtain h | h := h
  · rw [h]
    rfl
  · have hpair : guardBad d addr = false := by
      unfold guardBad
      rw [← guardVal, h, BitVec.not_not]
      exact bne_self_eq_false _
    rw [hpair]
    simp

/-- Settles O42: on main power by `alarmMain_alarmed`, on battery by what `alarmBattery` changes. -/
theorem tamperAlarms : Obligations.TamperAlarms := by
  unfold Obligations.TamperAlarms
  refine ⟨?main, ?battery, ?old, ?sample, ?quiet, ?unsampled, ?mismatch, ?paired⟩
  case main =>
    intro s sources hcell
    have hexec := exec_tamperAlarm (sourcesAlarm_main hcell s.fuse sources)
    have hresult := alarmMain_alarmed (mainNoted s.dev s.fuse sources) s.fuse (mainSources s.dev s.fuse sources) false
    refine ⟨_, hexec, rfl, rfl, exec_onlyBurns _ s _ hexec, fun n hne hsource hon harmed => ?_, fun n hold => ?_,
      fun n hne hsource hon harmed hnew => ?_⟩
    · have hlive := getLsbD_mainSources.mpr ⟨hne, hsource, hon, harmed⟩
      dsimp only
      rw [hresult.alarm, hresult.tmp]
      exact ⟨alarmsJoined_new hlive hon, mainNoted_cond hlive⟩
    · dsimp only
      rw [hresult.alarm]
      exact alarmsJoined_old (d := mainNoted s.dev s.fuse sources) hold _ _
    · have hmem : n ∈ newAlarms (mainNoted s.dev s.fuse sources) s.fuse (mainSources s.dev s.fuse sources) :=
        mem_newAlarms.mpr ⟨getLsbD_mainSources.mpr ⟨hne, hsource, hon, harmed⟩, hon, hnew⟩
      refine ⟨hresult.reported (List.ne_nil_of_mem hmem), fun hclass => ?_, fun hclass => ?_⟩
      · obtain ⟨⟨hbbk, hzero, hcache, hctxs⟩, hkeeper, hevent⟩ := hresult.zeroized n hmem hclass
        exact ⟨hbbk, hzero, hcache, hctxs, hkeeper, hevent⟩
      · obtain ⟨hlocked, hactive, hevent⟩ := hresult.locked n hmem hclass
        exact ⟨hlocked, hactive, hevent⟩
  case battery =>
    intro s sources hcell
    obtain ⟨honly, -⟩ := alarmBattery_only (cellNoted s.dev s.fuse sources) s.fuse (cellSources s.dev s.fuse sources)
    refine ⟨_, exec_tamperAlarm (sourcesAlarm_battery hcell s.fuse sources), ⟨rfl, rfl, rfl⟩, ?_⟩
    dsimp only
    refine ⟨by rw [honly]; rfl, by rw [honly]; rfl, by rw [honly]; rfl, fun n hin hsource hon => ?_, fun n hout => ?_⟩
    · have hlive : (cellSources s.dev s.fuse sources).getLsbD n = true :=
        getLsbD_cellSources.mpr ⟨⟨hsource, hon, fun h => by omega⟩, batterySources_in hin⟩
      refine ⟨by rw [alarmBattery_alarm]; exact alarmsJoined_new hlive hon, fun hnew => ?_⟩
      have hmem : n ∈ newAlarms (cellNoted s.dev s.fuse sources) s.fuse (cellSources s.dev s.fuse sources) :=
        mem_newAlarms.mpr ⟨hlive, hon, hnew⟩
      exact ⟨alarmBattery_zeroizes hmem, alarmBattery_locks hmem⟩
    · have hdead : (cellSources s.dev s.fuse sources).getLsbD n = false := by
        rw [cellSources, BitVec.getLsbD_and, batterySources_out hout, Bool.and_false]
      rw [alarmBattery_alarm]
      exact alarmsJoined_other hdead _
  case old =>
    intro s sources hold
    obtain ⟨c, hc⟩ := sourcesAlarm_old hold
    exact ⟨_, exec_tamperAlarm hc, ⟨rfl, rfl, rfl⟩, rfl⟩
  case sample =>
    intro s levels n hcell hlt hn
    have hresult := alarmMain_alarmed (condSet s.dev ((s.dev.tmp.cond &&& ~~~ sampledMask false) ||| sampledCond s.dev s.fuse levels false))
      s.fuse (sampledCond s.dev s.fuse levels false) false
    refine ⟨_, exec_tamperSample (tamperSample_main hcell s.fuse levels), rfl, rfl, ?_⟩
    dsimp only
    rw [hresult.alarm, hresult.tmp]
    refine ⟨alarmsJoined_new hn (sampledCond_on hn), ?_⟩
    unfold condSet
    dsimp only
    rw [BitVec.getLsbD_or, hn, Bool.or_true]
  case quiet =>
    intro s levels hcell hnone
    have hempty : newAlarms (condSet s.dev ((s.dev.tmp.cond &&& ~~~ sampledMask false) ||| 0)) s.fuse 0 = [] :=
      newAlarms_empty fun n hn => absurd hn (by simp)
    have hsample := tamperSample_main hcell s.fuse levels
    rw [hnone, alarmMain_none hempty] at hsample
    rw [exec_tamperSample hsample]
    simp [condSet, State.withDev, sampledMask]
  case unsampled =>
    intro s levels hcell
    exact exec_tamperSample (tamperSample_battery hcell s.fuse levels)
  case mismatch =>
    intro s addr hcell hg hbad
    have hresult := alarmMain_alarmed (mismatchNoted s.dev addr.toNat) s.fuse (BitVec.ofNat 23 (1 <<< 21)) false
    refine ⟨_, exec_guardMismatch (guardMismatch_alarms hcell hg hbad s.fuse), rfl, rfl, ?_⟩
    dsimp only
    rw [hresult.alarm, hresult.tmp]
    refine ⟨alarmsJoined_new (by decide) rfl, ?_, fun hnew => ?_⟩
    · unfold mismatchNoted
      dsimp only
      rw [getLsbD_setBit _ (by decide)]
      simp
    · unfold mismatchNoted
      dsimp only
      exact if_neg (by rw [hnew]; decide)
  case paired =>
    intro s addr h
    exact exec_guardMismatch (guardMismatch_none h s.fuse)

/-! ### Bursts on battery (13 R356) -/

/-- The device after a burst has counted its time and shown its conditions. -/
def burstTaken (d : Dev) (f : Fuse) (b : BurstIn) : Dev :=
  { d with
    bat := { d.bat with rtc := d.bat.rtc + 262, burstMiss := b.mismatch }
    tmp := { d.tmp with cond := (d.tmp.cond &&& ~~~ sampledMask true) ||| sampledCond d f b.levels true } }

/-- The cells are measured where the burst says so. -/
def cellsMeasured (d : Dev) : Option (BitVec 16 × BitVec 16) → Dev
  | some (x, y) =>
    let low := (x.toNat < 2400 && !d.bat.lowa) || (y.toNat < 2400 && !d.bat.lowb)
    let d := if low then raise d tmpPage 3 else d
    { d with bat := { d.bat with vbat := x ++ y, cellA := x, cellB := y, lowa := decide (x.toNat < 2400), lowb := decide (y.toNat < 2400) } }
  | none => d

/-- The alarms of a burst: the sampled sources, and LOGIC on a second mismatch in a row. -/
def burstFinds (d : Dev) (f : Fuse) (b : BurstIn) : BitVec 23 :=
  sampledCond d f b.levels true ||| (if b.mismatch && d.bat.burstMiss then BitVec.ofNat 23 (1 <<< 21) else 0)

theorem batteryBurst_runs {d : Dev} (h : d.bat.onCell = true) (f : Fuse) (b : BurstIn) :
    batteryBurst d f b = alarmBattery (cellsMeasured (burstTaken d f b) b.vbat) f (burstFinds d f b) := by
  unfold batteryBurst
  rw [if_neg (by simp [h])]
  cases hb : b.vbat <;> rfl

theorem batteryBurst_idle {d : Dev} (h : d.bat.onCell = false) (f : Fuse) (b : BurstIn) : batteryBurst d f b = d := by
  unfold batteryBurst
  rw [if_pos (by simp [h])]

/-- What a measurement of the cells leaves of the BAT domain and of the device. -/
theorem cellsMeasured_keeps (d : Dev) (v : Option (BitVec 16 × BitVec 16)) :
    (cellsMeasured d v).bat.rtc = d.bat.rtc ∧ (cellsMeasured d v).bat.alarm = d.bat.alarm ∧ (cellsMeasured d v).bat.log = d.bat.log ∧
    (cellsMeasured d v).bat.pcount = d.bat.pcount ∧ (cellsMeasured d v).guards = d.guards ∧ (cellsMeasured d v).jobs = d.jobs ∧
    (cellsMeasured d v).keys = d.keys := by
  cases v with
  | none => exact ⟨rfl, rfl, rfl, rfl, rfl, rfl, rfl⟩
  | some v =>
    unfold cellsMeasured
    dsimp only
    split
    · simp
    · exact ⟨rfl, rfl, rfl, rfl, rfl, rfl, rfl⟩

theorem tamperResp_congr {d e : Dev} (h : e.guards = d.guards) (n : Nat) : tamperResp e n = tamperResp d n := by
  unfold tamperResp
  rw [guardVal_congr h]

/-- Settles O43: a burst by `batteryBurst_runs` and what `alarmBattery` changes. -/
theorem batteryDomain : Obligations.BatteryDomain := by
  unfold Obligations.BatteryDomain
  refine ⟨?idle, ?quiet, ?finds, ?source, ?clears, ?locked, ?others⟩
  case idle =>
    intro s b hcell
    rw [exec_batteryBurst, batteryBurst_idle hcell]
    rfl
  case quiet =>
    intro s b hcell hnone hmiss hcells
    have hfinds : burstFinds s.dev s.fuse b = 0 := by
      unfold burstFinds
      rw [hnone, hmiss]
      rfl
    have hempty : newAlarms (cellsMeasured (burstTaken s.dev s.fuse b) b.vbat) s.fuse 0 = [] :=
      newAlarms_empty fun n hn => absurd hn (by simp)
    rw [exec_batteryBurst, batteryBurst_runs hcell, hfinds, alarmBattery_none hempty, hcells]
    simp [cellsMeasured, burstTaken, hnone, sampledMask]
  case finds =>
    intro s b n hcell hlt hn hnew
    obtain ⟨hrtc, halarm, hlog, hcount, hguards, hjobs, hkeys⟩ := cellsMeasured_keeps (burstTaken s.dev s.fuse b) b.vbat
    generalize hd : cellsMeasured (burstTaken s.dev s.fuse b) b.vbat = d at hrtc halarm hlog hcount hguards hjobs hkeys
    have hfound : (burstFinds s.dev s.fuse b).getLsbD n = true := by
      unfold burstFinds
      rw [BitVec.getLsbD_or, hn, Bool.true_or]
    have hmem : n ∈ newAlarms d s.fuse (burstFinds s.dev s.fuse b) := mem_newAlarms.mpr ⟨hfound, sampledCond_on hn, by rw [halarm]; exact hnew⟩
    obtain ⟨honly, hclock⟩ := alarmBattery_only d s.fuse (burstFinds s.dev s.fuse b)
    refine ⟨_, exec_batteryBurst s b, ⟨rfl, rfl, rfl⟩, ?_⟩
    have hresp : tamperResp d n = tamperResp s.dev n := tamperResp_congr hguards n
    rw [withDev_dev, batteryBurst_runs hcell, hd, ← hresp]
    refine ⟨hclock.trans hrtc, ?_, alarmBattery_zeroizes hmem, alarmBattery_locks hmem, fun hclass => ?_, ?_, ?_, ?_⟩
    · rw [alarmBattery_alarm]
      exact alarmsJoined_new hfound (sampledCond_on hn)
    · rw [alarmBattery_counts hmem hclass, hcount]
      rfl
    · have hkept := alarmBattery_log d s.fuse (burstFinds s.dev s.fuse b)
      rw [hlog] at hkept
      exact hkept
    · rw [honly]
      exact hjobs
    · rw [honly]
      exact hkeys
  case source =>
    intro s vddAon cellA cellB
    rfl
  case clears =>
    intro s ini v hkeeper hlock
    have hclear : alarmClear s.dev ini v =
        { s.dev with bat := { s.dev.bat with alarm := s.dev.bat.alarm &&& ~~~ (v.setWidth 23 &&& ~~~ s.dev.tmp.cond) } } := by
      unfold alarmClear
      rw [if_neg (by simp [hkeeper]), if_neg (by simp [hlock])]
    refine ⟨_, exec_tmpAlarmClear s ini v, ⟨rfl, rfl, rfl⟩, ?_⟩
    rw [withDev_dev, hclear]
    refine ⟨rfl, fun n hn => ?_⟩
    simp [hn]
  case locked =>
    intro s ini v hkeeper hlock
    have hclear : alarmClear s.dev ini v = s.dev := by
      unfold alarmClear
      rw [if_neg (by simp [hkeeper]), if_pos hlock]
    rw [exec_tmpAlarmClear, hclear]
    rfl
  case others =>
    intro s ini v hkeeper
    refine ⟨_, exec_tmpAlarmClear s ini v, ⟨rfl, rfl, rfl⟩, ?_⟩
    rw [withDev_dev, alarmClear, if_pos (by simp [hkeeper]), keeperDenied, violate_unlogged]

end Sys2Proof.Machine
end

section
/-! PROOFS. Operating points (14 R383-R388, R397, R399). -/

namespace Sys2Proof.Machine

/-! ### The clients' fields and the chosen point -/

theorem voteClient_keeper {i : Ini} (h : isKeeperCore i.id = true) : voteClient i = some 0 := by
  unfold voteClient
  rw [if_pos h]

theorem voteClient_porter {i : Ini} (h : isPorterCore i.id = true) : voteClient i = some 1 := by
  have hkeeper : isKeeperCore i.id = false := by
    simp only [isPorterCore, isKeeperCore, Bool.and_eq_true, decide_eq_true_eq] at h ⊢
    simp only [Bool.and_eq_false_iff, decide_eq_false_iff_not]
    omega
  unfold voteClient
  rw [if_neg (by simp [hkeeper]), if_pos h]

theorem voteClient_pf {i : Ini} (h : isPf i.id = true) (hpriv : i.priv = true) : voteClient i = some 2 := by
  have hid : i.id = 0 ∨ i.id = 128 := by simpa [isPf] using h
  have hcores : isKeeperCore i.id = false ∧ isPorterCore i.id = false := by
    obtain h | h := hid <;> rw [h] <;> decide
  obtain ⟨hkeeper, hporter⟩ := hcores
  unfold voteClient
  rw [if_neg (by simp [hkeeper]), if_neg (by simp [hporter]), if_pos (by simp [h, hpriv])]

theorem voteClient_cases {i : Ini} {c : Nat} (h : voteClient i = some c) : c = 0 ∨ c = 1 ∨ c = 2 := by
  unfold voteClient at h
  split_ifs at h <;> simp_all

/-- The fields of the three clients. -/
def requestsOf (p : Pwr) : BitVec 3 × BitVec 3 × BitVec 3 := (p.opKeeper, p.opPorter, p.opHost)

theorem oppChosen_congr {d e : Dev} (hr : requestsOf e.pwr = requestsOf d.pwr) (hg : guardVal e (clkAddr 0x04C) = guardVal d (clkAddr 0x04C)) :
    oppChosen e = oppChosen d := by
  simp only [requestsOf, Prod.mk.injEq] at hr
  obtain ⟨hkeeper, hporter, hhost⟩ := hr
  unfold oppChosen
  rw [hkeeper, hporter, hhost, hg]

theorem lowest_lt {l : List Nat} {a n : Nat} (ha : a < n) : l.foldl min a < n := by
  induction l generalizing a with
  | nil => exact ha
  | cons b r ih => exact ih (Nat.lt_of_le_of_lt (Nat.min_le_left a b) ha)

/-- The chosen point is not below the cap. -/
theorem cap_le_oppChosen (d : Dev) : bits (guardVal d (clkAddr 0x04C)) 0 2 ≤ (oppChosen d).toNat := by
  have hcap : bits (guardVal d (clkAddr 0x04C)) 0 2 < 4 := Nat.mod_lt _ (by decide)
  unfold oppChosen
  dsimp only
  generalize bits (guardVal d (clkAddr 0x04C)) 0 2 = cap at hcap
  rw [BitVec.toNat_ofNat, Nat.mod_eq_of_lt]
  · exact Nat.le_max_right _ _
  · refine Nat.max_lt.mpr ⟨?_, hcap⟩
    split
    · decide
    · next r rs hrs =>
      refine lowest_lt ?_
      have hmem : r ∈ [d.pwr.opKeeper, d.pwr.opPorter, d.pwr.opHost].filter fun r => decide (r.toNat < 4) := hrs ▸ List.mem_cons_self
      simpa using (List.mem_filter.mp hmem).2

/-! ### A step starts -/

/-- Whether a step asks for voltage first. -/
def stepsUp (d : Dev) (p : BitVec 2) (fio : Bool) : Bool :=
  if fio then decide (400000 < oppKhz p) else decide (p.toNat < d.pwr.point.toNat)

theorem oppStart_pwr (d : Dev) (p : BitVec 2) (fio : Bool) : (oppStart d p fio).pwr =
    { d.pwr with busy := true, target := p, fromFio := fio, phase := if stepsUp d p fio then .upWait false false else .downLock } := by
  unfold oppStart
  dsimp only
  rw [← stepsUp]
  cases stepsUp d p fio <;> rfl

theorem oppStart_egress (d : Dev) (p : BitVec 2) (fio : Bool) : (oppStart d p fio).egress =
    if stepsUp d p fio then d.egress ++ [.avs (BitVec.ofNat 4 (bits (guardVal d (clkAddr 0x068)) 0 4)) (oppVolt d p)] else d.egress := by
  unfold oppStart
  dsimp only
  rw [← stepsUp]
  cases stepsUp d p fio <;> rfl

theorem oppStart_guards (d : Dev) (p : BitVec 2) (fio : Bool) : (oppStart d p fio).guards = d.guards := by rw [oppStart_only]

theorem oppKick_guards (d : Dev) : (oppKick d).guards = d.guards := by rw [oppKick_only]

theorem oppKick_busy {d : Dev} (h : d.pwr.phase ≠ .idle) : oppKick d = d := by
  unfold oppKick
  rw [if_pos (by simpa using h)]

theorem oppKick_chosen {d : Dev} (hphase : d.pwr.phase = .idle) (hsrc : d.pwr.src ≠ 0) :
    oppKick d = if oppChosen d = d.pwr.point then d else oppStart d (oppChosen d) false := by
  unfold oppKick
  rw [if_neg (by simp [hphase]), if_neg (by simpa using hsrc)]
  simp only [beq_iff_eq]

/-- A start changes neither the point in force, nor the source, nor the requests. -/
theorem oppKick_keeps (d : Dev) :
    requestsOf (oppKick d).pwr = requestsOf d.pwr ∧ (oppKick d).pwr.point = d.pwr.point ∧ (oppKick d).pwr.src = d.pwr.src := by
  unfold oppKick
  split_ifs
  · exact ⟨rfl, rfl, rfl⟩
  · rw [oppStart_pwr]
    exact ⟨rfl, rfl, rfl⟩
  · exact ⟨rfl, rfl, rfl⟩
  · exact ⟨rfl, rfl, rfl⟩
  · rw [oppStart_pwr]
    exact ⟨rfl, rfl, rfl⟩

theorem oppChosen_oppKick (d : Dev) : oppChosen (oppKick d) = oppChosen d := by
  obtain ⟨hrequests, -, -⟩ := oppKick_keeps d
  exact oppChosen_congr hrequests (guardVal_congr (oppKick_guards d) _)

theorem nextStep_keeps (d : Dev) : (nextStep d).pwr.point = d.pwr.point ∧ (nextStep d).pwr.src = d.pwr.src := by
  unfold nextStep
  split
  · exact ⟨rfl, rfl⟩
  · exact (oppKick_keeps d).2

/-! ### A write of a client's request -/

/-- The device with one client's request taken. -/
def requestTaken (d : Dev) (c : Nat) (v : Word) : Dev :=
  { d with pwr := { d.pwr with
    opKeeper := if c = 0 then BitVec.ofNat 3 (bits v 8 3) else d.pwr.opKeeper
    opPorter := if c = 1 then BitVec.ofNat 3 (bits v 16 3) else d.pwr.opPorter
    opHost := if c = 2 then BitVec.ofNat 3 (bits v 24 3) else d.pwr.opHost } }

theorem oppreqWrite_client {d : Dev} {i : Ini} {c : Nat} (h : voteClient i = some c) (v : Word) :
    oppreqWrite d i v = oppKick (requestTaken d c v) := by
  unfold oppreqWrite
  rw [h]
  obtain rfl | rfl | rfl := voteClient_cases h <;> rfl

theorem oppreqWrite_other {d : Dev} {i : Ini} (h : voteClient i = none) (v : Word) : oppreqWrite d i v = ignored d i (clkAddr 0x048) := by
  unfold oppreqWrite
  rw [h]

/-- A register write on an unlocked page. -/
theorem act_unlocked {s : State} {page : Nat} (h : (getPage s.dev page).lock = false) (i : Ini) (off : Nat) (k : Dev → Dev) :
    act s (fun d => unlessLocked d i page off k) = .next (s.withDev (k s.dev)) := by
  unfold act
  dsimp only
  rw [unlessLocked_unlocked h]
  rfl

theorem exec_clkOppreqWrite {s : State} (h : (getPage s.dev (clkPage 0)).lock = false) (i : Ini) (v : Word) :
    exec (.clkOppreqWrite i v) s = .next (s.withDev (oppreqWrite s.dev i v)) :=
  act_unlocked h i _ _

theorem exec_clkOppcapWrite {s : State} (h : (getPage s.dev (clkPage 0)).lock = false) (i : Ini) (v : Word) :
    exec (.clkOppcapWrite i v) s = .next (s.withDev (oppcapWrite s.dev i v)) :=
  act_unlocked h i _ _

theorem exec_clkSrcSwitch {s : State} (h : (getPage s.dev (clkPage 0)).lock = false) (i : Ini) :
    exec (.clkSrcSwitch i) s = .next (s.withDev (clkSrcSwitch s.dev i)) :=
  act_unlocked h i _ _

theorem exec_pllLock (s : State) : exec .pllLock s = .next (s.withDev (pllLock s.dev)) := rfl
theorem exec_avsVdone (s : State) : exec .avsVdone s = .next (s.withDev (avsVdone s.dev)) := rfl
theorem exec_avsSettleTimeout (s : State) : exec .avsSettleTimeout s = .next (s.withDev (avsTimeout s.dev)) := rfl

theorem requestWrite_busy {s : State} {i : Ini} {c : Nat} (hc : voteClient i = some c) (hlock : (getPage s.dev (clkPage 0)).lock = false)
    (hphase : s.dev.pwr.phase ≠ .idle) (v : Word) : exec (.clkOppreqWrite i v) s = .next (s.withDev (requestTaken s.dev c v)) := by
  rw [exec_clkOppreqWrite hlock, oppreqWrite_client hc, oppKick_busy (by exact hphase)]

/-! ### A step ends -/

/-- The device with no step running. -/
def stepEnded (d : Dev) (fail fio : Bool) : Dev := { d with pwr := { d.pwr with busy := false, vfail := fail, phase := .idle, fromFio := fio } }

theorem oppDone_stays {d : Dev} (hrecal : d.pwr.recal = false) (hsrc : d.pwr.src ≠ 0) (hpoint : oppChosen d = d.pwr.point) :
    oppDone d = raise (stepEnded d false d.pwr.fromFio) (clkPage 0) 0 := by
  have hchosen : oppChosen (raise (stepEnded d false d.pwr.fromFio) (clkPage 0) 0) = d.pwr.point :=
    (oppChosen_congr (by rw [raise_pwr]) (guardVal_congr (raise_guards _ _ _) _)).trans hpoint
  unfold oppDone nextStep
  rw [if_neg (by rw [raise_pwr]; simp [hrecal])]
  refine (oppKick_chosen (by rw [raise_pwr]) (by rw [raise_pwr]; exact hsrc)).trans (if_pos ?_)
  rw [raise_pwr]
  exact hchosen

theorem oppDone_keeps (d : Dev) : (oppDone d).pwr.point = d.pwr.point ∧ (oppDone d).pwr.src = d.pwr.src := by
  unfold oppDone
  obtain ⟨hpoint, hsrc⟩ := nextStep_keeps (raise { d with pwr := { d.pwr with busy := false, vfail := false, phase := .idle } } (clkPage 0) 0)
  rw [hpoint, hsrc, raise_pwr]
  exact ⟨rfl, rfl⟩

/-- The failure of a step, reported and recorded. -/
def stepFailed (d : Dev) : Dev :=
  evLog (raise (stepEnded d true false) (clkPage 0) 1) 0x0103 (lineAt (clkPage 0) 1) noFn (leBytes 1 d.pwr.point.toNat ++ leBytes 1 d.pwr.target.toNat)

theorem oppFail_stays {d : Dev} (hrecal : d.pwr.recal = false) (htarget : oppChosen d = d.pwr.target) : oppFail d = stepFailed d := by
  have hraised : oppFail d = if oppChosen (stepFailed d) == d.pwr.target && !(stepFailed d).pwr.recal then stepFailed d else nextStep (stepFailed d) := by
    unfold oppFail stepFailed
    dsimp only
    rw [raise_pwr]
    rfl
  have hpwr : (stepFailed d).pwr = (stepEnded d true false).pwr := by
    unfold stepFailed
    rw [evLog_pwr, raise_pwr]
  have hguards : (stepFailed d).guards = d.guards := by
    unfold stepFailed
    rw [evLog_guards, raise_guards]
    rfl
  have hchosen : oppChosen (stepFailed d) = d.pwr.target :=
    (oppChosen_congr (by rw [hpwr]; rfl) (guardVal_congr hguards _)).trans htarget
  rw [hraised, if_pos]
  rw [hchosen, hpwr]
  simp [stepEnded, hrecal]

theorem avsTimeout_fails {d : Dev} {p : Bool} (h : d.pwr.phase = .upWait p false ∨ d.pwr.phase = .downVolt) : avsTimeout d = oppFail d := by
  unfold avsTimeout
  obtain h | h := h
  · rw [h]
    rfl
  · rw [h]

/-- CCLK runs from the other PLL, at the target point. -/
def cclkSwitched (d : Dev) : Dev :=
  { d with
    pwr := { d.pwr with point := d.pwr.target, src := if d.pwr.src = 1 then 2 else 1, sysPll := d.pwr.sysPll || d.pwr.fromFio, fromFio := false }
    tmp := { d.tmp with refArmed := d.tmp.refArmed || d.pwr.fromFio } }

theorem oppBoundary_switches {d : Dev} {up : Bool} (h : d.pwr.phase = .switchDue up) : oppBoundary d =
    if up then oppDone (cclkSwitched d)
    else avsWrite { cclkSwitched d with pwr := { (cclkSwitched d).pwr with phase := .downVolt } } d.pwr.target := by
  unfold oppBoundary
  rw [h]
  simp only [beq_iff_eq]
  rfl

/-- Settles O48: a request by `oppKick_chosen`, the ends of steps by `oppDone_stays` and `oppFail_stays`. -/
theorem operatingPoint : Obligations.OperatingPoint := by
  unfold Obligations.OperatingPoint
  refine ⟨?request, ?client, ?other, ?porterBusy, ?hostBusy, ?cap, ?capOther, ?lockLast, ?lockFirst, ?lockDown, ?voltLast, ?voltFirst,
    ?done, ?fails, ?switches, ?source⟩
  case request =>
    intro s ini v hini hlock hphase hsrc
    refine ⟨_, exec_clkOppreqWrite hlock ini v, ⟨rfl, rfl, rfl⟩, ?_⟩
    rw [withDev_dev, oppreqWrite_client (voteClient_keeper hini), oppChosen_oppKick]
    have hkick := oppKick_chosen (d := requestTaken s.dev 0 v) hphase hsrc
    by_cases hpoint : oppChosen (requestTaken s.dev 0 v) = s.dev.pwr.point
    · rw [hkick, if_pos (by exact hpoint)]
      exact ⟨rfl, rfl, rfl, rfl, fun _ => ⟨rfl, rfl⟩, fun h => absurd hpoint h, fun h => absurd (hpoint ▸ h) (Nat.lt_irrefl _),
        fun h => absurd (hpoint ▸ h) (Nat.lt_irrefl _)⟩
    · rw [hkick, if_neg (by exact hpoint), oppStart_pwr, oppStart_egress]
      have hup : stepsUp (requestTaken s.dev 0 v) (oppChosen (requestTaken s.dev 0 v)) false =
        decide ((oppChosen (requestTaken s.dev 0 v)).toNat < s.dev.pwr.point.toNat) := rfl
      rw [hup]
      refine ⟨rfl, rfl, rfl, rfl, fun h => absurd h hpoint, fun _ => ⟨rfl, rfl⟩, fun h => ?_, fun h => ?_⟩
      · rw [decide_eq_true h]
        exact ⟨rfl, rfl⟩
      · rw [decide_eq_false (Nat.lt_asymm h)]
        exact ⟨rfl, rfl⟩
  case client =>
    intro s ini v c hc hlock
    refine ⟨_, exec_clkOppreqWrite hlock ini v, ⟨rfl, rfl, rfl⟩, ?_⟩
    rw [withDev_dev, oppreqWrite_client hc]
    obtain ⟨hrequests, -, -⟩ := oppKick_keeps (requestTaken s.dev c v)
    simp only [requestsOf, Prod.mk.injEq] at hrequests
    obtain ⟨hkeeper, hporter, hhost⟩ := hrequests
    exact ⟨oppKick_only _, hkeeper, hporter, hhost⟩
  case other =>
    intro s ini v hc hlock
    refine ⟨_, exec_clkOppreqWrite hlock ini v, ⟨rfl, rfl, rfl⟩, ?_⟩
    rw [withDev_dev, oppreqWrite_other hc, ignored_unlogged]
  case porterBusy =>
    intro s ini v hini hlock hphase
    exact requestWrite_busy (voteClient_porter hini) hlock hphase v
  case hostBusy =>
    intro s ini v hini hpriv hlock hphase
    exact requestWrite_busy (voteClient_pf hini hpriv) hlock hphase v
  case cap =>
    intro s ini v hini hlock
    refine ⟨_, exec_clkOppcapWrite hlock ini v, ⟨rfl, rfl, rfl⟩, ?_⟩
    rw [withDev_dev, oppcapWrite, if_pos hini, oppChosen_oppKick]
    generalize hd : setGuard s.dev (clkAddr 0x04C) { val := v &&& 3, shadow := ~~~ (v &&& 3), pend := none } = d
    have hval : guardVal d (clkAddr 0x04C) = v &&& 3 := by
      rw [← hd, guardVal, getGuard_setGuard]
    refine ⟨(guardVal_congr (oppKick_guards d) _).trans hval, fun a ha => ?_, ?_, ?_⟩
    · rw [getGuard_congr (oppKick_guards d), ← hd, getGuard_setGuard_other _ _ ha]
    · rw [← hval]
      exact cap_le_oppChosen d
    · rw [oppKick_only, ← hd]
      rfl
  case capOther =>
    intro s ini v hini hlock
    refine ⟨_, exec_clkOppcapWrite hlock ini v, ⟨rfl, rfl, rfl⟩, ?_⟩
    rw [withDev_dev, oppcapWrite, if_neg (by simp [hini]), ignored_unlogged]
  case lockLast =>
    intro s h
    rw [exec_pllLock, pllLock, h]
    rfl
  case lockFirst =>
    intro s h
    rw [exec_pllLock, pllLock, h]
    rfl
  case lockDown =>
    intro s h
    rw [exec_pllLock, pllLock, h]
  case voltLast =>
    intro s h
    rw [exec_avsVdone, avsVdone, h]
    rfl
  case voltFirst =>
    intro s h
    rw [exec_avsVdone, avsVdone, h]
    rfl
  case done =>
    intro s hphase hrecal hsrc hpoint
    refine ⟨_, exec_avsVdone s, ⟨rfl, rfl, rfl⟩, ?_⟩
    have hdone : avsVdone s.dev = oppDone s.dev := by
      unfold avsVdone
      rw [hphase]
    rw [withDev_dev, hdone, oppDone_stays hrecal hsrc hpoint]
    exact ⟨raise_event _ _ _ (by decide), raise_quiet _ _ _⟩
  case fails =>
    intro s p hphase hrecal htarget
    refine ⟨_, exec_avsSettleTimeout s, ⟨rfl, rfl, rfl⟩, ?_⟩
    rw [withDev_dev, avsTimeout_fails hphase, oppFail_stays hrecal htarget, stepFailed]
    exact ⟨evLog_latched _ _ _ _ _ _ _ (raise_event _ _ _ (by decide)), by rw [evLog_silent, raise_silent]; rfl⟩
  case switches =>
    intro d u h
    rw [oppBoundary_switches h]
    cases u with
    | true => exact oppDone_keeps (cclkSwitched d)
    | false => exact ⟨rfl, rfl⟩
  case source =>
    intro s ini hini hlock hsrc hphase
    refine ⟨_, exec_clkSrcSwitch hlock ini, ⟨rfl, rfl, rfl⟩, ?_⟩
    rw [withDev_dev, clkSrcSwitch, if_neg (by simp [hini])]
    dsimp only
    generalize hd : setGuard s.dev (clkAddr 0x044) { val := 1, shadow := ~~~ 1, pend := none } = d
    have hpwr : d.pwr = s.dev.pwr := by rw [← hd]; rfl
    have hcap : guardVal d (clkAddr 0x04C) = guardVal s.dev (clkAddr 0x04C) := by
      rw [← hd, guardVal, getGuard_setGuard_other _ _ (by decide)]
      rfl
    have hframe : oppStart d (oppChosen d) true = { s.dev with
        guards := (oppStart d (oppChosen d) true).guards
        pwr := (oppStart d (oppChosen d) true).pwr
        egress := (oppStart d (oppChosen d) true).egress } :=
      (oppStart_only d _ _).trans (by rw [oppStart_guards, ← hd]; rfl)
    rw [if_pos (by simp [hpwr, hsrc, hphase])]
    refine ⟨?_, ?_, ?_, ?_, ?_, hframe⟩
    · rw [guardVal_congr (oppStart_guards _ _ _), ← hd, guardVal, getGuard_setGuard]
    · rw [oppStart_pwr]
    · rw [oppStart_pwr]
    · rw [oppStart_pwr]
      exact oppChosen_congr (congrArg requestsOf hpwr) hcap
    · rw [oppStart_pwr]
      exact (congrArg Pwr.src hpwr).trans hsrc

end Sys2Proof.Machine
end

section
/-! PROOFS. STANDBY and its ends (14 R390, R391), and the two edges of PWR_FAIL_N (14 R392, R394). -/

namespace Sys2Proof.Machine

/-! ### STANDBY -/

theorem exec_pwrSyscmdStandby (s : State) (i : Ini) (v : Word) : exec (.pwrSyscmdStandby i v) s = .next (s.withDev (standbyCommand s.dev i v)) := rfl
theorem exec_rtcAlarm (s : State) : exec .rtcAlarm s = .next (s.withDev (rtcAlarm s.dev)) := rfl
theorem exec_perstDeassert (s : State) (port sris : Bool) : exec (.perstDeassert port sris) s =
    .next (s.withDev (wakeStandby (modPort s.dev port fun x => { x with perst := true, sris := sris }))) := rfl

section
variable {d : Dev}

theorem anyFn_false (h : ∀ p ∈ d.fns, p.2.state = 0) : (d.fns.any fun p => p.2.state != 0) = false := by
  rw [List.any_eq_false]
  exact fun p hp => by simp [h p hp]

theorem standbyRefuse_fn {p : Nat × FnSt} (hp : p ∈ d.fns) (h : p.2.state ≠ 0) : standbyRefuse d = 1 := by
  unfold standbyRefuse
  rw [if_pos (List.any_eq_true.mpr ⟨p, hp, by simpa using h⟩)]

theorem standbyRefuse_session (hfns : ∀ p ∈ d.fns, p.2.state = 0) (h : sessionOpen d = true ∨ d.lcs.active = true) : standbyRefuse d = 2 := by
  unfold standbyRefuse
  rw [if_neg (by rw [anyFn_false hfns]; exact Bool.false_ne_true), if_pos (by simpa using h)]

theorem standbyRefuse_power (hfns : ∀ p ∈ d.fns, p.2.state = 0) (hsession : sessionOpen d = false) (hdebug : d.lcs.active = false)
    (hpower : d.pwr.pfLevel = false) : standbyRefuse d = 3 := by
  unfold standbyRefuse
  rw [if_neg (by rw [anyFn_false hfns]; exact Bool.false_ne_true), if_neg (by simp [hsession, hdebug]), if_pos (by simp [hpower])]

theorem standbyRefuse_life (hfns : ∀ p ∈ d.fns, p.2.state = 0) (hsession : sessionOpen d = false) (hdebug : d.lcs.active = false)
    (hpower : d.pwr.pfLevel = true) (h : d.lcs.trans ≠ none ∨ d.lcs.erasing = true ∨ d.lcs.due = true) : standbyRefuse d = 4 := by
  unfold standbyRefuse
  rw [if_neg (by rw [anyFn_false hfns]; exact Bool.false_ne_true), if_neg (by simp [hsession, hdebug]), if_neg (by simp [hpower]), if_pos]
  simpa [Option.isSome_iff_ne_none, or_assoc] using h

theorem standbyRefuse_none (hfns : ∀ p ∈ d.fns, p.2.state = 0) (hsession : sessionOpen d = false) (hdebug : d.lcs.active = false)
    (hpower : d.pwr.pfLevel = true) (htrans : d.lcs.trans = none) (herasing : d.lcs.erasing = false) (hdue : d.lcs.due = false) :
    standbyRefuse d = 0 := by
  unfold standbyRefuse
  rw [if_neg (by rw [anyFn_false hfns]; exact Bool.false_ne_true), if_neg (by simp [hsession, hdebug]), if_neg (by simp [hpower]),
    if_neg (by simp [htrans, herasing, hdue])]

theorem sessionOpen_none (h : d.crd.session = none) : sessionOpen d = false := by
  unfold sessionOpen
  rw [h]

end

/-- The keyed command, in ACTIVE. -/
structure StandbyAsked (d : Dev) (i : Ini) (v : Word) : Prop where
  keeper : keeperOnly i = true
  key : bits v 16 16 = 0x5B3D
  go : bit v 0 = true
  active : d.pwr.sysstate = 1

theorem standbyCommand_asked {d : Dev} {i : Ini} {v : Word} (h : StandbyAsked d i v) : standbyCommand d i v =
    if standbyRefuse d != 0 then raise { d with pwr := { d.pwr with refuse := standbyRefuse d } } (pwrPage 20) 3
    else evrFlush { evLog d 0x0104 noLine noFn (leBytes 6 d.pwr.alm.toNat) with pwr := { d.pwr with sysstate := 2, refuse := 0 } } := by
  unfold standbyCommand
  rw [if_neg (by simp [h.keeper, h.key]), if_neg (by simp [h.go, h.active])]
  dsimp only
  rw [evLog_pwr]

/-- A refusal keeps its reason and reports it. -/
theorem standbyCommand_refused {d : Dev} {i : Ini} {v : Word} (h : StandbyAsked d i v) {r : BitVec 4} (hr : standbyRefuse d = r) (hne : r ≠ 0) :
    standbyCommand d i v = raise { d with pwr := { d.pwr with refuse := r } } (pwrPage 20) 3 := by
  rw [standbyCommand_asked h, if_pos (by simpa [hr] using hne), hr]

theorem standbyCommand_enters {d : Dev} {i : Ini} {v : Word} (h : StandbyAsked d i v) (hr : standbyRefuse d = 0) : standbyCommand d i v =
    evrFlush { evLog d 0x0104 noLine noFn (leBytes 6 d.pwr.alm.toNat) with pwr := { d.pwr with sysstate := 2, refuse := 0 } } := by
  rw [standbyCommand_asked h, if_neg (by simp [hr])]

theorem refused_pwr {s : State} {i : Ini} {v : Word} (h : StandbyAsked s.dev i v) {r : BitVec 4} (hr : standbyRefuse s.dev = r) (hne : r ≠ 0) :
    Completes (.pwrSyscmdStandby i v) s fun t => s.sameOutside t ∧ t.dev.pwr = { s.dev.pwr with refuse := r } := by
  refine ⟨_, exec_pwrSyscmdStandby s i v, ⟨rfl, rfl, rfl⟩, ?_⟩
  rw [withDev_dev, standbyCommand_refused h hr hne, raise_pwr]

/-- The silent part of a device whose power state is replaced. -/
theorem silent_setPwr {a b : Dev} (h : a.silent = b.silent) (p : Pwr) : ({ a with pwr := p } : Dev).silent = ({ b with pwr := p } : Dev).silent := by
  have := congrArg (fun x : Dev => { x with pwr := p }) h
  exact this

theorem silent_setBat {a b : Dev} (h : a.silent = b.silent) {x y : Bat} (hxy : x = y) :
    ({ a with bat := x } : Dev).silent = ({ b with bat := y } : Dev).silent := by
  have := congrArg (fun z : Dev => { z with bat := x }) h
  exact hxy ▸ this

theorem wakeStandby_asleep {d : Dev} (h : d.pwr.sysstate = 3) : wakeStandby d = { d with pwr := { d.pwr with sysstate := 4 } } := by
  unfold wakeStandby
  rw [if_pos (by simp [h])]

theorem wakeStandby_awake {d : Dev} (h : d.pwr.sysstate ≠ 3) : wakeStandby d = d := by
  unfold wakeStandby
  rw [if_neg (by simpa using h)]

theorem rtcAlarm_wakes {d : Dev} (hen : d.pwr.almEn = true) (hstate : d.pwr.sysstate = 3) : rtcAlarm d =
    { d with
      pwr := { d.pwr with sysstate := 4 }
      bat := { d.bat with rtc := if d.bat.rtc.toNat < d.pwr.alm.toNat then d.pwr.alm else d.bat.rtc } } := by
  unfold rtcAlarm
  rw [if_pos hen]
  exact wakeStandby_asleep hstate

theorem getPort_modPort_other (d : Dev) (p : Bool) (g : PortSt → PortSt) : getPort (modPort d p g) (!p) = getPort d (!p) :=
  getPort_setPort_other d _ (by cases p <;> decide)

/-- Settles O49: the command by `standbyCommand_refused` and `standbyCommand_enters`, the wakes by `wakeStandby_asleep`. -/
theorem standbyWake : Obligations.StandbyWake := by
  unfold Obligations.StandbyWake
  refine ⟨?enters, ?function, ?power, ?session, ?life, ?due, ?early, ?off, ?wakes, ?awake⟩
  case enters =>
    intro s ini v hkeeper hkey hgo hactive hfns hsession hdebug hpower htrans herasing hdue
    refine ⟨_, exec_pwrSyscmdStandby s ini v, ⟨rfl, rfl, rfl⟩, ?_⟩
    rw [withDev_dev, standbyCommand_enters ⟨hkeeper, hkey, hgo, hactive⟩
      (standbyRefuse_none hfns (sessionOpen_none hsession) hdebug hpower htrans herasing hdue)]
    exact ⟨rfl, silent_setPwr (evLog_silent _ _ _ _ _) _⟩
  case function =>
    intro s ini v p hkeeper hkey hgo hactive hp hstate
    refine ⟨_, exec_pwrSyscmdStandby s ini v, ⟨rfl, rfl, rfl⟩, ?_⟩
    rw [withDev_dev, standbyCommand_refused ⟨hkeeper, hkey, hgo, hactive⟩ (standbyRefuse_fn hp hstate) (by decide)]
    exact ⟨raise_event _ _ _ (by decide), raise_quiet _ _ _⟩
  case power =>
    intro s ini v hkeeper hkey hgo hactive hfns hsession hdebug hpower
    exact refused_pwr ⟨hkeeper, hkey, hgo, hactive⟩ (standbyRefuse_power hfns (sessionOpen_none hsession) hdebug hpower) (by decide)
  case session =>
    intro s ini v hkeeper hkey hgo hactive hfns h
    exact refused_pwr ⟨hkeeper, hkey, hgo, hactive⟩ (standbyRefuse_session hfns h) (by decide)
  case life =>
    intro s ini v hkeeper hkey hgo hactive hfns hsession hdebug hpower h
    exact refused_pwr ⟨hkeeper, hkey, hgo, hactive⟩ (standbyRefuse_life hfns hsession hdebug hpower h) (by decide)
  case due =>
    intro s hen hstate hle
    rw [exec_rtcAlarm, rtcAlarm_wakes hen hstate, if_neg (Nat.not_lt.mpr hle)]
  case early =>
    intro s hen hstate hlt
    rw [exec_rtcAlarm, rtcAlarm_wakes hen hstate, if_pos hlt]
  case off =>
    intro s hen
    rw [exec_rtcAlarm, rtcAlarm, if_neg (by simp [hen])]
    rfl
  case wakes =>
    intro s port sris hstate
    refine ⟨_, exec_perstDeassert s port sris, ⟨rfl, rfl, rfl⟩, ?_⟩
    rw [withDev_dev, wakeStandby_asleep (by exact hstate)]
    exact ⟨rfl, getPort_setPort s.dev port _,
      getPort_modPort_other s.dev port fun x => { x with perst := true, sris := sris }, rfl⟩
  case awake =>
    intro s port sris hstate
    refine ⟨_, exec_perstDeassert s port sris, ⟨rfl, rfl, rfl⟩, ?_⟩
    rw [withDev_dev, wakeStandby_awake (by exact hstate)]
    exact ⟨getPort_setPort _ _ _, getPort_modPort_other _ _ _, rfl⟩

/-! ### PWR_FAIL_N -/

theorem exec_pwrFailNFall (s : State) : exec .pwrFailNFall s = .next (s.withDev (pfFall s.dev)) := rfl

theorem exec_pwrFailNRise {s : State} {r : Dev × Fuse} (h : pfRise s.dev s.fuse = r) :
    exec .pwrFailNRise s = .next { s with dev := r.1, fuse := r.2 } := by
  rw [exec, execPwrFailNRise, actFuse, h]

/-- The fall as the device counts, reports and records it. -/
def fallRecorded (d : Dev) : Dev :=
  evLog (raise { d with pwr := { d.pwr with pfCount := satInc d.pwr.pfCount } } (pwrPage 20) 0) 0x0102 (lineAt (pwrPage 20) 0) noFn
    (leBytes 2 (satInc d.pwr.pfCount).toNat)

theorem fallRecorded_pwr (d : Dev) : (fallRecorded d).pwr = { d.pwr with pfCount := satInc d.pwr.pfCount } := by
  unfold fallRecorded
  rw [evLog_pwr, raise_pwr]

theorem fallRecorded_silent (d : Dev) : (fallRecorded d).silent = ({ d with pwr := { d.pwr with pfCount := satInc d.pwr.pfCount } } : Dev).silent := by
  unfold fallRecorded
  rw [evLog_silent, raise_silent]

theorem pfFall_falls {d : Dev} (h : d.pwr.pfLevel = true) : pfFall d =
    evrFlush { fallRecorded d with
      pwr := { d.pwr with pfCount := satInc d.pwr.pfCount, pfLevel := false, pfState := 1 }
      evr := { (fallRecorded d).evr with holdFrom := some (fallRecorded d).nv.evNext } } := by
  unfold pfFall
  rw [if_neg (by simp [h])]
  dsimp only
  rw [← fallRecorded, fallRecorded_pwr]

theorem uncaused_pwr {a b : Dev} (h : a.uncaused = b.uncaused) : a.pwr = b.pwr := by
  have := congrArg Dev.pwr h; exact this
theorem setCause_pwr (d : Dev) (c : Nat) : (setCause d c).pwr = d.pwr := uncaused_pwr (setCause_uncaused d c)

theorem counterFull_pwr (d : Dev) : (counterFull d).pwr = d.pwr := setCause_pwr _ _

theorem counterStep_pwr (d : Dev) (f : Fuse) (bad : List Nat) : (counterStep d f bad).1.pwr = d.pwr := by
  unfold counterStep
  split
  · exact counterFull_pwr d
  · dsimp only
    rw [apply_ite Dev.pwr, setCause_pwr, raise_pwr, ite_self, apply_ite Dev.pwr, counterFull_pwr, ite_self]

/-- The drain leaves nothing pending, and the power state. -/
theorem counterDrain_drained (n : Nat) (d : Dev) (f : Fuse) (bad : List Nat) :
    (counterDrain n d f bad).1.bat.pcount = 0 ∧ (counterDrain n d f bad).1.bat.pidx = none ∧ (counterDrain n d f bad).1.pwr = d.pwr := by
  induction n generalizing d f with
  | zero => exact ⟨rfl, rfl, rfl⟩
  | succ n ih =>
    obtain ⟨hcount, hidx, hpwr⟩ := ih (counterStep d f bad).1 (counterStep d f bad).2
    rw [counterDrain]
    exact ⟨hcount, hidx, hpwr.trans (counterStep_pwr d f bad)⟩

/-- The drain burns one bit for each pending increment, while there is room. -/
theorem counterDrain_counts {n : Nat} (d : Dev) {f : Fuse} (h : n + counterTop f ≤ 8192) :
    popCount (counterDrain n d f []).2.counter = popCount f.counter + n := by
  induction n generalizing d f with
  | zero => rw [counterDrain, Nat.add_zero]
  | succ n ih =>
    have hlt : counterTop f < 8192 := by omega
    have htop := counterTop_countedAt (Nat.le_refl _) hlt
    have hcount : popCount (countedAt f (counterTop f)).counter = popCount f.counter + 1 :=
      popCount_setBit f.counter hlt (clear_from_counterTop (Nat.le_refl _))
    rw [counterDrain, counterStep_fuse (counterBurn_next hlt), ih _ (by omega), hcount, Nat.add_right_comm, Nat.add_assoc]

/-- The rise as the device reports it, its recorder let go on. -/
def risen (d : Dev) : Dev :=
  let e := raise { d with pwr := { d.pwr with pfLevel := true, pfState := 0 } } (pwrPage 20) 1
  evrRaiseHigh { e with evr := { e.evr with holdFrom := none, flushing := e.evr.flushing || !e.evr.buf.isEmpty } }

theorem evrRaiseHigh_only (d : Dev) : ∃ high, evrRaiseHigh d = { d with nv := { d.nv with evHigh := high } } := by
  unfold evrRaiseHigh
  split
  · exact ⟨_, rfl⟩
  · exact ⟨d.nv.evHigh, rfl⟩

theorem evrRaiseHigh_silent (d : Dev) : (evrRaiseHigh d).silent = d.silent := by
  obtain ⟨high, h⟩ := evrRaiseHigh_only d
  rw [h]
  rfl

theorem risen_silent (d : Dev) : (risen d).silent = ({ d with pwr := { d.pwr with pfLevel := true, pfState := 0 } } : Dev).silent := by
  unfold risen
  rw [evrRaiseHigh_silent, evr_silent, raise_silent]

theorem risen_bat (d : Dev) : (risen d).bat = d.bat :=
  silent_bat (b := { d with pwr := { d.pwr with pfLevel := true, pfState := 0 } }) (risen_silent d)
theorem risen_pwr (d : Dev) : (risen d).pwr = { d.pwr with pfLevel := true, pfState := 0 } := silent_pwr (risen_silent d)

theorem risen_event (d : Dev) : (risen d).event (pwrPage 20) 1 = true :=
  latched_of_pages (evrRaiseHigh_pages _) _ _ (raise_event _ _ _ (by decide))

theorem pfRise_rises {d : Dev} (h : d.pwr.pfLevel = false) (f : Fuse) : pfRise d f = counterDrain d.bat.pcount.toNat (risen d) f [] := by
  unfold pfRise
  rw [if_neg (by simp [h])]
  exact congrArg (fun b : Bat => counterDrain b.pcount.toNat (risen d) f []) (risen_bat d)

/-- Settles O50: the fall by `pfFall_falls`, the rise by what the drain of the counter leaves. -/
theorem powerFail : Obligations.PowerFail := by
  unfold Obligations.PowerFail
  refine ⟨?falls, ?low, ?rises, ?counts, ?high⟩
  case falls =>
    intro s h
    refine ⟨_, exec_pwrFailNFall s, ⟨rfl, rfl, rfl⟩, ?_⟩
    rw [withDev_dev, pfFall_falls h]
    refine ⟨rfl, ?_, silent_setPwr (fallRecorded_silent s.dev) _⟩
    exact latched_of_pages rfl _ _ (evLog_latched _ _ _ _ _ _ _ (raise_event _ (pwrPage 20) 0 (by decide)))
  case low =>
    intro s h
    rw [exec_pwrFailNFall, pfFall, if_pos (by simp [h])]
    rfl
  case rises =>
    intro s h hnone
    have hrise := pfRise_rises h s.fuse
    rw [hnone] at hrise
    refine ⟨_, exec_pwrFailNRise hrise, ⟨rfl, rfl, rfl⟩, latched_of_pages rfl _ _ (risen_event s.dev), ?_⟩
    have hbat : ({ (risen s.dev).bat with pcount := 0, pidx := none } : Bat) = { s.dev.bat with pidx := none } := by
      rw [risen_bat, ← hnone]
    exact silent_setBat (risen_silent s.dev) hbat
  case counts =>
    intro s h
    have hrise := pfRise_rises h s.fuse
    have hexec := exec_pwrFailNRise hrise
    obtain ⟨hcount, hidx, hpwr⟩ := counterDrain_drained s.dev.bat.pcount.toNat (risen s.dev) s.fuse []
    rw [risen_pwr] at hpwr
    refine ⟨_, hexec, rfl, rfl, exec_onlyBurns _ s _ hexec, hcount, hidx, congrArg Pwr.pfLevel hpwr, congrArg Pwr.pfState hpwr, fun hroom => ?_⟩
    exact counterDrain_counts _ hroom
  case high =>
    intro s h
    exact exec_pwrFailNRise (if_pos h)

end Sys2Proof.Machine
end

section
/-! PROOFS. Power domains: votes, hardware votes and domains becoming ready (14 R375-R381). -/

namespace Sys2Proof.Machine

/-! ### What leaves the power state as it is -/

theorem emptyVerify_pwr (d : Dev) (id : JobId) : (emptyVerify d id).pwr = d.pwr := rfl
theorem dropJob_pwr (d : Dev) (id : JobId) : (dropJob d id).pwr = d.pwr := rfl

theorem undoChange_pwr (d : Dev) (id : DWord) : (undoChange d id).pwr = d.pwr := by
  unfold undoChange
  dsimp only
  split
  · rfl
  · split
    · rfl
    · split <;> rfl

theorem resetJob_pwr (d : Dev) (j : Job) : (resetJob d j).pwr = d.pwr := by
  unfold resetJob
  split
  · exact emptyVerify_pwr _ _
  · rw [dropJob_pwr, undoChange_pwr, emptyVerify_pwr]

theorem closeSession_pwr (d : Dev) (p : Session → Bool) : (closeSession d p).pwr = d.pwr := by
  unfold closeSession
  split
  · split <;> rfl
  · rfl

theorem instUnseeded_pwr (d : Dev) (i : Nat) : (instUnseeded d i).pwr = d.pwr := by rw [instUnseeded_only]

theorem resetSides_pwr (d : Dev) (f : Nat) (release : Bool) : (resetSides d f release).pwr = d.pwr := by
  rw [resetSides_only]
  rfl

theorem landReset_pwr (d : Dev) (f : Nat) (release : Bool) : (landReset d f release).pwr = d.pwr := by
  unfold landReset
  dsimp only
  split
  · rfl
  · split
    · exact resetSides_pwr _ _ _
    · have hdraws : ∀ e : Dev, (settleDraws e).pwr = e.pwr := fun _ => rfl
      rw [hdraws, instUnseeded_pwr, foldl_same Dev.pwr _ resetJob_pwr, closeSession_pwr]
      exact resetSides_pwr _ _ _

theorem configReset_pwr (d : Dev) (f : Nat) : (configReset d f).pwr = d.pwr := by
  unfold configReset
  dsimp only
  split <;> rfl

theorem flrOne_pwr (d : Dev) (f : Nat) : (flrOne d f).pwr = d.pwr := (configReset_pwr _ _).trans (landReset_pwr _ _ _)

theorem portReset_pwr (d : Dev) (p : Bool) : (portReset_ d p).pwr = d.pwr := by
  unfold portReset_
  dsimp only
  rw [raise_pwr, foldl_same Dev.pwr _ flrOne_pwr]
  rfl

theorem twnState_pwr (d : Dev) (st : BitVec 3) : (twnState d st).pwr = d.pwr := by
  unfold twnState
  split
  · rfl
  · dsimp only
    rw [evLog_pwr, apply_ite Dev.pwr, raise_pwr, apply_ite Dev.pwr, raise_pwr, ite_self, ite_self]

theorem twinOff_pwr (d : Dev) : (twinOff d).pwr = d.pwr := twnState_pwr d _

theorem enterNoService_pwr (d : Dev) (source : Nat) (log : Bool) : (enterNoService d source log).pwr = d.pwr := by
  unfold enterNoService
  split
  · rfl
  · dsimp only
    rw [apply_ite Dev.pwr, evLog_pwr, setCause_pwr, raise_pwr, ite_self]

theorem rngLeft_pwr (d : Dev) : (rngLeft d).pwr = d.pwr := by
  unfold rngLeft
  dsimp only
  split
  · exact enterNoService_pwr _ _ _
  · rfl

theorem rngPowerOn_pwr (d : Dev) : (rngPowerOn d).pwr = d.pwr := rngLeft_pwr _

theorem foldl_modUnit_pwr (g : UnitSt → UnitSt) (l : List Nat) (d : Dev) : (l.foldl (fun d u => modUnit d u g) d).pwr = d.pwr := by
  rw [foldl_modUnit_only]

/-! ### A domain goes off -/

/-- A domain without power. -/
def Domain.unpowered (x : Domain) : Domain := { x with state := 0, hw := false, offAt := none }

theorem domOff_pwr (d : Dev) (n : Nat) : (domOff d n).pwr = (setDom d n (getDom d n).unpowered).pwr := by
  unfold domOff
  dsimp only
  split_ifs
  · exact portReset_pwr _ _
  · exact twinOff_pwr _
  · rfl
  · rfl
  · exact foldl_modUnit_pwr _ _ _

theorem getDom_domOff (d : Dev) (n : Nat) : getDom (domOff d n) n = (getDom d n).unpowered :=
  (getDom_congr (domOff_pwr d n) n).trans (getDom_setDom _ _ _)

theorem getDom_domOff_other (d : Dev) {n k : Nat} (h : k ≠ n) : getDom (domOff d n) k = getDom d k :=
  (getDom_congr (domOff_pwr d n) k).trans (getDom_setDom_other _ _ h)

/-! ### The votes of a domain changed -/

/-- A shelf that is asked to drain. -/
def drainAsked (y : UnitSt) : UnitSt := { y with request := 1 }

/-- A wing domain that drains. -/
def draining (d : Dev) (n : Nat) : Dev :=
  (domShelves n).foldl (fun d u => modUnit d u drainAsked) (setDom d n { getDom d n with state := 3, offAt := some (d.tick + 2) })

theorem draining_pwr (d : Dev) (n : Nat) :
    (draining d n).pwr = (setDom d n { getDom d n with state := 3, offAt := some (d.tick + 2) }).pwr := foldl_modUnit_pwr _ _ _

theorem getDom_draining (d : Dev) (n : Nat) : getDom (draining d n) n = { getDom d n with state := 3, offAt := some (d.tick + 2) } :=
  (getDom_congr (draining_pwr d n) n).trans (getDom_setDom _ _ _)

theorem getDom_draining_other (d : Dev) {n k : Nat} (h : k ≠ n) : getDom (draining d n) k = getDom d k :=
  (getDom_congr (draining_pwr d n) k).trans (getDom_setDom_other _ _ h)

theorem draining_requests (d : Dev) {n u : Nat} (h : u ∈ domShelves n) : (getUnit (draining d n) u).request = 1 := by
  unfold draining
  rw [getUnit_foldl_modUnit drainAsked (fun _ => rfl), if_pos (List.contains_iff_mem.mpr h)]
  rfl

section
variable {d : Dev} {n : Nat}

theorem domUpdate_eq (d : Dev) (n : Nat) : domUpdate d n =
    if n < 2 ∨ n ∈ heldDomains then d
    else if domVoted (getDom d n) then (if (getDom d n).state = 0 then setDom d n { getDom d n with state := 1 } else d)
    else if (getDom d n).state = 0 ∨ (getDom d n).state = 3 then d
    else if 5 ≤ n ∧ n ≤ 8 ∧ (getDom d n).state = 2 then draining d n
    else domOff d n := by
  unfold domUpdate
  simp only [Bool.or_eq_true, Bool.and_eq_true, beq_iff_eq, decide_eq_true_eq, and_assoc, List.contains_iff_mem]
  rfl

section
variable (hlow : 2 ≤ n) (hheld : n ∉ heldDomains)
include hlow hheld

theorem domUpdate_free : domUpdate d n =
    if domVoted (getDom d n) then (if (getDom d n).state = 0 then setDom d n { getDom d n with state := 1 } else d)
    else if (getDom d n).state = 0 ∨ (getDom d n).state = 3 then d
    else if 5 ≤ n ∧ n ≤ 8 ∧ (getDom d n).state = 2 then draining d n
    else domOff d n := by
  rw [domUpdate_eq, if_neg (not_or.mpr ⟨Nat.not_lt.mpr hlow, hheld⟩)]

theorem domUpdate_voted (h : domVoted (getDom d n) = true) :
    domUpdate d n = if (getDom d n).state = 0 then setDom d n { getDom d n with state := 1 } else d := by
  rw [domUpdate_free hlow hheld, if_pos h]

theorem domUpdate_drains (h : domVoted (getDom d n) = false) (hn : 5 ≤ n ∧ n ≤ 8) (hstate : (getDom d n).state = 2) :
    domUpdate d n = draining d n := by
  rw [domUpdate_free hlow hheld, if_neg (by simp [h]), if_neg (by rw [hstate]; decide), if_pos ⟨hn.1, hn.2, hstate⟩]

/-- A domain beside the wing domains is off once nobody votes for it. -/
theorem domUpdate_off (h : domVoted (getDom d n) = false) (hn : 9 ≤ n) (hstate : (getDom d n).state ≠ 3) :
    (getDom (domUpdate d n) n).state = 0 := by
  rw [domUpdate_free hlow hheld, if_neg (by simp [h])]
  split
  · next hidle => exact hidle.resolve_right hstate
  · rw [if_neg (by omega), getDom_domOff]
    rfl

end

theorem getDom_domUpdate_other {k : Nat} (h : k ≠ n) : getDom (domUpdate d n) k = getDom d k := by
  rw [domUpdate_eq]
  split_ifs
  · rfl
  · exact getDom_setDom_other _ _ h
  · rfl
  · rfl
  · exact getDom_draining_other _ h
  · exact getDom_domOff_other _ h

/-- Only the domains of the power state change with a vote. -/
theorem domUpdate_pvote : (domUpdate d n).pwr.pvote = d.pwr.pvote := by
  rw [domUpdate_eq]
  split_ifs
  · rfl
  · rfl
  · rfl
  · rfl
  · exact (congrArg Pwr.pvote (draining_pwr d n)).trans rfl
  · exact (congrArg Pwr.pvote (domOff_pwr d n)).trans rfl

/-- A domain's own change of state changes none of its votes. -/
theorem domVoted_domUpdate : domVoted (getDom (domUpdate d n) n) = domVoted (getDom d n) := by
  rw [domUpdate_eq]
  split_ifs with hheld hvoted hstate hoff hwing
  · rfl
  · rw [getDom_setDom]
    rfl
  · rfl
  · rfl
  · rw [getDom_draining]
    rfl
  · have hnone : domVoted (getDom d n) = false := by simpa using hvoted
    rw [getDom_domOff, hnone]
    simp only [domVoted, Bool.or_eq_false_iff] at hnone ⊢
    obtain ⟨⟨⟨⟨-, hboot⟩, hhost⟩, hporter⟩, hkeeper⟩ := hnone
    exact ⟨⟨⟨⟨rfl, hboot⟩, hhost⟩, hporter⟩, hkeeper⟩

/-- The votes that clients hold. -/
def Domain.votes (x : Domain) : Bool × Bool × Bool × Bool := (x.keeper, x.porter, x.host, x.boot)

theorem votes_domUpdate : (getDom (domUpdate d n) n).votes = (getDom d n).votes := by
  rw [domUpdate_eq]
  split_ifs
  · rfl
  · rw [getDom_setDom]
    rfl
  · rfl
  · rfl
  · rw [getDom_draining]
    rfl
  · rw [getDom_domOff]
    rfl

end

/-! ### A client's vote -/

/-- A domain with one client's vote. -/
def Domain.withVote (x : Domain) (c : Nat) (b : Bool) : Domain :=
  if c = 0 then { x with keeper := b } else if c = 1 then { x with porter := b } else { x with host := b }

theorem setVote_eq (d : Dev) (n c : Nat) (b : Bool) : setVote d n c b = domUpdate (setDom d n ((getDom d n).withVote c b)) n := rfl

theorem setVote_pvote (d : Dev) (n c : Nat) (b : Bool) : (setVote d n c b).pwr.pvote = d.pwr.pvote := domUpdate_pvote

theorem withVote_votes (x : Domain) {c : Nat} (hc : c = 0 ∨ c = 1 ∨ c = 2) (b : Bool) : (x.withVote c b).votes =
    (if c = 0 then b else x.keeper, if c = 1 then b else x.porter, if c = 2 then b else x.host, x.boot) := by
  obtain rfl | rfl | rfl := hc <;> rfl

theorem withVote_state (x : Domain) (c : Nat) (b : Bool) : (x.withVote c b).state = x.state := by
  unfold Domain.withVote
  split_ifs <;> rfl

theorem getDom_setVote_other (d : Dev) {n k : Nat} (h : k ≠ n) (c : Nat) (b : Bool) : getDom (setVote d n c b) k = getDom d k := by
  rw [setVote_eq, getDom_domUpdate_other h, getDom_setDom_other _ _ h]

theorem votes_setVote (d : Dev) (n c : Nat) (b : Bool) : (getDom (setVote d n c b) n).votes = ((getDom d n).withVote c b).votes := by
  rw [setVote_eq, votes_domUpdate, getDom_setDom]

/-! ### The commands -/

theorem exec_pgVoteWrite {n : BitVec 5} (h : n.toNat < 20) (s : State) (i : Ini) (v : Word) :
    exec (.pgVoteWrite i n v) s = .next (s.withDev (voteWrite s.dev i n.toNat v)) := by
  have hgood : badDomain n = false := decide_eq_false (by omega)
  rw [exec, execPgVoteWrite, hgood]
  rfl

theorem exec_pwrPvoteWrite {s : State} (h : (getPage s.dev (pwrPage 20)).lock = false) (i : Ini) (v : Word) :
    exec (.pwrPvoteWrite i v) s = .next (s.withDev (pvoteWrite s.dev i v)) := act_unlocked h i _ _

theorem voteWrite_client {d : Dev} {i : Ini} {n c : Nat} (hc : voteClient i = some c) (hown : c = 0 ∨ n ∉ keeperDomains) (hlow : 2 ≤ n) (v : Word) :
    voteWrite d i n v = setVote d n c (bit v c) := by
  unfold voteWrite
  rw [hc]
  dsimp only
  rw [if_neg (by simpa [← or_iff_not_imp_left] using hown), if_neg (by omega)]

theorem voteWrite_other {d : Dev} {i : Ini} {n : Nat} (hc : voteClient i = none) (hown : n ∉ keeperDomains) (v : Word) :
    voteWrite d i n v = ignored d i (regAddr (pwrPage n) 0x02C) := by
  unfold voteWrite
  rw [hc]
  dsimp only
  rw [if_pos (by simp [hown])]

theorem voteWrite_low {d : Dev} {i : Ini} {n : Nat} (hini : isKeeperCore i.id = true) (hlow : n < 2) (v : Word) : voteWrite d i n v = d := by
  unfold voteWrite
  rw [voteClient_keeper hini]
  dsimp only
  rw [if_neg (by simp), if_pos hlow]

/-! ### The porter's votes on the keeper-owned domains -/

/-- The domains whose votes the porter writes in PWR_PVOTE. -/
def pvoteDomains : List Nat := [2, 9, 11, 14, 15, 16, 17, 18]

/-- The bits of PWR_PVOTE. -/
def pvoteMask : Word := 0x7CA04

theorem pvoteWrite_client {d : Dev} {i : Ini} {c : Nat} (hc : voteClient i = some c) (hother : c ≠ 0) (v : Word) : pvoteWrite d i v =
    pvoteDomains.foldl (fun d n => setVote d n 1 (bit v n)) { d with pwr := { d.pwr with pvote := (v &&& pvoteMask).setWidth 20 } } := by
  have hown : ((List.range 20).filter fun n => keeperDomains.contains n && n != 1) = pvoteDomains := by decide
  have hmask : pvoteDomains.foldl (fun m n => m ||| put n 1) (0 : Word) = pvoteMask := by decide
  unfold pvoteWrite
  rw [hc]
  dsimp only
  rw [if_neg hother, hown, hmask]

theorem getDom_votes_other {l : List Nat} {n : Nat} (h : n ∉ l) (v : Word) (d : Dev) :
    getDom (l.foldl (fun d n => setVote d n 1 (bit v n)) d) n = getDom d n := by
  induction l generalizing d with
  | nil => rfl
  | cons a r ih =>
    obtain ⟨hne, hr⟩ := not_or.mp (List.mem_cons.not.mp h)
    rw [List.foldl_cons, ih hr, getDom_setVote_other _ hne]

theorem getDom_votes_own {l : List Nat} (hl : l.Nodup) {n : Nat} (h : n ∈ l) (v : Word) (d : Dev) :
    (getDom (l.foldl (fun d n => setVote d n 1 (bit v n)) d) n).votes = ((getDom d n).withVote 1 (bit v n)).votes := by
  induction l generalizing d with
  | nil => cases h
  | cons a r ih =>
    obtain ⟨ha, hr⟩ := List.nodup_cons.mp hl
    rw [List.foldl_cons]
    obtain rfl | hmem := List.mem_cons.mp h
    · rw [getDom_votes_other ha, votes_setVote]
    · have hne : n ≠ a := fun he => ha (he ▸ hmem)
      rw [ih hr hmem, getDom_setVote_other _ hne]

theorem mem_pvoteDomains {n : Nat} : n ∈ pvoteDomains ↔ n ∈ keeperDomains ∧ n ≠ 1 := by
  unfold pvoteDomains keeperDomains
  simp only [List.mem_cons, List.not_mem_nil, or_false]
  omega

theorem pvote_bit {n : Nat} (h : n < 20) (v : Word) :
    ((v &&& pvoteMask).setWidth 20).getLsbD n = (bit v n && decide (n ∈ pvoteDomains)) := by
  have hmask : ∀ k : Fin 20, pvoteMask.getLsbD k = decide (k.val ∈ pvoteDomains) := by decide
  rw [BitVec.getLsbD_setWidth, decide_eq_true h, Bool.true_and, BitVec.getLsbD_and, hmask ⟨n, h⟩]
  rfl

/-- Settles O46: a vote by what `domUpdate` does with its domain, the porter's votes one domain after another. -/
theorem domainVotes : Obligations.DomainVotes := by
  unfold Obligations.DomainVotes
  refine ⟨?vote, ?other, ?low, ?porter⟩
  case vote =>
    intro s ini n v c hc hown hlow hlt hheld hstate
    refine ⟨_, exec_pgVoteWrite hlt s ini v, ⟨rfl, rfl, rfl⟩, ?_⟩
    rw [withDev_dev, voteWrite_client hc hown hlow]
    have hvotes := (votes_setVote s.dev n.toNat c (bit v c)).trans (withVote_votes _ (voteClient_cases hc) _)
    simp only [Domain.votes, Prod.mk.injEq] at hvotes
    obtain ⟨hkeeper, hporter, hhost, hboot⟩ := hvotes
    refine ⟨fun k hk => getDom_setVote_other _ hk _ _, ?_, ?_, ?_, hboot, ?_⟩
    · rw [hkeeper]
      split
      · next h => rw [h]
      · rfl
    · rw [hporter]
      split
      · next h => rw [h]
      · rfl
    · rw [hhost]
      split
      · next h => rw [h]
      · rfl
    · rw [setVote_eq]
      generalize hd : setDom s.dev n.toNat ((getDom s.dev n.toNat).withVote c (bit v c)) = d
      have hdom : (getDom d n.toNat).state = (getDom s.dev n.toNat).state := by rw [← hd, getDom_setDom, withVote_state]
      rw [domVoted_domUpdate, ← hdom]
      rw [← hdom] at hstate
      refine ⟨fun h => ?_, fun h hn => domUpdate_off hlow hheld h hn hstate, fun h hn hon => ?_⟩
      · rw [domUpdate_voted hlow hheld h]
        split
        · rw [getDom_setDom]
        · rfl
      · have hwing : 5 ≤ n.toNat ∧ n.toNat ≤ 8 := by
          simp only [heldDomains, List.mem_cons, List.not_mem_nil, or_false] at hheld
          omega
        rw [domUpdate_drains hlow hheld h hwing hon, getDom_draining]
        refine ⟨rfl, ?_, fun u hu => draining_requests d hu⟩
        rw [← hd]
        rfl
  case other =>
    intro s ini n v hlt hown hc
    refine ⟨_, exec_pgVoteWrite hlt s ini v, ⟨rfl, rfl, rfl⟩, ?_⟩
    rw [withDev_dev, voteWrite_other hc hown, ignored_unlogged]
  case low =>
    intro s ini n v hlow hini
    rw [exec_pgVoteWrite (by omega), voteWrite_low hini hlow]
    rfl
  case porter =>
    intro s ini v c hc hother hlock
    refine ⟨_, exec_pwrPvoteWrite hlock ini v, ⟨rfl, rfl, rfl⟩, ?_⟩
    rw [withDev_dev, pvoteWrite_client hc hother]
    generalize hd : ({ s.dev with pwr := { s.dev.pwr with pvote := (v &&& pvoteMask).setWidth 20 } } : Dev) = d
    have hdom : ∀ n, getDom d n = getDom s.dev n := fun n => by rw [← hd]; rfl
    have hpvote : ∀ n, n < 20 → (pvoteDomains.foldl (fun d n => setVote d n 1 (bit v n)) d).pwr.pvote.getLsbD n =
        (bit v n && decide (n ∈ pvoteDomains)) := fun n hn => by
      rw [foldl_same (fun e : Dev => e.pwr.pvote) _ (fun e n => setVote_pvote e n 1 (bit v n)), ← hd, pvote_bit hn]
    refine ⟨fun n hn hne => ?_, fun n hn => ?_⟩
    · have hmem : n ∈ pvoteDomains := mem_pvoteDomains.mpr ⟨hn, hne⟩
      have hvotes := getDom_votes_own (by decide) hmem v d
      rw [hdom, withVote_votes _ (by decide)] at hvotes
      simp only [Domain.votes, Prod.mk.injEq] at hvotes
      obtain ⟨hkeeper, hporter, hhost, -⟩ := hvotes
      refine ⟨hporter, ?_, hkeeper, hhost⟩
      rw [hpvote n (by simp only [keeperDomains, List.mem_cons, List.not_mem_nil, or_false] at hn; omega), decide_eq_true hmem, Bool.and_true]
    · have hmem : n ∉ pvoteDomains := fun h => by
        obtain ⟨hkeeper, hne⟩ := mem_pvoteDomains.mp h
        exact hn.elim (fun h => h hkeeper) hne
      refine ⟨(getDom_votes_other hmem v d).trans (hdom n), fun hlt => ?_⟩
      rw [hpvote n hlt, decide_eq_false hmem, Bool.and_false]

end Sys2Proof.Machine
end

section
/-! PROOFS. The end of hardware votes, and domains that become ready (14 R379, R381). -/

namespace Sys2Proof.Machine

/-! ### A domain is ready: the state of its units -/

/-- A shelf that comes back drained and asked to return. -/
def UnitSt.returning (x : UnitSt) : Prop := x.state = 5 ∧ x.request = 2

/-- The reset that a shelf's power brings. -/
def shelfBack (d : Dev) (u : Nat) : Dev :=
  let r := tabGet d.nv.roles u (if firstRole d.gj7716 u then 1 else 0)
  setUnit d u { unitByRole r false with
    tie := - (d.tick.setWidth 8), request := if r = 2 then 0 else 2, lastTest := (getUnit d u).lastTest }

/-- The reset that a rack's power brings. -/
def rackBack (d : Dev) (u : Nat) : Dev := setUnit d u { unitZero with tie := - (d.tick.setWidth 8) }

/-- The device with a domain's blocks at their reset values. -/
def domStarted (d : Dev) (n : Nat) : Dev :=
  blockReset (modDom d n fun x => { x with state := 2, ups := satInc x.ups, last := d.tick }) (domPages n)

theorem domReady_eq (d : Dev) (n : Nat) (h : (getDom d n).state = 1) : domReady d n =
    if n = 14 then { twnState (domStarted d n) (twnIdle (domStarted d n) true) with
      twn := { twnReset with state := twnIdle (domStarted d n) true, newId := (domStarted d n).twn.newId } }
    else if n = 15 then cardsCleared (domStarted d n)
    else if n = 16 then rngPowerOn (domStarted d n)
    else (domShelves n).foldl shelfBack ((domRacks n).foldl rackBack (domStarted d n)) := by
  unfold domReady
  rw [if_neg (by simp [h])]
  rfl

theorem foldl_rackBack_only (l : List Nat) (d : Dev) : l.foldl rackBack d = { d with units := (l.foldl rackBack d).units } := by
  induction l generalizing d with
  | nil => rfl
  | cons u r ih =>
    rw [List.foldl_cons, ih]
    rfl

theorem foldl_shelfBack_only (l : List Nat) (d : Dev) : l.foldl shelfBack d = { d with units := (l.foldl shelfBack d).units } := by
  induction l generalizing d with
  | nil => rfl
  | cons u r ih =>
    rw [List.foldl_cons, ih]
    rfl

/-- What a key holds, listed or not, is no value that neither default is. -/
theorem tabGet_ne {α : Type} {t : Tab α} {k : Nat} {x a b : α} (h : tabGet t k a ≠ x) (hb : b ≠ x) : tabGet t k b ≠ x := by
  induction t with
  | nil => exact hb
  | cons p r ih =>
    obtain ⟨j, v⟩ := p
    simp only [tabGet] at h ⊢
    split
    · rwa [if_pos ‹_›] at h
    · exact ih (by rwa [if_neg ‹_›] at h)

/-- A shelf that is not RETIRED comes back. -/
theorem shelfBack_returning {d : Dev} {u : Nat} (h : tabGet d.nv.roles u 1 ≠ 2) : (getUnit (shelfBack d u) u).returning := by
  have hrole : tabGet d.nv.roles u (if firstRole d.gj7716 u then 1 else 0) ≠ 2 := tabGet_ne h (by split <;> decide)
  unfold shelfBack
  dsimp only
  rw [getUnit_setUnit, unitByRole, if_neg hrole, if_neg hrole]
  exact ⟨rfl, rfl⟩

theorem foldl_shelfBack_returning {l : List Nat} {d : Dev} {u : Nat} (h : tabGet d.nv.roles u 1 ≠ 2)
    (hu : u ∈ l ∨ (getUnit d u).returning) : (getUnit (l.foldl shelfBack d) u).returning := by
  induction l generalizing d with
  | nil => exact hu.resolve_left (by simp)
  | cons a r ih =>
    refine ih (d := shelfBack d a) h ?_
    by_cases ha : u = a
    · subst ha
      exact .inr (shelfBack_returning h)
    · obtain hmem | hback := hu
      · exact .inl ((List.mem_cons.mp hmem).resolve_left ha)
      · right
        unfold shelfBack
        dsimp only
        rw [getUnit_setUnit_other _ _ ha]
        exact hback

theorem domShelves_wing {n u : Nat} (h : u ∈ domShelves n) : n ≤ 8 := by
  have hdom : unitDomain u = n := by simpa using (List.mem_filter.mp h).2
  unfold unitDomain at hdom
  split at hdom
  · omega
  · split_ifs at hdom
    · omega
    · omega
  · omega
  · omega

/-! ### A domain is ready: the rest of the device -/

theorem domReady_pwr {d : Dev} {n : Nat} (h : (getDom d n).state = 1) : (domReady d n).pwr = (domStarted d n).pwr := by
  rw [domReady_eq d n h]
  split_ifs
  · exact twnState_pwr _ _
  · rfl
  · exact rngPowerOn_pwr _
  · rw [foldl_shelfBack_only, foldl_rackBack_only]

/-- The jobs and the access controllers. -/
def Dev.working (d : Dev) : List Job × Acl := (d.jobs, d.acl)

theorem working_of_silent {a b : Dev} (h : a.silent = b.silent) : a.working = b.working := by
  have := congrArg Dev.working h; exact this
theorem working_of_uncaused {a b : Dev} (h : a.uncaused = b.uncaused) : a.working = b.working := by
  have := congrArg Dev.working h; exact this

theorem raise_working (d : Dev) (p b : Nat) : (raise d p b).working = d.working := working_of_silent (raise_silent d p b)
theorem evLog_working (d : Dev) (c l f : Nat) (x : List Byte) : (evLog d c l f x).working = d.working := working_of_silent (evLog_silent d c l f x)
theorem setCause_working (d : Dev) (c : Nat) : (setCause d c).working = d.working := working_of_uncaused (setCause_uncaused d c)

theorem twnState_working (d : Dev) (st : BitVec 3) : (twnState d st).working = d.working := by
  unfold twnState
  split
  · rfl
  · dsimp only
    rw [evLog_working, apply_ite Dev.working, raise_working, apply_ite Dev.working, raise_working, ite_self, ite_self]
    rfl

theorem enterNoService_working (d : Dev) (source : Nat) (log : Bool) : (enterNoService d source log).working = d.working := by
  unfold enterNoService
  split
  · rfl
  · dsimp only
    rw [apply_ite Dev.working, evLog_working, setCause_working, raise_working, ite_self]
    rfl

theorem rngPowerOn_working (d : Dev) : (rngPowerOn d).working = d.working := by
  unfold rngPowerOn rngLeft
  dsimp only
  split
  · exact enterNoService_working _ _ _
  · rfl

theorem domReady_working {d : Dev} {n : Nat} (h : (getDom d n).state = 1) : (domReady d n).working = d.working := by
  rw [domReady_eq d n h]
  split_ifs
  · exact twnState_working _ _
  · rfl
  · exact rngPowerOn_working _
  · rw [foldl_shelfBack_only, foldl_rackBack_only]
    rfl

theorem domReady_jobs {d : Dev} {n : Nat} (h : (getDom d n).state = 1) : (domReady d n).jobs = d.jobs := congrArg Prod.fst (domReady_working h)
theorem domReady_acl {d : Dev} {n : Nat} (h : (getDom d n).state = 1) : (domReady d n).acl = d.acl := congrArg Prod.snd (domReady_working h)

theorem domReady_returning {d : Dev} {n u : Nat} (h : (getDom d n).state = 1) (hu : u ∈ domShelves n) (hrole : tabGet d.nv.roles u 1 ≠ 2) :
    (getUnit (domReady d n) u).returning := by
  have hn := domShelves_wing hu
  rw [domReady_eq d n h, if_neg (by omega), if_neg (by omega), if_neg (by omega)]
  refine foldl_shelfBack_returning ?_ (.inl hu)
  rw [foldl_rackBack_only]
  exact hrole

/-! ### The commands -/

theorem exec_hwVoteExpire {n : BitVec 5} (h : n.toNat < 20) (s : State) :
    exec (.hwVoteExpire n) s = .next (s.withDev (hwExpire s.dev n.toNat)) := by
  have hgood : badDomain n = false := decide_eq_false (by omega)
  rw [exec, execHwVoteExpire, hgood]
  rfl

/-- Nothing waited for the code: what is settled is the drain of the tables. -/
theorem resume_none {s : State} {code : Nat} (h : ∀ x ∈ s.dev.acl.stalled, x.domain ≠ code) : resume s code = s.withDev (settleDrained s.dev) := by
  have hmine : (s.dev.acl.stalled.filter fun x => x.domain == code) = [] := List.filter_eq_nil_iff.mpr fun x hx => by simpa using h x hx
  have hkept : (s.dev.acl.stalled.filter fun x => x.domain != code) = s.dev.acl.stalled :=
    List.filter_eq_self.mpr fun x hx => by simpa using h x hx
  unfold resume
  dsimp only
  rw [hmine, hkept]
  rfl

theorem exec_domainReady {n : BitVec 5} (h : n.toNat < 20) (s : State) : exec (.domainReady n) s =
    if (getDom s.dev n.toNat).state = 1 then .next (resume { s with dev := domReady s.dev n.toNat } n.toNat) else .next s := by
  have hgood : badDomain n = false := decide_eq_false (by omega)
  rw [exec, execDomainReady, hgood, if_neg (by decide)]
  by_cases hstate : (getDom s.dev n.toNat).state = 1
  · rw [if_neg (by simp [hstate]), if_pos hstate]
  · rw [if_pos (by simpa using hstate), if_neg hstate]

/-- Settles O47: the vote by `domUpdate_voted`, the domain by what `domReady` leaves. -/
theorem domainPower : Obligations.DomainPower := by
  unfold Obligations.DomainPower
  refine ⟨?expires, ?stays, ?ready, ?idle⟩
  case expires =>
    intro s n hlt hhw hstate hidle hvotes
    have hexpire : hwExpire s.dev n.toNat = domUpdate (setDom s.dev n.toNat { getDom s.dev n.toNat with hw := false }) n.toNat := by
      unfold hwExpire
      dsimp only
      rw [if_pos (by simp [hhw, hstate, hidle])]
    rw [exec_hwVoteExpire hlt, hexpire]
    generalize hd : setDom s.dev n.toNat { getDom s.dev n.toNat with hw := false } = d
    have hdom : getDom d n.toNat = { getDom s.dev n.toNat with hw := false } := by rw [← hd, getDom_setDom]
    have hvoted : domVoted (getDom d n.toNat) = true := by
      rw [hdom]
      simpa [domVoted, or_assoc] using hvotes
    by_cases hheld : n.toNat < 2 ∨ n.toNat ∈ heldDomains
    · rw [domUpdate_eq, if_pos hheld]
    · obtain ⟨hlow, hheld⟩ := not_or.mp hheld
      rw [domUpdate_voted (Nat.not_lt.mp hlow) hheld hvoted, if_neg (by rw [hdom]; dsimp only; rw [hstate]; decide)]
  case stays =>
    intro s n hlt hbusy
    rw [exec_hwVoteExpire hlt, hwExpire, if_neg (by simp [Nat.not_le.mpr hbusy])]
    rfl
  case ready =>
    intro s n hlt hstate hnone
    have hresume := resume_none (s := { s with dev := domReady s.dev n.toNat }) (code := n.toNat) (by rw [domReady_acl hstate]; exact hnone)
    have hexec := exec_domainReady hlt s
    rw [if_pos hstate, hresume] at hexec
    have hdom := getDom_congr (x := settleDrained (domReady s.dev n.toNat)) (y := domStarted s.dev n.toNat) (domReady_pwr hstate)
    refine ⟨_, hexec, ⟨rfl, rfl, rfl⟩, ?_⟩
    rw [withDev_dev]
    refine ⟨(hdom _).trans (getDom_setDom _ _ _), fun k hk => (hdom k).trans (getDom_setDom_other _ _ hk), fun u hu hrole => ?_, domReady_jobs hstate⟩
    exact domReady_returning hstate hu hrole
  case idle =>
    intro s n hlt hstate
    rw [exec_domainReady hlt, if_neg hstate]

end Sys2Proof.Machine
end

section
/-! PROOFS. Reset requests and the cold start (14 R396, R397, R403). -/

namespace Sys2Proof.Machine

/-! ### What the steps of a cold start keep -/

/-- What a cold reset has emptied or set, as its later steps find it. -/
def Dev.restart (d : Dev) : List Job × Tab QueueSt × Tab FnSt × List CacheEnt × Option Session × Pwr × BitVec 48 × Word × Option (BitVec 256) :=
  (d.jobs, d.queues, d.fns, d.keys.cache, d.crd.session, d.pwr, d.tick, d.nv.pcycles, d.bat.bbk)

/-- A step of the cold start: what is empty stays so, and BBK goes in END_OF_LIFE alone. -/
structure Restarts (ended : Prop) (d e : Dev) : Prop where
  jobs : d.jobs = [] → e.jobs = []
  queues : e.queues = d.queues
  fns : e.fns = d.fns
  cache : d.keys.cache = [] → e.keys.cache = []
  session : d.crd.session = none → e.crd.session = none
  pwr : e.pwr = d.pwr
  tick : e.tick = d.tick
  pcycles : e.nv.pcycles = d.nv.pcycles
  bbk : ¬ ended → e.bat.bbk = d.bat.bbk
  event : d.latched e

section
variable {ended : Prop}

theorem restarts_refl (d : Dev) : Restarts ended d d := ⟨id, rfl, rfl, id, id, rfl, rfl, rfl, fun _ => rfl, Dev.latched_refl d⟩

theorem restarts_trans {a b c : Dev} (h : Restarts ended a b) (k : Restarts ended b c) : Restarts ended a c where
  jobs := k.jobs ∘ h.jobs
  queues := k.queues.trans h.queues
  fns := k.fns.trans h.fns
  cache := k.cache ∘ h.cache
  session := k.session ∘ h.session
  pwr := k.pwr.trans h.pwr
  tick := k.tick.trans h.tick
  pcycles := k.pcycles.trans h.pcycles
  bbk x := (k.bbk x).trans (h.bbk x)
  event := Dev.latched_trans h.event k.event

theorem restarts_of_restart {d e : Dev} (h : e.restart = d.restart) (hev : d.latched e) : Restarts ended d e := by
  simp only [Dev.restart, Prod.mk.injEq] at h
  obtain ⟨hjobs, hqueues, hfns, hcache, hsession, hpwr, htick, hcycles, hbbk⟩ := h
  exact ⟨hjobs.trans, hqueues, hfns, hcache.trans, hsession.trans, hpwr, htick, hcycles, fun _ => hbbk, hev⟩

theorem restarts_of_pages {d e : Dev} (h : e.restart = d.restart) (hp : e.pages = d.pages) : Restarts ended d e :=
  restarts_of_restart h (latched_of_pages hp)

theorem restarts_foldl {β : Type} {g : Dev → β → Dev} (h : ∀ d b, Restarts ended d (g d b)) (l : List β) (d : Dev) :
    Restarts ended d (l.foldl g d) := by
  induction l generalizing d with
  | nil => exact restarts_refl d
  | cons b r ih => exact restarts_trans (h d b) (ih _)

theorem restarts_ite {c : Prop} [Decidable c] {d a b : Dev} (ha : c → Restarts ended d a) (hb : Restarts ended d b) :
    Restarts ended d (if c then a else b) := by
  split
  · next h => exact ha h
  · exact hb

theorem restart_of_silent {a b : Dev} (h : a.silent = b.silent) : a.restart = b.restart := by
  have := congrArg Dev.restart h; exact this
theorem restart_of_uncaused {a b : Dev} (h : a.uncaused = b.uncaused) : a.restart = b.restart := by
  have := congrArg Dev.restart h; exact this

theorem raise_restarts (d : Dev) (p b : Nat) : Restarts ended d (raise d p b) :=
  restarts_of_restart (restart_of_silent (raise_silent d p b)) (raise_latched d p b)
theorem evLog_restarts (d : Dev) (c l f : Nat) (x : List Byte) : Restarts ended d (evLog d c l f x) :=
  restarts_of_restart (restart_of_silent (evLog_silent d c l f x)) (evLog_latched d c l f x)
theorem evrCreate_restarts (d : Dev) (r : EvRec) : Restarts ended d (evrCreate d r) :=
  restarts_of_restart (restart_of_silent (evrCreate_silent d r)) (latched_create (Dev.latched_refl d) r)
theorem setCause_restarts (d : Dev) (c : Nat) : Restarts ended d (setCause d c) :=
  restarts_of_restart (restart_of_uncaused (setCause_uncaused d c)) (setCause_latched d c)
theorem svcPin_restarts (d : Dev) : Restarts ended d (svcPin d) :=
  restarts_of_restart (restart_of_uncaused (svcPin_uncaused d)) (latched_of_pages (svcPin_pages d))

/-! ### The tamper-counter step -/

theorem counterFull_restarts (d : Dev) : Restarts ended d (counterFull d) :=
  restarts_trans (b := { d with bat := { d.bat with full := true, locked := true } }) (restarts_of_pages rfl rfl) (setCause_restarts _ _)

theorem counterStep_restarts (d : Dev) (f : Fuse) (bad : List Nat) : Restarts ended d (counterStep d f bad).1 := by
  unfold counterStep
  split
  · exact counterFull_restarts d
  · dsimp only
    refine restarts_trans (restarts_ite (fun _ => counterFull_restarts d) (restarts_refl d)) (restarts_ite (fun _ => ?_) (restarts_refl _))
    exact restarts_trans (raise_restarts _ tmpPage 4) (setCause_restarts _ 10)

theorem counterDrain_restarts (n : Nat) (d : Dev) (f : Fuse) (bad : List Nat) : Restarts ended d (counterDrain n d f bad).1 := by
  induction n generalizing d f with
  | zero =>
    rw [counterDrain]
    exact restarts_of_pages rfl rfl
  | succ n ih =>
    rw [counterDrain]
    exact restarts_trans (counterStep_restarts d f bad) (ih _ _)

theorem counterBoot_restarts (d : Dev) (f : Fuse) (bad : List Nat) : Restarts ended d (counterBoot d f bad).1 := counterDrain_restarts _ _ _ _

/-! ### The life-cycle step -/

theorem lcs_restarts (d : Dev) (x : Lcs) : Restarts ended d { d with lcs := x } := restarts_of_pages rfl rfl

theorem svc_restarts (d : Dev) (x : Svc) : Restarts ended d { d with svc := x } := restarts_of_pages rfl rfl
theorem acl_restarts (d : Dev) (x : Acl) : Restarts ended d { d with acl := x } := restarts_of_pages rfl rfl

theorem lcCompleted_restarts (d : Dev) (f : Fuse) : Restarts ended d (lcCompleted d f) :=
  restarts_trans (b := { d with lcs := { d.lcs with completed := true } }) (restarts_of_pages rfl rfl)
    (restarts_trans (raise_restarts _ lcsPage 0) (evLog_restarts _ _ _ _ _))

theorem finishJob_restarts (d : Dev) (job : JobId) (o : OutcomeRec) : Restarts ended d (finishJob d job o) where
  jobs h := by
    unfold finishJob modJob
    rw [h]
    rfl
  queues := rfl
  fns := rfl
  cache := id
  session := id
  pwr := rfl
  tick := rfl
  pcycles := rfl
  bbk _ := rfl
  event := latched_of_pages rfl

theorem keeperEnds_restarts (d : Dev) (j : Job) (st det : Byte) : Restarts ended d (keeperEnds d j st det) := by
  have hloads : Restarts ended d (modJob d j.id fun j => if jobEnded j then j else { j with loads := [] }) :=
    ⟨fun h => by unfold modJob; rw [h]; rfl, rfl, rfl, id, id, rfl, rfl, rfl, fun _ => rfl, latched_of_pages rfl⟩
  exact restarts_trans hloads (finishJob_restarts _ _ _)

theorem endDebug_restarts (d : Dev) : Restarts ended d (endDebug d) := by
  by_cases hactive : d.lcs.active = true
  · obtain ⟨-, hsilent⟩ := endDebug_active hactive
    exact restarts_of_restart ((restart_of_silent hsilent).trans rfl) (endDebug_latched d)
  · unfold endDebug
    rw [if_neg hactive]
    exact restarts_refl d

theorem cacheEmptied_restarts (d : Dev) : Restarts ended d (cacheEmptied d) :=
  restarts_trans (restarts_ite (fun _ => restarts_refl d) (raise_restarts _ _ _))
    (restarts_trans (b := wipeCache _) ⟨id, rfl, rfl, fun _ => rfl, id, rfl, rfl, rfl, fun _ => rfl, latched_of_pages rfl⟩ (endDebug_restarts _))

theorem secretsErased_restarts (h : ended) (d : Dev) : Restarts ended d (secretsErased d) :=
  ⟨fun hjobs => by unfold secretsErased; rw [hjobs]; rfl, rfl, rfl, id, id, rfl, rfl, rfl, fun hno => absurd h hno, latched_of_pages rfl⟩

theorem zeroizeAll_restarts (h : ended) (d : Dev) : Restarts ended d (zeroizeAll d) := by
  obtain ⟨held, hsteps⟩ := zeroizeAll_steps d
  rw [hsteps]
  exact restarts_trans (cacheEmptied_restarts d) (restarts_trans (secretsErased_restarts h _)
    (restarts_foldl (fun _ _ => keeperEnds_restarts _ _ _ _) _ _))

theorem lockDevice_restarts (d : Dev) : Restarts ended d (lockDevice d) := by
  obtain ⟨held, hsteps⟩ := lockDevice_steps d
  rw [hsteps]
  exact restarts_trans (b := { d with bat := { d.bat with locked := true } }) (restarts_of_pages rfl rfl)
    (restarts_trans (endDebug_restarts _) (restarts_foldl (fun _ _ => keeperEnds_restarts _ _ _ _) _ _))

theorem closeSession_restarts (d : Dev) (p : Session → Bool) : Restarts ended d (closeSession d p) := by
  unfold closeSession
  split
  · next x hx =>
    refine restarts_ite (fun _ => ?_) (restarts_refl d)
    exact ⟨id, rfl, rfl, id, fun hnone => absurd (hx.symm.trans hnone) (by simp), rfl, rfl, rfl, fun _ => rfl, latched_of_pages rfl⟩
  · exact restarts_refl d

theorem worldsOff_restarts (d : Dev) : Restarts ended d (worldsOff d) :=
  restarts_trans (closeSession_restarts d fun _ => true) (restarts_of_pages rfl rfl)

theorem eolActions_restarts (h : ended) (d : Dev) : Restarts ended d (eolActions d) := by
  unfold eolActions
  dsimp only
  generalize hdenied : List.foldl _ d _ = e
  have hfirst : Restarts ended d e := by
    rw [← hdenied]
    exact restarts_foldl (fun _ _ => finishJob_restarts _ _ _) _ d
  have hoff := restarts_trans (zeroizeAll_restarts h e) (restarts_trans (lockDevice_restarts _) (worldsOff_restarts _))
  exact restarts_trans hfirst (restarts_trans hoff (lcs_restarts _ _))

/-- The entry actions of END_OF_LIFE run in END_OF_LIFE alone. -/
theorem lcBoot_restarts (d : Dev) (f : Fuse) : Restarts (lcState (lcBoot d f).2 = 3) d (lcBoot d f).1 := by
  unfold lcBoot
  dsimp only
  refine restarts_trans ?completed (restarts_ite (fun hdue => eolActions_restarts ?life _) (restarts_refl _))
  case completed =>
    refine restarts_trans ?_ (restarts_ite (fun _ => lcCompleted_restarts _ _) (restarts_refl _))
    exact lcs_restarts _ _
  case life =>
    rw [Bool.and_eq_true, beq_iff_eq] at hdue
    exact hdue.1

/-! ### The rest of the start -/

theorem enterNoService_restarts (d : Dev) (source : Nat) (log : Bool) : Restarts ended d (enterNoService d source log) := by
  unfold enterNoService
  refine restarts_ite (fun _ => restarts_refl d) ?_
  dsimp only
  refine restarts_trans (b := setCause (raise { d with rng := { d.rng with state := 4 } } rngPage 2) 13) ?_
    (restarts_ite (fun _ => evLog_restarts _ _ _ _ _) (restarts_refl _))
  refine restarts_trans (restarts_trans ?_ (raise_restarts _ rngPage 2)) (setCause_restarts _ 13)
  exact restarts_of_pages rfl rfl

theorem rngLeft_restarts (d : Dev) : Restarts ended d (rngLeft d) := by
  unfold rngLeft
  dsimp only
  exact restarts_ite (fun _ => enterNoService_restarts _ _ _) (restarts_refl d)

theorem gapRecord_restarts (d : Dev) : Restarts ended d (gapRecord d) := by
  unfold gapRecord
  dsimp only
  refine restarts_ite (fun _ => restarts_refl d) ?_
  refine restarts_trans (restarts_trans ?_ (evrCreate_restarts _ _)) (raise_restarts _ evrPage 2)
  exact restarts_of_pages rfl rfl

theorem copyAlarms_restarts (d : Dev) : Restarts ended d (copyAlarms d) := by
  unfold copyAlarms
  exact restarts_trans (restarts_foldl (fun _ _ => evrCreate_restarts _ _) _ d) (restarts_of_pages rfl rfl)

theorem recorderStart_restarts (d : Dev) : Restarts ended d (recorderStart d) := by
  unfold recorderStart
  dsimp only
  refine restarts_ite (fun _ => restarts_refl d) ?_
  refine restarts_trans ?_ (restarts_foldl (fun _ _ => evrCreate_restarts _ _) _ _)
  refine restarts_trans (restarts_trans ?_ (gapRecord_restarts _)) (copyAlarms_restarts _)
  exact restarts_of_pages rfl rfl

theorem cores_restarts (d : Dev) (dead : BitVec 16) (x : Svc) :
    Restarts ended d { d with nv := { d.nv with deadCores := dead }, svc := x } := restarts_of_pages rfl rfl

theorem coresTested_restarts (d : Dev) (bad : BitVec 16) : Restarts ended d (coresTested d bad) := by
  unfold coresTested
  dsimp only
  refine restarts_trans ?_ (restarts_ite (fun _ => setCause_restarts _ 13) (restarts_refl _))
  refine restarts_trans ?_ (restarts_ite (fun _ => setCause_restarts _ 4) (restarts_refl _))
  refine restarts_trans ?_ (restarts_ite (fun _ => setCause_restarts _ 3) (restarts_refl _))
  exact restarts_trans (restarts_ite (fun _ => raise_restarts _ svcPage 0) (restarts_refl d)) (cores_restarts _ _ _)

theorem bootTables_restarts (d : Dev) (b : BootIn) : Restarts ended d (bootTables d b) := restarts_of_pages rfl rfl
theorem bootKeeper_restarts (d : Dev) (f : Fuse) (b : BootIn) : Restarts ended d (bootKeeper d f b) := restarts_of_pages rfl rfl

theorem bootWorlds_restarts (d : Dev) (f : Fuse) (b : BootIn) : Restarts ended d (bootKeeper (bootCores (bootTables d b) b) f b) :=
  restarts_trans (bootTables_restarts d b) (restarts_trans (coresTested_restarts _ _) (bootKeeper_restarts _ f b))

end

/-! ### The cold start in its steps -/

/-- The start is a wake from STANDBY. -/
def wakes (d : Dev) : Bool := d.pwr.sysstate == 4 && d.pwr.resetPend.isNone && !d.bat.onCell

/-- The device that a cold reset begins with. -/
def coldBare (old : Dev) (b : BootIn) : Dev :=
  let d := devCold old.gj7716 old.grade (bootNv old b) { old.bat with onCell := false }
    (old.guards.filter fun (g : Nat × Guard) => g.1 / 0x1000 == tmpPage)
  { d with egress := old.egress, free := old.free, twn := { d.twn with state := twnIdle d false, newId := old.twn.newId },
           pwr := { d.pwr with cause := old.pwr.resetPend.getD 0 } }

/-- The device before the counter and the life cycle are looked at. -/
def coldPinned (old : Dev) (b : BootIn) : Dev :=
  let d := pinsKept old (if wakes old then wakeKeeps old (coldBare old b) else coldBare old b)
  if b.canaryOk then d else batLost d

/-- The device once counter and life cycle are settled, and the fuses. -/
def coldSettled (d : Dev) (f : Fuse) (b : BootIn) : Dev × Fuse :=
  lcBoot (counterBoot d f b.badBits).1 (counterBoot d f b.badBits).2

/-- A power cycle counts, a wake does not. -/
def cycleCounted (wake : Bool) (d : Dev) : Dev := if wake then d else { d with nv := { d.nv with pcycles := d.nv.pcycles + 1 } }

/-- The start is reported. -/
def coldReported (d : Dev) (f : Fuse) (b : BootIn) (wake : Bool) : Dev :=
  let d := svcPin { d with svc := { d.svc with reqDriven := true } }
  let d := evLog d 0x0101 noLine noFn
    (leBytes 1 d.pwr.cause.toNat ++ leBytes 1 (lcState f).toNat ++ leBytes 2 (tamperCount f) ++ [if wake then 1 else 0])
  rngLeft (if b.storeRoomOk then d else setCause d 12)

/-- The worlds start, or the recorder alone in END_OF_LIFE. -/
def coldWorlds (d : Dev) (f : Fuse) (b : BootIn) : Dev × Fuse :=
  if lcState f == 3 then (recorderStart { d with acl := { d.acl with keeper := 0 } }, f) else (bootKeeper (bootCores (bootTables d b) b) f b, f)

theorem coldStart_steps (old : Dev) (f : Fuse) (b : BootIn) : coldStart old f b =
    coldWorlds (coldReported (cycleCounted (wakes old) (coldSettled (coldPinned old b) f b).1) (coldSettled (coldPinned old b) f b).2 b (wakes old))
      (coldSettled (coldPinned old b) f b).2 b := by
  rfl

section
variable {ended : Prop}

theorem coldReported_restarts (d : Dev) (f : Fuse) (b : BootIn) (wake : Bool) : Restarts ended d (coldReported d f b wake) := by
  unfold coldReported
  dsimp only
  refine restarts_trans ?_ (rngLeft_restarts _)
  have hlogged : ∀ e : Dev, Restarts ended e (if b.storeRoomOk then e else setCause e 12) := fun e => by
    split
    · exact restarts_refl e
    · exact setCause_restarts e 12
  refine restarts_trans (restarts_trans ?_ (evLog_restarts _ _ _ _ _)) (hlogged _)
  exact restarts_trans (svc_restarts d _) (svcPin_restarts _)

theorem coldWorlds_restarts (d : Dev) (f : Fuse) (b : BootIn) : Restarts ended d (coldWorlds d f b).1 := by
  unfold coldWorlds
  split
  · exact restarts_trans (acl_restarts d _) (recorderStart_restarts _)
  · exact bootWorlds_restarts d f b

end

theorem coldWorlds_fuse (d : Dev) (f : Fuse) (b : BootIn) : (coldWorlds d f b).2 = f := by
  unfold coldWorlds
  split <;> rfl

theorem coldSettled_restarts (d : Dev) (f : Fuse) (b : BootIn) :
    Restarts (lcState (coldSettled d f b).2 = 3) d (coldSettled d f b).1 :=
  restarts_trans (counterBoot_restarts d f b.badBits) (lcBoot_restarts _ _)

/-! ### What a cold reset begins with -/

theorem bootNv_pcycles {b : BootIn} (h : b.storeRoomOk = true) (d : Dev) : (bootNv d b).pcycles = d.nv.pcycles := by
  unfold bootNv
  dsimp only
  rw [if_pos h]

theorem coldBare_restart {b : BootIn} (h : b.storeRoomOk = true) (old : Dev) : (coldBare old b).restart =
    ([], [], [], [], none, { pwrReset with cause := old.pwr.resetPend.getD 0 }, 0, old.nv.pcycles, old.bat.bbk) := by
  rw [← bootNv_pcycles h old]
  rfl

theorem pinsKept_restart (old d : Dev) : (pinsKept old d).restart = d.restart := rfl
theorem pinsKept_pages (old d : Dev) : (pinsKept old d).pages = d.pages := rfl

/-- A wake keeps the power state of AON and the tick, and reports itself. -/
theorem wakeKeeps_restart (old d : Dev) : ∃ p : Pwr, p.resetPend = none ∧ (wakeKeeps old d).restart =
    (d.jobs, d.queues, d.fns, d.keys.cache, d.crd.session, p, old.tick, d.nv.pcycles, d.bat.bbk) ∧
    (wakeKeeps old d).event (pwrPage 20) 2 = true :=
  ⟨_, rfl, restart_of_silent (raise_silent _ _ _), raise_event _ _ _ (by decide)⟩

theorem coldPinned_cold {old : Dev} {b : BootIn} (hcanary : b.canaryOk = true) (hroom : b.storeRoomOk = true) (hwake : wakes old = false) :
    (coldPinned old b).restart =
      ([], [], [], [], none, { pwrReset with cause := old.pwr.resetPend.getD 0 }, 0, old.nv.pcycles, old.bat.bbk) := by
  unfold coldPinned
  dsimp only
  rw [if_pos hcanary, hwake, if_neg (by decide), pinsKept_restart]
  exact coldBare_restart hroom old

theorem coldPinned_wake {old : Dev} {b : BootIn} (hcanary : b.canaryOk = true) (hroom : b.storeRoomOk = true) (hwake : wakes old = true) :
    (coldPinned old b).event (pwrPage 20) 2 = true ∧ ∃ p : Pwr, p.resetPend = none ∧
      (coldPinned old b).restart = ([], [], [], [], none, p, old.tick, old.nv.pcycles, old.bat.bbk) := by
  obtain ⟨p, hpend, hrestart, hevent⟩ := wakeKeeps_restart old (coldBare old b)
  have hbare := coldBare_restart hroom old
  simp only [Dev.restart, Prod.mk.injEq] at hbare
  obtain ⟨hjobs, hqueues, hfns, hcache, hsession, -, -, hcycles, hbbk⟩ := hbare
  rw [hjobs, hqueues, hfns, hcache, hsession, hcycles, hbbk] at hrestart
  unfold coldPinned
  dsimp only
  rw [if_pos hcanary, hwake, if_pos rfl, pinsKept_restart]
  exact ⟨latched_of_pages (pinsKept_pages old _) _ _ hevent, p, hpend, hrestart⟩

/-- What the whole start leaves of what the cold reset began with. -/
structure Started (e : Dev) (p : Pwr) (t : BitVec 48) (n : Word) : Prop where
  jobs : e.jobs = []
  queues : e.queues = []
  fns : e.fns = []
  cache : e.keys.cache = []
  session : e.crd.session = none
  pwr : e.pwr = p
  tick : e.tick = t
  pcycles : e.nv.pcycles = n

theorem coldStart_started {old : Dev} {b : BootIn} {p : Pwr} {t : BitVec 48}
    (h : (coldPinned old b).restart = ([], [], [], [], none, p, t, old.nv.pcycles, old.bat.bbk)) (f : Fuse) :
    Started (coldStart old f b).1 p t (if wakes old then old.nv.pcycles else old.nv.pcycles + 1) ∧
      (lcState (coldStart old f b).2 ≠ 3 → (coldStart old f b).1.bat.bbk = old.bat.bbk) ∧ (coldPinned old b).latched (coldStart old f b).1 := by
  have hsettled := coldSettled_restarts (coldPinned old b) f b
  rw [coldStart_steps, coldWorlds_fuse]
  generalize coldSettled (coldPinned old b) f b = r at hsettled ⊢
  have hend : Restarts False (cycleCounted (wakes old) r.1) (coldWorlds (coldReported (cycleCounted (wakes old) r.1) r.2 b (wakes old)) r.2 b).1 :=
    restarts_trans (coldReported_restarts _ _ _ _) (coldWorlds_restarts _ _ _)
  have hcount : (cycleCounted (wakes old) r.1).nv.pcycles = if wakes old then r.1.nv.pcycles else r.1.nv.pcycles + 1 := by
    unfold cycleCounted
    cases wakes old <;> rfl
  have hrest : Restarts False { r.1 with nv := (cycleCounted (wakes old) r.1).nv } (cycleCounted (wakes old) r.1) := by
    unfold cycleCounted
    cases wakes old <;> exact restarts_of_pages rfl rfl
  have hall := restarts_trans hrest hend
  simp only [Dev.restart, Prod.mk.injEq] at h
  obtain ⟨hjobs, hqueues, hfns, hcache, hsession, hpwr, htick, hcycles, hbbk⟩ := h
  refine ⟨⟨hall.jobs (hsettled.jobs hjobs), hall.queues.trans (hsettled.queues.trans hqueues), hall.fns.trans (hsettled.fns.trans hfns),
    hall.cache (hsettled.cache hcache), hall.session (hsettled.session hsession), hall.pwr.trans (hsettled.pwr.trans hpwr),
    hall.tick.trans (hsettled.tick.trans htick), ?_⟩, fun hlc => (hall.bbk id).trans ((hsettled.bbk hlc).trans hbbk),
    Dev.latched_trans hsettled.event (Dev.latched_trans (latched_of_pages rfl) hall.event)⟩
  rw [hall.pcycles, hcount, hsettled.pcycles, hcycles]

/-! ### The commands -/

theorem exec_coldReset {s : State} (h : resetHeld s.dev = false) (b : BootIn) : exec (.coldReset b) s =
    .next { s with dev := (coldStart s.dev s.fuse b).1, fuse := (coldStart s.dev s.fuse b).2, mem := memWipe s.mem 0 0x2000000 } := by
  rw [exec, execColdReset, if_neg (by simp [h])]

theorem exec_rstCmdCold (s : State) (i : Ini) (v : Word) : exec (.rstCmdCold i v) s = .next (s.withDev (coldCommand s.dev i v)) := rfl
theorem exec_jtagReset (s : State) : exec .jtagReset s = .next (s.withDev (jtagReset s.dev s.fuse)) := rfl

theorem memGet_tab (m : List Host.Cell) (a : Nat) : memGet m a = tabGet m a 0 := by
  induction m with
  | nil => rfl
  | cons c r ih => simp only [memGet, tabGet, ih]

theorem memGet_memWipe (m : List Host.Cell) (n a : Nat) : memGet (memWipe m 0 n) a = if a < n then 0 else memGet m a := by
  rw [memGet_tab, memGet_tab, memWipe, tabGet_filter fun k => decide (k < 0) || decide (0 + n ≤ k)]
  by_cases h : a < n
  · rw [if_pos h, if_neg (by simp; omega)]
  · rw [if_neg h, if_pos (by simp; omega)]

theorem wakes_iff {d : Dev} : wakes d = true ↔ d.pwr.sysstate = 4 ∧ d.pwr.resetPend = none ∧ d.bat.onCell = false := by
  unfold wakes
  simp [and_assoc]

/-- Settles O51: the start by `coldStart_started`, whose steps all keep what the reset has emptied. -/
theorem coldReset : Obligations.ColdReset := by
  unfold Obligations.ColdReset
  refine ⟨?armed, ?others, ?jtag, ?jtagOff, ?resets, ?held⟩
  case armed =>
    intro s ini v hkeeper hkey hgo
    rw [exec_rstCmdCold, coldCommand, if_neg (by simp [hkeeper, hkey]), if_pos hgo]
    rfl
  case others =>
    intro s ini v h
    refine ⟨_, exec_rstCmdCold s ini v, ⟨rfl, rfl, rfl⟩, ?_⟩
    rw [withDev_dev, coldCommand, if_pos (by simpa using h), ignored_unlogged]
  case jtag =>
    intro s h
    rw [exec_jtagReset, jtagReset, if_pos (by obtain h | h := h <;> rw [h] <;> decide)]
  case jtagOff =>
    intro s h
    rw [exec_jtagReset, jtagReset, if_neg (by obtain h | h := h <;> rw [h] <;> decide)]
    rfl
  case resets =>
    intro s b hcanary hroom h
    have hfree : resetHeld s.dev = false := by
      unfold resetHeld
      obtain h | ⟨hpower, hflushed⟩ := h
      · simp [h]
      · simp [hpower, hflushed]
    have hexec := exec_coldReset hfree b
    refine ⟨_, hexec, rfl, exec_onlyBurns _ s _ hexec, memGet_memWipe s.mem _, ?_⟩
    dsimp only
    cases hwake : wakes s.dev with
    | false =>
      obtain ⟨hstarted, hbbk, -⟩ := coldStart_started (coldPinned_cold hcanary hroom hwake) s.fuse
      rw [hwake] at hstarted
      refine ⟨hstarted.jobs, hstarted.queues, hstarted.fns, hstarted.cache, hstarted.session, congrArg Pwr.resetPend hstarted.pwr, hbbk,
        fun _ => ⟨hstarted.tick, hstarted.pcycles, congrArg Pwr.cause hstarted.pwr⟩, fun hstate hpend hcell => ?_⟩
      exact absurd (hwake.symm.trans (wakes_iff.mpr ⟨hstate, hpend, hcell⟩)) (by decide)
    | true =>
      obtain ⟨hevent, p, hpend, hrestart⟩ := coldPinned_wake hcanary hroom hwake
      obtain ⟨hstarted, hbbk, hlatched⟩ := coldStart_started hrestart s.fuse
      rw [hwake] at hstarted
      obtain ⟨hstate, hnone, hcell⟩ := wakes_iff.mp hwake
      refine ⟨hstarted.jobs, hstarted.queues, hstarted.fns, hstarted.cache, hstarted.session, (congrArg Pwr.resetPend hstarted.pwr).trans hpend, hbbk,
        fun hno => ?_, fun _ _ _ => ⟨hstarted.tick, hstarted.pcycles, hlatched _ _ hevent⟩⟩
      obtain hno | hno | hno := hno
      · exact absurd hstate hno
      · exact absurd hnone hno
      · exact absurd (hcell.symm.trans hno) (by decide)
  case held =>
    intro s b hpend hpower
    have hheld : resetHeld s.dev = true := by
      unfold resetHeld
      simp [Option.isSome_iff_ne_none.mpr hpend, hpower]
    rw [exec, execColdReset, if_pos hheld]

end Sys2Proof.Machine
end

section
/-! PROOFS. Rotations, operating hours, calibration and replacement requests (15 R409, R417-R422). -/

namespace Sys2Proof.Machine

/-! ### The sort of the boundary's orders -/

section
variable {α : Type} (key : α → Nat)

theorem mem_insertBy {a b : α} (l : List α) : b ∈ insertBy key a l ↔ b = a ∨ b ∈ l := by
  induction l with
  | nil => simp [insertBy]
  | cons c r ih =>
    unfold insertBy
    split
    · exact List.mem_cons
    · rw [List.mem_cons, ih, List.mem_cons]
      exact or_left_comm

theorem insertBy_sorted {a : α} {l : List α} (h : l.Pairwise fun x y => key x ≤ key y) :
    (insertBy key a l).Pairwise fun x y => key x ≤ key y := by
  induction l with
  | nil => exact List.pairwise_singleton _ _
  | cons c r ih =>
    obtain ⟨hc, hr⟩ := List.pairwise_cons.mp h
    unfold insertBy
    split
    · next hlt =>
      refine List.pairwise_cons.mpr ⟨fun b hb => ?_, h⟩
      obtain rfl | hb := List.mem_cons.mp hb
      · exact Nat.le_of_lt hlt
      · exact Nat.le_trans (Nat.le_of_lt hlt) (hc b hb)
    · next hle =>
      refine List.pairwise_cons.mpr ⟨fun b hb => ?_, ih hr⟩
      obtain rfl | hb := (mem_insertBy key r).mp hb
      · exact Nat.not_lt.mp hle
      · exact hc b hb

theorem sortBy_spec (l : List α) :
    (∀ b, b ∈ sortBy key l ↔ b ∈ l) ∧ (sortBy key l).Pairwise fun x y => key x ≤ key y := by
  have hfold : ∀ acc : List α, acc.Pairwise (fun x y => key x ≤ key y) →
      (∀ b, b ∈ l.foldl (fun acc a => insertBy key a acc) acc ↔ b ∈ acc ∨ b ∈ l) ∧
      (l.foldl (fun acc a => insertBy key a acc) acc).Pairwise fun x y => key x ≤ key y := by
    induction l with
    | nil => exact fun acc h => ⟨fun b => by simp, h⟩
    | cons a r ih =>
      intro acc h
      obtain ⟨hmem, hsorted⟩ := ih _ (insertBy_sorted key (a := a) h)
      refine ⟨fun b => ?_, hsorted⟩
      rw [List.foldl_cons, hmem, mem_insertBy, List.mem_cons, or_comm (a := b = a), or_assoc]
  obtain ⟨hmem, hsorted⟩ := hfold [] List.Pairwise.nil
  exact ⟨fun b => by rw [sortBy, hmem]; simp, hsorted⟩

theorem mem_sortBy {b : α} (l : List α) : b ∈ sortBy key l ↔ b ∈ l := (sortBy_spec key l).1 b

/-- What a sort puts first has the least key. -/
theorem sortBy_head {a : α} {r l : List α} (h : sortBy key l = a :: r) : a ∈ l ∧ ∀ b ∈ l, key a ≤ key b := by
  obtain ⟨hmem, hsorted⟩ := sortBy_spec key l
  rw [h] at hmem hsorted
  refine ⟨(hmem a).mp List.mem_cons_self, fun b hb => ?_⟩
  obtain rfl | hb := List.mem_cons.mp ((hmem b).mpr hb)
  · exact Nat.le_refl _
  · exact (List.pairwise_cons.mp hsorted).1 b hb

theorem sortBy_nil {l : List α} (h : sortBy key l = []) : l = [] :=
  List.eq_nil_iff_forall_not_mem.mpr fun b hb => by
    have := (mem_sortBy key l).mpr hb
    rw [h] at this
    cases this

end

/-! ### One wing's rotation starts -/

/-- Spares of a wing in a powered domain. -/
def readySpare (d : Dev) (w : Wing) (k : Nat) : Prop := k ∈ wingShelves w ∧ (getUnit d k).state = 1 ∧ domOn d (unitDomain k) = true

theorem mem_spares {d : Dev} {w : Wing} {k : Nat} :
    k ∈ ((wingShelves w).filter fun s => (getUnit d s).state == 1 && domOn d (unitDomain s)) ↔ readySpare d w k := by
  rw [List.mem_filter, Bool.and_eq_true, beq_iff_eq]
  rfl

theorem head?_sortBy_some {α : Type} {key : α → Nat} {l : List α} {a : α} (h : (sortBy key l).head? = some a) : a ∈ l :=
  (mem_sortBy key l).mp (List.mem_of_mem_head? h)

theorem head?_sortBy_none {α : Type} {key : α → Nat} {l : List α} (h : (sortBy key l).head? = none) : l = [] :=
  sortBy_nil key (List.head?_eq_none_iff.mp h)

theorem rotSpare_some {d : Dev} {w : Wing} {u s : Nat} (h : rotSpare d w u = some s) :
    readySpare d w s ∧ (shelfRack s = shelfRack u ∨ ∀ k, readySpare d w k → shelfRack k ≠ shelfRack u) := by
  unfold rotSpare at h
  dsimp only at h
  split at h
  · next x hx =>
    obtain rfl := Option.some.inj h
    obtain ⟨hspare, hrack⟩ := List.mem_filter.mp (head?_sortBy_some hx)
    exact ⟨mem_spares.mp hspare, .inl (by simpa using hrack)⟩
  · next hx =>
    refine ⟨mem_spares.mp (head?_sortBy_some h), .inr fun k hk hrack => ?_⟩
    exact absurd hrack (by simpa using List.filter_eq_nil_iff.mp (head?_sortBy_none hx) k (mem_spares.mpr hk))

theorem rotSpare_none {d : Dev} {w : Wing} {u : Nat} (h : rotSpare d w u = none) (k : Nat) : ¬ readySpare d w k := by
  unfold rotSpare at h
  dsimp only at h
  split at h
  · cases h
  · intro hk
    have hmem := mem_spares.mpr hk
    rw [head?_sortBy_none h] at hmem
    cases hmem

theorem rotationOf_setRotation (d : Dev) (w : Wing) (r : Option Rotation) : rotationOf (setRotation d w r) w = r := by cases w <;> rfl

theorem rotationOf_setRotation_other (d : Dev) {w x : Wing} (h : x ≠ w) (r : Option Rotation) :
    rotationOf (setRotation d w r) x = rotationOf d x := by
  cases w <;> cases x <;> simp_all [rotationOf, setRotation]

theorem rotStart_cases (d : Dev) (w : Wing) : rotStart d w = d ∨
    rotStart d w = { d with svc := { d.svc with nospare := satInc d.svc.nospare } } ∨ ∃ r, rotStart d w = setRotation d w r := by
  unfold rotStart
  split
  · exact .inl rfl
  · dsimp only
    split
    · exact .inl rfl
    · split
      · exact .inr (.inl rfl)
      · exact .inr (.inr ⟨_, rfl⟩)

/-- A start changes the wings' rotations and the count of missing spares alone. -/
theorem rotStart_only (d : Dev) (w : Wing) :
    rotStart d w = { d with wings := (rotStart d w).wings, svc := { d.svc with nospare := (rotStart d w).svc.nospare } } := by
  obtain h | h | ⟨r, h⟩ := rotStart_cases d w
  · rw [h]
  · rw [h]
  · rw [h]
    cases w <;> rfl

theorem rotationOf_rotStart_other (d : Dev) {w x : Wing} (h : x ≠ w) : rotationOf (rotStart d w) x = rotationOf d x := by
  obtain hr | hr | ⟨r, hr⟩ := rotStart_cases d w
  · rw [hr]
  · rw [hr]
    cases x <;> rfl
  · rw [hr]
    exact rotationOf_setRotation_other d h r

/-- A wing's rotation as it starts: with the ACTIVE shelf tested longest ago and a spare, or not for want of a spare. -/
def RotationBegins (d : Dev) (w : Wing) (r : Option Rotation) : Prop :=
  (∃ due spare, r = some { phase := 0, due := BitVec.ofNat 16 due, spare := BitVec.ofNat 16 spare } ∧
    due ∈ wingShelves w ∧ (getUnit d due).state = 0 ∧
    (∀ k ∈ wingShelves w, (getUnit d k).state = 0 → (getUnit d due).lastTest.toNat ≤ (getUnit d k).lastTest.toNat) ∧
    readySpare d w spare ∧ (shelfRack spare = shelfRack due ∨ ∀ k, readySpare d w k → shelfRack k ≠ shelfRack due)) ∨
  (r = none ∧ ∀ k, ¬ readySpare d w k)

theorem rotStart_begins {d : Dev} {w : Wing} {u : Nat} (hnone : rotationOf d w = none) (hivl : bits (svcCtl d) 0 16 ≠ 0)
    (hu : u ∈ wingShelves w) (hactive : (getUnit d u).state = 0) : RotationBegins d w (rotationOf (rotStart d w) w) := by
  unfold rotStart
  rw [if_neg (by simp [hnone, hivl])]
  dsimp only
  split
  · next hact =>
    have hmem : u ∈ (wingShelves w).filter fun u => (getUnit d u).state == 0 := List.mem_filter.mpr ⟨hu, by simp [hactive]⟩
    rw [sortBy_nil _ (sortBy_nil _ hact)] at hmem
    cases hmem
  · next due rest hact =>
    obtain ⟨hdue, hleast⟩ := sortBy_head _ hact
    obtain ⟨hshelf, hstate⟩ := List.mem_filter.mp ((mem_sortBy _ _).mp hdue)
    split
    · next hspare =>
      refine .inr ⟨?_, fun k => rotSpare_none hspare k⟩
      rw [← hnone]
      cases w <;> rfl
    · next s hspare =>
      obtain ⟨hready, hrack⟩ := rotSpare_some hspare
      refine .inl ⟨due, s, rotationOf_setRotation _ _ _, hshelf, by simpa using hstate, fun k hk hkactive => ?_, hready, hrack⟩
      exact hleast k ((mem_sortBy _ _).mpr (List.mem_filter.mpr ⟨hk, by simp [hkactive]⟩))

/-! ### The three wings -/

/-- The units, the guards and the power state decide how a rotation begins. -/
theorem rotationBegins_congr {d e : Dev} (hunits : e.units = d.units) (hgj : e.gj7716 = d.gj7716) (hpwr : e.pwr = d.pwr) {w : Wing} {r : Option Rotation}
    (h : RotationBegins e w r) : RotationBegins d w r := by
  have hunit : ∀ k, getUnit e k = getUnit d k := fun k => by unfold getUnit; rw [hunits, hgj]
  have hdom : ∀ n, domOn e n = domOn d n := fun n => by unfold domOn getDom; rw [hpwr]
  unfold RotationBegins readySpare at h ⊢
  simpa only [hunit, hdom] using h

theorem foldl_rotStart_only (l : List Wing) (d : Dev) : l.foldl rotStart d =
    { d with wings := (l.foldl rotStart d).wings, svc := { d.svc with nospare := (l.foldl rotStart d).svc.nospare } } := by
  induction l generalizing d with
  | nil => rfl
  | cons w r ih =>
    rw [List.foldl_cons, ih, rotStart_only d w]

theorem foldl_rotStart_other {l : List Wing} {w : Wing} (h : w ∉ l) (d : Dev) : rotationOf (l.foldl rotStart d) w = rotationOf d w := by
  induction l generalizing d with
  | nil => rfl
  | cons a r ih =>
    obtain ⟨hne, hr⟩ := not_or.mp (List.mem_cons.not.mp h)
    rw [List.foldl_cons, ih hr, rotationOf_rotStart_other _ hne]

theorem exec_rotationStart (s : State) : exec .rotationStart s = .next (s.withDev ([Wing.pk, .sym, .hsh].foldl rotStart s.dev)) := rfl

theorem foldl_rotStart_begins {l : List Wing} (hl : l.Nodup) {w : Wing} (hw : w ∈ l) {d : Dev} {u : Nat} (hnone : rotationOf d w = none)
    (hivl : bits (svcCtl d) 0 16 ≠ 0) (hu : u ∈ wingShelves w) (hactive : (getUnit d u).state = 0) :
    RotationBegins d w (rotationOf (l.foldl rotStart d) w) := by
  induction l generalizing d with
  | nil => cases hw
  | cons a r ih =>
    obtain ⟨ha, hr⟩ := List.nodup_cons.mp hl
    rw [List.foldl_cons]
    obtain rfl | hmem := List.mem_cons.mp hw
    · rw [foldl_rotStart_other ha]
      exact rotStart_begins hnone hivl hu hactive
    · have hne : w ≠ a := fun he => ha (he ▸ hmem)
      have honly := rotStart_only d a
      generalize hd : rotStart d a = e at honly
      have hnone' : rotationOf e w = none := by rw [← hd, rotationOf_rotStart_other _ hne, hnone]
      refine rotationBegins_congr (by rw [honly]) (by rw [honly]) (by rw [honly]) (ih hr hmem hnone' ?_ ?_)
      · rw [honly]
        exact hivl
      · rw [honly]
        exact hactive

/-- Settles O13: each wing by `rotStart_begins`, the other wings leaving its shelves and its rotation. -/
theorem rotationStart : Obligations.RotationStart := by
  unfold Obligations.RotationStart
  intro s w u0 hnone hivl hu hactive
  refine ⟨_, exec_rotationStart s, ⟨rfl, rfl, rfl⟩, foldl_rotStart_only _ _, ?_⟩
  rw [withDev_dev]
  have hwing : w ∈ [Wing.pk, .sym, .hsh] := by cases w <;> decide
  obtain ⟨due, spare, hr, hdue, hstate, hleast, ⟨hshelf, hspare, hon⟩, hrack⟩ | ⟨hr, hno⟩ := foldl_rotStart_begins (by decide) hwing hnone hivl hu hactive
  · refine .inl ⟨due, spare, hr, hdue, hstate, hleast, hshelf, hspare, hon, hrack.imp id fun h k hk hsame hkspare => ?_⟩
    exact Bool.eq_false_iff.mpr fun hkon => h k ⟨hk, hkspare, hkon⟩ hsame
  · exact .inr ⟨hr, fun k hk hkspare => Bool.eq_false_iff.mpr fun hkon => hno k ⟨hk, hkspare, hkon⟩⟩

/-! ### The store room -/

theorem exec_operatingHour (s : State) (average peak : BitVec 16) :
    exec (.operatingHour average peak) s = .next (s.withDev (operatingHour s.dev average peak)) := rfl
theorem exec_voltageCalibration (s : State) : exec .voltageCalibration s = .next (s.withDev (calibrate s.dev)) := rfl
theorem exec_svcReqsetSet (s : State) (i : Ini) (v : Word) : exec (.svcReqsetSet i v) s = .next (s.withDev (reqsetSet s.dev i v)) := rfl
theorem exec_svcReqsetClear (s : State) (i : Ini) (v : Word) :
    exec (.svcReqsetClear i v) s = .next (s.withDev (reqsetClear s.dev s.fuse i v)) := rfl

/-- The parts of the non-volatile state and the device that no cause touches. -/
theorem setCause_keeps (d : Dev) (c : Nat) : (setCause d c).nv.hours = d.nv.hours ∧ (setCause d c).nv.frac = d.nv.frac ∧
    (setCause d c).nv.tavg = d.nv.tavg ∧ (setCause d c).nv.bands = d.nv.bands ∧ (setCause d c).jobs = d.jobs ∧
    (setCause d c).units = d.units ∧ (setCause d c).guards = d.guards := by
  have h := setCause_uncaused d c
  have hnv : (setCause d c).uncaused.nv = d.uncaused.nv := congrArg Dev.nv h
  refine ⟨?_, ?_, ?_, ?_, uncaused_jobs h, uncaused_units h, uncaused_guards h⟩
  · have := congrArg Nv.hours hnv; exact this
  · have := congrArg Nv.frac hnv; exact this
  · have := congrArg Nv.tavg hnv; exact this
  · have := congrArg Nv.bands hnv; exact this

theorem setCause_set (d : Dev) {c : Nat} (hc : c < 15) : (setCause d c).nv.causes.getLsbD c = true := by
  rw [setCause_causes]
  split
  · next h => exact h
  · rw [getLsbD_setBit _ hc]
    simp

/-- The device with an hour counted. -/
def hourCounted (d : Dev) (average peak : BitVec 16) : Dev :=
  { d with nv := { d.nv with
    hours := d.nv.hours + 1, frac := d.nv.frac - hourCycles, tavg := average,
    tpeak := if d.nv.hours = 0 || d.nv.tpeak.toInt < peak.toInt then peak else d.nv.tpeak
    bands := d.nv.bands.set (tempBand average) (d.nv.bands.getD (tempBand average) 0 + 1) } }

theorem operatingHour_counts {d : Dev} (h : hourCycles ≤ d.nv.frac) (average peak : BitVec 16) : operatingHour d average peak =
    if 350640 ≤ (d.nv.hours + 1).toNat then setCause (hourCounted d average peak) 11 else hourCounted d average peak := by
  unfold operatingHour
  rw [if_neg (Nat.not_lt.mpr h)]
  rfl

/-- The voltage of a point as calibration raises it. -/
def voltRaised (d : Dev) (n : Nat) : Dev :=
  setGuard d (clkAddr (0x054 + 4 * n))
    { val := put 0 (bits (guardVal d (clkAddr (0x054 + 4 * n))) 0 10 + 5),
      shadow := ~~~ put 0 (bits (guardVal d (clkAddr (0x054 + 4 * n))) 0 10 + 5), pend := none }

theorem calibrate_raises {d : Dev} (hkeeper : d.acl.keeper = 2) (hsrc : d.pwr.src ≠ 0) (hmargin : d.svc.margin.toNat < 30)
    (hroom : d.pwr.point = 0 → bits (guardVal d (clkAddr 0x054)) 0 10 + 5 ≤ 850) (hlock : (getPage d (clkPage 0)).lock = false) :
    calibrate d = keepVolts (voltChanged (raise (voltRaised d d.pwr.point.toNat) svcPage 5) d.pwr.point.toNat) := by
  have hfits : ¬ (d.pwr.point.toNat = 0 ∧ 850 < bits (guardVal d (clkAddr (0x054 + 4 * d.pwr.point.toNat))) 0 10 + 5) := by
    rintro ⟨hzero, hover⟩
    have hpoint : d.pwr.point = 0 := BitVec.eq_of_toNat_eq hzero
    rw [hzero] at hover
    exact absurd (hroom hpoint) (Nat.not_le.mpr hover)
  unfold calibrate
  rw [if_neg (by simpa [keeperPresent, hkeeper, Nat.not_le.mpr hmargin] using hsrc)]
  dsimp only
  rw [if_neg (by simpa using hfits), unlessLocked_unlocked hlock]
  rfl

/-- The calibrated voltages as the store room keeps them. -/
def voltsKept (d : Dev) : Dev :=
  { d with nv := { d.nv with volts := (List.range 4).map fun p => BitVec.ofNat 10 (bits (guardVal d (clkAddr (0x054 + 4 * p))) 0 10) } }

theorem keepVolts_or (d : Dev) : keepVolts d = voltsKept d ∨ keepVolts d = setCause (voltsKept d) 7 := by
  unfold keepVolts
  dsimp only
  split
  · exact .inr rfl
  · exact .inl rfl

/-- Keeping the voltages touches the non-volatile state and the causes. -/
theorem keepVolts_keeps (d : Dev) : (keepVolts d).guards = d.guards ∧ (keepVolts d).jobs = d.jobs ∧ (keepVolts d).units = d.units ∧
    d.latched (keepVolts d) := by
  have hkept : d.latched (voltsKept d) := latched_of_pages rfl
  obtain h | h := keepVolts_or d
  · rw [h]
    exact ⟨rfl, rfl, rfl, hkept⟩
  · obtain ⟨-, -, -, -, hjobs, hunits, hguards⟩ := setCause_keeps (voltsKept d) 7
    rw [h]
    exact ⟨hguards, hjobs, hunits, Dev.latched_trans hkept (setCause_latched _ 7)⟩

/-- Settles O15: an hour by `operatingHour_counts`, a calibration by `calibrate_raises`, the requests by what a cause changes. -/
theorem storeRoom : Obligations.StoreRoom := by
  unfold Obligations.StoreRoom
  refine ⟨?hour, ?calibrates, ?sets, ?clears, ?refused⟩
  case hour =>
    intro s average peak hfrac
    refine ⟨_, exec_operatingHour s average peak, ⟨rfl, rfl, rfl⟩, ?_⟩
    rw [withDev_dev, operatingHour_counts hfrac]
    split
    · obtain ⟨hhours, hleft, havg, hbands, hjobs, hunits, hguards⟩ := setCause_keeps (hourCounted s.dev average peak) 11
      exact ⟨hhours, hleft, havg, hbands, fun _ => setCause_set _ (by decide), hjobs, hunits, hguards⟩
    · next hyoung => exact ⟨rfl, rfl, rfl, rfl, fun hold => absurd hold hyoung, rfl, rfl, rfl⟩
  case calibrates =>
    intro s hkeeper hsrc hmargin hroom hlock
    refine ⟨_, exec_voltageCalibration s, ⟨rfl, rfl, rfl⟩, ?_⟩
    rw [withDev_dev, calibrate_raises hkeeper hsrc hmargin hroom hlock]
    generalize s.dev.pwr.point.toNat = n
    obtain ⟨hguards, hjobs, hunits, hlatched⟩ := keepVolts_keeps (voltChanged (raise (voltRaised s.dev n) svcPage 5) n)
    have honly := voltChanged_only (raise (voltRaised s.dev n) svcPage 5) n
    have hstepGuards := hguards.trans ((congrArg Dev.guards honly).trans (raise_guards _ _ _))
    have hval := guardVal_congr hstepGuards
    refine ⟨?_, hlatched _ _ (latched_of_pages (congrArg Dev.pages honly) _ _ (raise_event _ _ _ (by decide))), fun a ha => ?_, ?_, ?_⟩
    · rw [hval, guardVal, voltRaised, getGuard_setGuard]
    · rw [hval, guardVal, voltRaised, getGuard_setGuard_other _ _ ha]
      rfl
    · rw [hjobs, honly]
      exact raise_jobs _ _ _
    · rw [hunits, honly]
      exact raise_units _ _ _
  case sets =>
    intro s ini v hok hset
    refine ⟨_, exec_svcReqsetSet s ini v, ⟨rfl, rfl, rfl⟩, ?_⟩
    have hwrite : reqsetSet s.dev ini v = setCause s.dev 14 := by
      unfold reqsetSet
      rw [if_neg (by simp [hok]), if_pos hset]
    rw [hwrite, withDev_dev, setCause_causes]
    refine ⟨?_, fun h => ?_⟩
    · split
      · next h =>
        refine BitVec.eq_of_getLsbD_eq fun k hk => Eq.trans ?_ (getLsbD_setBit s.dev.nv.causes (k := 14) (by decide) k).symm
        by_cases hk14 : k = 14
        · rw [hk14, h, Bool.true_or]
        · rw [decide_eq_false hk14, Bool.or_false]
      · rfl
    · unfold setCause
      rw [if_pos h]
      rfl
  case clears =>
    intro s ini v hok hclear hlc
    refine ⟨_, exec_svcReqsetClear s ini v, ⟨rfl, rfl, rfl⟩, ?_⟩
    rw [withDev_dev, reqsetClear, if_neg (by simp [hok]), if_neg (by simp [hclear]), if_neg (by simp [hlc]), svcPin_only]
  case refused =>
    intro s ini v hok hclear hlc
    refine ⟨_, exec_svcReqsetClear s ini v, ⟨rfl, rfl, rfl⟩, ?_⟩
    rw [withDev_dev, reqsetClear, if_neg (by simp [hok]), if_neg (by simp [hclear]), if_pos (by simpa using hlc), ignored_unlogged]

end Sys2Proof.Machine
end

section
/-! PROOFS. The twin link: training, loss, timers (16 R424-R426, R438). -/

namespace Sys2Proof.Machine

/-! ### The state of the link -/

/-- The device with the link in a state. -/
def linkAt (d : Dev) (st : BitVec 3) : Dev := { d with twn := { d.twn with state := st } }

theorem twnState_same {d : Dev} {st : BitVec 3} (h : d.twn.state = st) : twnState d st = d := by
  unfold twnState
  rw [if_pos (by simpa using h)]

theorem linkAt_same {d : Dev} {st : BitVec 3} (h : d.twn.state = st) : linkAt d st = d := by
  unfold linkAt
  rw [← h]

/-- A change of state reports and records itself, and changes nothing else. -/
theorem twnState_silent (d : Dev) (st : BitVec 3) : (twnState d st).silent = (linkAt d st).silent := by
  by_cases h : d.twn.state = st
  · rw [twnState_same h, linkAt_same h]
  · unfold twnState
    rw [if_neg (by simpa using h)]
    dsimp only
    rw [evLog_silent, apply_ite Dev.silent, raise_silent, apply_ite Dev.silent, raise_silent, ite_self, ite_self]
    rfl

theorem twnState_twn (d : Dev) (st : BitVec 3) : (twnState d st).twn = { d.twn with state := st } := silent_twn (twnState_silent d st)

theorem twnState_latched (d : Dev) (st : BitVec 3) : d.latched (twnState d st) := by
  unfold twnState
  split
  · exact Dev.latched_refl d
  · dsimp only
    refine Dev.latched_trans (latched_of_pages (e := linkAt d st) rfl) ?_
    refine Dev.latched_trans ?_ (evLog_latched _ _ _ _ _)
    split
    · exact raise_latched _ _ _
    · split
      · exact raise_latched _ _ _
      · exact Dev.latched_refl _

/-- JOINED and LOST are reported as they are entered. -/
theorem twnState_event {d : Dev} {st : BitVec 3} (h : d.twn.state ≠ st) {b : Nat} (hb : st = 4 ∧ b = 0 ∨ st = 5 ∧ b = 1) :
    (twnState d st).event twnPage b = true := by
  unfold twnState
  rw [if_neg (by simpa using h)]
  dsimp only
  refine evLog_latched _ _ _ _ _ _ _ ?_
  obtain ⟨rfl, rfl⟩ | ⟨rfl, rfl⟩ := hb
  · rw [if_pos rfl]
    exact raise_event _ _ _ (by decide)
  · rw [if_neg (by decide), if_pos rfl]
    exact raise_event _ _ _ (by decide)

/-! ### Frames sent again -/

theorem foldl_emit {α : Type} (g : α → Egress) (l : List α) (d : Dev) :
    (l.foldl (fun d r => emit d (g r)) d) = { d with egress := d.egress ++ l.map g } := by
  induction l generalizing d with
  | nil => simp
  | cons a r ih =>
    rw [List.foldl_cons, ih]
    simp [emit]

/-- The frames of the replay buffer from a sequence number on. -/
def replayFrom (d : Dev) (q : Nat) : List (DWord × Byte × Egress) := d.twn.replay.filter fun r => decide (q ≤ r.1.toNat)

theorem resendFrom_eq (d : Dev) (q : Nat) : resendFrom d q =
    { d with twn := { d.twn with resent := satAdd d.twn.resent (replayFrom d q).length }, egress := d.egress ++ (replayFrom d q).map (·.2.2) } :=
  foldl_emit (fun r : DWord × Byte × Egress => r.2.2) (replayFrom d q) _

theorem replayFrom_zero (d : Dev) : replayFrom d 0 = d.twn.replay := by simp [replayFrom]

/-! ### The start of a handshake -/

/-- The link is up, a grant is held, and the keeper world is there: a handshake may start. -/
structure MayGreet (d : Dev) : Prop where
  keeper : keeperPresent d = true
  grant : d.nv.twin.grant ≠ none
  width : d.twn.width ≠ 0
  state : d.twn.state ≠ 6

/-- The HELLO of a draw, as the device sends and keeps it. -/
def helloSent (d : Dev) (bs : List Byte) : Dev :=
  let e := scalarOf p384 (bs.take 56)
  let d := if d.twn.state == 5 then d else twnState d 2
  let body := helloBody d (pointBytes p384 (ecMul p384 e (ecBase p384))) (bs.drop 56)
  twnSendBytes { d with twn := { d.twn with
    keys := none, ephD := beBytes 48 e, nonce := bs.drop 56, hello := body, sentSigned := false, gotSigned := false,
    peer := none, retryAt := none, filling := 0 } } 0x01 body

theorem startHandshake_may {d : Dev} (h : MayGreet d) : startHandshake d =
    match keeperDraw d 88 with | none => retryLater d | some r => helloSent r.2 r.1 := by
  unfold startHandshake
  rw [if_neg (by simpa [h.keeper, h.grant] using ⟨h.width, h.state⟩)]
  cases keeperDraw d 88 <;> rfl

theorem startHandshake_unpaired {d : Dev} (h : d.nv.twin.grant = none) : startHandshake d = d := by
  unfold startHandshake
  rw [if_pos (by simp [h])]

/-- What a HELLO leaves of the link. -/
structure Greets (d e : Dev) (bs : List Byte) : Prop where
  state : e.twn.state = if d.twn.state = 5 then 5 else 2
  keys : e.twn.keys = none
  nonce : e.twn.nonce = bs.drop 56
  sentSigned : e.twn.sentSigned = false
  width : e.twn.width = d.twn.width
  sent : e.egress.getLast? = some (.bytesFrame d.twn.txSeq 0x01 e.twn.hello)

theorem helloSent_greets (d : Dev) (bs : List Byte) : Greets d (helloSent d bs) bs := by
  have htwn : (if d.twn.state == 5 then d else twnState d 2).twn = { d.twn with state := if d.twn.state = 5 then 5 else 2 } := by
    by_cases h : d.twn.state = 5
    · rw [if_pos (by simpa using h), if_pos h, ← h]
    · rw [if_neg (by simpa using h), if_neg h, twnState_twn]
  unfold helloSent
  dsimp only
  generalize (if d.twn.state == 5 then d else twnState d 2) = e at htwn
  have hstate : e.twn.state = if d.twn.state = 5 then 5 else 2 := by rw [htwn]
  have hwidth : e.twn.width = d.twn.width := by rw [htwn]
  have hseq : e.twn.txSeq = d.twn.txSeq := by rw [htwn]
  refine ⟨hstate, rfl, rfl, rfl, hwidth, ?_⟩
  rw [← hseq]
  exact List.getLast?_concat

/-- A handshake that may start: without a draw it is tried later, else a HELLO goes out. -/
theorem startHandshake_outcome {d : Dev} (h : MayGreet d) :
    match keeperDraw d 88 with | none => startHandshake d = retryLater d | some (bs, _) => Greets d (startHandshake d) bs := by
  rw [startHandshake_may h]
  cases hdraw : keeperDraw d 88 with
  | none => rfl
  | some r =>
    obtain ⟨bs, e⟩ := r
    have htwn : e.twn = d.twn := by rw [keeperDraw_only hdraw]
    obtain ⟨hstate, hkeys, hnonce, hsigned, hwidth, hsent⟩ := helloSent_greets e bs
    rw [htwn] at hstate hwidth hsent
    exact ⟨hstate, hkeys, hnonce, hsigned, hwidth, hsent⟩

/-! ### Training and retraining -/

theorem exec_linkTrained (s : State) (l : BitVec 4) : exec (.linkTrained l) s = .next (s.withDev (linkTrained s.dev l)) := rfl
theorem exec_linkRetrain (s : State) : exec .linkRetrain s = .next (s.withDev (retrainLink s.dev)) := rfl
theorem exec_twinLostTimeout (s : State) : exec .twinLostTimeout s = .next (s.withDev (lostTimeout s.dev)) := rfl
theorem exec_trainingRestart (s : State) : exec .trainingRestart s =
    .next (s.withDev (if domOn s.dev 14 then { s.dev with twn := { s.dev.twn with width := 0 } } else s.dev)) := rfl
theorem exec_frameResendTimeout (s : State) : exec .frameResendTimeout s =
    .next (s.withDev (if s.dev.twn.width = 0 then s.dev else resendFrom s.dev 0)) := rfl
theorem exec_idleSendTimer (s : State) : exec .idleSendTimer s =
    .next (s.withDev (if s.dev.twn.width = 0 then s.dev else twnSendBytes s.dev 0x03 [])) := rfl
theorem exec_statusSendTimer (s : State) : exec .statusSendTimer s = .next (s.withDev (sendStatus s.dev s.fuse)) := rfl

/-- The width that training gives: narrower than the lanes' where the link has narrowed before. -/
def widthOf (d : Dev) (l : BitVec 4) : BitVec 3 :=
  if d.twn.wide = true ∨ (lanesWidth l).toNat ≤ d.twn.cap.toNat then lanesWidth l else d.twn.cap

/-- The device with the link trained to a width. -/
def trainedTo (d : Dev) (w : BitVec 3) : Dev := { d with twn := { d.twn with width := w, cap := w, wide := false, lostFrom := none } }

theorem linkTrained_trains {d : Dev} {l : BitVec 4} (hon : domOn d 14 = true) (hdown : d.twn.width = 0) (hlanes : lanesWidth l ≠ 0) :
    linkTrained d l =
      if d.twn.keys.isSome then resendFrom (trainedTo d (widthOf d l)) 0 else startHandshake (trainedTo d (widthOf d l)) := by
  unfold linkTrained
  rw [if_neg (by simpa [hon, hdown] using hlanes)]
  simp only [Bool.or_eq_true, decide_eq_true_eq]
  rfl

theorem retrainLink_up {d : Dev} (h : d.twn.width ≠ 0) : retrainLink d =
    (let e : Dev := { d with twn := { d.twn with
      width := 0, retrains := satInc d.twn.retrains, lostFrom := some (d.twn.lostFrom.getD d.tick) } }
     if d.twn.keys.isSome then e
     else twnState { e with twn := { e.twn with hello := [], peer := none } } (if d.twn.state == 5 then 5 else twnIdle e true)) := by
  unfold retrainLink
  rw [if_neg h]
  cases d.twn.lostFrom <;> rfl

theorem lostTimeout_lost {d : Dev} {t : BitVec 48} (hfrom : d.twn.lostFrom = some t)
    (hover : t.toNat + bits (guardVal d (regAddr twnPage 0x068)) 0 16 ≤ d.tick.toNat) (hgrant : d.nv.twin.grant ≠ none) (hstate : d.twn.state ≠ 6)
    (hparked : d.twn.peerParked = false) : lostTimeout d = enterLost d := by
  unfold lostTimeout
  rw [hfrom]
  dsimp only
  rw [if_neg (Nat.not_lt.mpr hover), if_neg (by simpa [hgrant] using hstate), if_neg (by simp [hparked])]

/-- The device with the link lost, before its state says so. -/
def linkDropped (d : Dev) : Dev :=
  { d with twn := { d.twn with keys := none, width := 0, replay := [], lostFrom := none, hello := [], peer := none, filling := 0, relSent := false } }

theorem enterLost_eq (d : Dev) : enterLost d = twnState (linkDropped d) 5 := rfl

theorem sendStatus_sends {d : Dev} (hup : d.twn.width ≠ 0) (hkeys : d.twn.keys ≠ none) (f : Fuse) : sendStatus d f =
    twnSendBytes { d with twn := { d.twn with statusSent := statusBytes d f } } 0x10 (statusBytes d f) := by
  unfold sendStatus
  rw [if_neg (by simpa [hkeys] using hup)]

theorem sendStatus_down {d : Dev} (h : d.twn.width = 0) (f : Fuse) : sendStatus d f = d := by
  unfold sendStatus
  rw [if_pos (by simp [h])]

/-- Settles O52: training by `linkTrained_trains`, the handshake it starts by `startHandshake_outcome`, the loss by `twnState_silent`. -/
theorem twinLink : Obligations.TwinLink := by
  unfold Obligations.TwinLink
  refine ⟨?resumes, ?unpaired, ?greets, ?retrains, ?restarts, ?lost, ?early, ?restart, ?resends, ?idle, ?status, ?down⟩
  case resumes =>
    intro s l hon hdown hlanes hkeys
    refine ⟨_, exec_linkTrained s l, ⟨rfl, rfl, rfl⟩, ?_⟩
    rw [withDev_dev, linkTrained_trains hon hdown hlanes, if_pos (Option.isSome_iff_ne_none.mpr hkeys), resendFrom_eq, replayFrom_zero]
    exact ⟨rfl, rfl, rfl, rfl, rfl⟩
  case unpaired =>
    intro s l hon hdown hlanes hkeys hgrant
    refine ⟨_, exec_linkTrained s l, ⟨rfl, rfl, rfl⟩, ?_⟩
    rw [withDev_dev, linkTrained_trains hon hdown hlanes, if_neg (by simp [hkeys]), startHandshake_unpaired (by exact hgrant)]
    exact ⟨rfl, rfl⟩
  case greets =>
    intro s l w hon hdown hlanes hcap hkeys hgrant hkeeper hstate hw
    refine ⟨_, exec_linkTrained s l, ⟨rfl, rfl, rfl⟩, ?_⟩
    have hwidth : widthOf s.dev l = w := hw.symm
    have hup : w ≠ 0 := by
      rw [hw]
      split
      · exact hlanes
      · exact hcap
    rw [withDev_dev, linkTrained_trains hon hdown hlanes, if_neg (by simp [hkeys]), hwidth]
    have houtcome := startHandshake_outcome (d := trainedTo s.dev w) ⟨hkeeper, hgrant, hup, hstate⟩
    unfold trainedTo at houtcome ⊢
    split at houtcome
    · next hdraw =>
      rw [hdraw, houtcome]
      exact ⟨rfl, rfl, rfl⟩
    · next bs e hdraw =>
      rw [hdraw]
      exact ⟨houtcome.width, houtcome.state, houtcome.nonce, houtcome.sent⟩
  case retrains =>
    intro s ks hup hkeys
    rw [exec_linkRetrain, retrainLink_up hup, hkeys]
    rfl
  case restarts =>
    intro s hup hkeys
    refine ⟨_, exec_linkRetrain s, ⟨rfl, rfl, rfl⟩, ?_⟩
    rw [withDev_dev, retrainLink_up hup, hkeys]
    dsimp only
    rw [if_neg (by simp), twnState_silent, twnState_twn]
    refine ⟨rfl, hkeys, rfl, rfl, ?_, rfl⟩
    simp only [beq_iff_eq]
    rfl
  case lost =>
    intro s t0 hfrom hover hgrant hstate hparked
    refine ⟨_, exec_twinLostTimeout s, ⟨rfl, rfl, rfl⟩, ?_⟩
    rw [withDev_dev, lostTimeout_lost hfrom hover hgrant hstate hparked, enterLost_eq, twnState_silent, twnState_twn]
    exact ⟨rfl, rfl, rfl, fun h => twnState_event (d := linkDropped s.dev) h (.inr ⟨rfl, rfl⟩), rfl⟩
  case early =>
    intro s t0 hfrom hearly
    rw [exec_twinLostTimeout, lostTimeout, hfrom]
    dsimp only
    rw [if_pos hearly]
    rfl
  case restart =>
    intro s hon
    rw [exec_trainingRestart, if_pos hon]
  case resends =>
    intro s hup
    refine ⟨_, exec_frameResendTimeout s, ⟨rfl, rfl, rfl⟩, ?_⟩
    rw [withDev_dev, if_neg hup, resendFrom_eq, replayFrom_zero]
  case idle =>
    intro s hup
    rw [exec_idleSendTimer, if_neg hup]
  case status =>
    intro s hup hkeys
    refine ⟨_, exec_statusSendTimer s, ⟨rfl, rfl, rfl⟩, ?_⟩
    rw [withDev_dev, sendStatus_sends hup hkeys]
    exact ⟨rfl, rfl, rfl, rfl⟩
  case down =>
    intro s hdown
    rw [exec_idleSendTimer, exec_statusSendTimer, exec_frameResendTimeout, if_pos hdown, if_pos hdown, sendStatus_down hdown]
    exact ⟨rfl, rfl, rfl⟩

end Sys2Proof.Machine
end

section
/-! PROOFS. The mailboxes between the PFs and the porter (18 R477), and the I3C target (18 R478). -/

namespace Sys2Proof.Machine

/-! ### Mailboxes -/

theorem exec_mgtMbSend (s : State) (i : Ini) (k : Bool) : exec (.mgtMbSend i k) s = .next (s.withDev (mboxSend s.dev i k)) := rfl
theorem exec_mgtMbAck (s : State) (i : Ini) (k : Bool) : exec (.mgtMbAck i k) s = .next (s.withDev (mboxAck s.dev i k)) := rfl
theorem exec_mgtMbReply (s : State) (i : Ini) (k : Bool) : exec (.mgtMbReply i k) s = .next (s.withDev (mboxReply s.dev i k)) := rfl

section
variable {d : Dev} {i : Ini} {k : Bool}

/-- A PF's free mailbox takes a message of 1 to 256 bytes. -/
theorem mboxSend_taken (hpf : mboxPf i k = true) (hfree : (getMbox d k).inbusy = false) (hsome : (getMbox d k).inlen.toNat ≠ 0)
    (hfit : (getMbox d k).inlen.toNat ≤ 256) :
    mboxSend d i k = raise (setMbox d k { getMbox d k with inbusy := true, sentLen := (getMbox d k).inlen, stale := false })
      mboxPage (if k then 2 else 0) := by
  unfold mboxSend
  exact if_neg (by simp [hpf, hfree, hsome, hfit])

theorem mboxSend_ignored (h : (getMbox d k).inbusy = true ∨ (getMbox d k).inlen.toNat = 0 ∨ 256 < (getMbox d k).inlen.toNat) :
    mboxSend d i k = ignored d i (mboxAddr k 0) := by
  unfold mboxSend
  refine if_pos ?_
  rcases h with h | h | h <;> simp [h]

theorem mboxAck_pf (hpf : mboxPf i k = true) : mboxAck d i k = setMbox d k { getMbox d k with outvalid := false } := if_pos hpf

theorem mboxReply_porter (hcore : isPorterCore i.id = true) (hfresh : (getMbox d k).stale = false) :
    mboxReply d i k = raise (setMbox d k { getMbox d k with inbusy := false, outvalid := true }) mboxPage (if k then 3 else 1) := by
  unfold mboxReply
  rw [if_neg (by simp [hcore]), if_neg (by simp [hfresh])]

theorem mboxReply_other (hcore : isPorterCore i.id = false) : mboxReply d i k = ignored d i (mboxAddr k 0xC) := by
  unfold mboxReply
  exact if_pos (by simp [hcore])

end

/-- Settles O59: each mailbox command is one case of its definition; an event changes reporting alone, a refusal the log alone. -/
theorem mailboxes : Obligations.Mailboxes := by
  unfold Obligations.Mailboxes
  refine ⟨?_, ?_, ?_, ?_, ?_⟩
  · intro s i k hpf hfree hsome hfit
    refine ⟨_, exec_mgtMbSend s i k, ⟨rfl, rfl, rfl⟩, ?_⟩
    rw [withDev_dev, mboxSend_taken hpf hfree hsome hfit]
    exact ⟨raise_event _ _ _ (by split <;> decide), raise_quiet _ _ _⟩
  · intro s i k _ h
    refine ⟨_, exec_mgtMbSend s i k, ⟨rfl, rfl, rfl⟩, ?_⟩
    rw [withDev_dev, mboxSend_ignored h]
    exact ignored_unlogged _ _ _
  · intro s i k hpf
    rw [exec_mgtMbAck, mboxAck_pf hpf]
  · intro s i k hcore hfresh
    refine ⟨_, exec_mgtMbReply s i k, ⟨rfl, rfl, rfl⟩, ?_⟩
    rw [withDev_dev, mboxReply_porter hcore hfresh]
    exact ⟨raise_event _ _ _ (by split <;> decide), raise_quiet _ _ _⟩
  · intro s i k hcore
    refine ⟨_, exec_mgtMbReply s i k, ⟨rfl, rfl, rfl⟩, ?_⟩
    rw [withDev_dev, mboxReply_other hcore]
    exact ignored_unlogged _ _ _

/-! ### The I3C target -/

theorem exec_entdaa (s : State) (a : BitVec 7) : exec (.entdaa a) s =
    .next (s.withDev (if i3cOn s.dev && !s.dev.mgt.i3c.assigned then i3cAssign s.dev a else s.dev)) := rfl
theorem exec_setdasa (s : State) (n a : BitVec 7) : exec (.setdasa n a) s =
    .next (s.withDev (if i3cOn s.dev && n != 0 && bits s.dev.mgt.i3c.cfg 0 7 == n.toNat && !s.dev.mgt.i3c.assigned then i3cAssign s.dev a
      else emit s.dev .i3cNack)) := rfl
theorem exec_rstdaa (s : State) : exec .rstdaa s = .next (s.withDev (if i3cOn s.dev && s.dev.mgt.i3c.assigned then
    raise (setI3c s.dev { s.dev.mgt.i3c with assigned := false, dyn := 0 }) i3cPage 1 else s.dev)) := rfl
theorem exec_enec (s : State) (b : Byte) : exec (.enec b) s = .next (s.withDev (if i3cOn s.dev then
    setI3c s.dev { s.dev.mgt.i3c with events := s.dev.mgt.i3c.events ||| b } else s.dev)) := rfl
theorem exec_disec (s : State) (b : Byte) : exec (.disec b) s = .next (s.withDev (if i3cOn s.dev then
    setI3c s.dev { s.dev.mgt.i3c with events := s.dev.mgt.i3c.events &&& ~~~ b } else s.dev)) := rfl
theorem exec_getpid (s : State) : exec .getpid s = .next (s.withDev (i3cAnswer s.dev (i3cPid s.dev))) := rfl
theorem exec_getbcr (s : State) : exec .getbcr s = .next (s.withDev (i3cAnswer s.dev [0x06])) := rfl
theorem exec_getdcr (s : State) : exec .getdcr s = .next (s.withDev (i3cAnswer s.dev [0x00])) := rfl
theorem exec_getstatus (s : State) : exec .getstatus s = .next (s.withDev
    (i3cAnswer { s.dev with free := s.dev.free + 1 } (leBytes 2 (Config.freeWord s.dev.free).toNat))) := rfl
theorem exec_i3cPrivateWrite (s : State) (bs : List Byte) : exec (.i3cPrivateWrite bs) s = .next (s.withDev (i3cWrite s.dev bs)) := rfl
theorem exec_i3cPrivateRead (s : State) (n : Nat) : exec (.i3cPrivateRead n) s = .next (s.withDev (i3cRead s.dev n)) := rfl

section
variable {d : Dev}

/-- What an answered assignment leaves. -/
theorem i3cAssign_spec (d : Dev) (a : BitVec 7) : (i3cAssign d a).event i3cPage 1 = true ∧
    (i3cAssign d a).quiet = (setI3c d { d.mgt.i3c with assigned := true, dyn := a }).quiet :=
  ⟨raise_event _ _ _ (by decide), raise_quiet _ _ _⟩

theorem i3cAnswer_held (hon : i3cOn d = true) (haddr : d.mgt.i3c.assigned = true) (bs : List Byte) : i3cAnswer d bs = emit d (.i3c bs) :=
  if_pos (by simp [hon, haddr])

theorem i3cAnswer_nack (h : i3cOn d = false ∨ d.mgt.i3c.assigned = false) (bs : List Byte) : i3cAnswer d bs = emit d .i3cNack :=
  if_neg (by rcases h with h | h <;> simp [h])

theorem i3cWrite_held (hon : i3cOn d = true) (haddr : d.mgt.i3c.assigned = true) (k : Byte) (r : List Byte) :
    i3cWrite d (k :: r) = r.foldl i3cWriteByte (setI3c d { d.mgt.i3c with index := k }) := by
  unfold i3cWrite
  exact if_neg (by simp [hon, haddr])

/-- A byte at an address of the inbox. -/
theorem i3cWriteByte_inbox (h : 0xC0 ≤ d.mgt.i3c.index.toNat) (b : Byte) :
    i3cWriteByte d b = setI3c d { d.mgt.i3c with
      index := d.mgt.i3c.index + 1
      inbox := tabPut d.mgt.i3c.inbox (d.mgt.i3c.index.toNat - 0xC0) b } := by
  unfold i3cWriteByte
  rw [if_neg (by omega), if_neg (by omega), if_pos h]
  rfl

/-- The wake byte, in STANDBY. -/
theorem i3cWriteByte_wake (hindex : d.mgt.i3c.index = 0x80) (hstandby : d.pwr.sysstate = 3) :
    i3cWriteByte d 0xA5 = raise (wakeStandby (setI3c d { d.mgt.i3c with index := d.mgt.i3c.index + 1 })) i3cPage 2 := by
  unfold i3cWriteByte
  rw [if_pos (by rw [hindex]; rfl), if_pos]
  simp [setI3c, hstandby]

theorem i3cRead_held (hon : i3cOn d = true) (haddr : d.mgt.i3c.assigned = true) (n : Nat) :
    i3cRead d n = emit (setI3c d { d.mgt.i3c with index := d.mgt.i3c.index + BitVec.ofNat 8 n })
      (.i3c ((List.range n).map fun i => i3cByte d ((d.mgt.i3c.index.toNat + i) % 256))) := by
  unfold i3cRead
  exact if_neg (by simp [hon, haddr])

/-- Bytes 0x40 to 0x7F read the mailbox that the keeper posts. -/
theorem i3cByte_post (d : Dev) {k : Nat} (hlow : 0x40 ≤ k) (hhigh : k < 0x80) : i3cByte d k = tabGet d.mgt.i3c.post (k - 0x40) 0 := by
  unfold i3cByte
  rw [if_neg (by simp; omega), if_neg (by omega), if_pos hhigh]

end

theorem exec_i3cRequest_nack {s : State} {c : Instr} (h : i3cOn s.dev = false ∨ s.dev.mgt.i3c.assigned = false)
    (hc : c ∈ [Instr.getpid, .getbcr, .getdcr]) : exec c s = .next (s.withDev (emit s.dev .i3cNack)) := by
  simp only [List.mem_cons, List.not_mem_nil, or_false] at hc
  rcases hc with rfl | rfl | rfl
  · rw [exec_getpid, i3cAnswer_nack h]
  · rw [exec_getbcr, i3cAnswer_nack h]
  · rw [exec_getdcr, i3cAnswer_nack h]

/-- Settles O60: each request is one case of the target, and a private transfer is its byte step. -/
theorem i3cTarget : Obligations.I3cTarget := by
  unfold Obligations.I3cTarget
  refine ⟨?_, ?_, ?_, ?_, ?_, ?_, ?_, ?_, ?_, ?_, ?_⟩
  · intro s a hon hfree
    refine ⟨_, exec_entdaa s a, ⟨rfl, rfl, rfl⟩, ?_⟩
    rw [withDev_dev, if_pos (by simp [hon, hfree])]
    exact i3cAssign_spec _ _
  · intro s n a hon hfree hn hstatic
    refine ⟨_, exec_setdasa s n a, ⟨rfl, rfl, rfl⟩, ?_⟩
    have hne : n ≠ 0 := fun h => hn (by rw [h]; rfl)
    rw [withDev_dev, if_pos (by simpa [hon, hfree, hstatic] using hne)]
    exact i3cAssign_spec _ _
  · intro s hon haddr
    refine ⟨_, exec_rstdaa s, ⟨rfl, rfl, rfl⟩, ?_⟩
    rw [withDev_dev, if_pos (by simp [hon, haddr])]
    exact ⟨raise_event _ _ _ (by decide), raise_quiet _ _ _⟩
  · intro s b hon
    rw [exec_enec, if_pos hon]
  · intro s b hon
    rw [exec_disec, if_pos hon]
  · intro s hon haddr
    refine ⟨?_, ?_, ?_, ?_⟩
    · rw [exec_getpid, i3cAnswer_held hon haddr]
      rfl
    · rw [exec_getbcr, i3cAnswer_held hon haddr]
    · rw [exec_getdcr, i3cAnswer_held hon haddr]
    · refine ⟨_, exec_getstatus s, ⟨rfl, rfl, rfl⟩, leBytes 2 (Config.freeWord s.dev.free).toNat, length_leBytes _ _, ?_⟩
      rw [withDev_dev, i3cAnswer_held (d := { s.dev with free := s.dev.free + 1 }) hon haddr]
      rfl
  · exact fun s c h hc => exec_i3cRequest_nack h hc
  · intro s k hon haddr
    rw [exec_i3cPrivateWrite, i3cWrite_held hon haddr]
    rfl
  · intro s k b hon haddr hk
    refine ⟨_, exec_i3cPrivateWrite s _, ⟨rfl, rfl, rfl⟩, ?_⟩
    rw [withDev_dev, i3cWrite_held hon haddr, List.foldl_cons, List.foldl_nil,
      i3cWriteByte_inbox (d := setI3c s.dev { s.dev.mgt.i3c with index := k }) hk]
    exact ⟨rfl, tabGet_put_same s.dev.mgt.i3c.inbox _ b 0, fun j hj => tabGet_put_other s.dev.mgt.i3c.inbox b 0 hj, rfl⟩
  · intro s hon haddr hstandby
    refine ⟨_, exec_i3cPrivateWrite s _, ⟨rfl, rfl, rfl⟩, ?_⟩
    rw [withDev_dev, i3cWrite_held hon haddr, List.foldl_cons, List.foldl_nil,
      i3cWriteByte_wake (d := setI3c s.dev { s.dev.mgt.i3c with index := 0x80 }) rfl hstandby, wakeStandby_asleep (by exact hstandby)]
    exact ⟨by rw [raise_pwr], raise_event _ _ _ (by decide)⟩
  · intro s n hon haddr
    refine ⟨_, exec_i3cPrivateRead s n, ⟨rfl, rfl, rfl⟩, ?_⟩
    rw [withDev_dev, i3cRead_held hon haddr]
    refine ⟨rfl, _, rfl, by simp, ?_⟩
    intro j hj hlow hhigh
    rw [List.getD_eq_getElem?_getD, List.getElem?_map, List.getElem?_range hj]
    exact i3cByte_post _ hlow hhigh

end Sys2Proof.Machine
end

section
/-! PROOFS. The event recorder's flushes, rate windows and snapshot windows (17 R449-R454), and the performance monitors with their dumps
(17 R455-R461). -/

namespace Sys2Proof.Machine

theorem exec_evrFlush (s : State) (i : Ini) :
    exec (.evrFlush i) s = .next (s.withDev { s.dev with evr := { s.dev.evr with flushing := true } }) := rfl
theorem exec_evrFlushDone (s : State) : exec .evrFlushDone s = .next (s.withDev (flushDone s.dev)) := rfl
theorem exec_rateWindowEnd (s : State) (k : BitVec 7) : exec (.rateWindowEnd k) s = .next (s.withDev (rateClose s.dev k.toNat)) := rfl
theorem exec_evrSnapcmdFetch (s : State) (i : Ini) (w : BitVec 2) :
    exec (.evrSnapcmdFetch i w) s = .next (s.withDev (snapFetch s.dev i w)) := rfl
theorem exec_snapFetchDone (s : State) (w : BitVec 2) (r : Bool) : exec (.snapFetchDone w r) s = .next (s.withDev (snapDone s.dev w r)) := rfl

/-! ### Flushes -/

/-- A record of the attic outlives every store. -/
theorem mem_storeRecord_attic {st : List (DWord × EvRec)} {e : DWord × EvRec} (he : e ∈ st) (hattic : e.1.toNat < 4096) (x : DWord × EvRec) :
    e ∈ storeRecord st x := by
  unfold storeRecord
  exact List.mem_append_left _ (List.mem_filter.mpr ⟨he, by simp [inAttic, hattic]⟩)

theorem mem_foldl_storeRecord_attic {e : DWord × EvRec} (hattic : e.1.toNat < 4096) (out : List (DWord × EvRec)) {st : List (DWord × EvRec)}
    (he : e ∈ st) : e ∈ out.foldl storeRecord st :=
  foldl_holds (fun l => e ∈ l) storeRecord (fun _ x hl => mem_storeRecord_attic hl hattic x) out st he

theorem mem_storeRecord_self (st : List (DWord × EvRec)) (e : DWord × EvRec) : e ∈ storeRecord st e := by
  unfold storeRecord
  exact List.mem_append_right _ List.mem_cons_self

section
variable {d : Dev}

/-- On good power every buffered record may be written. -/
theorem flushable_all (h : d.evr.holdFrom = none) (e : DWord × EvRec) : flushable d e = true := by
  unfold flushable
  rw [h]

/-- The device after a flush on good power. -/
def flushed (d : Dev) : Dev :=
  { d with evr := { d.evr with flushing := false, buf := [] }, nv := { d.nv with evStore := d.evr.buf.foldl storeRecord d.nv.evStore } }

theorem flushDone_power (hflush : d.evr.flushing = true) (hstart : d.evr.started = true) (hhold : d.evr.holdFrom = none)
    (hpower : d.pwr.pfState ≠ 1) (hstandby : d.pwr.sysstate ≠ 2) : flushDone d = flushed d := by
  have hout : d.evr.buf.filter (flushable d) = d.evr.buf := List.filter_eq_self.mpr fun e _ => flushable_all hhold e
  have hrest : (d.evr.buf.filter fun e => !flushable d e) = [] := List.filter_eq_nil_iff.mpr fun e _ => by simp [flushable_all hhold e]
  have hfall : (d.pwr.pfState == 1) = false := beq_eq_false_iff_ne.mpr hpower
  have hend : (d.pwr.sysstate == 2) = false := beq_eq_false_iff_ne.mpr hstandby
  unfold flushDone
  rw [if_neg (by simp [hflush, hstart])]
  simp only [hout, hrest, hfall, hend, Bool.false_eq_true, if_false]
  rfl

/-- The flush of a fall of PWR_FAIL_N. -/
theorem flushDone_fall (hflush : d.evr.flushing = true) (hstart : d.evr.started = true) (hpower : d.pwr.pfState = 1)
    (hstandby : d.pwr.sysstate ≠ 2) : (flushDone d).evr.flushing = false ∧ (flushDone d).pwr.pfState = 2 ∧
      (flushDone d).nv.evHigh = d.nv.evNext + 512 := by
  have hfall : (d.pwr.pfState == 1) = true := beq_iff_eq.mpr hpower
  have hend : (d.pwr.sysstate == 2) = false := beq_eq_false_iff_ne.mpr hstandby
  unfold flushDone
  rw [if_neg (by simp [hflush, hstart])]
  simp only [hfall, hend, Bool.false_eq_true, if_true, if_false]
  exact ⟨trivial, trivial, trivial⟩

end

/-! ### Rate windows -/

theorem getRate_setRate (d : Dev) (i : Nat) (r : RateSt) : getRate (setRate d i r) i = r := tabGet_put_same _ _ _ _
theorem getRate_setRate_other (d : Dev) {i j : Nat} (r : RateSt) (h : j ≠ i) : getRate (setRate d i r) j = getRate d j :=
  tabGet_put_other _ _ _ h

theorem getRate_of_rates {d e : Dev} (h : e.evr.rates = d.evr.rates) (i : Nat) : getRate e i = getRate d i := by
  unfold getRate
  rw [h]

theorem evrBits_evr (d : Dev) (r : EvRec) : (evrBits d r).evr = d.evr := by
  unfold evrBits
  dsimp only
  split
  · rw [raise_evr, pmcAny_evr]
  · split
    · rw [raise_evr, pmcAny_evr]
    · exact pmcAny_evr _ _ _

theorem evrBits_nv (d : Dev) (r : EvRec) : (evrBits d r).nv = d.nv := by
  unfold evrBits
  dsimp only
  split
  · rw [raise_nv, pmcAny_nv]
  · split
    · rw [raise_nv, pmcAny_nv]
    · exact pmcAny_nv _ _ _

theorem evrNumber_rates (d : Dev) (r : EvRec) : (evrNumber d r).evr.rates = d.evr.rates := by
  obtain ⟨high, h⟩ := evrRaiseHigh_only d
  unfold evrNumber
  rw [h]

theorem evrDrop_rates (d : Dev) : (evrDrop d).evr.rates = d.evr.rates := by
  unfold evrDrop
  rw [raise_evr]

theorem evrPut_rates (d : Dev) (r : EvRec) : (evrPut d r).evr.rates = d.evr.rates := by
  unfold evrPut
  split
  · rw [evrBits_evr, evrNumber_rates]
  · split
    · split
      · rw [evrBits_evr, evrNumber_rates, evrDrop_rates]
      · rw [evrBits_evr, evrNumber_rates]
    · exact evrDrop_rates d

theorem evrOverflow_rates (d : Dev) : (evrOverflow d).evr.rates = d.evr.rates := by
  unfold evrOverflow
  split
  · rfl
  · rw [evrPut_rates]

theorem evrEarly_rates (d : Dev) (r : EvRec) : (evrEarly d r).evr.rates = d.evr.rates := by
  unfold evrEarly
  dsimp only
  split
  · rfl
  · split
    · split
      · rw [evrDrop_rates]
      · rfl
    · exact evrDrop_rates d

/-- No record changes the rate table. -/
theorem evrCreate_rates (d : Dev) (r : EvRec) : (evrCreate d r).evr.rates = d.evr.rates := by
  unfold evrCreate
  split
  · exact evrEarly_rates d r
  · rw [evrPut_rates, evrOverflow_rates]

theorem evrCreate_getRate (d : Dev) (r : EvRec) (i : Nat) : getRate (evrCreate d r) i = getRate d i := getRate_of_rates (evrCreate_rates d r) i

/-- With room and no drops to report, a record takes the next number and the end of the buffer. -/
theorem evrCreate_numbered {d : Dev} (hstart : d.evr.started = true) (hroom : d.evr.buf.length < 512) (hrun : d.evr.dropRun = 0) (r : EvRec) :
    (evrCreate d r).nv.evNext = d.nv.evNext + 1 ∧ (evrCreate d r).evr.buf = d.evr.buf ++ [(d.nv.evNext, r)] := by
  have hover : evrOverflow d = d := if_pos (by simp [hrun])
  have hput : evrPut d r = evrBits (evrNumber d r) r := if_pos (by simpa [evrFull] using hroom)
  have hcreate : evrCreate d r = evrBits (evrNumber d r) r := by
    unfold evrCreate
    rw [if_neg (by simp [hstart]), hover, hput]
  obtain ⟨high, h⟩ := evrRaiseHigh_only d
  rw [hcreate, evrBits_nv, evrBits_evr]
  unfold evrNumber
  rw [h]
  exact ⟨rfl, rfl⟩

section
variable {d : Dev} {k : Nat}

/-- The rate entry of a window that is over, as the new window opens. -/
def opened (d : Dev) (k : Nat) : Dev :=
  setRate d k { getRate d k with window := d.tick.toNat / rateWindow (getRate d k), seen := 0, dropped := 0 }

/-- The summary record of what a window dropped. -/
def rateSummary (d : Dev) (k : Nat) : EvRec :=
  evStamp (opened d k) 0x0F01 0xFFFF 0xFFFF false (leBytes 2 (bits (getRate d k).eff 0 16) ++ zeros 2 ++ leBytes 4 (getRate d k).dropped
    ++ leBytes 6 (getRate d k).firstT.toNat ++ leBytes 6 (getRate d k).lastT.toNat)

theorem rateClose_within (h : d.tick.toNat / rateWindow (getRate d k) = (getRate d k).window) : rateClose d k = d := if_pos h

theorem rateClose_over (h : d.tick.toNat / rateWindow (getRate d k) ≠ (getRate d k).window) :
    rateClose d k = if (getRate d k).dropped = 0 then opened d k else evrCreate (opened d k) (rateSummary d k) := if_neg h

theorem rateClose_getRate (h : d.tick.toNat / rateWindow (getRate d k) ≠ (getRate d k).window) (j : Nat) :
    getRate (rateClose d k) j = getRate (opened d k) j := by
  rw [rateClose_over h]
  split
  · rfl
  · exact evrCreate_getRate _ _ _

end

/-! ### Snapshot windows -/

section
variable (d : Dev)

theorem getWin_setWin (w : BitVec 2) (x : SnapWin) : getWin (setWin d w x) w = x := by
  unfold getWin setWin
  rcases h : w.toNat with _ | _ | _ | n <;> simp

theorem getWin_setWin_other {w v : BitVec 2} (x : SnapWin) (h : v ≠ w) : getWin (setWin d w x) v = getWin d v := by
  have hn : v.toNat ≠ w.toNat := fun e => h (BitVec.eq_of_toNat_eq e)
  have hw : w.toNat = 0 ∨ w.toNat = 1 ∨ w.toNat = 2 ∨ w.toNat = 3 := by omega
  have hv : v.toNat = 0 ∨ v.toNat = 1 ∨ v.toNat = 2 ∨ v.toNat = 3 := by omega
  unfold getWin setWin
  rcases hw with hw | hw | hw | hw <;> rcases hv with hv | hv | hv | hv <;> simp_all

theorem setWin_only (w : BitVec 2) (x : SnapWin) : setWin d w x = { d with evr := (setWin d w x).evr } := by
  unfold setWin
  split <;> rfl

end

section
variable {d : Dev} {i : Ini} {w : BitVec 2}

theorem snapFetch_taken (howner : winOwner w i = true) (hfree : (getWin d w).busy = false) :
    snapFetch d i w = setWin d w { getWin d w with busy := true } := if_neg (by simp [howner, hfree])

theorem snapFetch_ignored (h : winOwner w i = false ∨ (getWin d w).busy = true) :
    snapFetch d i w = ignored d i (regAddr evrPage (0x108 + 0x80 * w.toNat)) := if_pos (by rcases h with h | h <;> simp [h])

theorem snapDone_busy (h : (getWin d w).busy = true) (readable : Bool) : snapDone d w readable = setWin d w { getWin d w with
    busy := false, result := (snapFind d (getWin d w).seq readable).1, data := (snapFind d (getWin d w).seq readable).2 } := if_pos h

variable {n : DWord} {readable : Bool}

theorem snapFind_future (h : d.nv.evNext.toNat ≤ n.toNat) : snapFind d n readable = (1, zeros 64) := if_pos h

theorem snapFind_buffered {e : DWord × EvRec} (hpast : n.toNat < d.nv.evNext.toNat) (h : (d.evr.buf.find? fun e => e.1 == n) = some e) :
    snapFind d n readable = (0, evBytes e.1 e.2) := by
  unfold snapFind
  rw [if_neg (by omega), h]

theorem snapFind_overwritten (hpast : n.toNat < d.nv.evNext.toNat) (hbuf : (d.evr.buf.find? fun e => e.1 == n) = none)
    (hcircle : 4096 ≤ n.toNat) (hold : n.toNat < (evrOld d).toNat) : snapFind d n readable = (2, zeros 64) := by
  unfold snapFind
  rw [if_neg (by omega), hbuf]
  exact if_pos (by simp [inAttic]; omega)

section
variable (hpast : n.toNat < d.nv.evNext.toNat) (hbuf : (d.evr.buf.find? fun e => e.1 == n) = none)
  (hkept : n.toNat < 4096 ∨ (evrOld d).toNat ≤ n.toNat) (hgood : d.nv.evBad.contains n = false)
include hpast hbuf hkept hgood

theorem snapFind_missing (hstore : (d.nv.evStore.find? fun e => e.1 == n) = none) : snapFind d n readable = (3, zeros 64) := by
  unfold snapFind
  rw [if_neg (by omega), hbuf]
  dsimp only
  rw [if_neg (by simp [inAttic]; omega), if_neg (by simp only [hgood]; exact Bool.false_ne_true), hstore]

theorem snapFind_stored {e : DWord × EvRec} (hstore : (d.nv.evStore.find? fun e => e.1 == n) = some e) :
    snapFind d n readable = if readable then (0, evBytes e.1 e.2) else (4, zeros 64) := by
  unfold snapFind
  rw [if_neg (by omega), hbuf]
  dsimp only
  rw [if_neg (by simp [inAttic]; omega), if_neg (by simp only [hgood]; exact Bool.false_ne_true), hstore]

end

end

/-- Settles O57: a flush on good power writes the whole buffer, a closed window reopens before its summary, and a fetch answers by the first
place that holds its number. -/
theorem eventRecorder : Obligations.EventRecorder := by
  unfold Obligations.EventRecorder
  refine ⟨exec_evrFlush, ?_, ?_, ?_, ?_, ?_, ?_, ?_⟩
  · intro s hflush hstart hhold hpower hstandby
    refine ⟨_, exec_evrFlushDone s, ⟨rfl, rfl, rfl⟩, ?_⟩
    rw [withDev_dev, flushDone_power hflush hstart hhold hpower hstandby]
    refine ⟨rfl, rfl, ?_, fun e he hattic => mem_foldl_storeRecord_attic hattic _ he, rfl⟩
    intro e he
    unfold flushed
    rw [he]
    exact mem_storeRecord_self _ e
  · intro s hflush hstart hpower hstandby
    exact ⟨_, exec_evrFlushDone s, ⟨rfl, rfl, rfl⟩, flushDone_fall hflush hstart hpower hstandby⟩
  · intro s k h
    rw [exec_rateWindowEnd, rateClose_within h]
    rfl
  · intro s k h
    refine ⟨_, exec_rateWindowEnd s k, ⟨rfl, rfl, rfl⟩, rateClose_silent _ _, ?_, ?_, ?_⟩
    · exact (rateClose_getRate h _).trans (getRate_setRate _ _ _)
    · exact fun j hj => (rateClose_getRate h j).trans (getRate_setRate_other _ _ hj)
    · intro hdropped hstart hroom hrun
      rw [withDev_dev, rateClose_over h, if_neg hdropped]
      obtain ⟨hnext, hbuf⟩ := evrCreate_numbered (d := opened s.dev k.toNat) hstart hroom hrun (rateSummary s.dev k.toNat)
      exact ⟨hnext, _, hbuf, rfl⟩
  · intro s i w howner hfree
    refine ⟨_, exec_evrSnapcmdFetch s i w, ⟨rfl, rfl, rfl⟩, ?_⟩
    rw [withDev_dev, snapFetch_taken howner hfree]
    exact ⟨getWin_setWin _ _ _, fun x hx => getWin_setWin_other _ _ hx, setWin_only _ _ _⟩
  · intro s i w h
    refine ⟨_, exec_evrSnapcmdFetch s i w, ⟨rfl, rfl, rfl⟩, ?_⟩
    rw [withDev_dev, snapFetch_ignored h]
    exact ignored_unlogged _ _ _
  · intro s w readable hbusy
    refine ⟨_, exec_snapFetchDone s w readable, ⟨rfl, rfl, rfl⟩, ?_⟩
    rw [withDev_dev, snapDone_busy hbusy, getWin_setWin]
    refine ⟨rfl, rfl, setWin_only _ _ _, ?_, ?_, ?_, ?_⟩
    · intro hfuture
      rw [snapFind_future hfuture]
      exact ⟨rfl, rfl⟩
    · intro r hpast hbuf
      rw [snapFind_buffered hpast hbuf]
      exact ⟨rfl, rfl⟩
    · intro hpast hbuf hcircle hold
      rw [snapFind_overwritten hpast hbuf hcircle hold]
      exact ⟨rfl, rfl⟩
    · intro hpast hbuf hkept hgood
      cases hstore : s.dev.nv.evStore.find? fun e => e.1 == (getWin s.dev w).seq with
      | none =>
        rw [snapFind_missing hpast hbuf hkept hgood hstore]
        exact ⟨rfl, rfl⟩
      | some e =>
        rw [snapFind_stored hpast hbuf hkept hgood hstore]
        cases readable <;> exact ⟨rfl, rfl⟩

/-! ### Monitors -/

theorem exec_pmcDump (s : State) : exec .pmcDump s = .next (s.withDev (dumpsIssue s.dev)) := rfl
theorem exec_pmcClr (s : State) (i : Ini) (m : BitVec 5) : exec (.pmcClr i m) s = act s fun d =>
    if monDenied d i m.toNat then keeperDenied d i (regAddr (pmcPage m.toNat) 0x040)
    else unlessLocked d i (pmcPage m.toNat) 0x040 fun d => monCtl d m.toNat (getMon d m.toNat).en true := rfl
theorem exec_pmcBindWrite (s : State) (i : Ini) (m : BitVec 5) (v : Word) : exec (.pmcBindWrite i m v) s = act s fun d =>
    if monDenied d i m.toNat then keeperDenied d i (regAddr (pmcPage m.toNat) 0x044)
    else unlessLocked d i (pmcPage m.toNat) 0x044 fun d => monBind d i m.toNat v := rfl

section
variable {d : Dev} {i : Ini}

theorem monDenied_false {m : Nat} (h : m < 28 ∨ iniKeeper d i.id = true) : monDenied d i m = false := by
  unfold monDenied
  rcases h with h | h
  · rw [decide_eq_false (by omega), Bool.false_and]
  · rw [h, Bool.not_true, Bool.and_false]

theorem monCtl_clr (d : Dev) (m : Nat) : monCtl d m (getMon d m).en true = setMon d m { getMon d m with clr := true } := by
  unfold monCtl
  dsimp only
  rw [Bool.or_true]

theorem isPf_of_porter (h : isPorterCore i.id = true) : isPf i.id = false := by
  simp only [isPorterCore, Bool.and_eq_true, decide_eq_true_eq] at h
  have h0 : i.id ≠ 0 := fun e => by rw [e] at h; exact absurd h.1 (by decide)
  have h128 : i.id ≠ 128 := fun e => by rw [e] at h; exact absurd h.1 (by decide)
  simpa [isPf] using ⟨h0, h128⟩

theorem monBind_porter (hcore : isPorterCore i.id = true) {m : Nat} (hm : m < 28) (v : Word) :
    monBind d i m v = setMon d m { getMon d m with bind := v &&& 0x800000FF } := by
  unfold monBind
  exact if_neg (by simp [hcore, isPf_of_porter hcore]; omega)

theorem monBind_other (hcore : isPorterCore i.id = false) (hpf : isPf i.id = false) (m : Nat) (v : Word) :
    monBind d i m v = ignored d i (regAddr (pmcPage m) 0x044) := by
  unfold monBind
  exact if_pos (by simp [hcore, hpf])

end

/-! ### Dumps -/

section
variable {d : Dev} {f : Nat}

theorem dumpOne_lost (h : (getFn d f).bme = false ∨ (getFn d f).state ≠ 1) (r : DWord × List Byte) :
    dumpOne d f r = setFn d f { getFn d f with dlost := satInc (getFn d f).dlost } := by
  unfold dumpOne
  refine if_neg ?_
  rcases h with h | h
  · simp [h]
  · simpa using fun _ => h

/-- What a dump that may be issued puts on the function's port. -/
def dumpSent (d : Dev) (f : Nat) (r : DWord × List Byte) : Egress :=
  .dump (BitVec.ofNat 8 f) ((getFn d f).dbase + BitVec.ofNat 64 (128 * (r.1.toNat % dumpRing (getFn d f).dcfg))) r.2

theorem dumpOne_written (hbme : (getFn d f).bme = true) (hready : (getFn d f).state = 1) (r : DWord × List Byte) :
    dumpOne d f r = pmcFn (emit (setFn d f { getFn d f with dwritten := (getFn d f).dwritten + 1 }) (dumpSent d f r)) 0x27 f 128 := by
  unfold dumpOne
  exact if_pos (by simp [hbme, hready])

theorem dumpOne_written_getFn (hbme : (getFn d f).bme = true) (hready : (getFn d f).state = 1) (r : DWord × List Byte) :
    getFn (dumpOne d f r) f = { getFn d f with dwritten := (getFn d f).dwritten + 1 } := by
  rw [dumpOne_written hbme hready, getFn_congr (pmcFn_fns _ _ _ _)]
  exact (getFn_congr (x := emit (setFn d f _) _) (y := setFn d f _) rfl f).trans (getFn_setFn d f _)

/-- Of a function's state a dump changes its two counts alone. -/
theorem dumpOne_quiet (d : Dev) (f : Nat) (r : DWord × List Byte) :
    ∃ written lost, (dumpOne d f r).quiet = (setFn d f { getFn d f with dwritten := written, dlost := lost }).quiet := by
  by_cases h : (getFn d f).bme = true ∧ (getFn d f).state = 1
  · refine ⟨(getFn d f).dwritten + 1, (getFn d f).dlost, ?_⟩
    rw [dumpOne_written h.1 h.2, pmcFn_quiet, emit_quiet]
  · refine ⟨(getFn d f).dwritten, satInc (getFn d f).dlost, ?_⟩
    rw [dumpOne_lost (by simpa [Decidable.or_iff_not_imp_left] using h)]

/-- A device whose functions are put aside, with its reports. -/
def besideFns (d : Dev) : Dev := { d with fns := [] }.quiet

theorem besideFns_setFn (d : Dev) (f : Nat) (x : FnSt) : besideFns (setFn d f x) = besideFns d := rfl

theorem besideFns_of_quiet {a b : Dev} (h : a.quiet = b.quiet) : besideFns a = besideFns b :=
  congrArg (fun d : Dev => { d with fns := [] }) h

theorem dumpOne_besideFns (d : Dev) (f : Nat) (r : DWord × List Byte) : besideFns (dumpOne d f r) = besideFns d := by
  obtain ⟨written, lost, h⟩ := dumpOne_quiet d f r
  rw [besideFns_of_quiet h, besideFns_setFn]

theorem dumpOne_getFn (d : Dev) (f : Nat) (r : DWord × List Byte) (g : Nat) : (getFn (dumpOne d f r) g).dumps = (getFn d g).dumps := by
  obtain ⟨written, lost, h⟩ := dumpOne_quiet d f r
  rw [getFn_congr (quiet_fns h)]
  by_cases hg : g = f
  · rw [hg, getFn_setFn]
  · rw [getFn_setFn_other _ _ hg]

/-- The dumps of one function. -/
def dumpsOf (d : Dev) (v : Nat × FnSt) : Dev :=
  v.2.dumps.foldl (fun d r => dumpOne d v.1 r) (modFn d v.1 fun x => { x with dumps := [] })

theorem dumpsIssue_eq (d : Dev) : dumpsIssue d = d.fns.foldl dumpsOf d := rfl

theorem dumpsOf_besideFns (d : Dev) (v : Nat × FnSt) : besideFns (dumpsOf d v) = besideFns d :=
  foldl_same besideFns (fun d r => dumpOne d v.1 r) (fun d r => dumpOne_besideFns d v.1 r) _ _

theorem dumpsOf_getFn (d : Dev) (v : Nat × FnSt) (g : Nat) :
    (getFn (dumpsOf d v) g).dumps = if g = v.1 then [] else (getFn d g).dumps := by
  have hfold : (getFn (dumpsOf d v) g).dumps = (getFn (modFn d v.1 fun x => { x with dumps := [] }) g).dumps :=
    foldl_same (fun d : Dev => (getFn d g).dumps) (fun d r => dumpOne d v.1 r) (fun d r => dumpOne_getFn d v.1 r g) _ _
  rw [hfold, modFn_eq]
  by_cases hg : g = v.1
  · rw [if_pos hg, hg, getFn_setFn]
  · rw [if_neg hg, getFn_setFn_other _ _ hg]

/-- After its turn no function keeps a dump. -/
theorem dumps_issued (g : Nat) (l : List (Nat × FnSt)) (d : Dev) (h : (getFn d g).dumps = [] ∨ g ∈ l.map Prod.fst) :
    (getFn (l.foldl dumpsOf d) g).dumps = [] := by
  induction l generalizing d with
  | nil => simpa using h
  | cons v r ih =>
    refine ih _ ?_
    rw [dumpsOf_getFn]
    by_cases hg : g = v.1
    · exact .inl (if_pos hg)
    · rw [if_neg hg]
      simpa [hg] using h

end

/-- A function that no entry names has made no dumps. -/
theorem tabGet_absent {α : Type} {t : Tab α} {k : Nat} (h : k ∉ t.map Prod.fst) (x : α) : tabGet t k x = x := by
  induction t with
  | nil => rfl
  | cons p r ih =>
    obtain ⟨j, v⟩ := p
    simp only [List.map_cons, List.mem_cons, not_or] at h
    simp [tabGet, Ne.symm h.1, ih h.2]

theorem dumpsIssue_dumps (d : Dev) (g : Nat) : (getFn (dumpsIssue d) g).dumps = [] := by
  rw [dumpsIssue_eq]
  refine dumps_issued g _ _ ?_
  by_cases h : g ∈ d.fns.map Prod.fst
  · exact .inr h
  · exact .inl (by unfold getFn; rw [tabGet_absent h]; rfl)

theorem dumpsIssue_besideFns (d : Dev) : besideFns (dumpsIssue d) = besideFns d := foldl_same besideFns dumpsOf dumpsOf_besideFns _ _

theorem jobs_of_besideFns {a b : Dev} (h : besideFns a = besideFns b) : a.jobs = b.jobs := (congrArg Dev.jobs h : (besideFns a).jobs = (besideFns b).jobs)

theorem quiet_of_besideFns {a b : Dev} (h : besideFns a = besideFns b) : a.quiet = ({ b with fns := a.fns } : Dev).quiet :=
  congrArg (fun d : Dev => { d with fns := a.fns }) h

/-- Settles O58: the written bits of a monitor wait for the boundary, and a dump is issued or counted lost function by function. -/
theorem monitors : Obligations.Monitors := by
  unfold Obligations.Monitors
  refine ⟨?_, ?_, ?_, ?_, ?_, ?_, fun d f r h => dumpOne_lost h r⟩
  · intro s i m hm hlock
    rw [exec_pmcClr]
    simp only [act, monDenied_false hm, Bool.false_eq_true, if_false, unlessLocked_unlocked hlock, monCtl_clr]
    rfl
  · intro m hclr
    unfold monEffect
    dsimp only
    rw [if_pos hclr]
    exact ⟨rfl, rfl, rfl⟩
  · intro s i m v hcore hm hlock
    rw [exec_pmcBindWrite]
    simp only [act, monDenied_false (.inl hm), Bool.false_eq_true, if_false, unlessLocked_unlocked hlock, monBind_porter hcore hm]
    rfl
  · intro s i m v hcore hpf hlock
    refine ⟨_, exec_pmcBindWrite s i m v, ⟨rfl, rfl, rfl⟩, ?_⟩
    dsimp only
    split
    · exact violate_unlogged _ _ _ _ _ _ _
    · rw [unlessLocked_unlocked hlock, monBind_other hcore hpf]
      exact ignored_unlogged _ _ _
  · intro s
    refine ⟨_, exec_pmcDump s, ⟨rfl, rfl, rfl⟩, dumpsIssue_dumps s.dev, ?_, ?_⟩
    · exact jobs_of_besideFns (dumpsIssue_besideFns s.dev)
    · exact quiet_of_besideFns (dumpsIssue_besideFns s.dev)
  · intro d f q bs hbme hready
    rw [dumpOne_written_getFn hbme hready, dumpOne_written hbme hready]
    exact ⟨rfl, rfl, mem_of_sends (sends_pmcFn _ _ _ _) (List.mem_append_right _ List.mem_cons_self)⟩

end Sys2Proof.Machine
end

section
/-! PROOFS. What a frame in order does first, what the commit of a mirrored change leaves of the link, and the handshake
(16 R426, R429-R431). -/

namespace Sys2Proof.Machine

/-! ### A frame in order (16 R426) -/

theorem fillBit_idle {d : Dev} {b : BitVec 2} (h : d.twn.filling &&& b = 0) : fillBit d b = d := if_pos h

theorem fillAcked_idle {d : Dev} (h : d.twn.filling.getLsbD 0 = false) : fillAcked d = d := by
  have hbit : ∀ x : BitVec 2, x.getLsbD 0 = false → x &&& 1 = 0 := by decide
  unfold fillAcked
  split
  · rfl
  · exact fillBit_idle (hbit _ h)

theorem releaseTry_idle {d : Dev} (h : d.twn.releasing = false) : releaseTry d = d := if_neg (by simp [h])

section
variable {s : State} {h : FrameHdr} {ftype : Nat}

/-- What a frame in order raises and clears is `frameTaken`; its own effect follows. -/
theorem frameIn_order (hup : s.dev.twn.width ≠ 0) (hon : domOn s.dev 14 = true) (hcrc : h.crcOk = true) (hseq : h.seq = s.dev.twn.rxSeq)
    (hsecure : 0x10 ≤ ftype → s.dev.twn.keys ≠ none ∧ h.tagOk = true) (hfilling : s.dev.twn.filling.getLsbD 0 = false) (k : Dev → Dev) :
    frameIn s.dev h ftype k = releaseTry (k (frameTaken s.dev h)) := by
  have hacked : fillAcked (frameTaken s.dev h) = frameTaken s.dev h := fillAcked_idle hfilling
  unfold frameIn
  rw [if_neg (by simpa [hon] using hup), if_neg (by simp [hcrc, hseq]), if_neg (by simp [hseq])]
  by_cases hs : 0x10 ≤ ftype
  · obtain ⟨hkeys, htag⟩ := hsecure hs
    rw [if_neg (by simp [hkeys]), if_neg (by simp [htag])]
    exact congrArg (fun d => releaseTry (k d)) hacked
  · rw [if_neg (by simp [hs]), if_neg (by simp [hs])]
    exact congrArg (fun d => releaseTry (k d)) hacked

/-- A frame whose effect leaves no release waiting. -/
theorem frameIn_good {secure : Bool} (hgood : frameGood s h secure) (hs : 0x10 ≤ ftype → secure = true) {k : Dev → Dev}
    (hk : (k (frameTaken s.dev h)).twn.releasing = (frameTaken s.dev h).twn.releasing) :
    frameIn s.dev h ftype k = k (frameTaken s.dev h) := by
  obtain ⟨hup, hon, hcrc, hseq, hsecure, hfilling, hreleasing⟩ := hgood
  rw [frameIn_order hup hon hcrc hseq (fun hf => hsecure (hs hf)) hfilling, releaseTry_idle (hk.trans hreleasing)]

end

/-! ### What a commit leaves as it is (16 R433, 08 R251-R256) -/

/-- The parts of the device that no object of the hierarchy is in. -/
def Dev.unmirrored (d : Dev) : Twn × List Job × Bat × TwinNv × List JournalEntry × Option (BitVec 256) :=
  (d.twn, d.jobs, d.bat, d.nv.twin, d.nv.journal, d.keys.lineage)

section
variable {d e : Dev} (h : e.unmirrored = d.unmirrored)
include h

theorem unmirrored_twn : e.twn = d.twn := congrArg (·.1) h
theorem unmirrored_jobs : e.jobs = d.jobs := congrArg (·.2.1) h
theorem unmirrored_bat : e.bat = d.bat := congrArg (·.2.2.1) h
theorem unmirrored_twin : e.nv.twin = d.nv.twin := congrArg (·.2.2.2.1) h
theorem unmirrored_journal : e.nv.journal = d.nv.journal := congrArg (·.2.2.2.2.1) h
theorem unmirrored_lineage : e.keys.lineage = d.keys.lineage := congrArg (·.2.2.2.2.2) h

end

theorem raise_unmirrored (d : Dev) (p b : Nat) : (raise d p b).unmirrored = d.unmirrored := by simp [Dev.unmirrored]

theorem putRecord_unmirrored (d : Dev) (r : RecImage) : (putRecord d r).unmirrored = d.unmirrored := by
  unfold putRecord
  extract_lets old nv x same worn nv' e
  have hnv : nv.twin = d.nv.twin ∧ nv.journal = d.nv.journal := by
    simp only [nv]
    split <;> exact ⟨rfl, rfl⟩
  have he : e.unmirrored = d.unmirrored := by
    change (d.twn, d.jobs, d.bat, nv.twin, nv.journal, d.keys.lineage) = _
    rw [hnv.1, hnv.2]
    rfl
  clear_value e
  split
  · rw [raise_unmirrored, he]
  · exact he

theorem numbers_unmirrored (d : Dev) (a b : Word) :
    ({ d with nv := { d.nv with nextRecord := a, nextKey := b } } : Dev).unmirrored = d.unmirrored := rfl

theorem nonceForget_unmirrored (d : Dev) (k : Word) (v : BitVec 16) : (nonceForget d k v).unmirrored = d.unmirrored := by
  unfold nonceForget
  dsimp only
  split
  · rfl
  · split <;> rfl

theorem wipeKey_unmirrored (d : Dev) (e : CacheEnt) : (wipeKey d e).unmirrored = d.unmirrored := by
  unfold wipeKey
  split
  · rw [nonceForget_unmirrored]; rfl
  · rfl

theorem dropEntry_unmirrored (d : Dev) (e : CacheEnt) : (dropEntry d e).unmirrored = d.unmirrored := by
  unfold dropEntry
  split
  · split
    · rw [nonceForget_unmirrored]; rfl
    · rfl
  · exact wipeKey_unmirrored d e

theorem dropEntries_unmirrored (l : List CacheEnt) (d : Dev) : (l.foldl dropEntry d).unmirrored = d.unmirrored :=
  foldl_same Dev.unmirrored dropEntry dropEntry_unmirrored l d

theorem settleKey_unmirrored (d : Dev) (k : Word) : (settleKey d k).unmirrored = d.unmirrored := by
  unfold settleKey
  dsimp only
  split
  · rw [dropEntries_unmirrored]; rfl
  · rfl

theorem putCustody_twin (nv : Nv) (c : Custody) : (putCustody nv c).twin = nv.twin ∧ (putCustody nv c).journal = nv.journal := by
  unfold putCustody
  extract_lets newest c'
  split
  · split <;> exact ⟨rfl, rfl⟩
  · exact ⟨rfl, rfl⟩

theorem applyObj_unmirrored (d : Dev) (o : MirrorObj) : (applyObj d o).unmirrored = d.unmirrored := by
  cases o with
  | record r => exact (numbers_unmirrored (putRecord d r) _ _).trans (putRecord_unmirrored d r)
  | tenant t => rfl
  | tenantDelete n => rfl
  | planSeq q => rfl
  | custody c =>
    obtain ⟨htwin, hjournal⟩ := putCustody_twin d.nv c
    simp only [applyObj, Dev.unmirrored, htwin, hjournal]

/-- The commit of a list of objects. -/
theorem applyObjs_unmirrored (d : Dev) (objs : List MirrorObj) : (applyObjs d objs).unmirrored = d.unmirrored := by
  unfold applyObjs
  dsimp only
  rw [foldl_same Dev.unmirrored settleKey settleKey_unmirrored, foldl_same Dev.unmirrored applyObj applyObj_unmirrored]

theorem noteMirror_twn (d : Dev) (objs : List MirrorObj) (m : DWord) : (noteMirror d objs m).twn = d.twn := rfl

theorem jobBinds_fns (d : Dev) (job : JobId) : jobBinds d job = { d with fns := (jobBinds d job).fns } := by
  unfold jobBinds
  split
  · rfl
  · split
    · rfl
    · refine foldl_holds (fun e : Dev => e = { d with fns := e.fns }) _ ?_ _ d rfl
      intro a b ha
      split
      · unfold bindEntry
        rw [ha]
        rfl
      · exact ha

/-! ### The link through a commit -/

/-- The link's state with its keys. -/
def Dev.bond (d : Dev) : BitVec 3 × Option (List Byte × List Byte) := (d.twn.state, d.twn.keys)

theorem bond_of_unmirrored {d e : Dev} (h : e.unmirrored = d.unmirrored) : e.bond = d.bond := by
  unfold Dev.bond
  rw [unmirrored_twn h]

theorem state_of_bond {d e : Dev} (h : e.bond = d.bond) : e.twn.state = d.twn.state := congrArg (·.1) h
theorem keys_of_bond {d e : Dev} (h : e.bond = d.bond) : e.twn.keys = d.twn.keys := congrArg (·.2) h

theorem finishJob_bond (d : Dev) (job : JobId) (o : OutcomeRec) : (finishJob d job o).bond = d.bond := rfl
theorem jobBinds_bond (d : Dev) (job : JobId) : (jobBinds d job).bond = d.bond := by
  rw [jobBinds_fns]
  rfl
theorem twnSend_bond (d : Dev) (t : Byte) (n m : DWord) (objs : List MirrorObj) (hs : List JournalEntry) :
    (twnSend d t n m objs hs).bond = d.bond := rfl
theorem noteMirror_bond (d : Dev) (objs : List MirrorObj) (m : DWord) : (noteMirror d objs m).bond = d.bond := rfl

theorem applyObjs_bond (d : Dev) (objs : List MirrorObj) : (applyObjs d objs).bond = d.bond := bond_of_unmirrored (applyObjs_unmirrored d objs)

/-- The job or the session of a change that has passed goes on. -/
def changeDone (d : Dev) (c : TwinChange) : Dev :=
  if isCustodyChange c then
    { d with crd := { d.crd with session := d.crd.session.map fun (s : Session) => { sessionWiped s with state := 6 } } }
  else match findJob d c.job with
    | some j => finishJob (jobBinds d c.job) c.job j.res
    | none => d

/-- A change as its originator holds it, committed under its mirror sequence. -/
def changeCommitted (d : Dev) (c : TwinChange) (m : DWord) : Dev := changeDone (noteMirror (applyObjs d c.old) c.objs m) c

theorem commitChange_eq (d : Dev) (c : TwinChange) (m : DWord) : commitChange d c m =
    if !c.sent then dropChange (changeCommitted d c m) c.id
    else if (changeCommitted d c m).twn.state == 4 then twnSend (dropChange (changeCommitted d c m) c.id) 0x23 c.id 0 [] []
    else setOutbox (changeCommitted d c m) (updateFirst (fun x => x.id == c.id) (fun x => { x with done := true }) (changeCommitted d c m).nv.twin.outbox) := rfl

theorem changeDone_bond (d : Dev) (c : TwinChange) : (changeDone d c).bond = d.bond := by
  unfold changeDone
  split
  · rfl
  · split
    · rw [finishJob_bond, jobBinds_bond]
    · rfl

theorem changeCommitted_bond (d : Dev) (c : TwinChange) (m : DWord) : (changeCommitted d c m).bond = d.bond := by
  unfold changeCommitted
  rw [changeDone_bond, noteMirror_bond, applyObjs_bond]

theorem commitChange_bond (d : Dev) (c : TwinChange) (m : DWord) : (commitChange d c m).bond = d.bond := by
  rw [commitChange_eq, ← changeCommitted_bond d c m]
  generalize changeCommitted d c m = e
  split
  · rfl
  · split <;> rfl

theorem settleOne_bond (d : Dev) (c : TwinChange) : (settleOne d c).bond = d.bond := by
  unfold settleOne
  dsimp only
  split
  · split <;> rfl
  · split
    · split
      · rfl
      · split <;> rfl
    · split
      · exact commitChange_bond d c _
      · split <;> rfl

theorem settleOutbox_bond (d : Dev) : (settleOutbox d).bond = d.bond := by
  unfold settleOutbox
  split
  · rfl
  · exact foldl_same Dev.bond settleOne settleOne_bond _ _

theorem reserveStart_bond (d : Dev) (record : Word) (twin : Bool) : (reserveStart d record twin).bond = d.bond := by
  obtain ⟨n, -, -, h | h⟩ := reserveStart_cases d record twin
  · rw [h]; rfl
  · rw [h]; rfl

theorem twnState_bond (d : Dev) (st : BitVec 3) : (twnState d st).bond = (linkAt d st).bond := by
  unfold Dev.bond
  rw [silent_twn (twnState_silent d st)]

/-- At JOINED the link keeps its keys. -/
theorem joinTwin_bond (d : Dev) : (joinTwin d).bond = (linkAt d 4).bond := by
  unfold joinTwin
  dsimp only
  rw [foldl_same Dev.bond _ (fun d n => reserveStart_bond d _ _), foldl_same Dev.bond _ (fun d n => twnSend_bond d _ _ _ _ _), settleOutbox_bond]
  split
  · exact twnState_bond _ 4
  · rw [foldl_same Dev.bond]
    · exact twnState_bond _ 4
    · intro a c
      split
      · rfl
      · rfl

/-! ### The handshake (16 R429-R431) -/

theorem exec_handshakeRetry {s : State} {t : BitVec 48} (hat : s.dev.twn.retryAt = some t) (hdue : t.toNat ≤ s.dev.tick.toNat) :
    exec .handshakeRetry s = .next (s.withDev (startHandshake s.dev)) := by
  rw [exec, execHandshakeRetry, act, hat]
  dsimp only
  rw [if_pos hdue]
  rfl

theorem exec_linkRekey {s : State} (hjoined : s.dev.twn.state = 4) : exec .linkRekey s = .next (s.withDev (startHandshake s.dev)) := by
  rw [exec, execLinkRekey, act, if_pos (by simp [hjoined])]
  rfl

theorem exec_hello (s : State) (h : FrameHdr) (m : HelloMsg) :
    exec (.hello h m) s = .next (s.withDev (frameIn s.dev h 0x01 fun d => onHello d m)) := rfl
theorem exec_signed (s : State) (h : FrameHdr) (sig : List Byte) :
    exec (.signed h sig) s = .next (s.withDev (frameIn s.dev h 0x02 fun d => onSigned d sig)) := rfl

/-- What a failed step of the handshake leaves. -/
structure Failed (d e : Dev) (code : Byte) : Prop where
  herr : e.twn.herr = code
  keys : e.twn.keys = none
  retry : e.twn.retryAt = some (d.tick + 0x100000)
  event : e.event twnPage 3 = true
  releasing : e.twn.releasing = d.twn.releasing

theorem failHandshake_failed (d : Dev) (code : Byte) : Failed d (failHandshake d code) code := by
  unfold failHandshake retryLater
  exact ⟨by rw [raise_twn], by rw [raise_twn], by rw [raise_tick]; rfl, raise_event { d with twn := _ } _ _ (by decide), by rw [raise_twn]⟩

theorem attestSecret_congr {d e : Dev} (h : e.keys = d.keys) : attestSecret e = attestSecret d := by
  unfold attestSecret
  rw [h]

theorem signedDigest_congr {d e : Dev} (hhello : e.twn.hello = d.twn.hello) (hindex : e.nv.twin.index = d.nv.twin.index) (raw : List Byte) :
    signedDigest e raw = signedDigest d raw := by
  unfold signedDigest
  rw [hhello, hindex]

theorem peerDigest_congr {d e : Dev} (h : e.nv = d.nv) : peerDigest e = peerDigest d := by
  unfold peerDigest
  rw [h]

/-- SIGNED goes out with the device's signature. -/
def signedSent (d : Dev) (m : HelloMsg) (sig : List Byte) : Dev :=
  twnSendBytes { d with twn := { d.twn with peer := some m, sentSigned := true } } 0x02 sig

/-- What the device's signature makes of a HELLO that passes its checks. -/
def signedReply (d : Dev) (m : HelloMsg) (o : PkOut) : Dev :=
  match o with
  | .ok sig => finishHandshake (signedSent d m sig) m
  | .bad _ _ => failHandshake d 0x04

theorem finishHandshake_waits {d : Dev} (h : (d.twn.sentSigned && d.twn.gotSigned) = false) (m : HelloMsg) : finishHandshake d m = d := by
  unfold finishHandshake
  rw [h]
  exact if_neg Bool.false_ne_true

section
variable {d : Dev} {m : HelloMsg}

/-- A HELLO may be answered: the device's own stands, and the keeper world is there. -/
structure Greeted (d : Dev) : Prop where
  hello : d.twn.hello ≠ []
  keeper : keeperPresent d = true

theorem Greeted.kept (h : Greeted d) : (if d.twn.hello.isEmpty then startHandshake d else d) = d :=
  if_neg (by simpa using h.hello)

theorem Greeted.answers (h : Greeted d) : ¬ (d.twn.hello.isEmpty || !keeperPresent d) = true := by simp [h.hello, h.keeper]

theorem onHello_chain (h : Greeted d) (hchain : m.chainOk = false) : onHello d m = failHandshake d 0x01 := by
  unfold onHello
  rw [h.kept, if_neg h.answers, if_pos (by simp [hchain])]

theorem onHello_key (h : Greeted d) (hchain : m.chainOk = true) (hkey : sha384 m.attestKey ≠ peerDigest d) :
    onHello d m = failHandshake d 0x02 := by
  unfold onHello
  rw [h.kept, if_neg h.answers, if_neg (by simp [hchain]), if_pos (bne_iff_ne.mpr hkey)]

theorem onHello_seq (h : Greeted d) (hchain : m.chainOk = true) (hkey : sha384 m.attestKey = peerDigest d) (hseq : m.grSeq ≠ d.nv.twin.grSeq) :
    onHello d m = failHandshake d 0x03 := by
  unfold onHello
  rw [h.kept, if_neg h.answers, if_neg (by simp [hchain]), if_neg (fun hne => bne_iff_ne.mp hne hkey), if_pos (bne_iff_ne.mpr hseq)]

/-- A HELLO that is from the peer of the grant in force. -/
structure FromPeer (d : Dev) (m : HelloMsg) : Prop where
  chain : m.chainOk = true
  key : sha384 m.attestKey = peerDigest d
  seq : m.grSeq = d.nv.twin.grSeq

theorem onHello_gone (h : Greeted d) (hpeer : FromPeer d m) (hgone : m.released = true ∨ m.endOfLife = true) :
    onHello d m = failHandshake d 0x08 := by
  unfold onHello
  rw [h.kept, if_neg h.answers, if_neg (by simp [hpeer.chain]), if_neg (fun hne => bne_iff_ne.mp hne hpeer.key),
    if_neg (fun hne => bne_iff_ne.mp hne hpeer.seq), if_pos (by simpa using hgone)]

section
variable (h : Greeted d) (hpeer : FromPeer d m) (hhere : ¬ (m.released = true ∨ m.endOfLife = true))
include h hpeer hhere

theorem onHello_undrawn (hdraw : keeperDraw d 304 = none) : onHello d m = retryLater d := by
  unfold onHello
  rw [h.kept, if_neg h.answers, if_neg (by simp [hpeer.chain]), if_neg (fun hne => bne_iff_ne.mp hne hpeer.key),
    if_neg (fun hne => bne_iff_ne.mp hne hpeer.seq), if_neg (by simpa using hhere), hdraw]

variable {rho : List Byte} {e : Dev} (hdraw : keeperDraw d 304 = some (rho, e))
include hdraw

/-- With a draw, the signature over both HELLOs decides. -/
theorem onHello_drawn {o : PkOut} (hsign : ecdsaSign p384 (beBytes 48 (attestSecret d)) (signedDigest d m.raw) rho = o) :
    onHello d m = signedReply e m o := by
  have hsecret : attestSecret e = attestSecret d := attestSecret_congr (by rw [keeperDraw_only hdraw])
  have hdigest : signedDigest e m.raw = signedDigest d m.raw :=
    signedDigest_congr (by rw [keeperDraw_only hdraw]) (by rw [keeperDraw_only hdraw]) m.raw
  unfold onHello
  -- the signature as a variable: the kernel must not run it
  obtain ⟨sign, hs⟩ : ∃ f, f = ecdsaSign p384 := ⟨_, rfl⟩
  rw [← hs] at hsign ⊢
  rw [h.kept, if_neg h.answers, if_neg (by simp [hpeer.chain]), if_neg (fun hne => bne_iff_ne.mp hne hpeer.key),
    if_neg (fun hne => bne_iff_ne.mp hne hpeer.seq), if_neg (by simpa using hhere), hdraw]
  dsimp only
  rw [hsecret, hdigest, hsign]
  cases o <;> rfl

end

end

/-! ### What a HELLO and a SIGNED come to -/

theorem signedReply_ok {d : Dev} (h : d.twn.gotSigned = false) (m : HelloMsg) (sig : List Byte) : signedReply d m (.ok sig) = signedSent d m sig :=
  finishHandshake_waits (d := signedSent d m sig) (by rw [show (signedSent d m sig).twn.gotSigned = false from h, Bool.and_false]) m

/-- The state after a HELLO that came while no SIGNED had (16 R429): the first check that fails, else the answer. -/
def HelloOutcome (d : Dev) (m : HelloMsg) (e : Dev) : Prop :=
  if m.chainOk = false then e.twn.herr = 1 ∧ e.twn.retryAt = some (d.tick + 0x100000) ∧ e.event twnPage 3 = true
  else if sha384 m.attestKey ≠ peerDigest d then e.twn.herr = 2 ∧ e.event twnPage 3 = true
  else if m.grSeq ≠ d.nv.twin.grSeq then e.twn.herr = 3 ∧ e.event twnPage 3 = true
  else if m.released = true ∨ m.endOfLife = true then e.twn.herr = 8 ∧ e.event twnPage 3 = true
  else match keeperDraw d 304 with
    | none => e.twn.retryAt = some (d.tick + 0x100000)
    | some (rho, _) =>
      match ecdsaSign p384 (beBytes 48 (attestSecret d)) (signedDigest d m.raw) rho with
      | .ok sig => e.twn.sentSigned = true ∧ e.twn.peer = some m ∧ e.egress.getLast? = some (.bytesFrame d.twn.txSeq 0x02 sig)
      | .bad _ _ => e.twn.herr = 4

theorem onHello_outcome {d : Dev} (h : Greeted d) (hgot : d.twn.gotSigned = false) (m : HelloMsg) :
    (onHello d m).twn.releasing = d.twn.releasing ∧ HelloOutcome d m (onHello d m) := by
  obtain ⟨sign, hs⟩ : ∃ f, f = ecdsaSign p384 := ⟨_, rfl⟩
  unfold HelloOutcome
  rw [← hs]
  by_cases hchain : m.chainOk = false
  · have f := failHandshake_failed d 1
    rw [if_pos hchain, onHello_chain h hchain]
    exact ⟨f.releasing, f.herr, f.retry, f.event⟩
  have hchain' : m.chainOk = true := by simpa using hchain
  by_cases hkey : sha384 m.attestKey = peerDigest d
  case neg =>
    have f := failHandshake_failed d 2
    rw [if_neg hchain, if_pos hkey, onHello_key h hchain' hkey]
    exact ⟨f.releasing, f.herr, f.event⟩
  by_cases hseq : m.grSeq = d.nv.twin.grSeq
  case neg =>
    have f := failHandshake_failed d 3
    rw [if_neg hchain, if_neg (not_not_intro hkey), if_pos hseq, onHello_seq h hchain' hkey hseq]
    exact ⟨f.releasing, f.herr, f.event⟩
  have hpeer : FromPeer d m := ⟨hchain', hkey, hseq⟩
  by_cases hgone : m.released = true ∨ m.endOfLife = true
  · have f := failHandshake_failed d 8
    rw [if_neg hchain, if_neg (not_not_intro hkey), if_neg (not_not_intro hseq), if_pos hgone, onHello_gone h hpeer hgone]
    exact ⟨f.releasing, f.herr, f.event⟩
  rw [if_neg hchain, if_neg (not_not_intro hkey), if_neg (not_not_intro hseq), if_neg hgone]
  cases hdraw : keeperDraw d 304 with
  | none =>
    rw [onHello_undrawn h hpeer hgone hdraw]
    exact ⟨rfl, rfl⟩
  | some r =>
    obtain ⟨rho, c⟩ := r
    have htwn : c.twn = d.twn := by rw [keeperDraw_only hdraw]
    dsimp only
    generalize hsign : sign (beBytes 48 (attestSecret d)) (signedDigest d m.raw) rho = o
    rw [onHello_drawn h hpeer hgone hdraw (hs ▸ hsign), ← htwn]
    cases o with
    | ok sig =>
      rw [signedReply_ok (by rw [htwn]; exact hgot) m sig]
      exact ⟨rfl, rfl, rfl, List.getLast?_concat⟩
    | bad a b =>
      have f := failHandshake_failed c 4
      exact ⟨f.releasing, f.herr⟩

section
variable {d : Dev} {m : HelloMsg} {sig : List Byte} (h : Greeted d) (hpeer : d.twn.peer = some m)
include h hpeer

theorem onSigned_verifies (hok : ecdsaVerify p384 (signedDigest d m.raw) (slice sig 0 48) (slice sig 48 48) m.attestKey = .ok []) :
    onSigned d sig = finishHandshake { d with twn := { d.twn with gotSigned := true } } m := by
  unfold onSigned
  rw [hpeer]
  dsimp only
  rw [if_neg h.answers, if_pos (beq_iff_eq.mpr hok)]

theorem onSigned_fails (hbad : ¬ ecdsaVerify p384 (signedDigest d m.raw) (slice sig 0 48) (slice sig 48 48) m.attestKey = .ok []) :
    onSigned d sig = failHandshake d 0x04 := by
  unfold onSigned
  rw [hpeer]
  dsimp only
  rw [if_neg h.answers, if_neg (fun hok => hbad (beq_iff_eq.mp hok))]

end

/-! ### The link keys -/

/-- The keys of both directions, from the shared secret. -/
def linkKeys (d : Dev) (m : HelloMsg) (z : List Byte) : List Byte × List Byte :=
  let k := kdf z [0x47, 0x4A, 0x2D, 0x45, 0x50, 0x41, 0x4C, 0x45]
    (if d.nv.twin.index then m.nonce ++ d.twn.nonce else d.twn.nonce ++ m.nonce) 64
  (slice k 0 32, slice k 32 32)

/-- The device with its link keyed. -/
def keyed (d : Dev) (ks : List Byte × List Byte) : Dev :=
  { d with twn := { d.twn with keys := some ks, txSeq := 0, rxSeq := 0, replay := [], ephD := [], hello := [], retryAt := none } }

section
variable {d : Dev} {m : HelloMsg} (hsent : d.twn.sentSigned = true) (hgot : d.twn.gotSigned = true)
include hsent hgot

theorem finishHandshake_agrees {z : List Byte} (hz : ecdh p384 d.twn.ephD m.point = .ok z) :
    finishHandshake d m = reconcile (keyed d (linkKeys d m z)) m := by
  obtain ⟨derive, hd⟩ : ∃ f, f = kdf := ⟨_, rfl⟩
  unfold finishHandshake linkKeys
  rw [hz, if_pos (by rw [hsent, hgot]; rfl), ← hd]
  cases d.nv.twin.index <;> rfl

theorem finishHandshake_disagrees {a b : Byte} (hz : ecdh p384 d.twn.ephD m.point = .bad a b) : finishHandshake d m = failHandshake d 0x04 := by
  unfold finishHandshake
  rw [hz, if_pos (by rw [hsent, hgot]; rfl)]

end

/-- Two empty devices join at once. -/
theorem reconcile_empty {d : Dev} {m : HelloMsg} (hempty : twinEmpty d = true) (hpeer : m.isEmpty = true) : reconcile d m = joinTwin d := by
  unfold reconcile
  dsimp only
  rw [if_pos (by rw [hempty, hpeer]; rfl)]

theorem startHandshake_undrawn {d : Dev} (h : MayGreet d) (hdraw : keeperDraw d 88 = none) : startHandshake d = retryLater d := by
  rw [startHandshake_may h, hdraw]

theorem startHandshake_draws {d e : Dev} {bs : List Byte} (h : MayGreet d) (hdraw : keeperDraw d 88 = some (bs, e)) :
    Greets d (startHandshake d) bs := by
  have houtcome := startHandshake_outcome h
  rw [hdraw] at houtcome
  exact houtcome

/-- Settles O53: a handshake starts by `startHandshake_draws`, a HELLO runs through `onHello_outcome`, and the keys stand through
`joinTwin`. -/
theorem twinHandshake : Obligations.TwinHandshake := by
  unfold Obligations.TwinHandshake
  refine ⟨?retry, ?rekey, ?hello, ?signed, ?keys⟩
  case retry =>
    intro s t0 hat hdue hkeeper hgrant hup hstate
    refine ⟨_, exec_handshakeRetry hat hdue, ⟨rfl, rfl, rfl⟩, ?_⟩
    have hmay : MayGreet s.dev := ⟨hkeeper, hgrant, hup, hstate⟩
    cases hdraw : keeperDraw s.dev 88 with
    | none =>
      rw [withDev_dev, startHandshake_undrawn hmay hdraw]
      exact ⟨rfl, rfl⟩
    | some r =>
      have h := startHandshake_draws hmay (bs := r.1) (e := r.2) hdraw
      exact ⟨h.state, h.keys, h.nonce, h.sentSigned, h.sent⟩
  case rekey =>
    intro s hjoined hkeeper hgrant hup
    refine ⟨_, exec_linkRekey hjoined, ⟨rfl, rfl, rfl⟩, ?_⟩
    have hmay : MayGreet s.dev := ⟨hkeeper, hgrant, hup, by rw [hjoined]; decide⟩
    cases hdraw : keeperDraw s.dev 88 with
    | none =>
      rw [withDev_dev, startHandshake_undrawn hmay hdraw]
      rfl
    | some r =>
      have h := startHandshake_draws hmay (bs := r.1) (e := r.2) hdraw
      refine ⟨h.state.trans ?_, h.keys, h.nonce, h.sent⟩
      rw [hjoined]
      rfl
  case hello =>
    intro s h m hgood hhello hkeeper hgot
    obtain ⟨hreleasing, houtcome⟩ := onHello_outcome (d := frameTaken s.dev h) ⟨hhello, hkeeper⟩ hgot m
    obtain ⟨sign, hs⟩ : ∃ f, f = ecdsaSign p384 := ⟨_, rfl⟩
    obtain ⟨digest, hd⟩ : ∃ f, f = sha384 := ⟨_, rfl⟩
    refine ⟨_, exec_hello s h m, ⟨rfl, rfl, rfl⟩, ?_⟩
    rw [withDev_dev, frameIn_good hgood (by decide) hreleasing]
    unfold HelloOutcome at houtcome
    rw [peerDigest_congr (d := s.dev) (e := frameTaken s.dev h) rfl, attestSecret_congr (d := s.dev) (e := frameTaken s.dev h) rfl,
      signedDigest_congr (d := s.dev) (e := frameTaken s.dev h) rfl rfl, ← hs, ← hd] at houtcome
    rw [← hs, ← hd]
    exact houtcome
  case signed =>
    intro s h sig m hgood hhello hkeeper hpeer hsent
    have hgreeted : Greeted (frameTaken s.dev h) := ⟨hhello, hkeeper⟩
    have hdigest : signedDigest (frameTaken s.dev h) m.raw = signedDigest s.dev m.raw := signedDigest_congr rfl rfl m.raw
    refine ⟨_, exec_signed s h sig, ⟨rfl, rfl, rfl⟩, ?_⟩
    rw [withDev_dev, ← hdigest]
    by_cases hok : ecdsaVerify p384 (signedDigest (frameTaken s.dev h) m.raw) (slice sig 0 48) (slice sig 48 48) m.attestKey = .ok []
    · have hsigned := onSigned_verifies hgreeted hpeer hok
      rw [finishHandshake_waits (by rw [show (frameTaken s.dev h).twn.sentSigned = false from hsent]; rfl)] at hsigned
      rw [if_pos hok, frameIn_good hgood (by decide) (by rw [hsigned]), hsigned]
    · have hsigned := onSigned_fails hgreeted hpeer hok
      have f := failHandshake_failed (frameTaken s.dev h) 4
      rw [if_neg hok, frameIn_good hgood (by decide) (by rw [hsigned]; exact f.releasing), hsigned]
      exact ⟨f.herr, f.keys, f.event⟩
  case keys =>
    intro d m hsent hgot hempty hpeer
    obtain ⟨agree, ha⟩ : ∃ f, f = ecdh p384 := ⟨_, rfl⟩
    rw [← ha]
    cases hz : agree d.twn.ephD m.point with
    | ok z =>
      have hbond := joinTwin_bond (keyed d (linkKeys d m z))
      rw [finishHandshake_agrees hsent hgot (ha ▸ hz), reconcile_empty (d := keyed d (linkKeys d m z)) hempty hpeer]
      exact ⟨state_of_bond hbond, keys_of_bond hbond⟩
    | bad a b =>
      have f := failHandshake_failed d 4
      rw [finishHandshake_disagrees hsent hgot (ha ▸ hz)]
      exact ⟨f.herr, f.keys⟩

end Sys2Proof.Machine
end

section
/-! PROOFS. The frames of the twin link (16 R425, R426, R431-R435, R438, R442). -/

namespace Sys2Proof.Machine

theorem exec_idle (s : State) (h : FrameHdr) : exec (.idle h) s = .next (s.withDev (frameIn s.dev h 0x03 fun d => d)) := rfl
theorem exec_nak (s : State) (h : FrameHdr) (q : DWord) :
    exec (.nak h q) s = .next (s.withDev (frameIn s.dev h 0x04 fun d => resendFrom d q.toNat)) := rfl
theorem exec_status (s : State) (h : FrameHdr) (m : StatusMsg) :
    exec (.status h m) s = .next (s.withDev (frameIn s.dev h 0x10 fun d => settleOutbox (onStatus d m))) := rfl
theorem exec_fill {s : State} (hpower : s.dev.pwr.pfLevel = true) (h : FrameHdr) (objs : List MirrorObj) (hs : List JournalEntry) :
    exec (.fill h objs hs) s = .next (s.withDev (frameIn s.dev h 0x40 fun d => onFill d objs hs)) := by
  rw [exec, execFill, act, if_neg (by simp [hpower])]
  rfl
theorem exec_fillEnd (s : State) (h : FrameHdr) : exec (.fillEnd h) s = .next (s.withDev (frameIn s.dev h 0x41 onFillEnd)) := rfl
theorem exec_park (s : State) (h : FrameHdr) (m : DWord) :
    exec (.park h m) s = .next (s.withDev (frameIn s.dev h 0x50 fun d => settleOutbox (onPark d))) := rfl
theorem exec_release (s : State) (h : FrameHdr) (hs : List JournalEntry) :
    exec (.release h hs) s = .next (s.withDev (frameIn s.dev h 0x51 fun d => onRelease d hs)) := rfl
theorem exec_releaseAck (s : State) (h : FrameHdr) : exec (.releaseAck h) s = .next (s.withDev (frameIn s.dev h 0x52 onReleaseAck)) := rfl

/-! ### Frames that are not taken (16 R426) -/

section
variable {d : Dev} {h : FrameHdr} {ftype : Nat} (hup : d.twn.width ≠ 0) (hon : domOn d 14 = true)
include hup hon

/-- A bad CRC or a gap is answered with NAK. -/
theorem frameIn_nak (hbad : h.crcOk = false ∨ d.twn.rxSeq.toNat < h.seq.toNat) (k : Dev → Dev) :
    frameIn d h ftype k = twnSendBytes d 0x04 (leBytes 8 d.twn.rxSeq.toNat) := by
  unfold frameIn
  rw [if_neg (by simpa [hon] using hup), if_pos (by simpa using hbad)]

theorem frameIn_badTag (hcrc : h.crcOk = true) (hseq : h.seq = d.twn.rxSeq) (hsecure : 0x10 ≤ ftype) (hkeys : d.twn.keys ≠ none)
    (htag : h.tagOk = false) (k : Dev → Dev) : frameIn d h ftype k = tagFailure d h.seq := by
  unfold frameIn
  rw [if_neg (by simpa [hon] using hup), if_neg (by simp [hcrc, hseq]), if_neg (by simp [hseq]), if_neg (by simp [hkeys]),
    if_pos (by simp [hsecure, htag])]

end

/-- The report of a frame whose tag fails. -/
def tagReported (d : Dev) (seq : DWord) : Dev :=
  evLog (raise { d with twn := { d.twn with herr := 0x06 } } twnPage 3) 0x0A02 (lineAt twnPage 3) noFn (leBytes 8 seq.toNat)

theorem tagFailure_eq (d : Dev) (seq : DWord) : tagFailure d seq = twnState (linkDropped (tagReported d seq)) 5 := rfl

theorem tagFailure_twn (d : Dev) (seq : DWord) :
    (tagFailure d seq).twn = { (linkDropped { d with twn := { d.twn with herr := 0x06 } }).twn with state := 5 } := by
  have htwn : (tagReported d seq).twn = { d.twn with herr := 0x06 } := by
    unfold tagReported
    rw [evLog_twn, raise_twn]
  rw [tagFailure_eq, twnState_twn]
  unfold linkDropped
  rw [htwn]

theorem tagFailure_event (d : Dev) (seq : DWord) : (tagFailure d seq).event twnPage 3 = true := by
  rw [tagFailure_eq]
  refine twnState_latched _ _ _ _ ?_
  rw [event_of_pages (d := tagReported d seq) (e := linkDropped (tagReported d seq)) rfl]
  exact evLog_latched _ _ _ _ _ _ _ (raise_event _ _ _ (by decide))

/-! ### What waits on the peer -/

theorem settleOutbox_empty {d : Dev} (h : d.nv.twin.outbox = []) : settleOutbox d = d := by
  unfold settleOutbox
  rw [h]
  split <;> rfl

/-- No reservation waits. -/
def noneWaits (d : Dev) : Prop := ∀ n ∈ d.keys.nonces, n.wait = none

theorem settleAlone_idle {d : Dev} (h : noneWaits d) : settleAlone d = d := by
  have hnone : (d.keys.nonces.filter fun n => n.wait.isSome && !n.peerDone) = [] :=
    List.filter_eq_nil_iff.mpr fun n hn => by simp [h n hn]
  unfold settleAlone
  rw [hnone]
  split <;> rfl

/-! ### STATUS and PARK -/

/-- What STATUS tells of the peer. -/
def peerStatus (d : Dev) (m : StatusMsg) : Dev :=
  { d with twn := { d.twn with peerLevel := m.level, peerLocked := m.locked, peerZero := m.zeroized, peerLc := m.lcState } }

theorem onStatus_idle {d : Dev} (h : noneWaits d) (m : StatusMsg) :
    onStatus d m = if d.twn.peerLevel.toNat < m.level.toNat then raise (peerStatus d m) twnPage 5 else peerStatus d m := by
  unfold onStatus
  simp only [decide_eq_true_eq]
  refine settleAlone_idle ?_
  split
  · exact fun n hn => h n (by rwa [raise_keys] at hn)
  · exact h

theorem onPark_idle {d : Dev} (h : noneWaits d) :
    onPark d = { d with twn := { d.twn with peerParked := true, parkSent := heads d.nv d.nv.twin.index } } := settleAlone_idle h

/-! ### Journal heads that the peer sends (06 R192) -/

theorem journalPut_only (nv : Nv) (j : JournalEntry) : journalPut nv j = { nv with journal := (journalPut nv j).journal } := by
  unfold journalPut
  split <;> rfl

theorem nextFree_le_journalPut (nv : Nv) (j : JournalEntry) (r : Word) (w : Bool) : nextFree nv r w ≤ nextFree (journalPut nv j) r w := by
  by_cases hkey : (r, w) = (j.record, j.twin)
  case neg => rw [nextFree_journalPut_other nv j hkey]
  obtain ⟨rfl, rfl⟩ : r = j.record ∧ w = j.twin := by simpa using hkey
  by_cases h : nextFree nv j.record j.twin < j.nextFree ∧ j.nextFree ≤ 2 ^ 32
  · rw [nextFree_journalPut_same h.1 h.2]
    exact Nat.le_of_lt h.1
  · unfold journalPut
    rw [if_neg (by simpa using h)]

theorem nextFree_journalPut {nv : Nv} {j : JournalEntry} (hle : j.nextFree ≤ 2 ^ 32) :
    nextFree (journalPut nv j) j.record j.twin = max (nextFree nv j.record j.twin) j.nextFree := by
  by_cases h : nextFree nv j.record j.twin < j.nextFree
  · rw [nextFree_journalPut_same h hle]
    omega
  · unfold journalPut
    rw [if_neg (by simp [h])]
    omega

/-- Every head is written. -/
def headsPut (nv : Nv) (hs : List JournalEntry) : Nv := hs.foldl journalPut nv

theorem foldl_journalPut (hs : List JournalEntry) (d : Dev) :
    hs.foldl (fun d j => { d with nv := journalPut d.nv j }) d = { d with nv := headsPut d.nv hs } := by
  induction hs generalizing d with
  | nil => rfl
  | cons j r ih => exact ih _

theorem headsPut_only (nv : Nv) (hs : List JournalEntry) : headsPut nv hs = { nv with journal := (headsPut nv hs).journal } := by
  refine foldl_holds (fun x : Nv => x = { nv with journal := x.journal }) journalPut ?_ hs nv rfl
  intro a j ha
  rw [journalPut_only a j, ha]

theorem headsPut_cellar (nv : Nv) (hs : List JournalEntry) : (headsPut nv hs).cellar = nv.cellar := by rw [headsPut_only]
theorem headsPut_tenants (nv : Nv) (hs : List JournalEntry) : (headsPut nv hs).tenants = nv.tenants := by rw [headsPut_only]

theorem nextFree_le_headsPut (nv : Nv) (hs : List JournalEntry) (r : Word) (w : Bool) : nextFree nv r w ≤ nextFree (headsPut nv hs) r w :=
  foldl_holds (fun x : Nv => nextFree nv r w ≤ nextFree x r w) journalPut
    (fun a j ha => Nat.le_trans ha (nextFree_le_journalPut a j r w)) hs nv (Nat.le_refl _)

theorem head_le_headsPut {j : JournalEntry} (hle : j.nextFree ≤ 2 ^ 32) {hs : List JournalEntry} (hj : j ∈ hs) (nv : Nv) :
    j.nextFree ≤ nextFree (headsPut nv hs) j.record j.twin := by
  induction hs generalizing nv with
  | nil => cases hj
  | cons k r ih =>
    rcases List.mem_cons.mp hj with rfl | hj
    · refine Nat.le_trans ?_ (nextFree_le_headsPut (journalPut nv j) r j.record j.twin)
      rw [nextFree_journalPut hle]
      exact Nat.le_max_right _ _
    · exact ih hj _

theorem nextFree_congr {a b : Nv} (h : a.journal = b.journal) (r : Word) (w : Bool) : nextFree a r w = nextFree b r w := by
  unfold nextFree
  rw [h]

/-! ### FILL (16 R435) -/

/-- The objects that a tick applies, and those that wait for the next. -/
def fillParts (d : Dev) : List MirrorObj × List MirrorObj := splitRecords (256 - d.twn.fillCount) d.twn.fillWait

/-- The device with applied objects counted. -/
def fillCounted (d : Dev) (p : List MirrorObj × List MirrorObj) : Dev :=
  { d with twn := { d.twn with
    filled := d.twn.filled ++ recordKeys p.1, fillWait := p.2, fillCount := d.twn.fillCount + (recordKeys p.1).length } }

theorem fillApply_eq (d : Dev) : fillApply d = fillCounted (markObjs (applyObjs d (fillParts d).1) (fillParts d).1
    (match d.twn.peer with | some x => x.mSeq | none => 0)) (fillParts d) := by
  unfold fillApply
  cases d.twn.peer <;> rfl

/-- What a tick of a fill leaves. -/
structure Filled (d e : Dev) : Prop where
  twn : e.twn = { d.twn with
    filled := d.twn.filled ++ recordKeys (fillParts d).1
    fillWait := (fillParts d).2
    fillCount := d.twn.fillCount + (recordKeys (fillParts d).1).length }
  jobs : e.jobs = d.jobs
  bat : e.bat = d.bat
  journal : e.nv.journal = d.nv.journal
  lineage : e.keys.lineage = d.keys.lineage

theorem fillApply_filled (d : Dev) : Filled d (fillApply d) := by
  have h := applyObjs_unmirrored d (fillParts d).1
  rw [fillApply_eq]
  generalize applyObjs d (fillParts d).1 = e at h
  refine ⟨?_, unmirrored_jobs (e := e) h, unmirrored_bat (e := e) h, unmirrored_journal (e := e) h, unmirrored_lineage (e := e) h⟩
  rw [← unmirrored_twn h]
  rfl

theorem fillApply_tenant {d : Dev} {x : TenantRec} (h : d.twn.fillWait = [.tenant x]) :
    x ∈ (fillApply d).nv.tenants ∧ (fillApply d).nv.cellar = d.nv.cellar := by
  have hparts : splitRecords (256 - d.twn.fillCount) d.twn.fillWait = ([.tenant x], []) := by
    rw [h]
    cases 256 - d.twn.fillCount <;> rfl
  rw [fillApply_eq, show fillParts d = _ from hparts]
  exact ⟨List.mem_append_right _ List.mem_cons_self, rfl⟩

/-- The device with more of a fill to apply. -/
def fillMore (d : Dev) (objs : List MirrorObj) : Dev := { d with twn := { d.twn with fillWait := d.twn.fillWait ++ objs } }

/-- The device with a BBK drawn for a fill. -/
def fillKeyed (d : Dev) (b : BitVec 256) : Dev := { d with bat := { d.bat with bbk := some b }, keys := { d.keys with lineage := some b } }

section
variable {d : Dev} (hlocked : d.bat.locked = false) (hfilling : d.twn.filling = 2) (objs : List MirrorObj) (hs : List JournalEntry)
include hlocked hfilling

theorem onFill_keyed (hbbk : d.bat.bbk ≠ none) :
    onFill d objs hs = { fillApply (fillMore d objs) with nv := headsPut (fillApply (fillMore d objs)).nv hs } := by
  unfold onFill
  rw [if_neg (by simp [hlocked, hfilling]), if_pos (Option.isSome_iff_ne_none.mpr hbbk)]
  exact foldl_journalPut hs _

theorem onFill_draws {bs : List Byte} {e : Dev} (hbbk : d.bat.bbk = none) (hdraw : keeperDraw d 32 = some (bs, e)) :
    onFill d objs hs = { fillApply (fillMore (fillKeyed e (BitVec.ofNat 256 (beNat bs))) objs) with
      nv := headsPut (fillApply (fillMore (fillKeyed e (BitVec.ofNat 256 (beNat bs))) objs)).nv hs } := by
  unfold onFill
  rw [if_neg (by simp [hlocked, hfilling]), if_neg (by simp [hbbk]), hdraw]
  exact foldl_journalPut hs _

end

/-! ### FILL_END (16 R431, R435) -/

/-- The device joined while nothing of it waits for the peer. -/
def joinedIdle (d : Dev) : Dev :=
  { d with
    twn := { d.twn with peerParked := false, retryAt := none, lostFrom := none, filling := 0, hello := [] }
    nv := { d.nv with twin := { d.nv.twin with parked := false } } }

theorem joinTwin_idle {d : Dev} (hout : d.nv.twin.outbox = []) (hnonces : d.keys.nonces = []) : joinTwin d = twnState (joinedIdle d) 4 := by
  have hout' : (twnState (joinedIdle d) 4).nv.twin.outbox = [] := by
    rw [silent_nv_twin (twnState_silent _ _)]
    exact hout
  have hnonces' : (twnState (joinedIdle d) 4).keys.nonces = [] := by
    rw [silent_keys (twnState_silent _ _)]
    exact hnonces
  unfold joinTwin
  unfold joinedIdle at *
  dsimp only
  rw [hout', List.foldl_nil, ite_self, settleOutbox_empty hout']
  simp only [hnonces', List.filter_nil, List.foldl_nil]

/-- The fill is whole: this device's own part stands already. -/
theorem fillBit_last {d : Dev} (h : d.twn.filling = 2) : fillBit d 2 = joinTwin (raise { d with
    twn := { d.twn with filling := 0 }
    nv := { d.nv with twin := { d.nv.twin with diverged := if d.twn.resync then d.nv.twin.diverged else false } } } twnPage 2) := by
  unfold fillBit
  rw [if_neg (by rw [h]; decide), h]
  rfl

/-- The device once a fill that brought everything is applied. -/
def fillStands (d : Dev) : Dev :=
  raiseMseq { d with bat := { d.bat with zeroized := d.bat.zeroized && (d.twn.resync || d.bat.bbk.isNone) } }
    (match d.twn.peer with | some p => p.mSeq | none => 0)

/-- No record of this device is missing at the source. -/
def fillWhole (d : Dev) : Prop := d.twn.resync = true ∨ d.bat.zeroized = true ∨
  ∀ r ∈ d.nv.cellar, r.img.state ≠ 4 → twinRecord r.img = true → (r.img.key, r.img.version) ∈ d.twn.filled

theorem fillComplete_whole {d : Dev} {g : Grant} (hgrant : d.nv.twin.grant = some g) (hprov : g.provisional = false) (hwhole : fillWhole d) :
    fillComplete d = fillBit { fillStands d with nv := { (fillStands d).nv with twin := { (fillStands d).nv.twin with
      grant := some { g with provisional := false } } } } 2 := by
  have hextra : (if d.twn.resync || d.bat.zeroized then [] else d.nv.cellar.filter fun r =>
      r.img.state != 4 && twinRecord r.img && !d.twn.filled.contains (r.img.key, r.img.version)) = [] := by
    rcases hwhole with h | h | h
    · rw [if_pos (by rw [h]; rfl)]
    · rw [if_pos (by rw [h, Bool.or_true])]
    · split
      · rfl
      · refine List.filter_eq_nil_iff.mpr fun r hr => ?_
        simpa using h r hr
  unfold fillComplete
  extract_lets m empty bat e prov raw got voided nv extra whole grant
  have hprov' : prov = false := by
    simp only [prov, e, raiseMseq, hgrant, hprov]
  have hwhole' : whole = fillStands d := by
    have : extra = [] := hextra
    simp only [whole, this, List.foldl_nil]
    rfl
  clear_value extra whole
  subst hwhole'
  have hgrant' : grant = some { g with provisional := false } := by
    simp only [grant, fillStands, raiseMseq, hgrant, Option.map_some]
  rw [if_neg (by rw [hprov', Bool.false_and]; exact Bool.false_ne_true), hgrant']

/-- The peer's FILL_END completes the fill. -/
structure FillJoined (d e : Dev) : Prop where
  state : e.twn.state = 4
  filling : e.twn.filling = 0
  zeroized : e.bat.zeroized = (d.bat.zeroized && (d.twn.resync || d.bat.bbk.isNone))
  cellar : e.nv.cellar = d.nv.cellar
  ended : e.event twnPage 2 = true
  joined : d.twn.state ≠ 4 → e.event twnPage 0 = true
  releasing : e.twn.releasing = d.twn.releasing

theorem fillBit_joined {d : Dev} (hfilling : d.twn.filling = 2) (hout : d.nv.twin.outbox = []) (hnonces : d.keys.nonces = []) :
    (fillBit d 2).twn.state = 4 ∧ (fillBit d 2).twn.filling = 0 ∧ (fillBit d 2).bat = d.bat ∧ (fillBit d 2).nv.cellar = d.nv.cellar ∧
    (fillBit d 2).event twnPage 2 = true ∧ (d.twn.state ≠ 4 → (fillBit d 2).event twnPage 0 = true) ∧
    (fillBit d 2).twn.releasing = d.twn.releasing := by
  rw [fillBit_last hfilling]
  generalize hd : ({ d with
    twn := { d.twn with filling := 0 }
    nv := { d.nv with twin := { d.nv.twin with diverged := if d.twn.resync then d.nv.twin.diverged else false } } } : Dev) = c
  have htwn : c.twn = { d.twn with filling := 0 } := by rw [← hd]
  rw [joinTwin_idle (by rw [raise_nv, ← hd]; exact hout) (by rw [raise_keys, ← hd]; exact hnonces)]
  have hsilent := twnState_silent (joinedIdle (raise c twnPage 2)) 4
  have hstate : (joinedIdle (raise c twnPage 2)).twn.state = d.twn.state := by
    simp only [joinedIdle, raise_twn, htwn]
  refine ⟨by rw [twnState_twn], by rw [twnState_twn]; rfl, ?_, ?_, ?_, fun h => twnState_event (by rwa [hstate]) (.inl ⟨rfl, rfl⟩), ?_⟩
  · rw [silent_bat hsilent]
    exact (raise_bat c _ _).trans (by rw [← hd])
  · rw [silent_nv_cellar hsilent]
    exact (congrArg Nv.cellar (raise_nv c _ _)).trans (by rw [← hd])
  · refine twnState_latched _ _ _ _ ?_
    rw [event_of_pages (d := raise c twnPage 2) (e := joinedIdle (raise c twnPage 2)) rfl]
    exact raise_event _ _ _ (by decide)
  · rw [twnState_twn]
    exact (congrArg Twn.releasing (raise_twn c _ _)).trans (by rw [htwn])

theorem onFillEnd_joins {d : Dev} {g : Grant} (hlocked : d.bat.locked = false) (hfilling : d.twn.filling = 2) (hwait : d.twn.fillWait = [])
    (hgrant : d.nv.twin.grant = some g) (hprov : g.provisional = false) (hout : d.nv.twin.outbox = []) (hnonces : d.keys.nonces = [])
    (hwhole : fillWhole d) : FillJoined d (onFillEnd d) := by
  have hcomplete : onFillEnd d = fillComplete d := by
    unfold onFillEnd
    rw [if_neg (by simp [hlocked, hfilling]), if_pos (by simp [hwait])]
  rw [hcomplete, fillComplete_whole hgrant hprov hwhole]
  obtain ⟨hstate, hfill, hbat, hcellar, hended, hjoined, hreleasing⟩ := fillBit_joined (d := { fillStands d with
    nv := { (fillStands d).nv with twin := { (fillStands d).nv.twin with grant := some { g with provisional := false } } } })
    hfilling hout hnonces
  exact ⟨hstate, hfill, by rw [hbat]; rfl, hcellar, hended, hjoined, hreleasing⟩

theorem onFillEnd_waits {d : Dev} (hlocked : d.bat.locked = false) (hfilling : d.twn.filling = 2) (hwait : d.twn.fillWait ≠ []) :
    onFillEnd d = { d with twn := { d.twn with fillEnded := true } } := by
  unfold onFillEnd
  rw [if_neg (by simp [hlocked, hfilling]), if_neg (by simpa using hwait)]

/-! ### RELEASE and its acknowledgement (16 R442) -/

theorem onRelease_locked {d : Dev} (h : d.bat.locked = true) (hs : List JournalEntry) : onRelease d hs = d := if_pos h

/-- RELEASE_ACK goes out, with the heads written. -/
def releaseTaken (d : Dev) (hs : List JournalEntry) : Dev :=
  twnSend { d with nv := headsPut d.nv hs, twn := { d.twn with peerReleased := true } } 0x52 0 0 [] []

theorem onRelease_unlocked {d : Dev} (h : d.bat.locked = false) (hs : List JournalEntry) :
    onRelease d hs = raise (releaseTaken d hs) twnPage 4 := by
  unfold onRelease
  rw [if_neg (by simp [h]), foldl_journalPut]
  rfl

theorem onReleaseAck_sent {d : Dev} (h : d.twn.relSent = true) : onReleaseAck d = raise { d with
    twn := { d.twn with releasing := false, relSent := false }, nv := { d.nv with twin := { d.nv.twin with released := true } } } twnPage 4 :=
  if_pos h

/-- Settles O54: a frame in order is `frameTaken` and then its own effect, by `frameIn_good`; the rest is each frame's equation. -/
theorem twinFrames : Obligations.TwinFrames := by
  unfold Obligations.TwinFrames
  refine ⟨?idle, ?gap, ?badTag, ?nak, ?status, ?fill, ?fillDraws, ?fillEnd, ?fillWaits, ?park, ?locked, ?release, ?releaseAck⟩
  case idle =>
    intro s h hgood
    rw [exec_idle, frameIn_good hgood (by decide) rfl]
  case gap =>
    intro s h hup hon hbad
    rw [exec_idle, frameIn_nak hup hon hbad]
  case badTag =>
    intro s h m hup hon hcrc hseq hkeys htag
    refine ⟨_, exec_status s h m, ⟨rfl, rfl, rfl⟩, ?_⟩
    rw [withDev_dev, frameIn_badTag hup hon hcrc hseq (by decide) hkeys htag, tagFailure_twn]
    exact ⟨rfl, rfl, rfl, rfl, tagFailure_event _ _⟩
  case nak =>
    intro s h q hgood
    refine ⟨_, exec_nak s h q, ⟨rfl, rfl, rfl⟩, ?_⟩
    have heq := resendFrom_eq (frameTaken s.dev h) q.toNat
    rw [withDev_dev, frameIn_good hgood (by decide) (by rw [heq]), heq]
    exact ⟨rfl, rfl⟩
  case status =>
    intro s h m hgood hout hnonces
    have heq := onStatus_idle (d := frameTaken s.dev h) hnonces m
    have hquiet : (onStatus (frameTaken s.dev h) m).quiet = (peerStatus (frameTaken s.dev h) m).quiet := by
      rw [heq]
      split
      · exact raise_quiet _ _ _
      · rfl
    have hsettled : settleOutbox (onStatus (frameTaken s.dev h) m) = onStatus (frameTaken s.dev h) m :=
      settleOutbox_empty (by rw [quiet_nv hquiet]; exact hout)
    refine ⟨_, exec_status s h m, ⟨rfl, rfl, rfl⟩, ?_⟩
    rw [withDev_dev, frameIn_good hgood (fun _ => rfl) (by rw [hsettled, quiet_twn hquiet]; rfl), hsettled]
    refine ⟨hquiet, fun hlevel => ?_⟩
    rw [heq, if_pos (show (frameTaken s.dev h).twn.peerLevel.toNat < m.level.toNat from hlevel)]
    exact raise_event _ _ _ (by decide)
  case fill =>
    intro s h objs hs hgood hpower hlocked hfilling hbbk
    have heq := onFill_keyed (d := frameTaken s.dev h) hlocked hfilling objs hs hbbk
    obtain ⟨htwn, hjobs, hbat, hjournal, -⟩ := fillApply_filled (fillMore (frameTaken s.dev h) objs)
    refine ⟨_, exec_fill hpower h objs hs, ⟨rfl, rfl, rfl⟩, ?_⟩
    rw [withDev_dev, frameIn_good hgood (fun _ => rfl) (by rw [heq, htwn]; rfl), heq]
    have hfree (r : Word) (w : Bool) : nextFree (fillApply (fillMore (frameTaken s.dev h) objs)).nv r w = nextFree s.dev.nv r w :=
      nextFree_congr hjournal r w
    refine ⟨?_, hjobs, hbat, ?_, ?_, fun j hj hle => head_le_headsPut hle hj _, fun r w => ?_, ?_⟩
    · rw [htwn]
      exact hfilling
    · rw [htwn]
      rfl
    · rw [htwn]
      rfl
    · rw [← hfree]
      exact nextFree_le_headsPut _ _ _ _
    · intro x hwait hobjs
      have hparts : (fillMore (frameTaken s.dev h) objs).twn.fillWait = [.tenant x] := by
        rw [hobjs]
        exact congrArg (· ++ [MirrorObj.tenant x]) hwait
      obtain ⟨htenant, hcellar⟩ := fillApply_tenant hparts
      exact ⟨by rwa [headsPut_tenants], by rw [headsPut_cellar, hcellar]; rfl⟩
  case fillDraws =>
    intro s h hs bs d hgood hpower hlocked hfilling hbbk hdraw
    have heq := onFill_draws (d := frameTaken s.dev h) hlocked hfilling [] hs hbbk hdraw
    have hd := keeperDraw_only hdraw
    obtain ⟨htwn, -, hbat, -, hlineage⟩ := fillApply_filled (fillMore (fillKeyed d (BitVec.ofNat 256 (beNat bs))) [])
    have hdtwn : d.twn = (frameTaken s.dev h).twn := by rw [hd]
    have hdbat : d.bat = s.dev.bat := by rw [hd]; rfl
    refine ⟨_, exec_fill hpower h [] hs, ⟨rfl, rfl, rfl⟩, ?_⟩
    rw [withDev_dev, frameIn_good hgood (fun _ => rfl) (by rw [heq, htwn, ← hdtwn]; rfl), heq]
    refine ⟨?_, hlineage⟩
    rw [hbat, ← hdbat]
    rfl
  case fillEnd =>
    intro s h g hgood hlocked hfilling hwait hgrant hprov hout hnonces hwhole
    obtain ⟨hstate, hfill, hzeroized, hcellar, hended, hjoined, hreleasing⟩ :=
      onFillEnd_joins (d := frameTaken s.dev h) hlocked hfilling hwait hgrant hprov hout hnonces hwhole
    refine ⟨_, exec_fillEnd s h, ⟨rfl, rfl, rfl⟩, ?_⟩
    rw [withDev_dev, frameIn_good hgood (fun _ => rfl) hreleasing]
    exact ⟨hstate, hfill, hzeroized, hcellar, hended, hjoined⟩
  case fillWaits =>
    intro s h hgood hlocked hfilling hwait
    have heq := onFillEnd_waits (d := frameTaken s.dev h) hlocked hfilling hwait
    rw [exec_fillEnd, frameIn_good hgood (fun _ => rfl) (by rw [heq]), heq]
  case park =>
    intro s h m hgood hout hnonces
    have heq := onPark_idle (d := frameTaken s.dev h) hnonces
    have hsettled : settleOutbox (onPark (frameTaken s.dev h)) = onPark (frameTaken s.dev h) := settleOutbox_empty (by rw [heq]; exact hout)
    refine ⟨_, exec_park s h m, ⟨rfl, rfl, rfl⟩, ?_⟩
    rw [withDev_dev, frameIn_good hgood (fun _ => rfl) (by rw [hsettled, heq]), hsettled, heq]
    rfl
  case locked =>
    intro s h hs hgood hlocked
    have heq := onRelease_locked (d := frameTaken s.dev h) hlocked hs
    rw [exec_release, frameIn_good hgood (fun _ => rfl) (by rw [heq]), heq]
  case release =>
    intro s h hs hgood hlocked
    have heq := onRelease_unlocked (d := frameTaken s.dev h) hlocked hs
    refine ⟨_, exec_release s h hs, ⟨rfl, rfl, rfl⟩, ?_⟩
    rw [withDev_dev, frameIn_good hgood (fun _ => rfl) (by rw [heq, raise_twn]; rfl), heq, raise_twn, raise_nv]
    refine ⟨rfl, raise_event _ _ _ (by decide), ?_, fun j hj hle => head_le_headsPut hle hj _, _,
      List.mem_append_right _ List.mem_cons_self, rfl⟩
    exact headsPut_cellar s.dev.nv hs
  case releaseAck =>
    intro s h hup hon hcrc hseq hkeys htag hfilling hsent
    have heq := onReleaseAck_sent (d := frameTaken s.dev h) hsent
    refine ⟨_, exec_releaseAck s h, ⟨rfl, rfl, rfl⟩, ?_⟩
    rw [withDev_dev, frameIn_order hup hon hcrc hseq (fun _ => ⟨hkeys, htag⟩) hfilling, heq, releaseTry_idle (by rw [raise_twn]), raise_twn, raise_nv]
    exact ⟨rfl, rfl, raise_event _ _ _ (by decide)⟩

end Sys2Proof.Machine
end

section
/-! PROOFS. The peer's changes and the device's own, and reservations through the twin (16 R433-R435, 06 R190-R194). -/

namespace Sys2Proof.Machine

theorem exec_change {s : State} (hpower : s.dev.pwr.pfLevel = true) (h : FrameHdr) (n m : DWord) (objs : List MirrorObj) :
    exec (.change h n m objs) s = .next (s.withDev (frameIn s.dev h 0x20 fun d => onChange d n m objs)) := by
  rw [exec, execChange, act, if_neg (by simp [hpower])]
  rfl
theorem exec_change_low {s : State} (hpower : s.dev.pwr.pfLevel = false) (h : FrameHdr) (n m : DWord) (objs : List MirrorObj) :
    exec (.change h n m objs) s = .next s := by
  rw [exec, execChange, act, if_pos (by simp [hpower])]
theorem exec_changeAck (s : State) (h : FrameHdr) (n m : DWord) :
    exec (.changeAck h n m) s = .next (s.withDev (frameIn s.dev h 0x21 fun d => onChangeAck d n m)) := rfl
theorem exec_changeNak (s : State) (h : FrameHdr) (n : DWord) (st : Byte) :
    exec (.changeNak h n st) s = .next (s.withDev (frameIn s.dev h 0x22 fun d => onChangeNak d n st)) := rfl
theorem exec_final (s : State) (h : FrameHdr) (n : DWord) :
    exec (.final h n) s = .next (s.withDev (frameIn s.dev h 0x23 fun d => onFinal d n)) := rfl
theorem exec_undo (s : State) (h : FrameHdr) (n : DWord) :
    exec (.undo h n) s = .next (s.withDev (frameIn s.dev h 0x24 fun d => onUndo d n)) := rfl
theorem exec_reserve {s : State} (hpower : s.dev.pwr.pfLevel = true) (h : FrameHdr) (j : JournalEntry) :
    exec (.reserve h j) s = .next (s.withDev (frameIn s.dev h 0x30 fun d => onReserve d j)) := by
  rw [exec, execReserve, act, if_neg (by simp [hpower])]
  rfl
theorem exec_reserveAck (s : State) (h : FrameHdr) (j : JournalEntry) :
    exec (.reserveAck h j) s = .next (s.withDev (frameIn s.dev h 0x31 fun d => reservePeer d j)) := rfl

/-! ### The inbox (16 R433) -/

theorem setInbox_same {d : Dev} {l : List TwinChange} (h : d.nv.twin.inbox = l) : setInbox d l = d := by
  subst h
  rfl

theorem drainInbox_empty {d : Dev} (h : d.nv.twin.inbox = []) : drainInbox d = d := by
  unfold drainInbox
  split
  · rfl
  · dsimp only
    rw [h, List.foldl_nil, setInbox_same h]

/-- A change of the peer as it arrives. -/
def peerChange (n m : DWord) (objs : List MirrorObj) : TwinChange :=
  { id := n, m := m, objs := objs, old := [], sent := true, done := false, undo := false, job := 0 }

theorem onChange_first {d : Dev} (hlocked : d.bat.locked = false) (hkeeper : keeperPresent d = true) (hpower : d.pwr.pfLevel = true)
    (hinbox : d.nv.twin.inbox = []) (hdoubt : d.nv.twin.doubt = []) (n m : DWord) (objs : List MirrorObj) :
    onChange d n m objs = applyChange d (peerChange n m objs) := by
  have hone : onChange d n m objs = drainInbox (setInbox d [peerChange n m objs]) := by
    unfold onChange
    rw [if_neg (by simp [hlocked]), hinbox]
    rfl
  have hback : setInbox (setInbox d [peerChange n m objs]) [] = d := setInbox_same (d := d) hinbox
  rw [hone]
  unfold drainInbox
  have hopen (l : List TwinChange) : keeperPresent (setInbox d l) = true ∧ (setInbox d l).bat.locked = false ∧
      (setInbox d l).pwr.pfLevel = true := ⟨hkeeper, hlocked, hpower⟩
  rw [if_neg (by simp [hopen])]
  dsimp only
  rw [hback, show (setInbox d [peerChange n m objs]).nv.twin.inbox = [peerChange n m objs] from rfl, List.foldl_cons, List.foldl_nil, hdoubt]
  rfl

theorem changeFails_congr {d e : Dev} (hnv : e.nv = d.nv) (hfns : e.fns = d.fns) (objs : List MirrorObj) : changeFails e objs = changeFails d objs := by
  unfold changeFails
  rw [hnv, hfns]

/-! ### A change of the peer that passes or fails -/

/-- An applied change, noted under its mirror sequence and held in doubt with what it replaced. -/
def inDoubt (d : Dev) (c : TwinChange) (m : DWord) (old : List MirrorObj) : Dev :=
  setDoubt (noteMirror d c.objs m) (d.nv.twin.doubt ++ [{ c with m := m, old := old }])

theorem setDoubt_twn (d : Dev) (l : List TwinChange) : (setDoubt d l).twn = d.twn := rfl
theorem setDoubt_inbox (d : Dev) (l : List TwinChange) : (setDoubt d l).nv.twin.inbox = d.nv.twin.inbox := rfl
theorem setDoubt_planSeq (d : Dev) (l : List TwinChange) : (setDoubt d l).nv.planSeq = d.nv.planSeq := rfl
theorem noteMirror_inbox (d : Dev) (objs : List MirrorObj) (m : DWord) : (noteMirror d objs m).nv.twin.inbox = d.nv.twin.inbox := rfl
theorem noteMirror_planSeq (d : Dev) (objs : List MirrorObj) (m : DWord) : (noteMirror d objs m).nv.planSeq = d.nv.planSeq := rfl

theorem inDoubt_twn (d : Dev) (c : TwinChange) (m : DWord) (old : List MirrorObj) : (inDoubt d c m old).twn = d.twn := by
  unfold inDoubt
  rw [setDoubt_twn, noteMirror_twn]
theorem inDoubt_inbox (d : Dev) (c : TwinChange) (m : DWord) (old : List MirrorObj) : (inDoubt d c m old).nv.twin.inbox = d.nv.twin.inbox := by
  unfold inDoubt
  rw [setDoubt_inbox, noteMirror_inbox]
theorem inDoubt_doubt (d : Dev) (c : TwinChange) (m : DWord) (old : List MirrorObj) :
    (inDoubt d c m old).nv.twin.doubt = d.nv.twin.doubt ++ [{ c with m := m, old := old }] := rfl
theorem inDoubt_planSeq (d : Dev) (c : TwinChange) (m : DWord) (old : List MirrorObj) : (inDoubt d c m old).nv.planSeq = d.nv.planSeq := by
  unfold inDoubt
  rw [setDoubt_planSeq, noteMirror_planSeq]

/-- The mirror sequence of a change of the peer: index 0 assigns it. -/
def changeSeq (d : Dev) (c : TwinChange) : DWord := if d.nv.twin.index then c.m else nextMirror d

/-- A change of the peer, applied and held in doubt. -/
def doubted (d : Dev) (c : TwinChange) : Dev := inDoubt (applyObjs d c.objs) c (changeSeq d c) (oldObjs d.nv c.objs)

section
variable {d : Dev} {c : TwinChange} (hjoined : d.twn.state = 4)
include hjoined

theorem applyChange_refused {st : Byte} (hfails : changeFails d c.objs = some st) :
    applyChange d c = twnSendBytes d 0x22 (leBytes 8 c.id.toNat ++ [st]) := by
  unfold applyChange
  rw [hfails]
  exact if_pos (by simp [hjoined])

theorem applyChange_taken (hpasses : changeFails d c.objs = none) :
    applyChange d c = twnSend (doubted d c) 0x21 c.id (changeSeq d c) [] [] := by
  unfold applyChange
  rw [hpasses]
  exact if_pos (by simp [hjoined])

end

theorem doubted_twn (d : Dev) (c : TwinChange) : (doubted d c).twn = d.twn := by
  unfold doubted
  rw [inDoubt_twn, unmirrored_twn (applyObjs_unmirrored d c.objs)]

theorem doubted_inbox (d : Dev) (c : TwinChange) : (doubted d c).nv.twin.inbox = d.nv.twin.inbox := by
  unfold doubted
  rw [inDoubt_inbox, unmirrored_twin (applyObjs_unmirrored d c.objs)]

theorem doubted_doubt (d : Dev) (c : TwinChange) :
    (doubted d c).nv.twin.doubt = d.nv.twin.doubt ++ [{ c with m := changeSeq d c, old := oldObjs d.nv c.objs }] := by
  unfold doubted
  rw [inDoubt_doubt, unmirrored_twin (applyObjs_unmirrored d c.objs)]

theorem applyObjs_planSeq (d : Dev) (q : DWord) : applyObjs d [.planSeq q] = { d with nv := { d.nv with planSeq := q } } := rfl

theorem doubted_planSeq {d : Dev} {c : TwinChange} {q : DWord} (h : c.objs = [.planSeq q]) : (doubted d c).nv.planSeq = q := by
  unfold doubted
  rw [inDoubt_planSeq, h, applyObjs_planSeq]

/-! ### An acknowledged change of the device -/

/-- A sent change that waits for its acknowledgement, with the job that waits for it. -/
structure Waiting (d : Dev) (n : DWord) (c : TwinChange) (j : Job) : Prop where
  found : (d.nv.twin.outbox.find? fun c => c.id == n && c.sent && !c.done) = some c
  ordinary : isCustodyChange c = false
  job : findJob d c.job = some j
  stage : j.stage = .twin
  change : j.change = c.id

section
variable {d : Dev} {n : DWord} {c : TwinChange} {j : Job} (h : Waiting d n c j)
include h

theorem Waiting.number : c.id = n := by
  have hfound := List.find?_some h.found
  simp only [Bool.and_eq_true, beq_iff_eq] at hfound
  exact hfound.1.1

theorem Waiting.sent : c.sent = true := by
  have hfound := List.find?_some h.found
  simp only [Bool.and_eq_true] at hfound
  exact hfound.1.2

theorem Waiting.running : jobEnded j = false := by
  unfold jobEnded
  rw [h.stage]
  rfl

theorem Waiting.waits : changeWaits d c = true := by
  unfold changeWaits
  rw [if_neg (by simp [h.ordinary])]
  exact List.any_eq_true.mpr ⟨j, List.mem_of_find?_eq_some h.job, by simp [id_of_findJob h.job, h.stage, h.change]⟩

end

/-- The change's job ends: with its outcome, in a device whose jobs are as before. -/
theorem changeDone_job {d : Dev} {c : TwinChange} {j : Job} (hordinary : isCustodyChange c = false) (hjob : findJob d c.job = some j)
    (hrunning : jobEnded j = false) : ∃ y, findJob (changeDone d c) c.job = some y ∧ y.stage = .done ∧ y.res = j.res := by
  unfold changeDone
  rw [if_neg (by simp [hordinary]), hjob]
  have hbound : findJob (jobBinds d c.job) c.job = some j := (findJob_congr (by rw [jobBinds_fns]) c.job).trans hjob
  exact ⟨_, findJob_finishJob hbound hrunning j.res, rfl, rfl⟩

theorem finishJob_twn (d : Dev) (job : JobId) (o : OutcomeRec) : (finishJob d job o).twn = d.twn := rfl

theorem changeDone_twn (d : Dev) (c : TwinChange) : (changeDone d c).twn = d.twn := by
  unfold changeDone
  split
  · rfl
  · split
    · rw [finishJob_twn, jobBinds_fns]
    · rfl

theorem noteMirror_jobs (d : Dev) (objs : List MirrorObj) (m : DWord) : (noteMirror d objs m).jobs = d.jobs := rfl

theorem changeCommitted_twn (d : Dev) (c : TwinChange) (m : DWord) : (changeCommitted d c m).twn = d.twn := by
  unfold changeCommitted
  rw [changeDone_twn, noteMirror_twn, unmirrored_twn (applyObjs_unmirrored d c.old)]

theorem changeCommitted_job {d : Dev} {n : DWord} {c : TwinChange} {j : Job} (h : Waiting d n c j) (m : DWord) :
    ∃ y, findJob (changeCommitted d c m) c.job = some y ∧ y.stage = .done ∧ y.res = j.res := by
  have hjobs : (noteMirror (applyObjs d c.old) c.objs m).jobs = d.jobs := by
    rw [noteMirror_jobs, unmirrored_jobs (applyObjs_unmirrored d c.old)]
  exact changeDone_job h.ordinary ((findJob_congr hjobs c.job).trans h.job) h.running

/-- The acknowledgement commits the change, and FINAL goes out. -/
theorem onChangeAck_commits {d : Dev} {n m : DWord} {c : TwinChange} {j : Job} (hlocked : d.bat.locked = false) (hjoined : d.twn.state = 4)
    (h : Waiting d n c j) :
    ∃ m', onChangeAck d n m = twnSend (dropChange (changeCommitted d c m') n) 0x23 n 0 [] [] := by
  refine ⟨if d.nv.twin.index then m else c.m, ?_⟩
  unfold onChangeAck
  rw [h.found]
  dsimp only
  rw [if_neg (by simp [hlocked]), if_pos h.waits, commitChange_eq, if_neg (by simp [h.sent]),
    if_pos (by rw [changeCommitted_twn, hjoined]; rfl), h.number]

theorem not_mem_dropChange {d : Dev} {n : DWord} {x : TwinChange} (h : x ∈ (dropChange d n).nv.twin.outbox) : x.id ≠ n := by
  have hx : x ∈ d.nv.twin.outbox.filter fun c => c.id != n := h
  simpa using (List.mem_filter.mp hx).2

/-- A refusal ends the waiting job with the peer's status. -/
theorem onChangeNak_waiting {d : Dev} {n : DWord} {c : TwinChange} {j : Job} (h : Waiting d n c j) (st : Byte) :
    onChangeNak d n st = finishJob (dropChange d n) c.job (outcome st 0) := by
  unfold onChangeNak
  rw [h.found]
  dsimp only
  rw [if_neg (by simp [h.waits]), if_neg (by simp [h.ordinary])]

/-! ### FINAL and UNDO -/

theorem onFinal_empty {d : Dev} (h : d.nv.twin.inbox = []) (n : DWord) :
    onFinal d n = setDoubt d (d.nv.twin.doubt.filter fun c => c.id != n) := drainInbox_empty (d := setDoubt d _) h

theorem onUndo_undoubted {d : Dev} {n : DWord} (h : ∀ c ∈ d.nv.twin.doubt, c.id ≠ n) :
    onUndo d n = setInbox d (d.nv.twin.inbox.filter fun c => c.id != n) := by
  have hnone : ((setInbox d (d.nv.twin.inbox.filter fun c => c.id != n)).nv.twin.doubt.find? fun c => c.id == n) = none :=
    List.find?_eq_none.mpr fun c hc => by simpa using h c hc
  unfold onUndo
  dsimp only
  rw [hnone]

theorem onUndo_doubted {d : Dev} {n : DWord} {c : TwinChange} (hlocked : d.bat.locked = false) (hinbox : d.nv.twin.inbox = [])
    (hfound : (d.nv.twin.doubt.find? fun c => c.id == n) = some c) : onUndo d n = drainInbox (undoOne d c) := by
  unfold onUndo
  dsimp only
  rw [hinbox, List.filter_nil, setInbox_same hinbox, hfound]
  exact if_neg (by simp [hlocked])

/-- The device with a doubt settled and a plan sequence as it was. -/
def planBack (d : Dev) (n old : DWord) : Dev :=
  setDoubt { d with nv := { d.nv with planSeq := old } } (d.nv.twin.doubt.filter fun x => x.id != n)

/-- A plan sequence in doubt goes back to what it was. -/
theorem undoOne_planSeq {d : Dev} {c : TwinChange} {q old : DWord} (hobjs : c.objs = [.planSeq q]) (hold : c.old = [.planSeq old]) :
    undoOne d c = planBack d c.id old := by
  have hordinary : isCustodyChange c = false := by
    unfold isCustodyChange
    rw [hobjs]
    rfl
  have hcellar (l : List CellarRec) : (l.filter fun r => !([] : List (Word × BitVec 16)).contains (r.img.key, r.img.version)) = l :=
    List.filter_eq_self.mpr fun _ _ => rfl
  have hcopies (l : List CacheEnt) : (l.filter fun e => e.kind == .cellar && ([] : List (Word × BitVec 16)).contains (e.k.key, e.k.version)) = [] :=
    List.filter_eq_nil_iff.mpr fun _ _ => by simp
  unfold undoOne
  dsimp only
  rw [hordinary, hobjs, hold]
  simp only [List.filterMap_cons, List.filterMap_nil, hcellar, hcopies, Bool.false_and, Bool.false_eq_true, if_false, List.foldl_nil,
    applyObjs_planSeq]
  rfl

/-! ### Reservations through the twin (16 R434) -/

theorem onReserve_unlocked {d : Dev} (h : d.bat.locked = false) (j : JournalEntry) :
    onReserve d j = twnSend { d with nv := journalPut d.nv j } 0x31 0 0 [] [j] := if_neg (by simp [h])

theorem reserveSettle_twn (d : Dev) (n : NonceSt) : (reserveSettle d n).twn = d.twn := by
  unfold reserveSettle
  split
  · rfl
  · split <;> rfl

theorem reservePeer_waiting {d : Dev} {j : JournalEntry} {n : NonceSt} (hn : nonceOf d j.record j.twin = some n)
    (hwait : n.wait = some (j.nextFree - 1)) : reservePeer d j = reserveSettle d { n with peerDone := true } := by
  unfold reservePeer
  rw [hn]
  exact if_pos hwait

/-- With its own entry written, the acknowledged block is the account's. -/
theorem nonceOf_reservePeer {d : Dev} {j : JournalEntry} {n : NonceSt} (hn : nonceOf d j.record j.twin = some n)
    (hwait : n.wait = some (j.nextFree - 1)) (hown : n.ownDone = true) :
    nonceOf (reservePeer d j) j.record j.twin = some { n with
      peerDone := true, wait := none, nextFree := j.nextFree - 1 + 1, limit := 65536 * (j.nextFree - 1 + 1),
      next := if n.limit ≤ n.next then 65536 * (j.nextFree - 1) else n.next } := by
  obtain ⟨hrecord, htwin⟩ := nonceOf_spec hn
  have h := nonceOf_reserveSettle (n := { n with peerDone := true }) hwait d
  unfold NonceSt.settled at h
  rw [if_pos (by simp [hown])] at h
  rw [reservePeer_waiting hn hwait]
  exact hrecord ▸ htwin ▸ h

theorem twnSend_nv (d : Dev) (t : Byte) (n m : DWord) (objs : List MirrorObj) (hs : List JournalEntry) :
    (twnSend d t n m objs hs).nv = d.nv := rfl
theorem twnSend_replay (d : Dev) (t : Byte) (n m : DWord) (objs : List MirrorObj) (hs : List JournalEntry) :
    (twnSend d t n m objs hs).twn.replay = d.twn.replay ++ [(d.twn.txSeq, t, .frame d.twn.txSeq t n m objs hs)] := rfl

/-- Settles O55: a change that passes by `applyChange_taken`, the device's own by `onChangeAck_commits`, each after `frameTaken`. -/
theorem twinChanges : Obligations.TwinChanges := by
  unfold Obligations.TwinChanges
  refine ⟨?passes, ?fails, ?low, ?ack, ?nak, ?final, ?undo, ?undoDoubt, ?reserve, ?reserveAck⟩
  case passes =>
    intro s h n m objs hgood hpower hlocked hkeeper hinbox hdoubt hjoined hpasses
    have hfails : changeFails (frameTaken s.dev h) objs = none := (changeFails_congr (d := s.dev) rfl rfl objs).trans hpasses
    have heq := (onChange_first (d := frameTaken s.dev h) hlocked hkeeper hpower hinbox hdoubt n m objs).trans
      (applyChange_taken (d := frameTaken s.dev h) (c := peerChange n m objs) hjoined hfails)
    have htwn := doubted_twn (frameTaken s.dev h) (peerChange n m objs)
    have hreleasing : (doubted (frameTaken s.dev h) (peerChange n m objs)).twn.releasing = (frameTaken s.dev h).twn.releasing := by rw [htwn]
    refine ⟨_, exec_change hpower h n m objs, ⟨rfl, rfl, rfl⟩, changeSeq (frameTaken s.dev h) (peerChange n m objs), rfl, ?_⟩
    rw [withDev_dev, frameIn_good hgood (fun _ => rfl) (by rw [heq]; exact hreleasing), heq]
    rw [twnSend_nv, doubted_inbox, doubted_doubt, twnSend_replay, List.getLast?_concat, htwn, show (frameTaken s.dev h).nv = s.dev.nv from rfl,
      hinbox, hdoubt]
    exact ⟨rfl, rfl, rfl, fun q hq => doubted_planSeq hq⟩
  case fails =>
    intro s h n m objs st hgood hpower hlocked hkeeper hinbox hdoubt hjoined hst
    have hfails : changeFails (frameTaken s.dev h) objs = some st := (changeFails_congr (d := s.dev) rfl rfl objs).trans hst
    have heq := (onChange_first (d := frameTaken s.dev h) hlocked hkeeper hpower hinbox hdoubt n m objs).trans
      (applyChange_refused (d := frameTaken s.dev h) (c := peerChange n m objs) hjoined hfails)
    rw [exec_change hpower, frameIn_good hgood (fun _ => rfl) (by rw [heq]; rfl), heq]
    rfl
  case low => exact fun s h n m objs hpower => exec_change_low hpower h n m objs
  case ack =>
    intro s h n m c j hgood hlocked hjoined hfound hordinary hjob hstage hchange
    have hw : Waiting (frameTaken s.dev h) n c j := ⟨hfound, hordinary, hjob, hstage, hchange⟩
    obtain ⟨m', heq⟩ := onChangeAck_commits (d := frameTaken s.dev h) (m := m) hlocked hjoined hw
    have htwn := changeCommitted_twn (frameTaken s.dev h) c m'
    have hreleasing : (changeCommitted (frameTaken s.dev h) c m').twn.releasing = (frameTaken s.dev h).twn.releasing := by rw [htwn]
    have hseq : (changeCommitted (frameTaken s.dev h) c m').twn.txSeq = s.dev.twn.txSeq := by rw [htwn]; rfl
    obtain ⟨y, hy, hdone, hres⟩ := changeCommitted_job hw m'
    refine ⟨_, exec_changeAck s h n m, ⟨rfl, rfl, rfl⟩, ?_⟩
    rw [withDev_dev, frameIn_good hgood (fun _ => rfl) (by rw [heq]; exact hreleasing), heq]
    refine ⟨⟨y, hy, hdone, hres⟩, fun x hx => not_mem_dropChange hx, ?_⟩
    rw [← hseq]
    exact List.mem_append_right _ List.mem_cons_self
  case nak =>
    intro s h n st c j hgood hfound hordinary hjob hstage hchange
    have hw : Waiting (frameTaken s.dev h) n c j := ⟨hfound, hordinary, hjob, hstage, hchange⟩
    have heq := onChangeNak_waiting hw st
    refine ⟨_, exec_changeNak s h n st, ⟨rfl, rfl, rfl⟩, ?_⟩
    rw [withDev_dev, frameIn_good hgood (fun _ => rfl) (by rw [heq]; rfl), heq]
    exact ⟨⟨_, findJob_finishJob (d := dropChange (frameTaken s.dev h) n) hjob hw.running (outcome st 0), rfl, rfl⟩,
      fun x hx => not_mem_dropChange hx, rfl, rfl⟩
  case final =>
    intro s h n hgood hinbox
    have heq := onFinal_empty (d := frameTaken s.dev h) hinbox n
    rw [exec_final, frameIn_good hgood (fun _ => rfl) (by rw [heq]; rfl), heq]
    rfl
  case undo =>
    intro s h n hgood hdoubt
    have heq := onUndo_undoubted (d := frameTaken s.dev h) hdoubt
    rw [exec_undo, frameIn_good hgood (fun _ => rfl) (by rw [heq]; rfl), heq]
    rfl
  case undoDoubt =>
    intro s h n c q old hgood hlocked hinbox hfound hobjs hold
    have heq := onUndo_doubted (d := frameTaken s.dev h) hlocked hinbox hfound
    rw [undoOne_planSeq hobjs hold, drainInbox_empty (d := planBack (frameTaken s.dev h) c.id old) hinbox] at heq
    have hnumber : c.id = n := by simpa using List.find?_some hfound
    refine ⟨_, exec_undo s h n, ⟨rfl, rfl, rfl⟩, ?_⟩
    rw [withDev_dev, frameIn_good hgood (fun _ => rfl) (by rw [heq]; rfl), heq]
    refine ⟨rfl, fun x hx => ?_, rfl⟩
    have hx' : x ∈ s.dev.nv.twin.doubt.filter fun x => x.id != c.id := hx
    rw [← hnumber]
    simpa using (List.mem_filter.mp hx').2
  case reserve =>
    intro s h j hgood hpower hlocked hle
    have heq := onReserve_unlocked (d := frameTaken s.dev h) hlocked j
    refine ⟨_, exec_reserve hpower h j, ⟨rfl, rfl, rfl⟩, ?_⟩
    rw [withDev_dev, frameIn_good hgood (fun _ => rfl) (by rw [heq]; rfl), heq]
    exact ⟨nextFree_journalPut hle, fun r w hother => nextFree_journalPut_other s.dev.nv j hother, rfl⟩
  case reserveAck =>
    intro s h j n hgood hn hwait hown
    have hn' : nonceOf (frameTaken s.dev h) j.record j.twin = some n := hn
    have heq := reservePeer_waiting hn' hwait
    refine ⟨_, exec_reserveAck s h j, ⟨rfl, rfl, rfl⟩, ?_⟩
    rw [withDev_dev, frameIn_good hgood (fun _ => rfl) (by rw [heq, reserveSettle_twn])]
    refine ⟨?_, ?_, nonceOf_reservePeer hn' hwait hown⟩
    · rw [heq, reserveSettle_nv]
      rfl
    · rw [heq, reserveSettle_jobs]
      rfl

end Sys2Proof.Machine
end

section
/-! PROOFS. A grant command of a PF (16 R427, R428), against the ignored clause of O56. -/

namespace Sys2Proof.Machine

theorem exec_twnCmdGrant {s : State} {ini : Ini} (hsees : hostSees ini twnPage = true) (hawake : asleep s.dev twnPage = none) :
    exec (.twnCmdGrant ini) s = .next (s.withDev (grantCommand (touchPage s.dev twnPage) s.fuse ini)) := by
  have hpage : regAddr twnPage 0x048 / 0x1000 = twnPage := by decide
  rw [exec, execTwnCmdGrant, act, wakeWrite, hpage, hsees, hawake]
  rfl

theorem grantCommand_refused {d : Dev} {f : Fuse} {ini : Ini} (h : (isPf ini.id && ini.priv) = true) {r : Byte}
    (hcheck : checkGrant d f = .inl r) : grantCommand d f ini = { d with twn := { d.twn with grRes := r } } := by
  unfold grantCommand
  rw [if_neg (by simp [h]), hcheck]

theorem checkGrant_magic {d : Dev} (h : slice (grantBytes d.twn) 0 4 ≠ [0x47, 0x4A, 0x54, 0x47]) (f : Fuse) : checkGrant d f = .inl 0x01 := by
  have hbad : (slice (grantBytes d.twn) 0 4 != [0x47, 0x4A, 0x54, 0x47]) = true := bne_iff_ne.mpr h
  unfold checkGrant
  dsimp only
  simp only [hbad, Bool.true_or, if_true]

/-- The buffer of a PF's grant command lacks the magic: the command is not ignored, its result is 0x01. -/
theorem exec_twnCmdGrant_magic {s : State} {ini : Ini} (hpf : (isPf ini.id && ini.priv) = true) (hsees : hostSees ini twnPage = true)
    (hawake : asleep s.dev twnPage = none) (hmagic : slice (grantBytes s.dev.twn) 0 4 ≠ [0x47, 0x4A, 0x54, 0x47]) :
    exec (.twnCmdGrant ini) s = .next (s.withDev { touchPage s.dev twnPage with twn := { s.dev.twn with grRes := 0x01 } }) := by
  have htwn : (touchPage s.dev twnPage).twn = s.dev.twn := by rw [touchPage_only]
  rw [exec_twnCmdGrant hsees hawake, grantCommand_refused hpf (checkGrant_magic (by rwa [htwn]) s.fuse), htwn]

/-- The reset state with the twin's domain ON. -/
def twinPowered : State := State.reset.withDev (modDom State.reset.dev 14 fun x => { x with state := 2 })

/-- A PF. -/
def aPf : Ini := { id := 0, priv := true }

theorem twinPowered_awake : asleep twinPowered.dev twnPage = none := by decide +kernel
theorem twinPowered_magic : slice (grantBytes twinPowered.dev.twn) 0 4 ≠ [0x47, 0x4A, 0x54, 0x47] := by decide +kernel
theorem twinPowered_grRes : (touchPage twinPowered.dev twnPage).twn.grRes = 0 := by
  rw [touchPage_only]
  decide +kernel

/-- Refutes O56: `(isPf ini.id && ini.priv) || isKeeperCore ini.id = false`, the hypothesis of the clause on an ignored grant, reads as
"a privileged PF, or not a keeper core". A privileged PF meets it and its command acts (R427): with the grant buffer empty, TWN_GRRES becomes
0x01, while the clause leaves the device as it was but for its logs. -/
theorem not_twinCommands : ¬ Obligations.TwinCommands := by
  unfold Obligations.TwinCommands
  rintro ⟨-, -, -, -, -, hignored, -⟩
  have hsees : hostSees aPf twnPage = true := by decide
  obtain ⟨t, hexec, -, hsame⟩ := hignored twinPowered aPf (by decide) hsees twinPowered_awake
  rw [exec_twnCmdGrant_magic (by decide) hsees twinPowered_awake twinPowered_magic] at hexec
  have hresult : t.dev.twn.grRes = 0x01 := by rw [← Host.Outcome.next.inj hexec, withDev_dev]
  have hkept : t.dev.twn.grRes = 0 := by rw [unlogged_twn hsame, twinPowered_grRes]
  rw [hkept] at hresult
  exact absurd hresult (by decide)

end Sys2Proof.Machine
end
